-- ==== Sys2Proof/Word.lean ====
section
/-! DEFINITION. The plain word types of the model and the sparse table type (R6, R7). -/

namespace Sys2Proof

/-- A byte. -/
abbrev Byte := BitVec 8

/-- A 32-bit word. -/
abbrev Word := BitVec 32

/-- A 64-bit word. -/
abbrev Dword := BitVec 64

/-- A sparse table: pairs of a key and a value, keys strictly rising.  A key that is not listed
reads as the default that the reader of the table names. -/
abbrev Tab (α : Type) := List (Nat × α)

end Sys2Proof
end

