-- ==== Sys2Proof/Syntax.lean ====
section
/-! DEFINITION. The commands of the block: one constructor of `Instr` per row of
spec/opcode_table.json, with the row's operands, and the types of those operands.  A row that is
an event carries what the event brings to the device (a received header, a measured value); a row
that is a command packet carries its `CmdCtx` and its parameters. -/

namespace Sys2Proof

/-- A physical or logical data port, P0 to P511 (R11, R369). -/
abbrev Port := Fin 512

/-- A 512-bit port mask; bit p names port Pp. -/
abbrev PortMask := BitVec 512

/-- A 24-byte link message of R322, byte 0 in bits [191:184] (R7). -/
abbrev LinkMsg := BitVec 192

/-- The sources of commands (R402): Howlink, MG0 and MG1. -/
inductive Source where
  | howlink | mg0 | mg1
  deriving DecidableEq, Repr

/-- Privilege classes, nested (R410). -/
inductive PrivClass where
  | observer | operator | owner
  deriving DecidableEq, Repr

/-- What the header of a command packet says of one command (R402, R410, R414). -/
structure CmdCtx where
  src : Source
  /-- Howlink agent (R391). -/
  agent : BitVec 4
  /-- Session that carried the command, on MG0 and MG1 (R403). -/
  session : BitVec 8
  seq : Word
  txn : BitVec 16
  noWait : Bool
  /-- FLAGS[7:1], reserved; the reply copies them (R402). -/
  rsvd : BitVec 7 := 0
  deriving DecidableEq, Repr

/-- A command packet as it arrives (R402 to R405), with its bytes. `secured` is false for a packet outside a
secured message. -/
structure Arrival where
  src : Source
  agent : BitVec 4
  session : BitVec 8
  secured : Bool
  packet : List Byte
  deriving DecidableEq, Repr

/-- A frame header, every field of R42, reserved bits included (R44). -/
structure Header where
  ver : BitVec 4
  kind : BitVec 4
  tc : BitVec 3
  ce : Bool
  part : BitVec 12
  hops : BitVec 4
  epoch : BitVec 2
  es : Bool
  r0 : Bool
  job : BitVec 16
  len : BitVec 14
  r1 : BitVec 2
  dst : BitVec 24
  fmt : BitVec 8
  src : BitVec 24
  sub : BitVec 8
  ctx : BitVec 16
  tf : Bool
  r4 : BitVec 15
  seq : Word
  ksf : Dword
  deriving DecidableEq, Repr

/-! ### Entries that commands write -/

/-- A context entry of R196 less its read-only fields. -/
structure CtxEntry where
  level : BitVec 2
  spillOk : Bool
  prio : BitVec 2
  part : BitVec 12
  fmt : BitVec 8
  job : BitVec 16
  op : BitVec 4
  tf : Bool
  wide : Bool
  rnd : Bool
  seed : Word
  cseq : Word
  meanN : BitVec 21
  meanNNext : BitVec 21
  tiers : BitVec 2
  cap : BitVec 14
  window : BitVec 15
  upCredits : BitVec 15
  n2 : BitVec 13
  n3 : BitVec 13
  retryUs : BitVec 16
  abandonUs : BitVec 16
  lingerUs : BitVec 16
  report : BitVec 24
  boundary : Word
  members : PortMask
  membersNext : PortMask
  deriving DecidableEq, Repr

/-- A sheaf entry of R216 less its read-only fields. -/
structure SheafCfg where
  valid : Bool
  level : BitVec 2
  actThresh : Bool
  actMcast : Bool
  dop : BitVec 2
  part : BitVec 12
  job : BitVec 16
  releaseGroup : BitVec 16
  target : BitVec 21
  phase : Word
  up : BitVec 24
  retryUs : BitVec 16
  stuckMs : BitVec 16
  members : PortMask
  deriving DecidableEq, Repr

/-- A Thresh job entry of R249 less its read-only fields. -/
structure ThrJobCfg where
  gate : BitVec 2
  mcl : BitVec 3
  part : BitVec 12
  job : BitVec 16
  voteSheaf : BitVec 13
  voteUp : BitVec 24
  normUp : BitVec 24
  normSheaf : BitVec 13
  lossScale : Word
  clipMax : Word
  phase : Word
  deriving DecidableEq, Repr

/-- The INIT parameter of THR_JOB_SET (R279). -/
inductive ThrInit where
  | inSync | solo | rebuild
  deriving DecidableEq, Repr

/-- A parameter block of R250. -/
structure ThrParam where
  recipe : BitVec 4
  mtype : Bool
  biasCorr : Bool
  jent : BitVec 6
  lr : Word
  beta1 : Word
  beta2 : Word
  eps : Word
  wd : Word
  step : Word
  deriving DecidableEq, Repr

/-- A shard entry of R251 less its read-only fields. -/
structure ThrShardCfg where
  jent : BitVec 6
  param : BitVec 10
  wfmt : BitVec 8
  ctx : BitVec 16
  wgroup : BitVec 16
  cps : BitVec 28
  seqBase : Word
  stateBase : BitVec 52
  mapBase : BitVec 52
  deriving DecidableEq, Repr

/-- A plan entry of R367. -/
structure PlanEntry where
  valid : Bool
  role : BitVec 2
  addr : BitVec 24
  port : BitVec 16
  serial : Dword
  system : Word
  deriving DecidableEq, Repr

/-- Which address of a frame a flow session matches (R125). -/
inductive FlowMatch where
  | src | dst | either
  deriving DecidableEq, Repr

/-- The source of a mirror session (R125). -/
inductive MirrorSrc where
  | ingress (port : BitVec 16)
  | egress (port : BitVec 16)
  | flow (part : BitVec 12) (addr : BitVec 24) (m : FlowMatch)
  deriving DecidableEq, Repr

/-- Region kinds of the near tier (R296). -/
inductive RegionKind where
  | host | spill | linger | park | staging | mlog | map
  deriving DecidableEq, Repr

/-- The key of POLICER_MAP (R155). -/
inductive PolMapKey where
  | portClass (port : BitVec 16) (cls : BitVec 8)
  | partition (part : BitVec 16)
  deriving DecidableEq, Repr

/-- The tables of R66. -/
inductive TableId where
  | route | em | group | part | portset
  deriving DecidableEq, Repr

/-! ### Parameters of the commands a transaction can stage -/

structure PlanSetP where
  port : BitVec 16
  e : PlanEntry
  deriving DecidableEq, Repr
structure PlanGroupP where
  engine : BitVec 8
  autoRemap : Bool
  deriving DecidableEq, Repr
structure PortMapSetP where
  engine : BitVec 8
  phys : List (BitVec 16)
  deriving DecidableEq, Repr
structure OptPortModeP where
  port : BitVec 16
  mode : BitVec 8
  express : Bool
  c : BitVec 8
  deriving DecidableEq, Repr
structure OptCampusFreqP where
  port : BitVec 16
  n : BitVec 8
  deriving DecidableEq, Repr
structure EmInsertP where
  key : BitVec 48
  rtype : BitVec 3
  target : BitVec 12
  static : Bool
  deriving DecidableEq, Repr
structure RouteSetP where
  leaf : BitVec 16
  rtype : BitVec 3
  target : BitVec 12
  deriving DecidableEq, Repr
structure GroupSetP where
  group : BitVec 16
  valid : Bool
  part : BitVec 12
  upEn : Bool
  upSet : BitVec 10
  ports : PortMask
  deriving DecidableEq, Repr
structure PartSetP where
  part : BitVec 16
  valid : Bool
  learnEn : Bool
  ports : PortMask
  deriving DecidableEq, Repr
structure PortsetSetP where
  set : BitVec 16
  ports : PortMask
  deriving DecidableEq, Repr
structure MirrorSetP where
  session : BitVec 8
  enable : Bool
  source : MirrorSrc
  analysis : BitVec 16
  cls : BitVec 8
  deriving DecidableEq, Repr
structure PartReserveP where
  part : BitVec 16
  pmin : Word
  pmax : Word
  deriving DecidableEq, Repr
structure ShaperSetP where
  port : BitVec 16
  cls : BitVec 8
  enable : Bool
  rate : Word
  burst : BitVec 24
  level : BitVec 8
  deriving DecidableEq, Repr
structure GroupShaperSetP where
  group : BitVec 8
  enable : Bool
  rate : Word
  burst : BitVec 24
  ports : PortMask
  classes : BitVec 8
  deriving DecidableEq, Repr
structure PolicerSetP where
  policer : BitVec 16
  enable : Bool
  rate : Word
  burst : BitVec 24
  deriving DecidableEq, Repr
structure PolicerMapP where
  key : PolMapKey
  policer : BitVec 16
  deriving DecidableEq, Repr
structure CtxSetP where
  ctx : BitVec 16
  e : CtxEntry
  deriving DecidableEq, Repr
structure CtxReformP where
  ctx : BitVec 16
  remove : PortMask
  meanN : BitVec 32
  deriving DecidableEq, Repr
structure CtxResizeP where
  ctx : BitVec 16
  membersNext : PortMask
  meanNNext : BitVec 32
  boundary : Word
  deriving DecidableEq, Repr
structure SheafSetP where
  n : BitVec 16
  e : SheafCfg
  deriving DecidableEq, Repr
structure ThrJobSetP where
  j : BitVec 8
  e : ThrJobCfg
  init : ThrInit
  /-- VALID of W0. -/
  valid : Bool := true
  deriving DecidableEq, Repr
structure ThrParamSetP where
  block : BitVec 16
  f : ThrParam
  deriving DecidableEq, Repr
structure ThrShardSetP where
  shard : BitVec 16
  e : ThrShardCfg
  /-- VALID of W0. -/
  valid : Bool := true
  deriving DecidableEq, Repr
structure ThrShardRoleP where
  j : BitVec 8
  /-- true: SOLO; false: REBUILD. -/
  solo : Bool
  deriving DecidableEq, Repr
structure MemRegionSetP where
  region : BitVec 8
  kind : Option RegionKind
  base : Dword
  size : Dword
  deriving DecidableEq, Repr

/-- A command held in a transaction (R413 to R415). -/
inductive Staged where
  | planSet (p : PlanSetP)
  | planGroup (p : PlanGroupP)
  | portMapSet (p : PortMapSetP)
  | optPortMode (p : OptPortModeP)
  | optCampusFreq (p : OptCampusFreqP)
  | emInsert (p : EmInsertP)
  | emDelete (key : BitVec 48)
  | rehash (seed : Word)
  | routeSet (p : RouteSetP)
  | groupSet (p : GroupSetP)
  | partSet (p : PartSetP)
  | portsetSet (p : PortsetSetP)
  | learnPeers (peers : List (BitVec 24))
  | mirrorSet (p : MirrorSetP)
  | partReserve (p : PartReserveP)
  | shaperSet (p : ShaperSetP)
  | groupShaperSet (p : GroupShaperSetP)
  | policerSet (p : PolicerSetP)
  | policerMap (p : PolicerMapP)
  | ctxSet (p : CtxSetP)
  | ctxClose (ctx : BitVec 16)
  | ctxReform (p : CtxReformP)
  | ctxResize (p : CtxResizeP)
  | sheafSet (p : SheafSetP)
  | sheafClose (n : BitVec 16)
  | thrJobSet (p : ThrJobSetP)
  | thrJobClose (j : BitVec 8)
  | thrParamSet (p : ThrParamSetP)
  | thrShardSet (p : ThrShardSetP)
  | thrShardClose (s : BitVec 16)
  | thrShardRole (p : ThrShardRoleP)
  | memRegionSet (p : MemRegionSetP)
  deriving DecidableEq, Repr

/-! ### Operands of immediate commands -/

/-- What SEARCH names (R92): a table with a key or an index. -/
inductive SearchKey where
  | emKey (key : BitVec 48)
  | emIndex (i : Word)
  | route (leaf : BitVec 16)
  | group (g : BitVec 16)
  | part (p : BitVec 16)
  | portset (s : BitVec 16)
  deriving DecidableEq, Repr

/-- A queue named by CNT_QUEUE_READ (R517). -/
inductive QueueName where
  | port (p : BitVec 16) (cls : BitVec 8)
  | cluster (k : BitVec 8) (cls : BitVec 8)
  | agent (cls : BitVec 8)
  deriving DecidableEq, Repr

/-- A laser of a bank (R12): the O-band lasers of the ports 0 to 31, the O-band spares of TXF0 to TXF3 as
32 to 35, the C-band spare as 36 (R355), and the C-band lasers of the sixteen campus ports, in the order
of their ports, as 37 to 52.  DESIGN CHOICE, log entry 44. -/
abbrev LaserIx := Fin 53

/-! ### Operands of events -/

/-- A party that can reach the register window (R391, R529). -/
inductive RegActor where
  | agent (a : Fin 16)
  | sv (n : Fin 4)
  deriving DecidableEq, Repr

/-- The PLLs of GLB_CLK_STATUS (R531). -/
inductive Pll where
  | root | g7 | howlink
  | cxl (e : Fin 4)
  | oe (k : Fin 16)
  deriving DecidableEq, Repr

/-- What Howlink training found (R285, R288). -/
structure HlTraining where
  majorDiffers : Bool
  failedLanes : List (Fin 17)
  deriving DecidableEq, Repr

/-- A modulator ring or a drop ring of a port (R332). -/
inductive Ring where
  | tx | rx
  deriving DecidableEq, Repr

/-- A ring's calibration (R333). -/
structure RingCal where
  port : Port
  ring : Ring
  hcal : BitVec 14
  slope : Int
  deriving DecidableEq, Repr

/-- What the tests of R457 found. -/
structure SelfTestResult where
  svFail : BitVec 4
  /-- Failing store banks: 0 to 1,023 by position, 1,024 + i for spare SBi. -/
  banks : List (Fin 1056)
  rowsRepaired : Nat
  rowsFatal : Nat
  /-- The failing rows, array by array: the array's number in DIAG_INJECT and the row (R500). -/
  rows : List (Nat × Nat) := []
  /-- Failing reduction cores C0 to C67. -/
  cores : List (Fin 68)
  /-- Failing die-to-die halves: the port, and true for lanes 8 to 15. -/
  lanes : List (Port × Bool)
  /-- Failing lasers. -/
  lasers : List (Fin 16 × LaserIx)
  rings : List RingCal
  /-- Ports that fail their modulator's loopback, a ring's calibration or a DAC or ADC level, with true for one that
  still passes at half rate. -/
  optics : List (Port × Bool) := []
  tCal : Int
  /-- Lowest density found, in Gbit. -/
  g7Density : Nat
  /-- Highest rate at which every device passed, in Gbit/s. -/
  g7Rate : Nat
  g7Fatal : Bool
  /-- GDDR7 devices that fail training or their data path. -/
  g7Failed : List (Fin 16) := []
  /-- Pages that self-test moves to spare pages, each by an address in it (R295). -/
  g7Pages : List (BitVec 52)
  deriving DecidableEq, Repr

/-- One expander as the image sets it and enumeration finds it (R299, R300). -/
structure ExpCfg where
  /-- 0 absent, 1 ACTIVE, 2 SPARE (R308). -/
  role : BitVec 3
  capGib : BitVec 11
  rate : BitVec 8
  width : BitVec 8
  /-- Level of CX_PRSNT_N: low where an expander is fitted (R545). -/
  prsntN : Bool := false
  deriving DecidableEq, Repr

/-- One port mode of the image (R330, R466). -/
structure PortModeCfg where
  port : Port
  mode : BitVec 3
  express : Bool
  c : BitVec 3
  cfreq : BitVec 7
  deriving DecidableEq, Repr

/-- A parsed configuration of an image (R466). The bytes' own format is not in the spec. -/
structure BootCfg where
  role : BitVec 2
  fwMajor : Byte
  fwMinor : Byte
  system : Word
  chassis : BitVec 16
  slot : Byte
  /-- The device's REDUCE service address (R364). -/
  addr : BitVec 24
  g7Density : Nat
  g7Rate : Nat
  expanders : List ExpCfg
  portModes : List PortModeCfg
  laserRefs : List (Fin 16 × LaserIx × BitVec 16)
  plan : List (Port × PlanEntry)
  autoRemap : BitVec 16
  requesters : List (BitVec 256 × PrivClass)
  hlOwner : Bool
  mgMode0 : BitVec 2
  mgMode1 : BitVec 2
  mgMac0 : BitVec 48
  mgMac1 : BitVec 48
  regs : List (Nat × Nat × Dword)
  staged : List Staged
  deriving DecidableEq, Repr

/-- A coherent access of the companion (R286, R290). -/
structure MemAccess where
  write : Bool
  addr : BitVec 52
  len : Nat
  data : List Byte
  /-- The companion asks to cache the line. -/
  cache : Bool
  deriving DecidableEq, Repr

/-- A 257-bit block whose header bit marks it a control block, as a port's receiver has it (R322). -/
structure ArrivedBlock where
  p : Port
  body : BitVec 256
  deriving DecidableEq, Repr

/-- What a ring's detector measures over a 1 ms window (R336): the level of each of the sixteen tones G0 to
G15, the noise floor, and the received power, which the drop ring's rule uses; all signed, in 1/256 dBm. -/
structure ToneWindow where
  tones : List (BitVec 16)
  floor : BitVec 16
  power : BitVec 16
  deriving DecidableEq, Repr

/-- What a management link receives (R383, R384). -/
inductive MgRx where
  /-- A GLM packet: header fields, payload, received CRC, and whether /T/ follows the CRC. -/
  | glm (typ seg : Byte) (len : BitVec 16) (rsvd : Word) (payload : List Byte) (crc : Word)
      (endOk : Bool)
  /-- An Ethernet frame whose frame check passed. -/
  | eth (dst : BitVec 48) (etherType : BitVec 16) (tagged : Bool) (payload : List Byte)
  deriving DecidableEq, Repr

/-- A PTP message on a management link, as its measurement comes to the servo (R437, R439):
the link, the domain number, the offset of the domain from the time base in 2^-16 ns, and whether
the message is of a kind that R439 supports. -/
structure PtpMeas where
  link : Fin 2
  domain : Byte
  offset : Int
  supported : Bool
  deriving DecidableEq, Repr

/-- What an SPDM request says of its path (R468). -/
structure SpdmCtx where
  link : Fin 2
  /-- The session that carries it; 0 outside a session. -/
  session : BitVec 8
  /-- The certificate slot that a KEY_EXCHANGE or GET_MEASUREMENTS names. -/
  slot : BitVec 8 := 0
  /-- The code of a request outside the twelve of R468, whatever else the row says. -/
  other : Option (BitVec 8) := none
  deriving DecidableEq, Repr

/-- The configuration of one link in PTP_SET (R450). -/
inductive PtpMode where
  | off | ordinary | boundary
  deriving DecidableEq, Repr

/-- Kinds of fault that make a bank failing (R131). -/
inductive BankCause where
  | uncorrectable | corrLimit
  deriving DecidableEq, Repr

/-- Pattern of PORT_PRBS (R376). -/
inductive PrbsPattern where
  | none | prbs31 | prbs13
  deriving DecidableEq, Repr

/-- What a core was doing when its check failed (R485): a chunk's contribution or encoding, or the
Thresh update of a chunk. -/
inductive CoreWork where
  | idle
  | chunk (ctx : BitVec 16) (seq : Word)
  | update (ctx : BitVec 16) (seq : Word)
  /-- A word of core SRAM fails its code: the row, and the chunk whose operands it held (R484, R487). -/
  | sram (row : BitVec 16) (ctx : BitVec 16) (seq : Word)
  deriving DecidableEq, Repr

/-- The commands and events of the block, one constructor per row of the opcode table.
DESIGN CHOICE, log entry 43. -/
inductive Instr where
  -- power, reset and boot
  | powerOnComplete (bootSrc : BitVec 2)
  | howlinkTrainingComplete (r : HlTraining)
  | selfTestComplete (r : SelfTestResult)
  | flashImageReadComplete (bytes : List Byte)
  | imageCheckComplete (cfg : Option BootCfg)
  | pllLockLoss (p : Pll)
  | thermalSensorScan (temps : List Int)
  -- commands and transactions
  | commandArrival (a : Arrival)
  | devInfo (c : CmdCtx)
  | devState (c : CmdCtx)
  | devReset (c : CmdCtx) (delayUs : Word)
  | devRole (c : CmdCtx) (role : Option (BitVec 2))
  | devAdmit (c : CmdCtx)
  | devEventMask (c : CmdCtx) (dest : Byte) (mask : BitVec 16)
  | devNop (c : CmdCtx) (bytes : List Byte)
  | begin_ (c : CmdCtx) (scope idleS drainMs : BitVec 16)
  | commit (c : CmdCtx)
  | rollback (c : CmdCtx)
  | txnStatus (c : CmdCtx) (who : Option Source)
  | transactionIdleExpiry (src : Source)
  | drainWaitTimeout (src : Source) (txn : BitVec 16)
  | enableDrainEnd (p : Port)
  | enableWaitTimeout (p : Port)
  | planSet (c : CmdCtx) (p : PlanSetP)
  | planRead (c : CmdCtx) (port : BitVec 16)
  | planGroup (c : CmdCtx) (p : PlanGroupP)
  | portMapSet (c : CmdCtx) (p : PortMapSetP)
  | portMapRead (c : CmdCtx) (engine : Byte)
  | portRestart (c : CmdCtx) (port : BitVec 16) (immediate : Bool)
  | portPrbs (c : CmdCtx) (port : BitVec 16) (pat : PrbsPattern)
  | portRead (c : CmdCtx) (port : BitVec 16)
  | optPortMode (c : CmdCtx) (p : OptPortModeP)
  | optBandSet (c : CmdCtx) (engine : Byte) (terminate : Bool)
  | bandSwitchSettled (e : Fin 16)
  | optCampusFreq (c : CmdCtx) (p : OptCampusFreqP)
  | optRead (c : CmdCtx) (engine : Byte)
  | optLaserRef (c : CmdCtx) (engine laser : Byte) (value : Option (BitVec 16))
  | optSwap (c : CmdCtx) (port : BitVec 16)
  | optRelock (c : CmdCtx) (port : BitVec 16)
  | optLightRead (c : CmdCtx) (engine : Byte)
  | search (c : CmdCtx) (k : SearchKey)
  | nextWalk (c : CmdCtx) (table : TableId) (cursor : Word) (part : BitVec 16) (count : BitVec 16)
  | flushByPort (c : CmdCtx) (port part : BitVec 16)
  | emInsert (c : CmdCtx) (p : EmInsertP)
  | emDelete (c : CmdCtx) (key : BitVec 48)
  | rehash (c : CmdCtx) (seed : Word)
  | routeSet (c : CmdCtx) (p : RouteSetP)
  | groupSet (c : CmdCtx) (p : GroupSetP)
  | partSet (c : CmdCtx) (p : PartSetP)
  | portsetSet (c : CmdCtx) (p : PortsetSetP)
  | learnPeers (c : CmdCtx) (peers : List (BitVec 24))
  | mirrorSet (c : CmdCtx) (p : MirrorSetP)
  | partReserve (c : CmdCtx) (p : PartReserveP)
  | shaperSet (c : CmdCtx) (p : ShaperSetP)
  | groupShaperSet (c : CmdCtx) (p : GroupShaperSetP)
  | policerSet (c : CmdCtx) (p : PolicerSetP)
  | policerMap (c : CmdCtx) (p : PolicerMapP)
  | policerRead (c : CmdCtx) (policer : BitVec 16)
  | ctxSet (c : CmdCtx) (p : CtxSetP)
  | ctxClose (c : CmdCtx) (ctx : BitVec 16)
  | ctxReform (c : CmdCtx) (p : CtxReformP)
  | ctxResize (c : CmdCtx) (p : CtxResizeP)
  | ctxRead (c : CmdCtx) (ctx : BitVec 16)
  | sheafSet (c : CmdCtx) (p : SheafSetP)
  | sheafRead (c : CmdCtx) (n : BitVec 16)
  | sheafClose (c : CmdCtx) (n : BitVec 16)
  | thrJobSet (c : CmdCtx) (p : ThrJobSetP)
  | thrJobClose (c : CmdCtx) (j : Byte)
  | thrParamSet (c : CmdCtx) (p : ThrParamSetP)
  | thrShardSet (c : CmdCtx) (p : ThrShardSetP)
  | thrShardClose (c : CmdCtx) (s : BitVec 16)
  | thrShardRole (c : CmdCtx) (p : ThrShardRoleP)
  | thrRead (c : CmdCtx) (isShard : Bool) (ix : BitVec 16)
  | thrMapRead (c : CmdCtx) (shard : BitVec 16) (first : Word) (count : BitVec 16)
  | memRegionSet (c : CmdCtx) (p : MemRegionSetP)
  | memRegionRead (c : CmdCtx)
  | memPageRetire (c : CmdCtx) (addr : Dword)
  | memPageList (c : CmdCtx) (first count : BitVec 16)
  | memExpSwap (c : CmdCtx) (port : Byte)
  | memSlotRestored (c : CmdCtx) (shard : BitVec 16) (j phase : Word)
  | memStatus (c : CmdCtx)
  | timeRead (c : CmdCtx)
  | timeStep (c : CmdCtx) (sec : BitVec 48) (ns : Word) (force : Bool)
  | timeAdjust (c : CmdCtx) (offset : Dword)
  | timeRateSet (c : CmdCtx) (rate : BitVec 40)
  | ptpSet (c : CmdCtx) (l0 l1 : PtpMode) (domA domB : Byte) (autoSwitch : Bool)
  | ptpDomainSelect (c : CmdCtx) (b : Bool)
  | launchRead (c : CmdCtx) (port : BitVec 16)
  | cntQueueRead (c : CmdCtx) (q : QueueName)
  | cntPartRead (c : CmdCtx) (part : BitVec 16)
  | gleanSet (c : CmdCtx) (ctl : Word) (filt : Dword)
  | gleanArm (c : CmdCtx) (arm : Bool)
  | gleanRead (c : CmdCtx) (first : Word) (count : BitVec 16)
  | cntPevSet (c : CmdCtx) (n : Byte) (level : Bool) (event : Byte) (index : BitVec 16)
  | secRead (c : CmdCtx)
  | imageLoad (c : CmdCtx) (offset : Word) (last : Bool) (bytes : List Byte)
  | secOwnerEnroll (c : CmdCtx) (hash : BitVec 256)
  | secOwnerRevoke (c : CmdCtx) (slot : Byte)
  | secRollbackSet (c : CmdCtx) (value : Byte)
  | secCertRead (c : CmdCtx) (alias_ : Bool) (offset count : BitVec 16)
  | diagFaultRead (c : CmdCtx) (first : Word) (count : BitVec 16)
  | diagSpareRead (c : CmdCtx)
  | diagSelftestRead (c : CmdCtx) (item : Byte)
  | diagEolRead (c : CmdCtx)
  | diagSpareForce (c : CmdCtx) (isBank : Bool) (ix : BitVec 16)
  | diagInject (c : CmdCtx) (array : Byte) (index : Word) (word : BitVec 16) (two : Bool)
  -- SPDM requests
  | getVersion (s : SpdmCtx)
  | getCapabilities (s : SpdmCtx)
  | negotiateAlgorithms (s : SpdmCtx) (p256 sha256 ecdhe aesGcm : Bool)
  | getDigests (s : SpdmCtx)
  | getCertificate (s : SpdmCtx) (slot : Byte) (offset len : BitVec 16)
  | challenge (s : SpdmCtx) (slot : Byte) (nonce : BitVec 256)
  | getMeasurements (s : SpdmCtx) (index : Byte) (signed : Bool) (nonce : BitVec 256)
  | keyExchange (s : SpdmCtx) (random : BitVec 256) (point : BitVec 512)
  | finish (s : SpdmCtx) (key : BitVec 512) (verified : Bool)
  | heartbeat (s : SpdmCtx)
  | keyUpdate (s : SpdmCtx) (op : Byte)
  | endSession (s : SpdmCtx)
  -- register accesses
  | registerWrite (a : RegActor) (off : Nat) (width : Nat) (val : Dword)
  | mbxH2dPostWrite (a : RegActor) (n : Fin 16) (w : Word)
  | mbxD2hPostWrite (a : RegActor) (n : Fin 16) (w : Word)
  | mbxH2dPopRead (a : RegActor) (n : Fin 16)
  | mbxD2hPopRead (a : RegActor) (n : Fin 16)
  | mbxLockRead (a : RegActor) (n : Fin 16)
  | mbxLockWrite (a : RegActor) (n : Fin 16) (w : Word)
  | mbxLockBreakWrite (a : RegActor) (w : Word)
  | timeNowNsRead (a : RegActor)
  | timePpsInNsRead (a : RegActor)
  | glbIntStatusWrite (a : RegActor) (v : Dword)
  | glbIntMaskWrite (a : RegActor) (v : Dword)
  | glbIntTestWrite (a : RegActor) (v : Dword)
  | glbTxrTailWrite (a : RegActor) (n : Fin 4) (v : Word)
  | glbRxrTailWrite (a : RegActor) (v : Word)
  | glbRingCtlWrite (a : RegActor) (ring : Fin 5) (v : Word)
  | portLoopCtlWrite (a : RegActor) (p : Port) (v : Word)
  | cntPevSelWrite (a : RegActor) (n : Fin 64) (v : Word)
  | cntBwCtlWrite (a : RegActor) (v : Word)
  | portBwPeakRead (a : RegActor) (p : Port) (tx : Bool)
  | mglCtlWrite (a : RegActor) (m : Fin 2) (v : Word)
  | storeClassCfgWrite (a : RegActor) (c : Fin 8) (v : Word)
  | storeResLimitWrite (a : RegActor) (v : Word)
  | fwdAgeCtlWrite (a : RegActor) (v : Word)
  -- frames
  | frameHeaderTaken (p : Port) (h : Header)
  | ingressOverrun (p : Port)
  | tableEntryRewrite (k : Fin 16) (t : TableId) (index : Nat)
  | frameTailReceived (p : Port) (payload : List Byte) (e2e link : Word)
  | copySelected (p : Port)
  | copySent (p : Port)
  | congestionNoticeReceived (k : Fin 16)
  | learnQueueDrain (k : Fin 16)
  | learnFrameReceived (k : Fin 16)
  | bankReplacementStart (b : Fin 1024) (cause : BankCause)
  -- collectives
  | contributionServed (k tc : Fin 8)
  | resultNackReceived (k tc : Fin 8)
  | nackReceived (k tc : Fin 8)
  | resultNotice (k : Fin 8)
  | weightReqReceived (k tc : Fin 8)
  | gatherTimerExpiry (ctx : BitVec 16) (seq : Word)
  | retryTimerExpiry (ctx : BitVec 16) (seq : Word)
  | creditReturn (ctx : BitVec 16) (seq : Word)
  | partnerCreditFree (ctx : BitVec 16) (seq : Word)
  | lingerExpiry (ctx : BitVec 16) (seq : Word)
  | resizeBoundaryReached (ctx : BitVec 16)
  | contextDrainEnd (ctx : BitVec 16)
  | sheafArrival (k tc : Fin 8)
  | sheafReleasePassing (k : Fin 8)
  | sheafRetryExpiry (n : Fin 8192)
  | sheafStuck (n : Fin 8192)
  | coreCheckFailure (k q : Fin 8) (work : CoreWork) (replayOk : Bool)
  | coreRetestComplete (k q : Fin 8) (pass : Bool)
  | spareIdleTest (s : Fin 4) (pass : Bool)
  -- Thresh
  | chunkMapBuilt (shard : Fin 16384)
  | threshArrivalRepeat (j : Fin 64)
  | stagingReady (k : Fin 8)
  | parkSpaceFreed (ctx : BitVec 16) (seq : Word)
  | mirrorStateReceived (k tc : Fin 8)
  | mirrorAckReceived (k tc : Fin 8)
  | mirrorCommitReceived (k tc : Fin 8)
  | mirrorNoteReceived (k tc : Fin 8)
  | mirrorRebuildReqReceived (k tc : Fin 8)
  | mirrorRebuildEndReceived (k tc : Fin 8)
  | mirrorOutOfOrder (k tc : Fin 8)
  | mirrorRtoExpiry (j : Fin 64)
  | mirrorAckInterval (j : Fin 64)
  | mirrorDeadExpiry (j : Fin 64)
  | bulkCopySlot (j : Fin 64)
  -- Howlink and the memory tiers
  | howlinkMemAccess (m : MemAccess)
  | howlinkLaneFailure (lane : Fin 17)
  | nearTierUncorrectableRead (addr : BitVec 52)
  | expanderCorrLimit (e : Fin 4)
  | expanderLoss (e : Fin 4)
  | txDescriptorTaken (n : Fin 4) (desc bytes : List Byte)
  | agentFrameDelivery (tc : Fin 8) (desc : List Byte)
  | launchRelease (p : Port)
  -- light
  | heaterLoopUpdate (p : Port) (ring : Ring) (monitor : BitVec 16)
  | toneWindow (p : Port) (ring : Ring) (w : ToneWindow)
  | sweepEndNoLock (p : Port) (ring : Ring)
  | lockFailureClearTimer (p : Port) (ring : Ring)
  | laserReading1ms (e : Fin 16) (l : LaserIx) (reading : BitVec 16)
  | laserReading10us (e : Fin 16) (l : LaserIx) (reading : BitVec 16) (driveFault : Bool)
  | spareTuned (e : Fin 16)
  | spareTuneTimeout (e : Fin 16)
  | swapReqResend (e : Fin 16)
  | swapReqReceived (p : Port) (token : Byte) (both : Bool)
  | swapAckReceived (p : Port) (token : Byte)
  | swapNow (e : Fin 16)
  | swapNowReceived (p : Port) (token : Byte)
  | swapNakReceived (p : Port) (token : Byte)
  | swapDone (p : Port)
  | swapDoneReceived (p : Port) (token : Byte)
  | swapPauseTimeout (e : Fin 16) (spareOk oldOk : Bool)
  | partnerSwapHoldExpiry (p : Port)
  | rateDownReceived (p : Port)
  -- link bring-up
  | lightDetected (p : Port)
  | absentTimeout (p : Port)
  /-- The first copy of the status word and the other two, the PRBS13 bits compared, and their errors (R361). -/
  | trainingFrameReceived (p : Port) (c0 : BitVec 16) (more : BitVec 16 × BitVec 16) (bits errs : Nat)
  | trainTimeout (p : Port)
  | lockAchieved (p : Port)
  | lockTimeout (p : Port)
  | exchPairReceived (p : Port) (id feat : LinkMsg)
  | exchAckReceived (p : Port) (round : Byte)
  | exchRepeatTimer (p : Port)
  | exchangeTimeout (p : Port)
  | linkDownReceived (p : Port)
  | lossOfSignal (p : Port)
  | lossOfLock (p : Port)
  | uncorrectableCodeword (p : Port)
  | portQueuesEmpty (p : Port)
  | drainTimeLimit (p : Port)
  | prbsRelock (p : Port)
  -- management links
  | mgSignalDetect (m : Fin 2)
  | mgStageTimeout (m : Fin 2)
  | mgExchPacket (m : Fin 2) (payload : List Byte)
  | mgPacketReceived (m : Fin 2) (r : MgRx)
  | mgKeepSend (m : Fin 2)
  | mgKeepTimeout (m : Fin 2)
  | mgLossOfSignal (m : Fin 2)
  -- time
  | ptpSyncReceived (r : PtpMeas)
  | syncTimeout (b : Bool)
  | ptpEventFrameEgress (p : Port)
  | progressWatchTimeout (sv : Fin 4)
  | syncBlockReceived (b : ArrivedBlock)
  | pageCorrLimit (addr : BitVec 52)
  | trainingFrameSent (p : Port)
  | tckEdge (trstN rising tms tdi : Bool)
  -- five rows of the sections above, and then every row without operands: the order is no part of the meaning,
  -- and Lean's compiler cannot build a constructor that has operands past the 245th
  | mgSyncLoss (m : Fin 2)
  | mgAnRestart (m : Fin 2)
  | ptpSyncSend (m : Fin 2)
  | mgExchRepeat (m : Fin 2)
  | snoopResponse (line : BitVec 52)
  | resetNAssert
  | resetNRelease
  | howlinkResetMessage
  | devResetDelayExpiry
  | internalResetRelease
  | railOutOfRegulation
  | bootApplyComplete
  | refclkLoss
  | ppsInEdge
  | secondsCarry
  | ppsWidthEnd
  | fuseBlowTick
  | commitReady
  | commitFlip
  | headScan
  | tokenRefill
  | decayTick
  | learnRingApply
  | sweeperVisit
  | epochDrainEnd
  | replayEnd
  | bankRetire
  | setupHeadServed
  | setupStall
  | threshReleasePosted
  | howlinkLinkDown
  | howlinkLinkUp
  | pageCopyComplete
  | expanderCopyComplete
  | bwWindowEnd
  | heartbeatTick
  | refclkReturn
  | spareExpanderLoss
  deriving DecidableEq, Repr

end Sys2Proof
end

