-- ==== Sys2Proof/Decode.lean ====
section
/-! DEFINITION. The command that a word spells.  No row of spec/opcode_table.json gives bits: the
block takes its commands whole, so no word spells one. -/

namespace Sys2Proof

/-- The command that a word of `nbits` bits spells by the bits of the opcode table: none, because
the table gives no row any bits. -/
def decodeTableWord (_nbits _w : Nat) : Option Instr := none

end Sys2Proof
end

