-- ==== Sys2Proof/Machine/State.lean ====
section
/-! DEFINITION. The state of the block as plain data, its reset value, and the reasons a step can
stop.  Registers that are written through the window stand in `regs`, counters in `ctrs`, both by
window offset (R527); everything else stands in the structure of its block.  Sets of like things
are sparse tables whose unlisted keys read as the reset value. -/

namespace Sys2Proof

/-- Attributes of a chunk's arithmetic (R160): the format, the operation, rotated blocks, wide pairs,
stochastic rounding with its seed, and the mean divisor. -/
structure Arith where
  fmt : Nat
  op : Nat
  tf : Bool
  wide : Bool
  rnd : Bool
  seed : Word
  meanN : Nat
  deriving DecidableEq, Repr

/-- An element of an accumulator: FP32 in the low half, the pair (hi, lo) of R169 or a 64-bit integer,
and whether a contribution reached it (R197). -/
structure AccEl where
  v : Dword
  hit : Bool
  deriving DecidableEq, Repr

end Sys2Proof

namespace Sys2Proof.Machine

/-- Why the machine stops with a fault. -/
inductive Fault where
  /-- Raised by RAIL_OUT_OF_REGULATION while RESET_N is high: R474 calls the device's behaviour
  undefined.  Safe: no later state is claimed. -/
  | railUndefined
  deriving DecidableEq, Repr

/-- Why the machine refuses a command. -/
inductive Refusal where
  /-- Raised by the dispatch for a command that has no meaning yet, with its mnemonic.  Safe. -/
  | notModelled (mnemonic : String)
  deriving DecidableEq, Repr

/-! ### Power, boot, fuses, clocks -/

/-- The device states of R454. -/
inductive DevState where
  | powerOn | selfTest | safeTalk | boot | ready | run
  deriving DecidableEq, Repr

/-- One item of self-test with its results (R457, R500): the counts of REPAIRED, DEGRADED and
FATAL results, and the failed units. -/
structure ItemRes where
  repaired : Nat := 0
  degraded : Nat := 0
  fatal : Nat := 0
  units : List Nat := []
  deriving DecidableEq, Repr

/-- State, boot and identity. -/
structure Boot where
  st : DevState := .powerOn
  /-- Whole-chip reset holds the device (R470). -/
  inReset : Bool := false
  /-- Level of the RESET_N pin. -/
  resetN : Bool := true
  /-- DESIGN CHOICE, log entry 6. -/
  bootSrc : BitVec 2 := 0
  cause : BitVec 4 := 0
  reject : BitVec 4 := 0
  imgSlot : Bool := false
  imgOk : Bool := false
  svn : Byte := 0
  /-- The source that holds the image buffer (R462). -/
  imgSource : Option Source := none
  /-- Image bytes loaded, by offset. -/
  image : Tab Byte := []
  imgLast : Bool := false
  /-- An image is present and its checks run (BOOT). -/
  cfg : Option BootCfg := none
  /-- DESIGN CHOICE, log entry 6. -/
  fwHash : BitVec 256 := 0
  cfgHash : BitVec 256 := 0
  ownerKeyHash : BitVec 256 := 0
  /-- The alias key, derived at each BOOT (R469).  DESIGN CHOICE, log entry 6. -/
  aliasKey : BitVec 256 := 0
  role : BitVec 2 := 0
  cfgValid : Bool := false
  /-- Role given by DEV_ROLE in SAFE_TALK (R412). -/
  roleOverride : Option (BitVec 2) := none
  hlOwner : Bool := false
  fwMajor : Byte := 0
  fwMinor : Byte := 0
  system : Word := 0
  chassis : BitVec 16 := 0
  slot : Byte := 0
  addr : BitVec 24 := 0
  requesters : List (BitVec 256 × PrivClass) := []
  /-- Core clock at which a pending DEV_RESET acts (R412). -/
  resetAt : Option Nat := none
  heartbeat : Word := 0
  /-- Supervisor cores that have stopped (R489). -/
  svStopped : BitVec 4 := 0
  svFail : BitVec 4 := 0
  /-- The value that SEC_ROLLBACK_SET blows fuses towards (R465). -/
  rollTarget : Nat := 0
  /-- The owner slot whose fuses are being blown: its VALID fuse is the last of them (R464, R476).
  DEDUCED, log entry 119. -/
  enrolling : Option Nat := none
  testDone : Bool := false
  items : Tab ItemRes := []
  deriving DecidableEq, Repr

/-- What whole-chip reset keeps besides board memory (R472). -/
structure Fuses where
  /-- DESIGN CHOICE, log entry 7. -/
  serial : Dword := 0
  /-- The unique device secret (R469).  DESIGN CHOICE, log entry 7. -/
  secret : BitVec 256 := 0
  /-- The four owner slots: state (0 EMPTY, 1 VALID, 2 REVOKED, 3 FAILED) and key hash (R464).
  DESIGN CHOICE, log entry 7. -/
  owner0 : BitVec 2 × BitVec 256 := (0, 0)
  owner1 : BitVec 2 × BitVec 256 := (0, 0)
  owner2 : BitVec 2 × BitVec 256 := (0, 0)
  owner3 : BitVec 2 × BitVec 256 := (0, 0)
  rollback : Nat := 0
  /-- Band switches: bit k is 1 while OEk is in TERMINATE (R312). -/
  band : BitVec 16 := 0xFFFF#16
  deriving DecidableEq, Repr

/-- Clocks, pins and the boundary-scan controller. -/
structure Clk where
  refLost : Bool := false
  /-- The lock bits of GLB_CLK_STATUS at their register places (R531).  DESIGN CHOICE, log entry 8. -/
  locks : Dword := 0
  /-- The sixteen sensors' last readings in °C (R544).  DESIGN CHOICE, log entry 8. -/
  temps : List Int := []
  /-- THERM_N pulled low (R544). -/
  thermLow : Bool := false
  /-- CX_PERST_N[3:0], 0 is asserted (R545). -/
  cxPerst : BitVec 4 := 0
  /-- CX_PRSNT_N[3:0] as enumeration reads it, 1 where no expander is fitted (R545).  DESIGN CHOICE, log entry 8. -/
  cxPrsntN : BitVec 4 := 0xF
  /-- FL_CS_N: low during a read of the boot flash only (R546). -/
  flCsN : Bool := true
  /-- State number of the IEEE 1149.1 controller, 0 is Test-Logic-Reset. -/
  tap : BitVec 4 := 0
  tapIr : Byte := 0
  tapDr : Dword := 0
  tdo : Bool := false
  /-- What the boundary register drives onto the signal lands, while an instruction has it drive them (R545). -/
  lands : Option Dword := none
  deriving DecidableEq, Repr

/-! ### Time -/

/-- One PTP domain (R440). -/
structure Domain where
  num : Byte
  /-- 0 no master, 1 measuring, 2 within LOCK_NS. -/
  st : BitVec 2 := 0
  /-- Offset from the time base in 2^-16 ns. -/
  offset : Int := 0
  deriving DecidableEq, Repr

/-- States of the time base (R438). -/
inductive TimeState where
  | unset | acquiring | locked | holdover
  deriving DecidableEq, Repr

/-- The time base, its steering and the pulse pins (R431 to R448). -/
structure TimeBase where
  sec : BitVec 48 := 0
  ns : Nat := 0
  /-- Fraction of a nanosecond in 2^-32 ns. -/
  frac : Nat := 0
  /-- Rate offset in 2^-16 ppb, without slew. -/
  rate : Int := 0
  /-- What is left of the slew, in 2^-32 ns. -/
  slewLeft : Int := 0
  st : TimeState := .unset
  stepped : Bool := false
  /-- Consecutive servo measurements within LOCK_NS. -/
  lockRun : Nat := 0
  /-- A step happened and no TIME_ADJUST followed yet (R438). -/
  hostFresh : Bool := false
  selB : Bool := false
  domA : Domain := { num := 0 }
  domB : Domain := { num := 1 }
  /-- DESIGN CHOICE, log entry 10. -/
  mode0 : PtpMode := .off
  mode1 : PtpMode := .off
  /-- PTP state of each link's port: 0 passive, 1 slave, 2 master (R439). -/
  ptp0 : BitVec 2 := 0
  ptp1 : BitVec 2 := 0
  /-- DESIGN CHOICE, log entry 10. -/
  ptpSeq0 : BitVec 16 := 0
  ptpSeq1 : BitVec 16 := 0
  ppsOut : Bool := false
  ppsInSec : BitVec 48 := 0
  ppsInNs : Nat := 0
  /-- Core clocks of the last TIME_PPS_IN event, and of the servo's last TIME_JUMP_REFUSED. -/
  ppsEvtAt : Option Nat := none
  jumpEvtAt : Option Nat := none
  /-- Core clock of the last step by TIME_STEP (R449). -/
  stepAt : Option Nat := none
  /-- Latched seconds by party number (R434). -/
  latchNow : Tab (BitVec 48) := []
  latchPps : Tab (BitVec 48) := []
  deriving DecidableEq, Repr

/-! ### Events, replies and what the device sends -/

/-- Status codes of R409. -/
inductive Status where
  | ok | busy | noSpace | conflict | notFound | badParam | denied | rehashNeeded | deferred
  | incompatible | lost | timeout | internal
  deriving DecidableEq, Repr

/-- The result of a reply (R402): nothing, CLAIMED of R415, the failing command of R421, the flip of
R423, the fields of the reply in the order in which the command table lists them, or bytes. -/
inductive Res where
  | empty
  | claimed (b : Bool)
  | failed (index : Nat) (opcode : Nat)
  | flip (epoch : BitVec 2) (sec : BitVec 48) (nsHigh : BitVec 16)
  | fields (l : List Nat)
  | bytes (l : List Byte)
  deriving DecidableEq, Repr

/-- A fault record of R481. -/
structure FaultRec where
  fseq : Word
  sec : BitVec 48
  ns : Nat
  cls : Nat
  unit_ : Nat
  index : Nat
  sub : Nat
  action : Nat
  left : Nat
  detail : Nat
  deriving DecidableEq, Repr

/-- Event packets with their fields (R429, R451, R478, R501, R518). -/
inductive Ev where
  | refclkLost
  | txnDone (src : Source) (seq : Word) (txn : BitVec 16) (st : Status) (ns : Nat) (res : Res)
  | txnAborted (src : Source) (txn : BitVec 16) (cause : Nat)
  | opDone (src : Source) (seq : Word) (opcode : Nat) (st : Status)
  | mgUp (link : Nat) (id : LinkMsg)
  | mgDown (link lastExit : Nat)
  | lockBroken (mask : BitVec 16) (owners : List Byte)
  | portUp (logical physical : Nat) (feat : BitVec 4) (id : LinkMsg)
  | portDown (logical physical lastExit reason : Nat)
  | portPlan (logical physical state : Nat) (id : LinkMsg)
  | portRemapped (engine p r lp lr : Nat)
  | bandMismatch (engine : Nat) (terminate : Bool)
  | laserRefFresh (engine laser : Nat) (value : BitVec 16)
  | laserWarn (engine laser : Nat) (fade : Int)
  | laserSwapped (engine port spare pauseNs : Nat)
  | laserHalf (port mode : Nat)
  | spareGone (engine fiber : Nat)
  | tableEcc (pipeline : Nat) (t : TableId) (index : Nat)
  | emFull (pipeline : Nat) (key : BitVec 48)
  | storeCapacity (bank active s : Nat)
  | ctxReady (ctx : BitVec 16) (spill : Bool)
  | ctxComplete (record : List Nat)
  | setupStall (ctx : BitVec 16) (ms : Nat)
  | sheafStuck (n : Nat) (phase : Word) (count : Nat)
  | thrReady (shard : Nat)
  | thrSolo (job : Nat) (phase : Word)
  | thrRebuildDone (job : Nat)
  | thrLost (job lostSlots updatesLost : Nat)
  | thrPhaseDone (job : Nat) (phase : Word) (datum : BitVec 4)
  | memAccessFault (addr : BitVec 52) (count : Nat)
  | howlinkDegraded (lanes : Nat)
  | pageRetired (addr left : Nat)
  | expSwapDone (port : Nat)
  | granaryLoss (port : Nat) (mapped : Bool)
  | timeLocked (domB : Bool)
  | timeUnlocked (st : TimeState) (cause : Nat)
  | timeJumpRefused (source : Nat) (offset : Int)
  | timeDomainSwitch (fromB toB : Bool) (offset : Int)
  | ppsIn (sec : BitVec 48) (ns : Nat)
  | gleanFull (gseq : Word) (lost : Dword)
  | bootResult (st : DevState) (cause reject : BitVec 4) (imgSlot : Bool) (svn : Byte)
  | ownerChanged (slot state : Nat)
  | rollbackAdvanced (count : Nat)
  | fault (r : FaultRec)
  | spareUsed (unit_ index spare left : Nat)
  | serviceDegraded (unit_ index step capacity : Nat)
  | endOfLife (floor value : Nat)
  | clusterClosed (cluster contexts sheaves : Nat)
  deriving DecidableEq, Repr

/-- An event packet for one destination: its sequence and the stamp of R428. -/
structure EvPacket where
  dest : Source
  seq : Word
  sec : BitVec 48
  ns : Nat
  locked : Bool
  ev : Ev
  deriving DecidableEq, Repr

/-- What the device sends or returns, in the order of sending.  The list `Dev.out` keeps it, newest
first; nothing in the device reads it. -/
inductive Out where
  | reply (c : CmdCtx) (opcode : Nat) (st : Status) (res : Res)
  | rawReply (a : Arrival) (st : Status)
  | event (e : EvPacket)
  | int (v : Nat)
  /-- A frame sent on a physical port; `tailMark` is true when its link check is inverted. -/
  | frame (p : Nat) (h : Header) (payload : List Byte) (e2e link : Word) (tailMark : Bool)
  /-- A copy abandoned on the wire (R129). -/
  | abandoned (p : Nat) (h : Header)
  | link (p : Nat) (kind : Byte) (msg : LinkMsg)
  /-- A training frame with this status word, whose PRBS13 goes on from this place in its period (R361). -/
  | training (p : Nat) (status : BitVec 16) (pos : Nat)
  /-- From here on, until it leaves TEST or changes its pattern, a port sends this pattern unframed (R376). -/
  | prbs (p : Nat) (pat : PrbsPattern)
  /-- A control block that a port in FAR loopback returns: its body (R522). -/
  | block (p : Nat) (body : BitVec 256)
  | mg (m : Nat) (typ : Byte) (payload : List Byte)
  /-- A management packet on the line in GLM: its bytes, and the code groups from the idle before it to /T/ (R382,
  R383). -/
  | glm (m : Nat) (bytes : List Byte) (groups : List (BitVec 10))
  /-- An Ethernet frame of 1000BASE-X: its source address, EtherType and payload (R384). -/
  | eth (m : Nat) (src : BitVec 48) (etherType : Nat) (payload : List Byte)
  /-- The interrupt of device firmware for a word posted in mailbox `n` (R394). -/
  | fwInt (n : Nat)
  | ptp (m : Nat) (seq : BitVec 16) (sec : BitVec 48) (ns : Nat)
  | spdm (m : Nat) (code : Nat) (fields : List Nat)
  | regValue (v : Dword)
  | dmaWrite (addr : Nat) (bytes : List Byte)
  | memData (bytes : List Byte)
  | memError
  | memWritten
  | snoopInvalidate (line : Nat)
  deriving DecidableEq, Repr

/-- The command path and its event queues. -/
structure EvDest where
  seq : Word := 0
  mask : BitVec 16 := 0
  queue : List EvPacket := []
  deriving DecidableEq, Repr

/-! ### Commands and transactions -/

/-- A place of a source's queue (R405). -/
structure Place where
  src : Source
  seq : Word
  opcode : Nat
  session : Byte
  deriving DecidableEq, Repr

/-- What a held reply waits for (R406). -/
inductive HeldFor where
  | commit (txn : BitVec 16)
  | portRestart (logical : Nat)
  | band (engine : Nat)
  | swap (engine : Nat)
  | fuses
  | spareCore (position : Nat)
  | spareBank (position : Nat)
  deriving DecidableEq, Repr

/-- A command whose reply, or whose completion event, is still owed (R406, R423, R426). -/
structure HeldReply where
  c : CmdCtx
  opcode : Nat
  what : HeldFor
  /-- Core clock of the command's start. -/
  at_ : Nat
  /-- DEFERRED was answered already, and an event packet reports completion. -/
  deferred : Bool
  deriving DecidableEq, Repr

/-- Objects that transactions claim (R417). -/
inductive Obj where
  | em (key : BitVec 48) | rehash | route (leaf : Nat) | group (g : Nat) | part (p : Nat)
  | portset (s : Nat) | peers | mirror (s : Nat) | partRes (p : Nat) | shaper (port cls : Nat)
  | groupShaper (g : Nat) | policer (n : Nat) | polMapPort (port cls : Nat) | polMapPart (p : Nat)
  | ctx (c : Nat) | sheaf (n : Nat) | job (j : Nat) | param (b : Nat) | shard (s : Nat)
  | region (r : Nat) | plan (p : Nat) | planGroup (e : Nat) | portMap (e : Nat) | port (p : Nat)
  deriving DecidableEq, Repr

/-- States of a transaction (R413). -/
inductive TxnState where
  | isOpen | waiting | applying
  deriving DecidableEq, Repr

/-- A transaction (R413 to R424). -/
structure Txn where
  src : Source
  id : BitVec 16
  session : Byte
  st : TxnState := .isOpen
  scope : BitVec 12
  idleS : Nat
  drainMs : Nat
  /-- Core clock of the last command that bore its TXN. -/
  touched : Nat
  staged : List Staged := []
  /-- Objects it names, each with the number of the staging that named it first (R417). -/
  names : List (Obj × Nat) := []
  /-- Objects it named that another source's commit has changed since. -/
  spoiled : List Obj := []
  /-- The COMMIT, once it has come, and its order among the COMMITs. -/
  commit : Option CmdCtx := none
  commitAt : Nat := 0
  order : Nat := 0
  /-- Core clock at which its COMMIT became ready: that of the COMMIT, or the one in which its wait ended
  (R420). -/
  readyAt : Option Nat := none
  deriving DecidableEq, Repr

/-- The command path (R402 to R427). -/
structure Cmd where
  places : List Place := []
  held : List HeldReply := []
  /-- Commands held behind a held command of their source (R406), oldest first. -/
  behind : List Instr := []
  txns : List Txn := []
  /-- DESIGN CHOICE, log entry 11. -/
  nextId0 : BitVec 16 := 1
  nextId1 : BitVec 16 := 1
  nextId2 : BitVec 16 := 1
  commitOrder : Nat := 0
  /-- Stagings so far, in all transactions. -/
  stageNo : Nat := 0
  /-- The source that the pointer over Howlink, MG0 and MG1 took last, by its stamp (R402, R406).
  DESIGN CHOICE, log entry 11. -/
  ptr : Nat := 3
  /-- The command that runs has waited its turn: it begins.  The model's own field.  DEDUCED, log entry 63. -/
  turn : Bool := false
  evHowlink : EvDest := {}
  evMg0 : EvDest := {}
  evMg1 : EvDest := {}
  deriving DecidableEq, Repr

/-! ### Howlink, mailboxes, management links -/

/-- Howlink (R284 to R289, R308). -/
structure Howlink where
  up : Bool := true
  trained : Bool := false
  verMismatch : Bool := false
  lanes : Nat := 16
  spareUsed : Bool := false
  failedLane : BitVec 5 := 0x1F#5
  /-- At x8, lanes 8 to 15 are in use. -/
  upper : Bool := false
  deriving DecidableEq, Repr

/-- One mailbox (R390 to R397): words with their poster's number, oldest first. -/
structure Mbox where
  h2d : List (Byte × Word) := []
  d2h : List (Byte × Word) := []
  lock : Byte := 0
  /-- Rotating pointer of the lock (R396).  DESIGN CHOICE, log entry 12. -/
  ptr : Nat := 0
  deriving DecidableEq, Repr

/-- An SPDM session of a link (R468). -/
structure Session where
  id : Byte
  /-- Class fixed at FINISH; none while the handshake runs. -/
  cls : Option PrivClass := none
  /-- Update count of the session keys. -/
  keyGen : Nat := 0
  deriving DecidableEq, Repr

/-- Reassembly of a segmented packet (R384). -/
structure Reasm where
  typ : Byte
  next : Nat
  count : Nat
  len : Nat
  bytes : List Byte
  deriving DecidableEq, Repr

/-- A management link (R381 to R389, R401). -/
structure MgLink where
  /-- Stage in the codes of R358: 0 OFF, 1 DETECT, 2 TRAIN, 3 LOCK, 4 EXCHANGE, 5 ACTIVE,
  11 INCOMPATIBLE. -/
  st : Nat := 0
  los : Bool := true
  sync : Bool := false
  lastExit : Nat := 0
  round : Byte := 0
  /-- Last valid EXCH_ID and EXCH_FEAT of the partner. -/
  partnerId : LinkMsg := 0
  /-- DESIGN CHOICE, log entry 12. -/
  partnerFeat : LinkMsg := 0
  pairSeen : Bool := false
  ackSeen : Bool := false
  mac : BitVec 48 := 0
  sessions : List Session := []
  /-- Steps of SPDM negotiation done on the connection: 0 none, 1 version, 2 capabilities,
  3 algorithms. -/
  spdm : Nat := 0
  reasm : Option Reasm := none
  /-- Running disparity of the transmitter is positive (R382).  PRESUMED, log entry 158. -/
  rd : Bool := false
  deriving DecidableEq, Repr

/-! ### Forwarding tables -/

/-- A result of a table entry (R70). -/
structure Route where
  rtype : BitVec 3
  target : BitVec 12
  deriving DecidableEq, Repr

/-- An exact-match entry with VALID = 1 (R76). -/
structure EmEntry where
  key : BitVec 48
  static : Bool
  res : Route
  deriving DecidableEq, Repr

/-- A multicast group entry (R82). -/
structure Group where
  valid : Bool
  part : BitVec 12
  upEn : Bool
  upSet : BitVec 10
  ports : PortMask
  deriving DecidableEq, Repr

/-- A partition entry (R81). -/
structure PartEntry where
  valid : Bool
  learnEn : Bool
  ports : PortMask
  deriving DecidableEq, Repr

/-- One bank of the forwarding tables (R66, R95). The sixteen copies hold the same content; where a
copy differs is kept in `Fwd.bad`. -/
structure Bank where
  /-- Number of the bank in each table copy (R100, SHADOW_SEL). -/
  num : Bool := false
  seed : Word := 0
  route : Tab Route := []
  /-- Valid exact-match entries by position (R92). -/
  em : Tab EmEntry := []
  groups : Tab Group := []
  parts : Tab PartEntry := []
  sets : Tab PortMask := []
  deriving DecidableEq, Repr

/-- Kinds of a learn event (R86, R90). -/
inductive LearnKind where
  | create (rtype : BitVec 3) (target : BitVec 12)
  | remove (rtype : BitVec 3) (target : BitVec 12)
  deriving DecidableEq, Repr

/-- A pending learn event (R87). `peer` marks one that came in a LEARN frame. -/
structure LearnEv where
  key : BitVec 48
  kind : LearnKind
  peer : Bool
  deriving DecidableEq, Repr

/-- An entry of the learn ring: a learn event of a pipeline, or a sweeper removal (R85, R88). -/
inductive RingEv where
  | learn (k : Nat) (e : LearnEv) (port : Nat)
  | sweep (key : BitVec 48)
  deriving DecidableEq, Repr

/-- A table word found uncorrectable in one bank of one pipeline's copy (R67). -/
structure BadEntry where
  pipeline : Nat
  bank : Bool
  table : TableId
  index : Nat
  deriving DecidableEq, Repr

/-- A LEARN frame or a congestion notice taken at lookup, whole and with its link check passed
(R101), waiting to be consumed. -/
structure Taken where
  hdr : Header
  payload : List Byte
  e2e : Word
  /-- Arrival logical port. -/
  port : Nat
  deriving DecidableEq, Repr

/-- Forwarding (chapter "Forwarding pipelines and tables"). -/
structure Fwd where
  cur : Bank := {}
  other : Bank := { num := true }
  epoch : BitVec 2 := 0
  /-- Bank number of the other bank (SHADOW_SEL). -/
  shadowSel : Bool := true
  oldLive : Bool := false
  replay : Bool := false
  /-- Committed table changes that the retired bank still lacks, in the order of their commit. -/
  replayOps : List Staged := []
  /-- Core clock at which the old bank retires. -/
  drainEnd : Nat := 0
  /-- Hit bits, one per copy, by key (R76, R83). -/
  hits : Tab (BitVec 16) := []
  /-- Keys that the last visit of the sweeper found without a hit (R84). -/
  idle : List (BitVec 48) := []
  /-- DESIGN CHOICE, log entry 13. -/
  sweepPos : Nat := 0
  /-- Pass length of the pass that runs, in seconds (R100). -/
  sweepPeriod : Nat := 60
  /-- Pending queues by pipeline; each event with its arrival logical port. -/
  learnQ : Tab (List (LearnEv × Nat)) := []
  ring : List RingEv := []
  /-- Keys that a learn was applied to while a removal of theirs stood on the ring (R91). -/
  relearned : List (BitVec 48) := []
  /-- Cursors that NEXT has given since the last flip (R92). -/
  cursors : List Word := []
  peers : List (BitVec 24) := []
  /-- DESIGN CHOICE, log entry 13. -/
  learnSeq : Word := 0
  bad : List BadEntry := []
  /-- Frames taken at lookup, by pipeline, oldest first. -/
  taken : Tab (List Taken) := []
  emFullAt : Option Nat := none
  deriving DecidableEq, Repr

/-! ### The central store -/

/-- A destination of a queue (R113). -/
inductive Dest where
  | port (logical : Nat)
  | cluster (k : Nat)
  | agent
  deriving DecidableEq, Repr

/-- Which pool a charge is in (R115). -/
inductive Pool where
  | queueRes | partRes | shared
  deriving DecidableEq, Repr

/-- A frame in the store: one descriptor with its cells (R103). -/
structure Frame where
  hdr : Header
  /-- The header exactly as received, for the glean buffer (R513). -/
  rx : Header
  e2e : Word
  payload : List Byte
  /-- Arrival: physical port, logical port; none for a frame the device built. -/
  arr : Option (Nat × Nat)
  /-- Core clock in which the header was taken; a launch frame's clock is that of its release. -/
  at_ : Nat
  /-- Time base at the first byte, in ns since 0 s. -/
  stamp : Nat
  /-- The whole frame is in the store and has passed its link check. -/
  whole : Bool
  inputCopy : Bool
  oldBank : Bool
  /-- Charge of the cells, once per frame: the pool and its cell count (R123). -/
  charge : Option (Pool × Nat)
  /-- A PTP event frame rebuilt at egress (R442). -/
  ptp : Bool
  /-- Transmit ring and descriptor position of a frame that owes a write-back (R444). -/
  wb : Option (Nat × Nat × Bool)
  /-- Such a frame has left: the time base at its first byte, where it was transmitted, and whether
  it left late. -/
  sentAt : Option (Option Nat × Bool)
  /-- The frame's glean sample still owed: sampler and candidate (R512). -/
  glean : Bool
  /-- Its descriptor reads uncorrectable (R130). -/
  bad : Bool
  /-- The sampler of its pipeline (R511), and the requester of its write slots: pipeline k, or 16 + k for a
  frame that cluster CLk built (R20). -/
  sampler : Nat := 0
  writer : Nat := 0
  deriving DecidableEq, Repr

/-- A copy of a frame waiting in a queue or being sent (R103). -/
structure Copy where
  fid : Nat
  dest : Dest
  cls : BitVec 3
  /-- The test that admitted it: shared, or queue reserve (R123). -/
  shared : Bool
  cells : Nat
  mirror : Bool
  /-- The sample of the frame follows this copy (R512). -/
  gleaned : Bool
  deriving DecidableEq, Repr

/-- A copy being sent on a logical port (R108). -/
structure Sending where
  copy : Copy
  hdr : Header
  cut : Bool
  ceSet : Bool
  /-- The copy will be completed with a tail mark. -/
  tailMark : Bool
  /-- The frame's bytes have all been received. -/
  ended : Bool
  /-- Time base at the first byte, in ns since 0 s. -/
  stamp : Nat
  /-- Payload and end-to-end check of a frame rebuilt at egress (R442). -/
  built : Option (List Byte × Word)
  /-- A launch frame, and one whose STATUS is 1 (R446, R447). -/
  launch : Bool
  late : Bool
  /-- Cells read into the transmit buffer, and bits that have left it (R108). -/
  read : Nat := 0
  bits : Nat := 0
  /-- The era of the bandwidth windows at its first byte (R510). -/
  era : Nat := 0
  deriving DecidableEq, Repr

/-- A launch-queue entry (R445). -/
structure Launch where
  /-- Launch time in ns since 0 s. -/
  t : Nat
  copy : Copy
  late : Bool
  /-- Released: eligible ahead of the class queues. -/
  ready : Bool
  deriving DecidableEq, Repr

/-- A mirror session (R125). -/
structure MirrorSess where
  source : MirrorSrc
  analysis : Nat
  cls : BitVec 3
  deriving DecidableEq, Repr

/-- PMIN and PMAX of a partition (R134). -/
structure PartRes where
  pmin : Nat
  pmax : Nat
  deriving DecidableEq, Repr

/-- Cumulative counts of a queue (R505). -/
structure QCount where
  admitted : Dword := 0
  admCells : Dword := 0
  sent : Dword := 0
  refused : Dword := 0
  aged : Dword := 0
  marked : Dword := 0
  deriving DecidableEq, Repr

/-- Cumulative counts of a partition (R505). -/
structure PCount where
  frames : Dword := 0
  cells : Dword := 0
  refused : Dword := 0
  aged : Dword := 0
  deriving DecidableEq, Repr

/-- Where the frames' cells lie, and the scheduler of the slots (R102 to R107).  A cell's number is its
bank × 4,096 + its place in the bank; banks 0 to 1,023 are the positions' own, 1,024 + i is spare SBi. -/
structure Slots where
  /-- The cell link table, by frame: the cells that hold its payload so far, in payload order. -/
  cells : Tab (List Nat) := []
  /-- Spare banks that a position's number has been allocated in, newest first (R131). -/
  bankOf : Tab (List Nat) := []
  /-- Position that the last write took, and the last requester granted a write, a read and a reduction
  slot.  DESIGN CHOICE, log entry 134. -/
  bankPtr : Nat := 1023
  wPtr : Nat := 23
  rPtr : Nat := 512
  cPtr : Nat := 7
  /-- Banks that moved a cell in the last core clock: idle again in the clock after this one. -/
  busy : List Nat := []
  /-- Read and reduction requesters whose only bar in the last core clock was a busy bank. -/
  barredR : List Nat := []
  barredC : List Nat := []
  /-- By cluster queue and agent queue (`Dest.num`): the frame whose cells are being read, and how many
  have been. -/
  fetched : Tab (Nat × Nat) := []
  /-- Those queues of which such a read was uncorrectable. -/
  fetchBad : List Nat := []
  /-- Read slots that copies found expired at their selection have used in this core clock (R133). -/
  lost : Nat := 0
  /-- Core clocks of a bank's corrected reads in the last second (R131). -/
  corr : Tab (List Nat) := []
  /-- Spare banks, 0 to 31, that failed self-test. -/
  badSpares : List Nat := []
  /-- Cells whose row of the cell link table is out of use (R488). -/
  cellsOut : List Nat := []
  deriving DecidableEq, Repr

/-- The store (chapter "The central store and its scheduler"). -/
structure Store where
  /-- DESIGN CHOICE, log entry 14. -/
  nextFid : Nat := 0
  frames : Tab Frame := []
  /-- Queues by `Dest` number × 8 + class, oldest copy first. -/
  queues : Tab (List Copy) := []
  /-- Copies being sent, by logical port, oldest first: the one on the wire and those that stand
  behind it in the transmit buffer (R108). -/
  sending : Tab (List Sending) := []
  launch : Tab (List Launch) := []
  /-- Rotating class pointer by logical port × 4 + level (R142).  DESIGN CHOICE, log entry 14. -/
  rr : Tab Nat := []
  mirrors : Tab MirrorSess := []
  partRes : Tab PartRes := []
  /-- Residence limit in force, in ns, and one that waits for the old bank (R120). -/
  limit : Nat := 2000000
  limitPend : Option Nat := none
  /-- Bank positions closed, banks replaced, the replacement that runs. -/
  closed : List Nat := []
  swapped : List Nat := []
  replacing : Option Nat := none
  spare0 : Nat := 16
  spare1 : Nat := 16
  rowsOut : Nat := 0
  qcount : Tab QCount := []
  pcount : Tab PCount := []
  slots : Slots := {}
  /-- Queue entries in rows out of use (R488). -/
  entriesOut : Nat := 0
  deriving DecidableEq, Repr

/-! ### Traffic management -/

/-- A change that waits for the next refill (R139). -/
structure BucketSet where
  en : Bool
  rate : Nat
  burst : Nat
  deriving DecidableEq, Repr

/-- A token bucket (R137), tokens in 1/4,096 byte; a policer's is disabled and empty after reset.
DESIGN CHOICE, log entry 138. -/
structure Bucket where
  en : Bool := false
  rate : Nat := 0
  burst : Nat := 0
  tokens : Int := 0
  pend : Option BucketSet := none
  deriving DecidableEq, Repr

/-- A port-class shaper with its level (R140, R142). -/
structure Shaper where
  b : Bucket
  level : Nat
  levelPend : Option Nat := none
  deriving DecidableEq, Repr

/-- A group shaper (R140). -/
structure GroupShaper where
  b : Bucket := {}
  ports : PortMask := 0
  classes : BitVec 8 := 0
  /-- Masks that wait for the next refill. -/
  pend : Option (PortMask × BitVec 8) := none
  deriving DecidableEq, Repr

/-- A policer with its counts (R145, R155). -/
structure Policer where
  b : Bucket := {}
  bytes : Nat := 0
  dropped : Nat := 0
  deriving DecidableEq, Repr

/-- Traffic management (chapter "Shaping, policing, congestion marks and spraying"). -/
structure Tm where
  /-- Port-class shapers by logical port × 8 + class. -/
  shapers : Tab Shaper := []
  groups : Tab GroupShaper := []
  policers : Tab Policer := []
  /-- Policer number by logical port × 8 + class, and by partition. -/
  mapPort : Tab Nat := []
  mapPart : Tab Nat := []
  /-- Congestion levels by leaf × 512 + logical port (R150). -/
  levels : Tab Nat := []
  /-- Sprayer state by pipeline × 1,024 + set: pointed member and run count (R152).
  DESIGN CHOICE, log entry 15. -/
  spray : Tab (Nat × Nat) := []
  /-- Notice cache by pipeline × 4,096 + index: source leaf, arrival port, core clock (R148). -/
  cache : Tab (Nat × Nat × Nat) := []
  /-- Core clock of a pipeline's last notice. -/
  cnLast : Tab Nat := []
  deriving DecidableEq, Repr

/-! ### Collectives -/

/-- States of a context (R196). -/
inductive CtxState where
  | pending | active | spill | draining
  deriving DecidableEq, Repr

/-- States of an open chunk (R201); `waitPark` is a completed Thresh chunk that waits for the park
region (R267). -/
inductive ChunkState where
  | gather | hold | sent | waitPark
  deriving DecidableEq, Repr

/-- An open chunk. -/
structure Chunk where
  seq : Word
  st : ChunkState := .gather
  rh : Bool
  bits : PortMask := 0
  acc : List AccEl := []
  /-- FLAGS at the bit positions of R180. -/
  flags : BitVec 4 := 0
  ovf : Bool := false
  dropped : Nat := 0
  /-- What the chunk latched when it opened (R160). -/
  att : Arith
  /-- Core clock of opening. -/
  opened : Nat
  /-- Expiries of the retry timer so far (R202). -/
  expiries : Nat := 0
  /-- Core clock from which the retry timer runs. -/
  retryFrom : Nat := 0
  /-- The re-homed partial waits for a credit of the partner. -/
  waitCredit : Bool := false
  /-- NACK_WINDOW asked for a resend at the next expiry (R204). -/
  resend : Bool := false
  /-- The partial was encoded, and its flags counted (R190). -/
  encoded : Bool := false
  deriving DecidableEq, Repr

/-- A lingering result (R207).  DESIGN CHOICE, log entry 84. -/
structure Linger where
  payload : List Byte
  sub : Byte
  until_ : Nat
  order : Nat
  deriving DecidableEq, Repr

/-- A finished-chunk record (R200). -/
structure FinRec where
  seq : Word
  isDone : Bool
  rh : Bool
  linger : Option Linger := none
  deriving DecidableEq, Repr

/-- The counts of a completion record (R210). -/
structure CtxCounts where
  flags : BitVec 4 := 0
  firstSeq : Word := 0
  lastSeq : Word := 0
  anyDone : Bool := false
  isDone : Nat := 0
  abandoned : Nat := 0
  nan : Nat := 0
  inf : Nat := 0
  sat : Nat := 0
  wrap : Nat := 0
  dropped : Nat := 0
  dup : Nat := 0
  nacks : Nat := 0
  rehomed : Nat := 0
  deriving DecidableEq, Repr

/-- A VALID context (R196). -/
structure Ctx where
  e : CtxEntry
  st : CtxState
  resizePend : Bool := false
  /-- Core clock at which it became PENDING. -/
  since : Nat := 0
  stallSent : Bool := false
  waitSeen : Bool := false
  /-- The reservation is in the spill region. -/
  spilled : Bool := false
  /-- Slot units the reservation lacks (R488). -/
  short : Nat := 0
  highest : Option Word := none
  chunks : List Chunk := []
  /-- Newest first, at most 2 × WINDOW. -/
  fin : List FinRec := []
  counts : CtxCounts := {}
  deriving DecidableEq, Repr

/-- A sheaf (R216). -/
structure Sheaf where
  cfg : SheafCfg
  count : Nat := 0
  datum : Word := 0
  lastCount : Nat := 0
  lastDatum : Word := 0
  /-- SRC of the last release (R217). -/
  lastSrc : BitVec 24 := 0
  arrived : PortMask := 0
  /-- An arrival of this phase was counted. -/
  got : Bool := false
  /-- A release was made or seen since it became VALID (R218). -/
  released : Bool := false
  /-- GATHER: the upward arrival of this phase was sent. -/
  sentUp : Bool := false
  firstAt : Option Nat := none
  stuckSent : Bool := false
  deriving DecidableEq, Repr

/-- A result notice (R209). -/
structure Notice where
  ctx : BitVec 16
  seq : Word
  rh : Bool
  deriving DecidableEq, Repr

/-- A SHEAF release seen at lookup (R219, R259). -/
structure SheafRel where
  sheaf : Nat
  part : BitVec 12
  job : BitVec 16
  phase : Word
  count : Nat
  datum : Word
  src : BitVec 24
  deriving DecidableEq, Repr

/-- Reduction: contexts, sheaves, clusters. -/
structure Red where
  ctxs : Tab Ctx := []
  /-- Records of contexts that have become FREE and not been set again (R211). -/
  last : Tab (List Nat) := []
  sheaves : Tab Sheaf := []
  /-- Result notices and passing releases by cluster, oldest first. -/
  notices : Tab (List Notice) := []
  passing : Tab (List SheafRel) := []
  /-- Slot units retired at run time, by cluster (R488). -/
  retired : Tab Nat := []
  /-- DESIGN CHOICE, log entry 16. -/
  lingerOrder : Nat := 0
  deriving DecidableEq, Repr

/-! ### Thresh -/

/-- Copy states (R274). -/
inductive CopyState where
  | inSync | solo | rebuild | lost
  deriving DecidableEq, Repr

/-- A mirror frame in the log (R271, R273). -/
structure MFrame where
  seq : Word
  sub : Byte
  ksf : Dword
  payload : List Byte
  deriving DecidableEq, Repr

/-- A phase whose updates run: its vote DATUM, its clip factor, its scale, and the parameter blocks as
they stood at its start (R256, R259, R261). -/
structure PhaseRun where
  phase : Word
  datum : BitVec 4
  c : Word
  rls : Word
  params : Tab ThrParam
  /-- The vote skipped the phase: it runs no updates. -/
  skip : Bool := false
  /-- Core clock of the release. -/
  since : Nat := 0
  deriving DecidableEq, Repr

/-- The sums of one phase (R258). -/
structure PhaseSum where
  accounted : Nat := 0
  flags : BitVec 4 := 0
  sumsq : Dword := 0
  /-- The chunks that have counted, by context and SEQ: each counts once. -/
  counted : List (BitVec 16 × Word) := []
  deriving DecidableEq, Repr

/-- A job entry (R249) with its accounting and its mirror stream. -/
structure ThrJob where
  cfg : ThrJobCfg
  /-- Values that apply from the next phase (R261). -/
  next : Option ThrJobCfg := none
  phase : Word
  own : CopyState
  /-- Sums of phase P and of phase P + 1. -/
  sum0 : PhaseSum := {}
  sum1 : PhaseSum := {}
  /-- The copies entered SOLO during the phase. -/
  loss : Bool := false
  /-- Accounting in force covers both sets (R275). -/
  both : Bool
  /-- The former REBUILD device answers NACK_NOCTX until the phase in progress releases (R275). -/
  nackUntil : Bool := false
  arrivalsSent : Bool := false
  /-- The arrivals sent carry COUNT 2. -/
  arrTwo : Bool := false
  arrNorm : Word := 0
  arrVote : Word := 0
  voteSeen : Option Word := none
  normSeen : Option Word := none
  /-- The released phases whose updates run, oldest first. -/
  runs : List PhaseRun := []
  lostUpdates : Nat := 0
  -- mirror stream
  txNext : Word := 0
  log : List MFrame := []
  rxNext : Word := 0
  rxSinceAck : Nat := 0
  lastRx : Nat := 0
  lastAckAdv : Nat := 0
  /-- REBUILD_REQ was sent. -/
  reqSent : Bool := false
  /-- Bulk copy that is sent here: context and slot of the next one. -/
  bulk : Option (Nat × Nat) := none
  /-- Mirror sequence of REBUILD_END, while its ACK is awaited. -/
  endSeq : Option Word := none
  deriving DecidableEq, Repr

/-- A parameter block with the step in force (R250, R261). -/
structure ThrParamSt where
  f : ThrParam
  next : Option ThrParam := none
  /-- The t of the last phase that ended (R261). -/
  lastT : Word := 0
  deriving DecidableEq, Repr

/-- A parameter block that nothing has set: every field is zero.  DESIGN CHOICE, log entry 17. -/
def ThrParamSt.unset : ThrParamSt :=
  { f := { recipe := 0, mtype := false, biasCorr := false, jent := 0, lr := 0, beta1 := 0, beta2 := 0, eps := 0,
           wd := 0, step := 0 } }

/-- A shard (R251). -/
structure ThrShard where
  cfg : ThrShardCfg
  ready : Bool := false
  seqBase : Word
  home : Nat := 0
  peer : Nat := 0
  cursor : Nat := 0
  /-- Slots with LOST set. -/
  lost : Nat := 0
  draining : Bool := false
  /-- Map indexes whose STAMP this device set itself, by an update or for a lost one (R273). -/
  here : List Nat := []
  /-- The granary lost every slot before the map was built: it is built with LOST set (R303). -/
  doomed : Bool := false
  deriving DecidableEq, Repr

/-- States after the handover (R255). -/
inductive ParkState where
  | parked | staging
  | mirroring (commit : Word)
  deriving DecidableEq, Repr

/-- A parked chunk (R254, R255). -/
structure Parked where
  ctx : BitVec 16
  seq : Word
  phase : Word
  vals : List Word
  flags : BitVec 4
  st : ParkState
  /-- SUB of the weights, kept while the mirror's ACK is awaited. -/
  sub : Byte := 0x30#8
  /-- The slot's state in staging: as prefetched, then as updated (R255). -/
  state : List Byte := []
  deriving DecidableEq, Repr

/-- Thresh. -/
structure Thr where
  jobs : Tab ThrJob := []
  /-- A block that is not listed holds zeros.  DESIGN CHOICE, log entry 17. -/
  params : Tab ThrParamSt := []
  shards : Tab ThrShard := []
  /-- In parking order. -/
  park : List Parked := []
  posts : List SheafRel := []
  deriving DecidableEq, Repr

/-! ### Memory tiers -/

/-- A near-tier region (R296). -/
structure Region where
  kind : RegionKind
  base : Nat
  size : Nat
  deriving DecidableEq, Repr

/-- An expander (R300, R308). -/
structure Expander where
  role : BitVec 3 := 0
  capGib : BitVec 11 := 0
  rate : BitVec 8 := 0
  width : BitVec 8 := 0
  deriving DecidableEq, Repr

/-- A device or companion write that waits for a snoop response (R291). -/
structure WaitWrite where
  line : Nat
  addr : Nat
  data : List Byte
  fromHost : Bool
  /-- The line's invalidation that this write asked for is not answered yet. -/
  asked : Bool := false
  deriving DecidableEq, Repr

/-- The memory tiers (chapter "Howlink, GDDR7 and the granary"). -/
structure MemTier where
  /-- DESIGN CHOICE, log entry 18. -/
  density : Nat := 0
  /-- DESIGN CHOICE, log entry 18. -/
  rate : Nat := 0
  nearOk : Bool := true
  /-- GDDR7 devices that have failed: what they hold reads uncorrectable (R304, R490). -/
  failedDevs : List Nat := []
  poolUsed : Nat := 0
  retiredPages : List Nat := []
  /-- Pages whose copies run, oldest first. -/
  copyPages : List Nat := []
  /-- Regions, by number; after reset region 0 is HOST over NEAR_SIZE. -/
  regions : Tab Region := []
  /-- Bytes of device-homed memory by board address; an unlisted byte reads 0. -/
  cells : List Host.Cell := []
  /-- 64-byte lines that read uncorrectable. -/
  badLines : List Nat := []
  exp0 : Expander := {}
  exp1 : Expander := {}
  exp2 : Expander := {}
  exp3 : Expander := {}
  granClosed : Bool := false
  /-- C of R300 in GiB, as BOOT found it.  DEDUCED, log entry 106. -/
  granCap : Nat := 0
  /-- A predictive copy: source port and target port. -/
  copyExp : Option (Nat × Nat) := none
  /-- Stripe order: root port of each ACTIVE place (R300). -/
  stripes : List Nat := []
  /-- Snoop filter, oldest line first (R291). -/
  snoop : List Nat := []
  waits : List WaitWrite := []
  faultEvtAt : Option Nat := none
  faultCount : Nat := 0
  lastFault : Nat := 0
  deriving DecidableEq, Repr

/-! ### Optics and ports -/

/-- Lock of a ring, coded as TX_LOCK (R356). -/
inductive RingLock where
  | unlocked | sweep | locked | muted
  deriving DecidableEq, Repr

/-- A microring (R332 to R339).  DESIGN CHOICE, log entry 19. -/
structure RingSt where
  lock : RingLock := .unlocked
  fails : Nat := 0
  hcal : BitVec 14 := 0
  slope : Int := 0
  heater : BitVec 14 := 0
  /-- Matching windows of the dwell at hand, and consecutive mismatching windows of an accepted ring. -/
  matches_ : Nat := 0
  misses : Nat := 0
  /-- Resonances that the sweep has passed over, and windows of the dwell at hand (R334). -/
  passed : Nat := 0
  windows : Nat := 0
  /-- Core clock of acceptance. -/
  lockedAt : Nat := 0
  deriving DecidableEq, Repr

/-- A longer monitor window, made of shorter readings: those taken so far, their sum, and the last whole window's
mean.  DEDUCED, log entry 153. -/
structure WinAvg where
  n : Nat := 0
  sum : Int := 0
  last : Option Int := none
  deriving DecidableEq, Repr

/-- A laser (R340 to R343). -/
structure Laser where
  lit : Bool := false
  failed : Bool := false
  hasRef : Bool := false
  ref : BitVec 16 := 0
  fresh : Bool := false
  /-- Readings towards the first 100 ms reading, and their sum (R341). -/
  refN : Nat := 0
  refSum : Int := 0
  /-- Fade of the last 1 ms reading and of the last 10 µs reading, in 1/256 dB. -/
  fade : Int := 0
  fade10 : Int := 0
  /-- Readings over 100 µs, 10 ms and 100 ms, in 1/256 dBm (R340, R356). -/
  w100us : WinAvg := {}
  w10ms : WinAvg := {}
  w100ms : WinAvg := {}
  /-- 0 none, 1 WARN, 2 SWAP, 3 HALF, 4 DOWN. -/
  level : Nat := 0
  nWarn : Nat := 0
  nSwap : Nat := 0
  nHalf : Nat := 0
  nDown : Nat := 0
  nClear : Nat := 0
  /-- The action of a level that the laser has entered waits: a swap for the swap of another fiber, half rate
  for a swap in preparation or for ACTIVE (R342, R353, R355). -/
  swapOwed : Bool := false
  halfOwed : Bool := false
  deriving DecidableEq, Repr

/-- State of a spare laser, coded as CSTATE (R356), with the port's place in the engine. -/
structure Spare where
  /-- 0 READY, 1 TUNING, 2 IN_USE, 3 FAILED, 4 absent. -/
  st : Nat := 0
  port : Nat := 0
  deriving DecidableEq, Repr

/-- Steps of a laser swap (R346, R349). -/
inductive SwapStep where
  | tuning | requested (n : Nat) | paused | shuttered | draining
  deriving DecidableEq, Repr

/-- A swap that runs in an engine. -/
structure Swap where
  port : Nat
  spare : Nat
  step : SwapStep
  token : Byte
  heldAt : Nat := 0
  /-- The old laser has failed (R350). -/
  dead : Bool := false
  /-- The SWAP level began it, in this core clock, with the fiber's pointer there (R354). -/
  faded : Bool := false
  at_ : Nat := 0
  was : Nat := 0
  deriving DecidableEq, Repr

/-- Optical engines, less port states. -/
structure Opt where
  /-- Band switches that move: the engine and its new state (true TERMINATE). -/
  moving : Tab Bool := []
  lasers : Tab Laser := []
  /-- By engine × 5 + spare (0 to 3 by transmit fiber, 4 the C-band spare). -/
  spares : Tab Spare := []
  rings : Tab RingSt := []
  /-- DESIGN CHOICE, log entry 19. -/
  tCal : Int := 0
  swaps : Tab Swap := []
  token : Byte := 0
  /-- Pointer over a fiber's ports (R354). -/
  ptr : Tab Nat := []
  /-- Pointer over an engine's ports, for remaps (R377). -/
  mapPtr : Tab Nat := []
  deriving DecidableEq, Repr

/-- Port states (R358). -/
inductive PortState where
  | off | detect | train | lock | exchange | active | draining | down | unplanned | absent
  | crossed | incompatible | test
  deriving DecidableEq, Repr

/-- Why a port drains (R373). -/
inductive DrainWhy where
  | mode | swap | half | rate | restart | plan | prbs
  deriving DecidableEq, Repr

/-- A frame being received (R62). `fid` names the frame in the store, where it has one. -/
structure RxFrame where
  /-- The header as received, which the link check covers. -/
  hdr : Header
  /-- Class after the rewrites of R52. -/
  cls : BitVec 3
  fids : List Nat
  /-- The frame is consumed at lookup as LEARN or as a congestion notice (R101). -/
  consumed : Bool
  /-- Core clock and time base at the header. -/
  at_ : Nat
  stamp : Nat
  /-- The era of the bandwidth windows at the header (R510). -/
  era : Nat := 0
  deriving DecidableEq, Repr

/-- The hold that a partner's swap puts on a port (R345). -/
structure PartnerHold where
  token : Byte
  both : Bool
  nowSeen : Bool := false
  /-- The first data block after SWAP_NOW has come. -/
  data : Bool := false
  /-- Losses are declared again; only the own queues still wait for that data block. -/
  ended : Bool := false
  deriving DecidableEq, Repr

/-- A mode that a port takes when its drain ends (R326). -/
structure NewMode where
  mode : BitVec 3
  express : Bool
  xch : BitVec 3
  cfreq : BitVec 7
  deriving DecidableEq, Repr

/-- A physical port. `bind` is its logical number's place in its engine, XOR its own place, so that
0 is the binding after reset (R369). -/
structure PortSt where
  st : PortState := .off
  bind : BitVec 5 := 0
  reason : Nat := 0
  lastExit : Nat := 0
  mode : BitVec 3 := 0
  express : Bool := false
  xch : BitVec 3 := 0
  cfreq : BitVec 7 := 36
  los : Bool := true
  fecLock : Bool := false
  frameSync : Bool := false
  rxReady : Bool := false
  /-- Bits and errors of the BER window at hand (R361). -/
  winBits : Nat := 0
  winErrs : Nat := 0
  /-- Place of the transmitted PRBS13 in its period of 8,191 bits (R361). -/
  prbsPos : Nat := 0
  readySent : Nat := 0
  readyGot : Nat := 0
  trainFails : Nat := 0
  round : Byte := 0
  /-- Last valid pair; both zero before any. -/
  partnerId : LinkMsg := 0
  partnerFeat : LinkMsg := 0
  hasPair : Bool := false
  /-- The pair and the acknowledgement of the current ROUND. -/
  pairNow : Bool := false
  ackNow : Bool := false
  admitted : Bool := false
  feat : BitVec 4 := 0
  verMinor : Byte := 0
  prbs : PrbsPattern := .none
  prbsBits : Dword := 0
  prbsErrs : Dword := 0
  /-- Error-free symbols that TEST's checker has seen in a row, up to the 64 that lock it (R376). -/
  prbsRun : Nat := 0
  drain : Option DrainWhy := none
  drainAt : Nat := 0
  newMode : Option NewMode := none
  held : Bool := false
  hold : Option PartnerHold := none
  /-- A SWAP_REQ that waits for the end of the port's own pause (R354). -/
  reqWait : Option PartnerHold := none
  /-- An OFF port's modulator is muted (R324). -/
  muted : Bool := true
  /-- Die-to-die halves that failed self-test: bit 0 lanes 0-7, bit 1 lanes 8-15 (R18). -/
  badHalf : BitVec 2 := 0
  /-- At half rate for a fade (R351) or a failed lane (R18), not by command. -/
  forcedHalf : Bool := false
  /-- Self-test of the port's optics: 0 passed, 1 at half rate only, 2 failed (R457). -/
  optTest : Nat := 0
  rx : Option RxFrame := none
  /-- Framing is lost and bytes are discarded until a SYNC (R322). -/
  hunting : Bool := false
  detectAt : Nat := 0
  deriving DecidableEq, Repr

/-! ### Faults, counters, glean buffer -/

/-- An error armed by DIAG_INJECT (R500). -/
structure Inject where
  array : Nat
  index : Nat
  word : Nat
  two : Bool
  deriving DecidableEq, Repr

/-- State of a core position (R485 to R487). -/
inductive PosState where
  | filled | stopped | empty
  deriving DecidableEq, Repr

/-- A core position: its state, the core in it, and the clock of its last check failure. -/
structure CorePos where
  st : PosState := .filled
  /-- 0 for its own core, s + 1 for spare C(64 + s). -/
  spare : Nat := 0
  failAt : Option Nat := none
  /-- Clock of the check failure before that. -/
  prevFail : Option Nat := none
  deriving DecidableEq, Repr

/-- A failure that waits for its spare swap (R29): a bank position, a core position, or 64 + e for the expander at
root port e; and the MGMT clock of its detection. -/
structure Failure where
  isBank : Bool
  ix : Nat
  mgmt : Nat
  /-- A corrected-error count passed its limit (R480). -/
  limit : Bool := false
  deriving DecidableEq, Repr

/-- A spare core: 0 idle and good, 1 in use, 2 failed its test. -/
structure FaultSt where
  fseq : Word := 0
  /-- Newest first, at most 1,024. -/
  log : List FaultRec := []
  /-- Positions by 8k + q. -/
  cores : Tab CorePos := []
  spareCores : Tab Nat := []
  /-- Floors already reported: bit 0 CORES, bit 1 STORE, bit 2 FIBER. -/
  eol : BitVec 3 := 0
  injects : List Inject := []
  /-- Core SRAM rows that have failed, by position × 65,536 + row: the core clock of the last failure (R487). -/
  sramAt : Tab Nat := []
  /-- Failures that wait for SV2, in order of detection, and the block that its pointer served last
  (clusters 0 to 7, SRAM dies 8 and 9, the expanders 10).  DESIGN CHOICE, log entry 135. -/
  failures : List Failure := []
  failPtr : Nat := 10
  /-- The records, by FSEQ, that raised vector 23 and whose INT message waits for their FAULT packet to leave
  (R287, R533). -/
  intOwed : List Word := []
  deriving DecidableEq, Repr

/-- A port's bandwidth window (R509, R510). -/
structure Bw where
  rxAcc : Nat := 0
  txAcc : Nat := 0
  rxLast : Nat := 0
  txLast : Nat := 0
  rxPeak : Nat := 0
  txPeak : Nat := 0
  rxPeakSeq : BitVec 15 := 0
  txPeakSeq : BitVec 15 := 0
  deriving DecidableEq, Repr

/-- An entry of the glean buffer (R513). -/
inductive GleanBody where
  | frame (h : Header) (outcome arr eg sec ns residence : Nat) (cut ce inCopy old : Bool)
  | micro (addr cluster position core : Nat) (ctx : BitVec 16) (seq : Word) (op : BitVec 4)
      (fmt : BitVec 8) (latency sec ns : Nat)
  /-- An entry found uncorrectable, with what its bytes then read as. -/
  | uncorr (bits : BitVec 512)
  deriving DecidableEq, Repr

/-- An entry with its GSEQ. -/
structure GleanEnt where
  gseq : Word
  body : GleanBody
  deriving DecidableEq, Repr

/-- Counters of chapter "Counters, bandwidth windows and the glean buffer", less plain counters. -/
structure Cnt where
  bw : Tab Bw := []
  /-- Time base, in ns since 0 s, at which the current window began, and the last completed one. -/
  bwStart : Nat := 0
  bwPrev : Nat := 0
  /-- Steps of the time base and writes of WIN so far, and how many there were before the last window that was
  cut short: a time-stamp is compared with the bounds of windows of its own era alone (R510). -/
  era : Nat := 0
  shortEra : Nat := 0
  /-- WSEQ: windows that have ended.  DESIGN CHOICE, log entry 156. -/
  wseq : BitVec 15 := 0
  /-- The last completed window, and the current one, were cut short. -/
  lastShort : Bool := false
  curShort : Bool := false
  /-- Last value of each programmable counter's condition.  DESIGN CHOICE, log entry 22. -/
  pevPrev : List Nat := []
  pev : Tab Dword := []
  armed : Bool := false
  /-- Candidate counts by sampler. -/
  cand : Tab Word := []
  /-- Oldest first, at most 4,096. -/
  glean : List GleanEnt := []
  nextGseq : Word := 0
  sinceArm : Nat := 0
  /-- The samplers' holding registers, and the sampler that the buffer took from last (R514).
  DESIGN CHOICE, log entry 141. -/
  holding : Tab GleanBody := []
  gleanPtr : Nat := 79
  deriving DecidableEq, Repr

/-! ### The machine -/

/-- Everything of the block but the queue of waiting commands. -/
structure Dev where
  /-- Core clocks since reset was released.  DESIGN CHOICE, log entry 2. -/
  now : Nat := 0
  boot : Boot := {}
  fuses : Fuses := {}
  clk : Clk := {}
  time : TimeBase := {}
  cmd : Cmd := {}
  hl : Howlink := {}
  mbx : Tab Mbox := []
  mg0 : MgLink := {}
  mg1 : MgLink := {}
  /-- Pending bits of GLB_INT_STATUS, vectors 16 and above (R533). -/
  intPend : Dword := 0
  /-- HEAD of TXR0 to TXR3 and of RXR (keys 0 to 4), and the next descriptor to take (8 to 12)
  (R534). -/
  heads : Tab (BitVec 16) := []
  fwd : Fwd := {}
  store : Store := {}
  tm : Tm := {}
  red : Red := {}
  thr : Thr := {}
  mem : MemTier := {}
  opt : Opt := {}
  ports : Tab PortSt := []
  /-- Plan table by logical port, and AUTO_REMAP by engine (R367, R369). -/
  plan : Tab PlanEntry := []
  autoRemap : BitVec 16 := 0
  faults : FaultSt := {}
  cnt : Cnt := {}
  /-- Registers written through the window, by offset; unlisted ones hold their reset value. -/
  regs : Tab Dword := []
  /-- Counters by offset; unlisted ones hold 0. -/
  ctrs : Tab Dword := []
  /-- Free values used so far: the model's own field, the argument of the free values of Config.
  DESIGN CHOICE, log entry 4. -/
  free : Nat := 0
  /-- What the device has sent, newest first.  DESIGN CHOICE, log entry 5. -/
  out : List Out := []
  /-- What the ports in loopback NEAR and OPTICAL have sent and not yet received again, oldest first, as the events
  of its return (R522).  DEDUCED, log entry 174. -/
  loopQ : List Instr := []
  deriving DecidableEq, Repr

/-- The state of the block: the commands that wait, first in first out, and the device. -/
structure State where
  /-- DESIGN CHOICE, log entry 1. -/
  pending : List Instr
  d : Dev
  deriving DecidableEq, Repr

/-- The device right after reset is released: POWER_ON, every field at its reset value.
DESIGN CHOICE, log entry 2; DEDUCED, log entry 125. -/
def Dev.reset : Dev := {}

/-- The machine right after reset.  DESIGN CHOICE, log entry 1; DEDUCED, log entry 125. -/
def State.reset : State := { pending := [], d := Dev.reset }

end Sys2Proof.Machine
end

