-- ==== Sys2Proof/Machine/Tab.lean ====
section
/-! DEFINITION. Sparse tables: reading, writing and deleting by key, and their canonical form: keys
strictly rising, and no entry equal to what an unlisted key reads as.  Memory is such a table. -/

namespace Sys2Proof

/-- The entry of a key, if the key is listed. -/
def Tab.find {α : Type} : Tab α → Nat → Option α
  | [], _ => none
  | (k, v) :: r, n => if k = n then some v else Tab.find r n

/-- The entry of a key, or the default that unlisted keys read as. -/
def Tab.get {α : Type} (t : Tab α) (n : Nat) (dflt : α) : α := (Tab.find t n).getD dflt

/-- Writes an entry, keeping the keys in rising order. -/
def Tab.put {α : Type} : Tab α → Nat → α → Tab α
  | [], n, v => [(n, v)]
  | (k, w) :: r, n, v =>
    if n < k then (n, v) :: (k, w) :: r
    else if n = k then (n, v) :: r
    else (k, w) :: Tab.put r n v

/-- Removes an entry. -/
def Tab.del {α : Type} : Tab α → Nat → Tab α
  | [], _ => []
  | (k, w) :: r, n => if k = n then Tab.del r n else (k, w) :: Tab.del r n

/-- Writes an entry of a table whose unlisted keys read as `dflt`: writing that value removes the
entry. -/
def Tab.set {α : Type} [DecidableEq α] (t : Tab α) (n : Nat) (v dflt : α) : Tab α :=
  if v = dflt then Tab.del t n else Tab.put t n v

/-- Writes or removes an entry. -/
def Tab.putOpt {α : Type} (t : Tab α) (n : Nat) : Option α → Tab α
  | none => Tab.del t n
  | some v => Tab.put t n v

/-- Changes an entry, where it is listed. -/
def Tab.adj {α : Type} (t : Tab α) (n : Nat) (f : α → α) : Tab α :=
  match Tab.find t n with
  | none => t
  | some v => Tab.put t n (f v)

/-- Listed keys. -/
def Tab.keys {α : Type} (t : Tab α) : List Nat := t.map Prod.fst

/-- Every key of the table lies above `b`, and the keys rise strictly. -/
def Tab.risingFrom {α : Type} : Nat → Tab α → Bool
  | _, [] => true
  | b, (k, _) :: r => decide (b < k) && Tab.risingFrom k r

/-- Keys strictly rising. -/
def Tab.rising {α : Type} : Tab α → Bool
  | [] => true
  | (k, _) :: r => Tab.risingFrom k r

/-- No entry equals the default. -/
def Tab.tight {α : Type} [DecidableEq α] (t : Tab α) (dflt : α) : Bool :=
  t.all fun e => !decide (e.2 = dflt)

/-- The canonical form. -/
def Tab.wf {α : Type} [DecidableEq α] (t : Tab α) (dflt : α) : Bool :=
  Tab.rising t && Tab.tight t dflt

/-! ### Bytes of board memory -/

/-- What an unlisted byte of device-homed memory reads as (log entry 3).  DESIGN CHOICE, log entry 3. -/
def memDefault : Byte := 0

/-- Canonical form of a memory. -/
def memWf (m : List Host.Cell) : Bool := Tab.wf m memDefault

/-- One byte.  DESIGN CHOICE, log entry 3. -/
def memByte (m : List Host.Cell) (a : Nat) : Byte := Tab.get m a memDefault

/-- Writes one byte. -/
def memSetByte (m : List Host.Cell) (a : Nat) (b : Byte) : List Host.Cell := Tab.set m a b memDefault

/-- `n` bytes from an address. -/
def memRead (m : List Host.Cell) (a : Nat) : Nat → List Byte
  | 0 => []
  | n + 1 => memByte m a :: memRead m (a + 1) n

/-- Writes bytes from an address. -/
def memWrite (m : List Host.Cell) (a : Nat) : List Byte → List Host.Cell
  | [] => m
  | b :: r => memWrite (memSetByte m a b) (a + 1) r

/-- Forgets the bytes of an address range, which then read as the default. -/
def memClear (m : List Host.Cell) (lo hi : Nat) : List Host.Cell :=
  m.filter fun c => !decide (lo ≤ c.1 ∧ c.1 < hi)

end Sys2Proof
end

