-- ==== Sys2Proof/Machine/Bits.lean ====
section
/-! DEFINITION. Bit fields, byte order (R7), the frame header's words (R42) and the two check codes
of the tail (R59, R60). -/

namespace Sys2Proof

/-- Bits `hi` down to `lo` of a number. -/
def bitsOf (v hi lo : Nat) : Nat := (v >>> lo) % 2 ^ (hi + 1 - lo)

/-- Bit `i` of a number. -/
def bitOf (v i : Nat) : Bool := v.testBit i

/-- A number with bit `i` set to `b`. -/
def withBit (v i : Nat) (b : Bool) : Nat :=
  if b then v ||| (1 <<< i) else v - (v &&& (1 <<< i))

/-- A number with bits `hi` down to `lo` replaced. -/
def withBits (v hi lo x : Nat) : Nat :=
  (v - (bitsOf v hi lo) <<< lo) + (x % 2 ^ (hi + 1 - lo)) <<< lo

/-- `n` bytes of a number, most significant first (R7). -/
def beBytes : Nat → Nat → List Byte
  | 0, _ => []
  | n + 1, v => BitVec.ofNat 8 (v >>> (8 * n)) :: beBytes n v

/-- The number that bytes spell, most significant first. -/
def ofBe (l : List Byte) : Nat := l.foldl (fun a b => a * 256 + b.toNat) 0

/-- `n` bytes of a number, least significant first: data structures in board memory (R7). -/
def leBytes : Nat → Nat → List Byte
  | 0, _ => []
  | n + 1, v => BitVec.ofNat 8 v :: leBytes n (v / 256)

/-- The number that bytes spell, least significant first. -/
def ofLe : List Byte → Nat
  | [] => 0
  | b :: r => b.toNat + 256 * ofLe r

/-- `n` bytes from position `i` of a list; missing ones are left out. -/
def slice (l : List Byte) (i n : Nat) : List Byte := (l.drop i).take n

/-- The numbers of the bits that are set, rising. -/
def members {w : Nat} (m : BitVec w) : List Nat :=
  (List.range w).filter fun i => m.getLsbD i

/-- Number of bits set. -/
def popCount {w : Nat} (m : BitVec w) : Nat := (members m).length

/-- Bit p of a port mask. -/
def hasPort (m : PortMask) (p : Nat) : Bool := m.getLsbD p

/-- The mask of one port. -/
def portBit (p : Nat) : PortMask := BitVec.ofNat 512 (1 <<< p)

/-- Signed reading of a number of `w` bits. -/
def signedOf (w v : Nat) : Int :=
  if v % 2 ^ w < 2 ^ (w - 1) then (v % 2 ^ w : Nat) else (v % 2 ^ w : Nat) - (2 ^ w : Nat)

/-- Two's-complement image of an integer in `w` bits. -/
def unsignedOf (w : Nat) (i : Int) : Nat := (i % (2 ^ w : Nat)).toNat

/-- Signed distance a - b of two 32-bit sequence numbers. -/
def seqDist (a b : Word) : Int := (a - b).toInt

/-! ### The header (R42) -/

/-- W0 to W5 and KSF as numbers. -/
def Header.w0 (h : Header) : Nat :=
  h.ver.toNat <<< 28 ||| h.kind.toNat <<< 24 ||| h.tc.toNat <<< 21 ||| h.ce.toNat <<< 20 |||
  h.part.toNat <<< 8 ||| h.hops.toNat <<< 4 ||| h.epoch.toNat <<< 2 ||| h.es.toNat <<< 1 ||| h.r0.toNat
def Header.w1 (h : Header) : Nat := h.job.toNat <<< 16 ||| h.len.toNat <<< 2 ||| h.r1.toNat
def Header.w2 (h : Header) : Nat := h.dst.toNat <<< 8 ||| h.fmt.toNat
def Header.w3 (h : Header) : Nat := h.src.toNat <<< 8 ||| h.sub.toNat
def Header.w4 (h : Header) : Nat := h.ctx.toNat <<< 16 ||| h.tf.toNat <<< 15 ||| h.r4.toNat

/-- The 32 header bytes (R40, R42). -/
def Header.bytes (h : Header) : List Byte :=
  beBytes 4 h.w0 ++ beBytes 4 h.w1 ++ beBytes 4 h.w2 ++ beBytes 4 h.w3 ++ beBytes 4 h.w4 ++
  beBytes 4 h.seq.toNat ++ beBytes 8 h.ksf.toNat

/-- The header that 32 bytes spell. -/
def Header.ofBytes (l : List Byte) : Header :=
  let w := fun i => ofBe (slice l (4 * i) 4)
  { ver := .ofNat 4 (bitsOf (w 0) 31 28), kind := .ofNat 4 (bitsOf (w 0) 27 24),
    tc := .ofNat 3 (bitsOf (w 0) 23 21), ce := bitOf (w 0) 20, part := .ofNat 12 (bitsOf (w 0) 19 8),
    hops := .ofNat 4 (bitsOf (w 0) 7 4), epoch := .ofNat 2 (bitsOf (w 0) 3 2), es := bitOf (w 0) 1,
    r0 := bitOf (w 0) 0, job := .ofNat 16 (bitsOf (w 1) 31 16), len := .ofNat 14 (bitsOf (w 1) 15 2),
    r1 := .ofNat 2 (w 1), dst := .ofNat 24 (bitsOf (w 2) 31 8), fmt := .ofNat 8 (w 2),
    src := .ofNat 24 (bitsOf (w 3) 31 8), sub := .ofNat 8 (w 3), ctx := .ofNat 16 (bitsOf (w 4) 31 16),
    tf := bitOf (w 4) 15, r4 := .ofNat 15 (w 4), seq := .ofNat 32 (w 5),
    ksf := .ofNat 64 (w 6 * 2 ^ 32 + w 7) }

/-- The header with the five mutable fields of R43 taken as zero (R59). -/
def Header.frozen (h : Header) : Header :=
  { h with tc := 0, ce := false, hops := 0, epoch := 0, es := false }

/-- A header of zeros with VER 0x1: what the device starts from in frames that it builds (R44). -/
def Header.blank : Header :=
  { ver := 1, kind := 0, tc := 0, ce := false, part := 0, hops := 0, epoch := 0, es := false,
    r0 := false, job := 0, len := 0, r1 := 0, dst := 0, fmt := 0, src := 0, sub := 0, ctx := 0,
    tf := false, r4 := 0, seq := 0, ksf := 0 }

/-! ### Check codes -/

/-- One bit of a reflected CRC with reversed polynomial `poly`. -/
def crcBit (poly c : Nat) : Nat :=
  if c % 2 = 1 then (c / 2) ^^^ poly else c / 2

/-- One byte of a reflected CRC. -/
def crcByte (poly c : Nat) (b : Byte) : Nat :=
  let f := crcBit poly
  f (f (f (f (f (f (f (f (c ^^^ b.toNat))))))))

/-- A reflected CRC with initial value and final XOR of all ones. -/
def crcOf (poly : Nat) (l : List Byte) : Word :=
  BitVec.ofNat 32 (l.foldl (crcByte poly) 0xFFFFFFFF ^^^ 0xFFFFFFFF)

/-- CRC-32C (R59): 0x1EDC_6F41, which reversed is 0x82F6_3B78. -/
def crc32c (l : List Byte) : Word := crcOf 0x82F63B78 l

/-- CRC-32 (R60): 0x04C1_1DB7, which reversed is 0xEDB8_8320. -/
def crc32 (l : List Byte) : Word := crcOf 0xEDB88320 l

/-- The end-to-end check of a frame (R59). -/
def e2eCheck (h : Header) (payload : List Byte) : Word := crc32c (h.frozen.bytes ++ payload)

/-- The link check of a frame (R60). -/
def linkCheck (h : Header) (payload : List Byte) (e2e : Word) : Word :=
  crc32 (h.bytes ++ payload ++ beBytes 4 e2e.toNat)

/-! ### Link messages (24 bytes, byte 0 first) -/

/-- Byte `i` of a link message. -/
def LinkMsg.byte (m : LinkMsg) (i : Nat) : Byte := BitVec.ofNat 8 (m.toNat >>> (8 * (23 - i)))

/-- The bytes of a link message. -/
def LinkMsg.bytes (m : LinkMsg) : List Byte := beBytes 24 m.toNat

/-- The link message that bytes spell, padded with zeros. -/
def LinkMsg.ofBytes (l : List Byte) : LinkMsg :=
  BitVec.ofNat 192 (ofBe (l ++ List.replicate (24 - l.length) 0))

/-- The number in bytes `i` to `i + n - 1` of a link message. -/
def LinkMsg.field (m : LinkMsg) (i n : Nat) : Nat := ofBe (slice (LinkMsg.bytes m) i n)

end Sys2Proof
end

