-- ==== Sys2Proof/Machine/Num.lean ====
section
/-! DEFINITION. Exact binary numbers, rounding to a binary format, and the FP32 operations of the
reduction arithmetic (R161, R168, R169).  A number is a sign, a natural magnitude and a power of two;
every operation is exact first and rounds once. -/

namespace Sys2Proof

/-- A value: NaN, a signed infinity, or (-1)^neg × m × 2^e; m = 0 is a signed zero. -/
inductive Val where
  | nan
  | inf (neg : Bool)
  | fin (neg : Bool) (m : Nat) (e : Int)
  deriving DecidableEq, Repr

/-- A binary format of R161: mantissa bits, exponent bits, bias, code of the largest finite
magnitude, and whether it has infinities and NaN in the way of IEEE 754. -/
structure BinFmt where
  mant : Nat
  ebits : Nat
  bias : Nat
  maxCode : Nat
  ieee : Bool
  deriving DecidableEq, Repr

def fp32 : BinFmt := { mant := 23, ebits := 8, bias := 127, maxCode := 0x7F7FFFFF, ieee := true }
def fp64 : BinFmt := { mant := 52, ebits := 11, bias := 1023, maxCode := 0x7FEFFFFFFFFFFFFF, ieee := true }
def bf16 : BinFmt := { mant := 7, ebits := 8, bias := 127, maxCode := 0x7F7F, ieee := true }
def fp16 : BinFmt := { mant := 10, ebits := 5, bias := 15, maxCode := 0x7BFF, ieee := true }
def e4m3 : BinFmt := { mant := 3, ebits := 4, bias := 7, maxCode := 0x7E, ieee := false }
def e5m2 : BinFmt := { mant := 2, ebits := 5, bias := 15, maxCode := 0x7B, ieee := true }
def e2m3 : BinFmt := { mant := 3, ebits := 2, bias := 1, maxCode := 0x1F, ieee := false }
def e3m2 : BinFmt := { mant := 2, ebits := 3, bias := 3, maxCode := 0x1F, ieee := false }
def e2m1 : BinFmt := { mant := 1, ebits := 2, bias := 1, maxCode := 0x7, ieee := false }

/-- Width of a format in bits. -/
def BinFmt.width (f : BinFmt) : Nat := 1 + f.ebits + f.mant

/-- Exponent of the smallest subnormal: 1 - bias - mant. -/
def BinFmt.emin (f : BinFmt) : Int := 1 - (f.bias : Int) - (f.mant : Int)

/-- Decodes a code (R161).  A code above the largest finite magnitude is an infinity where the
mantissa is 0 in an IEEE format, and NaN otherwise. -/
def BinFmt.decode (f : BinFmt) (code : Nat) : Val :=
  let neg := code.testBit (f.ebits + f.mant)
  let mag := code % 2 ^ (f.ebits + f.mant)
  if f.maxCode < mag then
    if f.ieee && mag % 2 ^ f.mant == 0 then .inf neg else .nan
  else
    let ef := mag / 2 ^ f.mant
    let mf := mag % 2 ^ f.mant
    if ef = 0 then .fin neg mf f.emin
    else .fin neg (2 ^ f.mant + mf) (f.emin + (ef : Int) - 1)

/-- How an encoding rounds: to nearest even, or stochastically with this 16-bit r (R176). -/
inductive Rnd where
  | nearest
  | stoch (r : Nat)
  deriving DecidableEq, Repr

/-- Rounds m × 2^e to a multiple of 2^t; `neg` matters to stochastic rounding, whose lower
neighbour is the lower value (R176). -/
def roundAt (rnd : Rnd) (neg : Bool) (m : Nat) (e t : Int) : Nat :=
  if t ≤ e then m * 2 ^ (e - t).toNat
  else
    let s := (t - e).toNat
    let q := m / 2 ^ s
    let rem := m % 2 ^ s
    if rem = 0 then q
    else match rnd with
      | .nearest =>
        if 2 * rem < 2 ^ s then q
        else if 2 ^ s < 2 * rem then q + 1
        else q + q % 2
      | .stoch r =>
        if neg then
          let f := ((2 ^ s - rem) * 65536) / 2 ^ s
          if r < f then q else q + 1
        else
          let f := (rem * 65536) / 2 ^ s
          if r < f then q + 1 else q

/-- The magnitude code of m × 2^e rounded as though the exponent range had no upper limit (R178). -/
def BinFmt.roundMag (f : BinFmt) (rnd : Rnd) (neg : Bool) (m : Nat) (e : Int) : Nat :=
  if m = 0 then 0
  else
    let top : Int := (Nat.log2 m : Int) + e
    let t := if top - (f.mant : Int) < f.emin then f.emin else top - (f.mant : Int)
    (t - f.emin).toNat * 2 ^ f.mant + roundAt rnd neg m e t

/-- Sign bit of a format. -/
def BinFmt.signBit (f : BinFmt) (neg : Bool) : Nat := if neg then 2 ^ (f.ebits + f.mant) else 0

/-- Code of infinity in an IEEE format. -/
def BinFmt.infCode (f : BinFmt) : Nat := (2 ^ f.ebits - 1) * 2 ^ f.mant

/-- Code of the canonical NaN of an IEEE format (R179). -/
def BinFmt.nanCode (f : BinFmt) : Nat := f.infCode + 2 ^ (f.mant - 1)

/-- Encodes into an IEEE format by round to nearest even, overflowing to infinity. -/
def BinFmt.encodeIeee (f : BinFmt) : Val → Nat
  | .nan => f.nanCode
  | .inf neg => f.signBit neg + f.infCode
  | .fin neg m e =>
    let c := f.roundMag .nearest neg m e
    f.signBit neg + (if f.maxCode < c then f.infCode else c)

/-! ### Exact operations -/

/-- Exact sum; the sum of opposite infinities is NaN, an exact zero is +0 unless both are -0. -/
def Val.add : Val → Val → Val
  | .nan, _ => .nan
  | _, .nan => .nan
  | .inf a, .inf b => if a = b then .inf a else .nan
  | .inf a, .fin .. => .inf a
  | .fin .., .inf b => .inf b
  | .fin na ma ea, .fin nb mb eb =>
    let e := if ea ≤ eb then ea else eb
    let x : Int := ((ma * 2 ^ (ea - e).toNat : Nat) : Int) * (if na then -1 else 1)
    let y : Int := ((mb * 2 ^ (eb - e).toNat : Nat) : Int) * (if nb then -1 else 1)
    let z := x + y
    if z = 0 then .fin (na && nb && ma == 0 && mb == 0) 0 0
    else .fin (decide (z < 0)) z.natAbs e

/-- Negation. -/
def Val.neg : Val → Val
  | .nan => .nan
  | .inf a => .inf (!a)
  | .fin a m e => .fin (!a) m e

/-- Exact product; infinity times zero is NaN. -/
def Val.mul : Val → Val → Val
  | .nan, _ => .nan
  | _, .nan => .nan
  | .inf a, .inf b => .inf (a != b)
  | .inf a, .fin b m _ => if m = 0 then .nan else .inf (a != b)
  | .fin a m _, .inf b => if m = 0 then .nan else .inf (a != b)
  | .fin a m e, .fin b n f => .fin (a != b) (m * n) (e + f)

/-- Quotient to 128 significant bits with a sticky bit, so that one later rounding is that of the
exact quotient. -/
def Val.div : Val → Val → Val
  | .nan, _ => .nan
  | _, .nan => .nan
  | .inf _, .inf _ => .nan
  | .inf a, .fin b .. => .inf (a != b)
  | .fin a .., .inf b => .fin (a != b) 0 0
  | .fin a m e, .fin b n f =>
    if n = 0 then (if m = 0 then .nan else .inf (a != b))
    else
      let num := m * 2 ^ (128 + Nat.log2 n)
      .fin (a != b) (2 * (num / n) + (if num % n = 0 then 0 else 1)) (e - f - 129 - (Nat.log2 n : Int))

/-- Integer square root by bits from `i` down. -/
def isqrtFrom (n : Nat) : Nat → Nat → Nat
  | 0, acc => acc
  | i + 1, acc =>
    let t := acc + 2 ^ i
    isqrtFrom n i (if t * t ≤ n then t else acc)

/-- Square root to at least 96 significant bits with a sticky bit; of a negative number, NaN. -/
def Val.sqrt : Val → Val
  | .nan => .nan
  | .inf neg => if neg then .nan else .inf false
  | .fin neg m e =>
    if m = 0 then .fin neg 0 0
    else if neg then .nan
    else
      let odd := (e % 2 ≠ 0 : Bool)
      let m1 := (if odd then 2 * m else m) * 2 ^ 256
      let e1 := (if odd then e - 1 else e) - 256
      let r := isqrtFrom m1 (Nat.log2 m1 / 2 + 2) 0
      .fin false (2 * r + (if r * r = m1 then 0 else 1)) (e1 / 2 - 1)

/-- a ≤ b for finite magnitudes m × 2^e. -/
def magLe (m : Nat) (e : Int) (n : Nat) (f : Int) : Bool :=
  let g := if e ≤ f then e else f
  decide (m * 2 ^ (e - g).toNat ≤ n * 2 ^ (f - g).toNat)

/-- a < b among values that are not NaN, with -0 below +0 (R172). -/
def Val.less : Val → Val → Bool
  | .nan, _ => false
  | _, .nan => false
  | .inf a, .inf b => a && !b
  | .inf a, .fin .. => a
  | .fin .., .inf b => !b
  | .fin a m e, .fin b n f =>
    if a != b then a
    else if a then !magLe m e n f else !magLe n f m e

def Val.isNan : Val → Bool
  | .nan => true
  | _ => false

def Val.isInf : Val → Bool
  | .inf _ => true
  | _ => false

/-! ### FP32 on bit patterns (R168) -/

/-- The value of an FP32 pattern. -/
def f32v (x : Word) : Val := fp32.decode x.toNat

/-- Rounds to FP32. -/
def f32of (v : Val) : Word := BitVec.ofNat 32 (fp32.encodeIeee v)

def f32add (a b : Word) : Word := f32of ((f32v a).add (f32v b))
def f32sub (a b : Word) : Word := f32of ((f32v a).add (f32v b).neg)
def f32mul (a b : Word) : Word := f32of ((f32v a).mul (f32v b))
def f32div (a b : Word) : Word := f32of ((f32v a).div (f32v b))
def f32sqrt (a : Word) : Word := f32of (f32v a).sqrt
/-- a × b + c with one rounding. -/
def f32fma (a b c : Word) : Word := f32of (((f32v a).mul (f32v b)).add (f32v c))
def f32isNan (a : Word) : Bool := (f32v a).isNan
def f32isInf (a : Word) : Bool := (f32v a).isInf
def f32finite (a : Word) : Bool := !(f32isNan a) && !(f32isInf a)

/-- The larger value, +0 above -0; NaN if either is NaN (R172, R179). -/
def f32max (a b : Word) : Word :=
  if f32isNan a || f32isNan b then 0x7FC00000#32
  else if (f32v a).less (f32v b) then b else a

/-- The smaller value. -/
def f32min (a b : Word) : Word :=
  if f32isNan a || f32isNan b then 0x7FC00000#32
  else if (f32v b).less (f32v a) then b else a

/-! ### Wide pairs (R169): hi in bits [63:32], lo in bits [31:0] -/

def pairHi (p : Dword) : Word := p.extractLsb' 32 32
def pairLo (p : Dword) : Word := p.extractLsb' 0 32
def mkPair (hi lo : Word) : Dword := hi ++ lo

/-- Adds an FP32 value to a pair. -/
def wideAdd (p : Dword) (x : Word) : Dword :=
  let hi := pairHi p
  let lo := pairLo p
  if !(f32finite hi) || !(f32finite x) then mkPair (f32add hi x) 0
  else
    let s := f32add hi x
    if !(f32finite s) then mkPair s 0
    else
      let b := f32sub s x
      let e := f32add (f32sub hi b) (f32sub x (f32sub s b))
      let t := f32add lo e
      let h := f32add s t
      if !(f32finite h) then mkPair h 0 else mkPair h (f32sub t (f32sub h s))

/-- The exact value of a pair. -/
def pairVal (p : Dword) : Val := (f32v (pairHi p)).add (f32v (pairLo p))

end Sys2Proof
end

