-- ==== Sys2Proof/Machine/Flags.lean ====
section
/-! DEFINITION. The arithmetic flags of a chunk (R180) and what sets each of them. -/

namespace Sys2Proof

/-- The flags at the bit positions of R180. -/
abbrev Fl := BitVec 4

def flNan : Fl := 1
def flInf : Fl := 2
def flSat : Fl := 4
def flWrap : Fl := 8

/-- A flag, if the condition holds. -/
def flIf (b : Bool) (f : Fl) : Fl := if b then f else 0

/-- NAN of the flags. -/
def Fl.nan (f : Fl) : Bool := f.getLsbD 0

/-- Flags of FP32 values that were decoded or produced: NAN for a NaN, INF for an infinity (R179,
R180). -/
def flScan (l : List Word) : Fl :=
  l.foldl (fun a x => a ||| flIf (f32isNan x) flNan ||| flIf (f32isInf x) flInf) 0

/-- Flags of exact values. -/
def flScanVal (l : List Val) : Fl :=
  l.foldl (fun a x => a ||| flIf x.isNan flNan ||| flIf x.isInf flInf) 0

/-- WRAP: the signed value lies outside `w` bits (R170). -/
def flOutside (w : Nat) (v : Int) : Fl :=
  flIf (decide (v < -(2 ^ (w - 1) : Nat) ∨ ((2 ^ (w - 1) : Nat) : Int) ≤ v)) flWrap

end Sys2Proof
end

