-- ==== Sys2Proof/Machine/Operands.lean ====
section
/-! DEFINITION. Element formats (R57, R161 to R164): packing and unpacking of a payload, decoding
into the accumulator's type (R166), and encoding with scales, rounding and saturation (R176 to
R179). -/

namespace Sys2Proof

/-! ### What each FMT code is -/

def fmtIsInt (f : Nat) : Bool := f == 0x0C || f == 0x0D
def fmtIsFloat (f : Nat) : Bool := decide (1 ≤ f ∧ f ≤ 0x0B)
def fmtIsMx (f : Nat) : Bool := decide (6 ≤ f ∧ f ≤ 0x0B)
def fmtDefined (f : Nat) : Bool := decide (1 ≤ f ∧ f ≤ 0x0D)
/-- TF may be 1 (R57). -/
def fmtTransformable (f : Nat) : Bool := decide (4 ≤ f ∧ f ≤ 0x0B)

/-- The encoding of a floating format's elements. -/
def fmtBin (f : Nat) : BinFmt :=
  match f with
  | 1 => fp32 | 2 => bf16 | 3 => fp16 | 4 | 6 => e4m3 | 5 | 7 => e5m2
  | 8 => e2m3 | 9 => e3m2 | _ => e2m1

/-- Bits of an element on the wire. -/
def fmtBits (f : Nat) : Nat :=
  match f with
  | 1 | 0x0C => 32
  | 2 | 3 | 0x0D => 16
  | 8 | 9 => 6
  | 0x0A => 4
  | _ => 8

/-- Bytes and elements of a unit (R164). -/
def fmtUnitBytes (f : Nat) : Nat :=
  if fmtIsMx f then 1 + 4 * fmtBits f else fmtBits f / 8
def fmtUnitElems (f : Nat) : Nat := if fmtIsMx f then 32 else 1

/-- Most elements in 8,192 bytes (R164). -/
def fmtMaxElems (f : Nat) : Nat := 8192 / fmtUnitBytes f * fmtUnitElems f

/-- LEN is a whole number of units (R165). -/
def fmtLenOk (f len : Nat) : Bool := len % fmtUnitBytes f == 0

/-- Elements that LEN bytes hold. -/
def fmtElems (f len : Nat) : Nat := len / fmtUnitBytes f * fmtUnitElems f

/-- Payload bytes of a count of elements (R164). -/
def fmtBytes (f n : Nat) : Nat := n / fmtUnitElems f * fmtUnitBytes f

/-! ### Unpacking and packing -/

/-- `n` codes of `w` bits from a number that holds them most significant first. -/
def splitCodes (w : Nat) : Nat → Nat → List Nat
  | 0, _ => []
  | n + 1, v => bitsOf v (w * (n + 1) - 1) (w * n) :: splitCodes w n v

/-- The number that holds codes of `w` bits, most significant first. -/
def joinCodes (w : Nat) (l : List Nat) : Nat := l.foldl (fun a c => a * 2 ^ w + c) 0

/-- Cuts a list into pieces of `n`; the first argument bounds the count of pieces. -/
def pieces {α : Type} : Nat → Nat → List α → List (List α)
  | 0, _, _ => []
  | k + 1, n, l => if l.length < n then [] else l.take n :: pieces k n (l.drop n)

/-- Scale byte and element codes of each unit: the scale of a format without scales is 127. -/
def unpack (f : Nat) (payload : List Byte) : List (Nat × List Nat) :=
  (pieces payload.length (fmtUnitBytes f) payload).map fun u =>
    if fmtIsMx f then ((u.headD 0).toNat, splitCodes (fmtBits f) 32 (ofBe (u.drop 1)))
    else (127, [ofBe u])

/-- Decodes one floating element at a scale byte (R161, R162, R166): the FP32 pattern. -/
def decodeElem (f scale code : Nat) : Word :=
  if fmtIsMx f && scale == 255 then 0x7FC00000#32
  else
    let v : Val :=
      if f = 0x0B then
        let k := signedOf 8 code
        .fin (decide (k < 0)) k.natAbs (-6)
      else (fmtBin f).decode code
    match v with
    | .nan => 0x7FC00000#32
    | .inf n => f32of (.inf n)
    | .fin n m e => f32of (.fin n m (e + (scale : Int) - 127))

/-- Decodes a payload of a floating format. -/
def decodeFloat (f : Nat) (payload : List Byte) : List Word :=
  (unpack f payload).flatMap fun u => u.2.map (decodeElem f u.1)

/-- Decodes a payload of an integer format, sign-extended to 64 bits. -/
def decodeInt (f : Nat) (payload : List Byte) : List Dword :=
  (unpack f payload).flatMap fun u => u.2.map fun c => BitVec.ofInt 64 (signedOf (fmtBits f) c)

/-! ### Encoding -/

/-- The rounding of element `i`: nearest, or stochastic with r = h[15:0] (R176). -/
def rndFor (rnd : Bool) (seed seq : Word) (i : Nat) : Rnd :=
  if rnd then
    .stoch ((crc32c (beBytes 4 seed.toNat ++ beBytes 4 seq.toNat ++ beBytes 4 i)).toNat % 65536)
  else .nearest

/-- The magnitude code and flags of a value in a format of FP8 or of MX elements: a magnitude beyond
the largest finite, and an infinity, become the largest finite (R178). -/
def satCode (f : BinFmt) (rnd : Rnd) : Val → Nat × Fl
  | .nan => (0, flNan)
  | .inf n => (f.signBit n + f.maxCode, flInf ||| flSat)
  | .fin n m e =>
    let c := f.roundMag rnd n m e
    if f.maxCode < c then (f.signBit n + f.maxCode, flSat) else (f.signBit n + c, 0)

/-- The code and flags of a value in FP32, BF16 or FP16 (R178). -/
def ieeeCode (f : BinFmt) (rnd : Rnd) : Val → Nat × Fl
  | .nan => (f.nanCode, flNan)
  | .inf n => (f.signBit n + f.infCode, flInf)
  | .fin n m e =>
    let c := f.roundMag rnd n m e
    if f.maxCode < c then (f.signBit n + f.infCode, flSat ||| flInf) else (f.signBit n + c, 0)

/-- The code and flags of a value as an MXINT8 element at scale 2^0: k × 2^-6, -127 to 127. -/
def int8Code (rnd : Rnd) : Val → Nat × Fl
  | .nan => (0, flNan)
  | .inf n => (if n then 0x81 else 0x7F, flInf ||| flSat)
  | .fin n m e =>
    let k := roundAt rnd n m e (-6)
    let sat := decide (127 < k)
    let k1 := if sat then 127 else k
    (if n && k1 != 0 then 256 - k1 else k1, flIf sat flSat)

/-- The largest finite value of an MX element format as m × 2^e. -/
def emaxOf (f : Nat) : Nat × Int :=
  if f = 0x0B then (127, -6)
  else match (fmtBin f).decode (fmtBin f).maxCode with
    | .fin _ m e => (m, e)
    | _ => (1, 0)

/-- The larger of two finite magnitudes. -/
def magMax (a b : Nat × Int) : Nat × Int := if magLe a.1 a.2 b.1 b.2 then b else a

/-- The largest finite magnitude of a block. -/
def blockMax (l : List Val) : Nat × Int :=
  l.foldl (fun a v => match v with
    | .fin _ m e => magMax a (m, e)
    | _ => a) (0, 0)

/-- X of R177, plus 127. -/
def scaleByte (f : Nat) (l : List Val) : Nat :=
  let M := blockMax l
  if M.1 = 0 then 0
  else
    let E := emaxOf f
    let x0 : Int := (Nat.log2 M.1 : Int) + M.2 - ((Nat.log2 E.1 : Int) + E.2)
    let x := if magLe M.1 M.2 E.1 (E.2 + x0) then x0 else x0 + 1
    if x < -127 then 0 else if 127 < x then 254 else (x + 127).toNat

/-- The values scaled by 2^-(s - 127). -/
def unscale (s : Nat) : Val → Val
  | .fin n m e => .fin n m (e - (s : Int) + 127)
  | v => v

/-- Codes of a list of values from element index `i`, and the OR of their flags. -/
def codesFrom (enc : Nat → Val → Nat × Fl) : Nat → List Val → List Nat × Fl
  | _, [] => ([], 0)
  | i, v :: r =>
    let x := enc i v
    let y := codesFrom enc (i + 1) r
    (x.1 :: y.1, x.2 ||| y.2)

/-- One unit: an MX block, or one element, from element index `i`. -/
def encodeUnit (f : Nat) (rnd : Nat → Rnd) (i : Nat) (l : List Val) : List Byte × Fl :=
  if fmtIsMx f then
    let s := scaleByte f l
    let r := codesFrom (fun i v =>
      let w := unscale s v
      if f = 0x0B then int8Code (rnd i) w else satCode (fmtBin f) (rnd i) w) i l
    (BitVec.ofNat 8 s :: beBytes (4 * fmtBits f) (joinCodes (fmtBits f) r.1), r.2)
  else
    let r := codesFrom (fun i v =>
      if f ≤ 3 then ieeeCode (fmtBin f) (rnd i) v else satCode (fmtBin f) (rnd i) v) i l
    (beBytes (fmtBits f / 8) (joinCodes (fmtBits f) r.1), r.2)

/-- Units from element index `i`. -/
def encodeUnits (f : Nat) (rnd : Nat → Rnd) : Nat → List (List Val) → List Byte × Fl
  | _, [] => ([], 0)
  | i, u :: r =>
    let x := encodeUnit f rnd i u
    let y := encodeUnits f rnd (i + u.length) r
    (x.1 ++ y.1, x.2 ||| y.2)

/-- One unit of the canonical NaN (R179). -/
def nanUnit (f : Nat) : List Byte :=
  if fmtIsMx f then 0xFF#8 :: List.replicate (4 * fmtBits f) 0
  else match f with
    | 1 => [0x7F, 0xC0, 0, 0]
    | 2 => [0x7F, 0xC0]
    | 3 => [0x7E, 0x00]
    | 4 => [0x7F]
    | _ => [0x7E]

/-- Encodes floating values into a payload; `nan` makes every element the canonical NaN. -/
def encodeFloat (f : Nat) (rnd : Nat → Rnd) (nan : Bool) (l : List Val) : List Byte × Fl :=
  if nan then
    ((List.range (l.length / fmtUnitElems f)).flatMap fun _ => nanUnit f, flNan)
  else encodeUnits f rnd 0 (pieces l.length (fmtUnitElems f) l)

/-- Encodes exact integers into a payload, modulo 2^w with WRAP (R170). -/
def encodeInt (f : Nat) (l : List Int) : List Byte × Fl :=
  (l.flatMap fun v => beBytes (fmtBits f / 8) (unsignedOf (fmtBits f) v),
   l.foldl (fun a v => a ||| flOutside (fmtBits f) v) 0)

/-! ### The rotated-block transform (R181 to R183) -/

/-- The sign of H4 at a row and a column. -/
def h4Neg (i j : Nat) : Bool := decide ((Nat.xor (i % 2 * (j % 2)) (i / 2 * (j / 2))) % 2 = 1)

/-- One sum of four FP32 products by ±1, rounded once. -/
def sum4 (s : Nat → Bool) (x : Nat → Word) : Word :=
  let t := fun k => if s k then (f32v (x k)).neg else f32v (x k)
  f32of ((((t 0).add (t 1)).add (t 2)).add (t 3))

/-- The first stage of T on a block of 16 FP32 values, H4 × X (R183). -/
def halfRotate (x : List Word) : List Word :=
  (List.range 16).map fun n => sum4 (fun k => h4Neg (n / 4) k) (fun k => x.getD (4 * k + n % 4) 0)

/-- T of a block: (H4 × X × H4) / 4 in two stages, each rounded once (R183). -/
def rotate (x : List Word) : List Word :=
  let y := halfRotate x
  let z := (List.range 16).map fun n =>
    sum4 (fun k => h4Neg k (n % 4)) (fun k => y.getD (4 * (n / 4) + k) 0)
  z.map fun w => f32mul w 0x3E800000#32

/-- T on each block of 16. -/
def rotateAll (l : List Word) : List Word := (pieces l.length 16 l).flatMap rotate

/-- The first stages alone, whose infinities the flags see (R180). -/
def halfRotateAll (l : List Word) : List Word := (pieces l.length 16 l).flatMap halfRotate

end Sys2Proof
end

