-- ==== Sys2Proof/Machine/Accum.lean ====
section
/-! DEFINITION. The accumulator of a chunk (R158, R166 to R175, R197): combining a contribution, and
the encoding of a partial or a result. -/

namespace Sys2Proof

/-- An FP32 value in the low half. -/
def wordEl (x : Word) : Dword := mkPair 0 x

/-- The identity of the operation (R197).  DEDUCED, log entry 82. -/
def Arith.identity (a : Arith) : Dword :=
  if fmtIsInt a.fmt then
    (match a.op with
     | 1 => BitVec.ofInt 64 (-(2 ^ (fmtBits a.fmt - 1) : Nat))
     | 2 => BitVec.ofInt 64 ((2 ^ (fmtBits a.fmt - 1) : Nat) - 1)
     | 5 => BitVec.allOnes 64
     | _ => 0)
  else match a.op with
    | 1 => wordEl 0xFF800000#32
    | 2 => wordEl 0x7F800000#32
    | _ => 0

/-- The square of an original contribution as a pair (R174): p, and the remainder that one fused
multiply-add gives; where p is an infinity it propagates alone (R169). -/
def squareRest (x p : Word) : Word := if f32finite p then f32fma x x (p ^^^ 0x80000000#32) else 0

/-- The first contribution to an element: the value as decoded, squared for an original one of
SUMSQ. -/
def Arith.first (a : Arith) (sq : Bool) (v : Dword) : Dword :=
  if fmtIsInt a.fmt then v
  else
    let x := pairLo v
    if a.wide then
      (if sq then wideAdd (mkPair (f32mul x x) 0) (squareRest x (f32mul x x)) else mkPair x 0)
    else if sq then wordEl (f32mul x x)
    else wordEl x

/-- Combines a later contribution with an element (R158, R168 to R170, R172, R174). -/
def Arith.combine (a : Arith) (sq : Bool) (acc v : Dword) : Dword :=
  if fmtIsInt a.fmt then
    (match a.op with
     | 1 => if acc.toInt < v.toInt then v else acc
     | 2 => if v.toInt < acc.toInt then v else acc
     | 5 => acc &&& v
     | 6 => acc ||| v
     | _ => acc + v)
  else
    let x := pairLo v
    if a.wide then
      (if sq then wideAdd (wideAdd acc (f32mul x x)) (squareRest x (f32mul x x)) else wideAdd acc x)
    else
      let y := pairLo acc
      wordEl (match a.op with
        | 1 => f32max y x
        | 2 => f32min y x
        | _ => if sq then f32fma x x y else f32add y x)

/-- Decodes a payload into accumulator values, at most `cap`, with the inverse transform, and the flags
of decoding and of the transform of every element that arrived (R166, R179, R180, R182). -/
def Arith.decode (a : Arith) (cap : Nat) (payload : List Byte) : List Dword × Fl :=
  if fmtIsInt a.fmt then ((decodeInt a.fmt payload).take cap, 0)
  else
    let l := decodeFloat a.fmt payload
    if a.tf then
      let y := rotateAll l
      ((y.map wordEl).take cap, flScan l ||| flScan (halfRotateAll l) ||| flScan y)
    else ((l.map wordEl).take cap, flScan l)

/-- Combines the values of one contribution into an accumulator of `cap` elements; an empty one is that
of a chunk's first contribution.  Elements that the contribution lacks take the identity.
DEDUCED, log entry 82. -/
def Arith.addAll (a : Arith) (cap : Nat) (sq : Bool) (acc : List AccEl) (vals : List Dword) : List AccEl :=
  let padded := vals.map (fun v => (v, true)) ++ List.replicate (cap - vals.length) (a.identity, false)
  if acc.isEmpty then
    padded.map fun p => { v := a.first (sq && p.2) p.1, hit := p.2 }
  else
    (acc.zip padded).map fun q =>
      { v := a.combine (sq && q.2.2) q.1.v q.2.1, hit := q.1.hit || q.2.2 }

/-- The exact value of an element (R169). -/
def Arith.val (a : Arith) (e : AccEl) : Val :=
  if !e.hit then .fin false 0 0
  else if a.wide then pairVal e.v else f32v (pairLo e.v)

/-- Flags of what the operations have left in the accumulator (R179, R180). -/
def Arith.accFlags (a : Arith) (acc : List AccEl) : Fl :=
  if fmtIsInt a.fmt then 0 else flScanVal (acc.map a.val)

/-- Flags of the products p = x × x that an original contribution of a wide SUMSQ adds (R174, R180): an infinity
among them counts, whatever the element then holds. -/
def Arith.squareFlags (a : Arith) (vals : List Dword) : Fl :=
  if fmtIsInt a.fmt || !a.wide then 0 else flScan (vals.map fun v => f32mul (pairLo v) (pairLo v))

/-- FP32 of 1/n, rounded to nearest even (R173). -/
def recip (n : Nat) : Word := f32of ((Val.fin false 1 0).div (.fin false n 0))

/-- The mean of an element: the product with 1/n; rounded into FP32 unless the accumulation is wide
(R173). -/
def Arith.mean (a : Arith) (e : AccEl) : Val :=
  let p := (a.val e).mul (f32v (recip a.meanN))
  if a.wide then p else f32v (f32of p)

/-- Encodes an accumulator into a payload, with its flags (R175 to R180, R182); the last component is
R179's verdict, which NAN among the flags `before` of the chunk gives too.  `root` adds the step of MEAN at
the root. -/
def Arith.encode (a : Arith) (root : Bool) (seq : Word) (before : Fl) (acc : List AccEl) :
    List Byte × Fl × Bool :=
  if fmtIsInt a.fmt then
    let r := encodeInt a.fmt (acc.map fun e => if e.hit then e.v.toInt else 0)
    (r.1, r.2, false)
  else
    let vals := acc.map fun e => if root && a.op == 3 then a.mean e else a.val e
    let fl0 := flScanVal vals
    let words := if a.tf then vals.map f32of else []
    let half := if a.tf then halfRotateAll words else []
    let rot := if a.tf then rotateAll words else []
    let fl1 := fl0 ||| flScan words ||| flScan half ||| flScan rot
    let nan := fl1.nan || before.nan
    let r := encodeFloat a.fmt (rndFor a.rnd a.seed seq) nan (if a.tf then rot.map f32v else vals)
    (r.1, fl1 ||| r.2, nan)

end Sys2Proof
end

