-- ==== Sys2Proof/Config.lean ====
section
/-! DEFINITION. What one part fixes and the spec leaves open: constants of the implementation and
the free values.  None has a body, so nothing can be proved of a value of any of them. -/

namespace Sys2Proof.Config

/-- A free value for the n-th use: signatures, nonces and exchange data of the SPDM responder, and
every other word that the spec says results without saying which. -/
opaque freeWord : Nat → BitVec 512

/-- A free bit for the n-th use: outcomes that the spec leaves to either side. -/
opaque freeBit : Nat → Bool

/-- The i-th payload byte that a copy completed with a tail mark carries where no byte arrived, for the n-th
use (R63, R111).  DESIGN CHOICE, log entry 129. -/
opaque cutByte : Nat → Nat → BitVec 8

/-- The fused SHA-256 of the vendor root key (R463). -/
opaque vendorRootHash : BitVec 256

/-- SHA-256 of the boot ROM (R469). -/
opaque bootRomHash : BitVec 256

/-- The labels under which the identity key and the alias key are derived from the unique device secret (R469). -/
opaque identityLabel : List (BitVec 8)
opaque aliasLabel : List (BitVec 8)

/-- Bytes of the identity certificate (false) and of the alias certificate (true), by the identity key and the alias
key: the first is the vendor's signature of the identity key, the second the identity key's of the alias key.  And
their lengths (R469, R477). -/
opaque certByte : Bool → BitVec 256 → BitVec 256 → Nat → BitVec 8
opaque certLen : Bool → BitVec 256 → BitVec 256 → Nat

/-- An instruction of the boundary-scan controller selects the boundary register; any other selects
the bypass register (R545). -/
opaque scanSelects : BitVec 8 → Bool

/-- An instruction that selects the boundary register has it drive the lands (R545). -/
opaque scanDrives : BitVec 8 → Bool

/-- Whether a read for a chunk in a cluster's array reaches a word of it: array as DIAG_INJECT numbers it, its index,
context, chunk and word (R488, R500).  The spec gives no place to a chunk.  DESIGN CHOICE, log entry 20. -/
opaque holdsWord : Nat → Nat → Nat → BitVec 32 → Nat → Bool

/-- Whether an uncorrectable read of the near tier, once no page can be retired, is that of a GDDR7 device that has
failed: device and core clock (R490).  DESIGN CHOICE, log entry 103. -/
opaque deviceFailed : Nat → Nat → Bool

/-- The heater value that a ring's loop reaches from a heater value and a monitor reading (R332). -/
opaque heaterLoop : BitVec 14 → BitVec 16 → BitVec 14

/-- How far above its last point a sweep finds the next resonance of a ring: ring, resonance, heater point
(R334).  The rings and the light decide it.  DESIGN CHOICE, log entry 128. -/
opaque resonanceStep : Nat → Nat → BitVec 14 → Nat

/-- The on-die sensor that measures an engine's junction temperature (R333, R544), modulo 16. -/
opaque engineSensor : Nat → Nat

/-- Bit error ratio and SNR that a receiver measures: physical port and core clock (R330).
DESIGN CHOICE, log entry 128. -/
opaque lineMeasure : Nat → Nat → BitVec 48

/-- Codewords that a port's receiver corrects in a core clock: physical port and core clock (R331).
DESIGN CHOICE, log entry 143. -/
opaque lineCorrected : Nat → Nat → Nat

/-- Symbols that the checker of a port in TEST receives in a core clock, and its bits in error among them: physical
port and core clock (R376).  DESIGN CHOICE, log entry 143. -/
opaque prbsSymbols : Nat → Nat → Nat
opaque prbsErrors : Nat → Nat → Nat

/-- Bits in error of the training frame that a port in loopback OPTICAL receives from itself, for the n-th use (R522).
DESIGN CHOICE, log entry 174. -/
opaque loopErrors : Nat → Nat

/-- GDDR7 errors corrected, Howlink flits corrected and Howlink replays in a core clock (R309).
DESIGN CHOICE, log entry 143. -/
opaque nearCorrected : Nat → Nat
opaque flitsCorrected : Nat → Nat
opaque flitReplays : Nat → Nat

/-- Whether a management link's receiver finds an invalid code group in a core clock: link and core clock (R401).
DESIGN CHOICE, log entry 143. -/
opaque badGroup : Nat → Nat → Bool

/-- A byte of the diagnostic window whose layout the spec does not give: the kind of object, the object as it
stands, and the place in its lane (R305).  DEDUCED, log entry 101. -/
opaque diagByte : Nat → List Nat → Nat → BitVec 8

/-- Numbers of the descriptor that a frame has taken, and of the queue entry that a copy of it has taken when it is
read in a core clock: the spec gives no rule by which they are taken (R103, R500).  DESIGN CHOICE, log entry 172. -/
opaque descriptorOf : Nat → Nat
opaque queueEntryOf : Nat → Nat → Nat

/-- Instructions that a core position issues for the n-th piece of work of its cluster, and the i-th of them: its
address in core SRAM (high half) and its latency in core clocks (R511 to R513).  DEDUCED, log entry 89. -/
opaque microIssued : Nat → Nat → Nat
opaque microInstr : Nat → Nat → Nat → BitVec 64

/-- Check symbol `i` of a codeword of the optical line's outer code, and check bit `i` of a word of its inner code, by
what they check: R320 gives the sizes of the codes alone.  DESIGN CHOICE, log entry 176. -/
opaque outerCheck : List (BitVec 10) → Nat → BitVec 10
opaque innerCheck : List Bool → Nat → Bool

/-- The levels that the boundary-scan cells capture, by core clock (R545). -/
opaque scanCapture : Nat → BitVec 64

end Sys2Proof.Config
end

