-- ==== Sys2Proof/Machine/Packets.lean ====
section
/-! DEFINITION. The bytes of what travels in packets and rings (R7): command packets, replies and event packets,
most significant byte first (R402, R428), and the descriptors of the rings, little-endian (R444, R534). -/

namespace Sys2Proof

/-! ### Command packets (R402) -/

/-- A field of a packet's header: `n` bytes from byte `i`, most significant first. -/
def Arrival.field (a : Arrival) (i n : Nat) : Nat := ofBe (slice a.packet i n)

def Arrival.opcode (a : Arrival) : BitVec 16 := BitVec.ofNat 16 (a.field 0 2)
def Arrival.typ (a : Arrival) : Byte := BitVec.ofNat 8 (a.field 2 1)
def Arrival.flags (a : Arrival) : Byte := BitVec.ofNat 8 (a.field 3 1)
def Arrival.seq (a : Arrival) : Word := BitVec.ofNat 32 (a.field 4 4)
def Arrival.txn (a : Arrival) : BitVec 16 := BitVec.ofNat 16 (a.field 10 2)
def Arrival.len (a : Arrival) : BitVec 16 := BitVec.ofNat 16 (a.field 12 2)

/-- Parameter bytes received after the 16 bytes of the header. -/
def Arrival.bytes (a : Arrival) : Nat := a.packet.length - 16

/-- The header that commands, replies and event packets share. -/
def packetHeader (opcode typ flags seq source status txn len agent : Nat) : List Byte :=
  beBytes 2 opcode ++ beBytes 1 typ ++ beBytes 1 flags ++ beBytes 4 seq ++ beBytes 1 source ++ beBytes 1 status ++
  beBytes 2 txn ++ beBytes 2 len ++ beBytes 1 agent ++ [0]

/-- The AGENT stamp: 0x10 + a for Howlink agent a, and 0 on MG0 and MG1. -/
def agentStamp (src : Source) (agent : BitVec 4) : Nat := if src = .howlink then 0x10 + agent.toNat else 0

/-- The SOURCE stamp of R402. -/
def Source.num : Source → Nat
  | .howlink => 1
  | .mg0 => 2
  | .mg1 => 3

/-! ### Descriptors (R444, R534) -/

/-- A transmit descriptor (R444). -/
structure TxDesc where
  buf : BitVec 52
  len : BitVec 16
  port : BitVec 16
  tsReq : Bool
  launch : Bool
  sec : BitVec 48
  ns : Word
  deriving DecidableEq, Repr

/-- A receive descriptor (R534). -/
structure RxDesc where
  buf : BitVec 52
  len : BitVec 16
  deriving DecidableEq, Repr

/-- `n` bytes of a descriptor from byte `i`, least significant first. -/
def descField (l : List Byte) (i n : Nat) : Nat := ofLe (slice l i n)

/-- The transmit descriptor that 32 bytes of board memory hold. -/
def TxDesc.ofBytes (l : List Byte) : TxDesc :=
  { buf := BitVec.ofNat 52 (descField l 0 8), len := BitVec.ofNat 16 (descField l 8 2),
    port := BitVec.ofNat 16 (descField l 10 2), tsReq := (descField l 12 1).testBit 0,
    launch := (descField l 12 1).testBit 1, sec := BitVec.ofNat 48 (descField l 16 6),
    ns := BitVec.ofNat 32 (descField l 22 4) }

/-- The receive descriptor that 32 bytes of board memory hold. -/
def RxDesc.ofBytes (l : List Byte) : RxDesc :=
  { buf := BitVec.ofNat 52 (descField l 0 8), len := BitVec.ofNat 16 (descField l 8 2) }

end Sys2Proof

namespace Sys2Proof.Machine

/-- Bytes 16 to 31 of a write-back (R444, R534): STATUS with TS_VALID, the time-stamp in ns since 0 s, and what a
receive ring holds in bytes 28 to 31. -/
def writeBackBytes (status : Nat) (stamp : Option Nat) (b28 : Nat) : List Byte :=
  let t := stamp.getD 0
  leBytes 1 (status + (if stamp.isSome then 128 else 0)) ++ [0] ++ leBytes 6 (t / 1000000000) ++
  leBytes 4 (t % 1000000000) ++ leBytes 4 b28

/-! ### Replies (R402, R409) -/

/-- The code of a status (R409). -/
def Status.code : Status → Nat
  | .ok => 0x00 | .busy => 0x01 | .noSpace => 0x02 | .conflict => 0x03 | .notFound => 0x04 | .badParam => 0x05
  | .denied => 0x06 | .rehashNeeded => 0x07 | .deferred => 0x08 | .incompatible => 0x09 | .lost => 0x0A
  | .timeout => 0x0B | .internal => 0x0F

/-- A field of a reply or of an event: its width in bytes, where the spec gives one, and its value. -/
structure PField where
  width : Option Nat
  val : Nat
  deriving DecidableEq, Repr

/-- Fields one after the other: none where one of them has no width. -/
def fieldBytes : List PField → Option (List Byte)
  | [] => some []
  | f :: r => match f.width, fieldBytes r with
    | some w, some b => some (beBytes w f.val ++ b)
    | _, _ => none

/-- The widths, in bytes, of the fields of a command's reply that lists `n` of them, where the spec gives
all: an ID of R413, the words of R216, R249, R251 and R253, and registers.  DESIGN CHOICE, log entry 157. -/
def replyWidths (op n : Nat) : Option (List Nat) :=
  if op = 0x0A01 then some [2]
  else if op = 0x0511 || op = 0x0607 then some (List.replicate n 4)
  else if op = 0x0608 then some (List.replicate n 8)
  else if op = 0x0304 then some (4 :: List.replicate 32 4 ++ List.replicate 32 8)
  else if op = 0x0707 then some [8, 4, 8, 8, 8, 8]
  else none

/-- The result's bytes in a reply to opcode `op`: none where the spec names the fields and not their widths.
DESIGN CHOICE, log entry 157. -/
def Res.toBytes (op : Nat) : Res → Option (List Byte)
  | .empty => some []
  | .claimed b => some (beBytes 4 b.toNat)
  | .failed index opcode => some (beBytes 4 index ++ beBytes 2 opcode ++ beBytes 2 0)
  | .flip epoch sec nsHigh => some (beBytes 1 epoch.toNat ++ beBytes 3 0 ++ beBytes 6 sec.toNat ++ beBytes 2 nsHigh.toNat)
  | .bytes l => some l
  | .fields l => match replyWidths op l.length with
    | some w => fieldBytes (List.zipWith (fun n v => { width := some n, val := v }) w l)
    | none => none

/-- A reply packet with this result. -/
def replyPacket (c : CmdCtx) (opcode : Nat) (st : Status) (result : List Byte) : List Byte :=
  packetHeader opcode 2 (2 * c.rsvd.toNat + c.noWait.toNat) c.seq.toNat c.src.num st.code c.txn.toNat result.length
    (agentStamp c.src c.agent) ++ result

/-- The reply to a packet that is answered as it arrives. -/
def Arrival.answer (a : Arrival) (st : Status) : List Byte :=
  packetHeader a.opcode.toNat 2 a.flags.toNat a.seq.toNat a.src.num st.code a.txn.toNat 0 (agentStamp a.src a.agent)

/-! ### Event packets (R427 to R429) -/

/-- The code of an event (R429, R451, R478, R501, R518). -/
def Ev.code : Ev → Nat
  | .refclkLost => 0x0101 | .txnDone .. => 0x0102 | .txnAborted .. => 0x0103 | .opDone .. => 0x0104
  | .mgUp .. => 0x0105 | .mgDown .. => 0x0106 | .lockBroken .. => 0x0107
  | .portUp .. => 0x0201 | .portDown .. => 0x0202 | .portPlan .. => 0x0203 | .portRemapped .. => 0x0204
  | .bandMismatch .. => 0x0301 | .laserRefFresh .. => 0x0302 | .laserWarn .. => 0x0303
  | .laserSwapped .. => 0x0304 | .laserHalf .. => 0x0305 | .spareGone .. => 0x0306
  | .tableEcc .. => 0x0401 | .emFull .. => 0x0402 | .storeCapacity .. => 0x0403
  | .ctxReady .. => 0x0501 | .ctxComplete .. => 0x0502 | .setupStall .. => 0x0503 | .sheafStuck .. => 0x0504
  | .thrReady .. => 0x0601 | .thrSolo .. => 0x0602 | .thrRebuildDone .. => 0x0603 | .thrLost .. => 0x0604
  | .thrPhaseDone .. => 0x0605
  | .memAccessFault .. => 0x0701 | .howlinkDegraded .. => 0x0702 | .pageRetired .. => 0x0703
  | .expSwapDone .. => 0x0704 | .granaryLoss .. => 0x0705
  | .timeLocked .. => 0x0801 | .timeUnlocked .. => 0x0802 | .timeJumpRefused .. => 0x0803
  | .timeDomainSwitch .. => 0x0804 | .ppsIn .. => 0x0805
  | .gleanFull .. => 0x0901
  | .bootResult .. => 0x0B01 | .ownerChanged .. => 0x0B02 | .rollbackAdvanced .. => 0x0B03
  | .fault .. => 0x0C01 | .spareUsed .. => 0x0C02 | .serviceDegraded .. => 0x0C03 | .endOfLife .. => 0x0C04
  | .clusterClosed .. => 0x0C05

/-- The group of an event: the high byte of its code, which DEV_EVENT_MASK names (R412). -/
def Ev.group (e : Ev) : Nat := e.code / 256

/-- The 32 bytes of a fault record (R481). -/
def FaultRec.bytes (r : FaultRec) : List Byte :=
  beBytes 4 r.fseq.toNat ++ beBytes 6 r.sec.toNat ++ beBytes 4 r.ns ++ beBytes 1 r.cls ++ beBytes 1 r.unit_ ++
  beBytes 2 r.index ++ beBytes 2 r.sub ++ beBytes 1 r.action ++ beBytes 1 r.left ++ beBytes 2 0 ++
  beBytes 8 r.detail

/-- Codes of a device state (R530), of the time base's (R438), and of a table, in the order of R66. -/
def DevState.code : DevState → Nat
  | .powerOn => 0 | .selfTest => 1 | .safeTalk => 2 | .boot => 3 | .ready => 4 | .run => 5
def TimeState.code : TimeState → Nat
  | .unset => 0 | .acquiring => 1 | .locked => 2 | .holdover => 3
def tableCode : TableId → Nat
  | .route => 0 | .em => 1 | .group => 2 | .part => 3 | .portset => 4

/-- A field of `w` bytes, and one to which the spec gives no width. -/
def fld (w v : Nat) : PField := { width := some w, val := v }
def bare (v : Nat) : PField := { width := none, val := v }

/-- A signed value in two's complement of `w` bytes. -/
def signedFld (w : Nat) (v : Int) : PField := fld w (BitVec.ofInt (8 * w) v).toNat

/-- Bytes as fields. -/
def byteFields (l : List Byte) : List PField := l.map fun b => fld 1 b.toNat

/-- The result of a COMMIT as fields of TXN_DONE. -/
def Res.asFields (op : Nat) (r : Res) : List PField :=
  match r.toBytes op with
  | some l => byteFields l
  | none => []

/-- The fields of an event from byte 12 of its data, in the order of its table (R429, R451, R478, R501, R518):
each with the width of the field of R402, register or entry that holds its value, or with none.
DESIGN CHOICE, log entry 157. -/
def Ev.fields : Ev → List PField
  | .refclkLost => []
  | .txnDone src seq txn st ns res =>
    [fld 1 src.num, fld 4 seq.toNat, fld 2 txn.toNat, fld 1 st.code, fld 4 ns] ++ res.asFields 0x0A02
  | .txnAborted src txn cause => [fld 1 src.num, fld 2 txn.toNat, bare cause]
  | .opDone src seq opcode st => [fld 1 src.num, fld 4 seq.toNat, fld 2 opcode, fld 1 st.code]
  | .mgUp link id => [bare link, fld 24 id.toNat]
  | .mgDown link lastExit => [bare link, bare lastExit]
  | .lockBroken mask owners => fld 2 mask.toNat :: byteFields owners
  | .portUp l p feat id => [bare l, bare p, bare feat.toNat, fld 24 id.toNat]
  | .portDown l p lastExit reason => [bare l, bare p, bare lastExit, bare reason]
  | .portPlan l p state id => [bare l, bare p, bare state, fld 24 id.toNat]
  | .portRemapped engine p r lp lr => [bare engine, bare p, bare r, bare lp, bare lr]
  | .bandMismatch engine terminate => [bare engine, bare terminate.toNat]
  | .laserRefFresh engine laser value => [bare engine, bare laser, fld 2 value.toNat]
  | .laserWarn engine laser fade => [bare engine, bare laser, signedFld 2 fade]
  | .laserSwapped engine port spare pauseNs => [bare engine, bare port, bare spare, bare pauseNs]
  | .laserHalf port mode => [bare port, bare mode]
  | .spareGone engine fiber => [bare engine, bare fiber]
  | .tableEcc pipeline t index => [bare pipeline, bare (tableCode t), bare index]
  | .emFull pipeline key => [bare pipeline, fld 6 key.toNat]
  | .storeCapacity bank active s => [bare bank, bare active, bare s]
  | .ctxReady ctx spill => [fld 2 ctx.toNat, bare (if spill then 2 else 1)]
  | .ctxComplete record => record.map fun w => fld 4 w
  | .setupStall ctx ms => [fld 2 ctx.toNat, bare ms]
  | .sheafStuck n phase count => [bare n, fld 4 phase.toNat, bare count]
  | .thrReady shard => [bare shard]
  | .thrSolo job phase => [bare job, fld 4 phase.toNat]
  | .thrRebuildDone job => [bare job]
  | .thrLost job lostSlots updatesLost => [bare job, bare lostSlots, bare updatesLost]
  | .thrPhaseDone job phase datum => [bare job, fld 4 phase.toNat, bare datum.toNat]
  | .memAccessFault addr count => [bare addr.toNat, bare count]
  | .howlinkDegraded lanes => [bare lanes]
  | .pageRetired addr left => [bare addr, bare left]
  | .expSwapDone port => [bare port]
  | .granaryLoss port mapped => [bare port, bare mapped.toNat]
  | .timeLocked domB => [bare domB.toNat]
  | .timeUnlocked st cause => [bare st.code, bare cause]
  | .timeJumpRefused source offset => [bare source, signedFld 8 offset]
  | .timeDomainSwitch fromB toB offset => [bare fromB.toNat, bare toB.toNat, signedFld 8 offset]
  | .ppsIn sec ns => [fld 6 sec.toNat, fld 4 ns]
  | .gleanFull gseq lost => [fld 4 gseq.toNat, fld 8 lost.toNat]
  | .bootResult st cause reject imgSlot svn =>
    [bare st.code, bare cause.toNat, bare reject.toNat, bare imgSlot.toNat, fld 1 svn.toNat]
  | .ownerChanged slot state => [bare slot, bare state]
  | .rollbackAdvanced count => [bare count]
  | .fault r => byteFields r.bytes
  | .spareUsed unit_ index spare left => [fld 1 unit_, fld 2 index, bare spare, bare left]
  | .serviceDegraded unit_ index step capacity => [fld 1 unit_, fld 2 index, bare step, bare capacity]
  | .endOfLife floor value => [bare floor, bare value]
  | .clusterClosed cluster contexts sheaves => [bare cluster, bare contexts, bare sheaves]

/-- An event's own bytes, from byte 12 of its data: none where the spec names one of its fields and not its
width.  DESIGN CHOICE, log entry 157. -/
def Ev.toBytes (e : Ev) : Option (List Byte) := fieldBytes e.fields

/-- The 12 bytes that an event's data begins with (R428). -/
def EvPacket.stamp (e : EvPacket) : List Byte :=
  beBytes 6 e.sec.toNat ++ beBytes 4 e.ns ++ beBytes 1 e.locked.toNat ++ [0]

/-- An event packet with these own bytes: SOURCE, STATUS, TXN and AGENT are 0. -/
def EvPacket.packet (e : EvPacket) (own : List Byte) : List Byte :=
  packetHeader e.ev.code 3 0 e.seq.toNat 0 0 0 (12 + own.length) 0 ++ e.stamp ++ own

end Sys2Proof.Machine
end

