-- ==== Sys2Proof/Machine/Regs.lean ====
section
/-! DEFINITION. The register window (R527 to R529): every register and counter of every block with
its offset, width, writable bits, write-one-to-clear bits and reset value, and the reading and
writing of the stored registers and of the counters. -/

namespace Sys2Proof.Machine

/-- A register, or a row of like registers, of a block: the first offset, the step and number of its
copies, its width, the masks of its RW and RW1C bits, its reset value, and whether it is device-wide
in a block of several instances (R100, R245).  A register that a transaction can stage, or that
shows state, has no RW bits (R25). -/
structure RegDef where
  first : Nat
  step : Nat := 4
  count : Nat := 1
  width : Nat
  rw : Nat := 0
  w1c : Nat := 0
  reset : Nat := 0
  wide : Bool := false
  deriving DecidableEq, Repr

/-- A block of R527. -/
structure Block where
  base : Nat
  stride : Nat
  count : Nat
  defs : List RegDef
  deriving DecidableEq, Repr

/-- `n` 64-bit RO counters from an offset. -/
def ctrRow (first n : Nat) : RegDef := { first := first, step := 8, count := n, width := 64 }

/-- GLB (R530 to R535). -/
def glbDefs : List RegDef :=
  [ { first := 0x0000, width := 64, reset := 0x1E6C5120B0000000 },
    { first := 0x0008, width := 64 },
    { first := 0x0010, width := 32 },
    { first := 0x0014, width := 32 },
    { first := 0x0018, width := 32 },
    { first := 0x001C, width := 32 },
    { first := 0x0020, width := 64, w1c := 0x2 },
    { first := 0x0100, width := 64, w1c := 0xFFFFFFFFFFFF0000 },
    { first := 0x0108, width := 64, rw := 0xFFFFFFFFFFFF0000, reset := 0xFFFFFFFFFFFF0000 },
    { first := 0x0110, width := 64 },
    ctrRow 0x0800 4,
    { first := 0x1000, step := 0x40, count := 4, width := 64, rw := 0x000FFFFFFFFFFFFF },
    { first := 0x1008, step := 0x40, count := 4, width := 32, rw := 0x1F0003, reset := 0x60002 },
    { first := 0x100C, step := 0x40, count := 4, width := 32, rw := 0xFFFF },
    { first := 0x1010, step := 0x40, count := 4, width := 32 },
    { first := 0x1100, width := 64, rw := 0x000FFFFFFFFFFFFF },
    { first := 0x1108, width := 32, rw := 0x1F0003, reset := 0x60002 },
    { first := 0x110C, width := 32, rw := 0xFFFF },
    { first := 0x1110, width := 32 } ]

/-- One mailbox (R399). -/
def mbxDefs : List RegDef :=
  [ { first := 0x00, width := 32 }, { first := 0x08, width := 64 }, { first := 0x10, width := 32 },
    { first := 0x18, width := 64 }, { first := 0x20, width := 32, w1c := 0x30000 },
    { first := 0x28, width := 32 } ]

/-- The shared mailbox registers (R400). -/
def mbxSharedDefs : List RegDef :=
  [ { first := 0x000, width := 32, w1c := 0xFFFFFFFF }, { first := 0x004, width := 32, rw := 0xFFFF },
    { first := 0x008, width := 32 }, ctrRow 0x100 3 ]

/-- SEC (R479). -/
def secDefs : List RegDef :=
  [ { first := 0x0000, width := 32 }, { first := 0x0008, width := 32 }, { first := 0x0010, width := 32 } ]

/-- TIME (R452, R453). -/
def timeDefs : List RegDef :=
  [ { first := 0x0000, width := 64, rw := 0xFFFFFFFFFFFFFF1F, reset := 0x0064006403E80A0D },
    { first := 0x0008, width := 32, w1c := 0x90 },
    { first := 0x0010, width := 64 }, { first := 0x0018, width := 64 },
    { first := 0x0020, width := 64 }, { first := 0x0028, width := 64 },
    { first := 0x0030, width := 64 }, { first := 0x0038, width := 64 },
    { first := 0x0040, width := 64 },
    { first := 0x0048, width := 32, rw := 0x800FFFFF, reset := 0x80000064 },
    ctrRow 0x0100 7 ]

/-- PORT (R65, R112, R156, R379, R380, R452, R504, R519, R523). -/
def portDefs : List RegDef :=
  [ { first := 0x0000, width := 32 },
    { first := 0x0004, width := 32, rw := 0xFFFF00FF, reset := 0x03E80008 },
    { first := 0x0008, width := 64, w1c := 0x8 },
    { first := 0x0010, step := 8, count := 3, width := 64 },
    { first := 0x0028, width := 64 },
    { first := 0x0040, width := 32, rw := 0xFF1, reset := 0x350 },
    { first := 0x0044, width := 32, rw := 0x1 },
    { first := 0x0048, width := 32 },
    { first := 0x004C, width := 32, rw := 0x3 },
    ctrRow 0x0100 15,
    ctrRow 0x0200 32,
    { first := 0x0300, step := 8, count := 4, width := 64 } ]

/-- OPT (R330, R331, R356, R357). -/
def optDefs : List RegDef :=
  [ { first := 0x0000, width := 32 },
    { first := 0x0010, width := 32, rw := 0xFFE7, reset := 0x0447 },
    { first := 0x0014, width := 32, rw := 0xFFFFFFFF, reset := 0x38201408 },
    { first := 0x0018, width := 64 },
    { first := 0x0100, step := 4, count := 32, width := 32 },
    { first := 0x0200, step := 8, count := 32, width := 64 },
    { first := 0x0400, step := 8, count := 32, width := 64 },
    { first := 0x0600, step := 4, count := 32, width := 32 },
    { first := 0x0680, step := 4, count := 5, width := 32 },
    ctrRow 0x1000 128,
    ctrRow 0x2000 128 ]

/-- FWD (R100, R101). -/
def fwdDefs : List RegDef :=
  [ { first := 0x0000, width := 32, w1c := 0x300, wide := true },
    { first := 0x0004, width := 32, wide := true },
    { first := 0x0010, width := 32, rw := 0xFFFFF001, reset := 0x0003C001, wide := true },
    { first := 0x0014, width := 32, rw := 0x7, reset := 0x1, wide := true },
    { first := 0x0018, width := 32, rw := 0xFFFFFFFF },
    { first := 0x0020, width := 64, wide := true },
    ctrRow 0x0100 14 ]

/-- STORE (R116, R135, R136). -/
def storeDefs : List RegDef :=
  [ { first := 0x0000, width := 32, rw := 0x2 },
    { first := 0x0004, width := 32, rw := 0xFFFFFFFF, reset := 0x001E8480 },
    { first := 0x0008, width := 64, w1c := 0x8000000000000000 },
    { first := 0x0010, width := 64 },
    { first := 0x0018, width := 32 },
    { first := 0x001C, width := 32, rw := 0xFFFF, reset := 16 },
    { first := 0x0020, step := 4, count := 5, width := 32, rw := 0xFFFFFF, reset := 0x400020 },
    { first := 0x0034, width := 32, rw := 0xFFFFFF, reset := 0x400040 },
    { first := 0x0038, width := 32, rw := 0xFFFFFF, reset := 0x500080 },
    { first := 0x003C, width := 32, rw := 0xFFFFFF, reset := 0x400040 },
    ctrRow 0x0100 8 ]

/-- TM (R156, R157). -/
def tmDefs : List RegDef :=
  [ { first := 0x0000, width := 32, rw := 0xFFFFFF03, reset := 0x00140A03 },
    { first := 0x0004, width := 32, rw := 0x00FFFFFF, reset := 0x000F1248 },
    { first := 0x0010, step := 4, count := 4, width := 32, rw := 0xFFFFF, reset := 1024 },
    { first := 0x0020, step := 4, count := 4, width := 32, rw := 0xFFFFF },
    ctrRow 0x0100 6 ]

/-- RED (R189, R190, R223, R245, R246). -/
def redDefs : List RegDef :=
  [ { first := 0x0800, width := 32, reset := 0xFF003FFE },
    ctrRow 0x0900 6,
    ctrRow 0x0A00 16,
    { first := 0x0B00, width := 64 },
    { first := 0x0B08, width := 64, wide := true },
    { first := 0x0B10, width := 32, wide := true },
    { first := 0x0B14, width := 32, rw := 0xFFFFFFFF, reset := 0x00C80064, wide := true },
    { first := 0x0B18, width := 32, rw := 0xFFF, reset := 0x400, wide := true },
    ctrRow 0x0C00 8 ]

/-- THR (R280, R281). -/
def thrDefs : List RegDef :=
  [ { first := 0x0000, width := 32, rw := 0xFFFFFFFF, reset := 0x03E86432 },
    { first := 0x0004, width := 32 },
    ctrRow 0x0100 15 ]

/-- MEM (R308, R309). -/
def memDefs : List RegDef :=
  [ { first := 0x0000, width := 64 },
    { first := 0x0008, width := 32, rw := 0xFFFF, reset := 4 },
    { first := 0x0010, width := 32 },
    { first := 0x0014, width := 32, rw := 0xFFFF, reset := 1024 },
    { first := 0x0020, step := 8, count := 4, width := 64 },
    { first := 0x0040, width := 32, rw := 0xFF01, reset := 0x1901 },
    { first := 0x0080, width := 64, rw := 0xF0000000003FFFFF },
    ctrRow 0x0100 9 ]

/-- CNT (R507, R519, R520). -/
def cntDefs : List RegDef :=
  [ { first := 0x0000, width := 32, rw := 0x1F, reset := 6 },
    { first := 0x0008, width := 32, rw := 0xFFC0E, reset := 0x84000 },
    { first := 0x0010, width := 64, rw := 0xFFFFFFFFFFFF8000, reset := 0xFFFF000000000000 },
    { first := 0x0018, width := 64 },
    ctrRow 0x0100 6,
    { first := 0x0200, step := 8, count := 64, width := 32, rw := 0x80FFFFFF },
    { first := 0x0400, step := 8, count := 64, width := 64 } ]

/-- MGL (R401). -/
def mglDefs : List RegDef :=
  [ { first := 0x000, width := 32, rw := 0xFFFF0103, reset := 0x000A0101 },
    { first := 0x008, width := 64 }, { first := 0x010, width := 64 },
    { first := 0x020, step := 8, count := 3, width := 64 }, ctrRow 0x100 8 ]

/-- Bases of the blocks (R527). -/
def baseTime : Nat := 0x400000
def basePort (p : Nat) : Nat := 0x800000 + p * 0x400
def baseOpt (k : Nat) : Nat := 0x1000000 + k * 0x10000
def baseFwd (k : Nat) : Nat := 0x2000000 + k * 0x40000
def baseStore : Nat := 0x2800000
def baseTm : Nat := 0x2C00000
def baseRed (k : Nat) : Nat := 0x3000000 + k * 0x40000
def baseThr : Nat := 0x3400000
def baseMem : Nat := 0x3800000
def baseCnt : Nat := 0x3C00000
def baseMgl (m : Nat) : Nat := 0x3E00000 + m * 0x1000
def baseMbx (n : Nat) : Nat := 0x100000 + n * 0x100
def baseMbxShared : Nat := 0x101000

/-- The blocks of the window (R527). -/
def blocks : List Block :=
  [ ⟨0, 0x100000, 1, glbDefs⟩, ⟨0x100000, 0x100, 16, mbxDefs⟩, ⟨0x101000, 0x1000, 1, mbxSharedDefs⟩,
    ⟨0x200000, 0x200000, 1, secDefs⟩, ⟨0x400000, 0x400000, 1, timeDefs⟩,
    ⟨0x800000, 0x400, 512, portDefs⟩, ⟨0x1000000, 0x10000, 16, optDefs⟩,
    ⟨0x2000000, 0x40000, 16, fwdDefs⟩, ⟨0x2800000, 0x400000, 1, storeDefs⟩,
    ⟨0x2C00000, 0x400000, 1, tmDefs⟩, ⟨0x3000000, 0x40000, 8, redDefs⟩,
    ⟨0x3400000, 0x400000, 1, thrDefs⟩, ⟨0x3800000, 0x400000, 1, memDefs⟩,
    ⟨0x3C00000, 0x200000, 1, cntDefs⟩, ⟨0x3E00000, 0x1000, 2, mglDefs⟩ ]

/-- A copy of the register starts at this offset of its block. -/
def RegDef.at_ (r : RegDef) (o : Nat) : Bool :=
  decide (r.first ≤ o ∧ (o - r.first) % r.step = 0 ∧ (o - r.first) / r.step < r.count)

/-- The block that holds an offset of the window. -/
def Block.holds (b : Block) (off : Nat) : Bool :=
  decide (b.base ≤ off ∧ off < b.base + b.stride * b.count)

/-- The register at an offset and the offset it is stored under: a device-wide register is stored
under its offset in block 0 (R100, R245). -/
def regAt (off : Nat) : Option (RegDef × Nat) :=
  match blocks.find? (fun b => b.holds off) with
  | none => none
  | some b =>
    let o := (off - b.base) % b.stride
    match b.defs.find? (fun r => r.at_ o) with
    | none => none
    | some r => some (r, if r.wide then b.base + o else off)

/-- Value of a stored register. -/
def Dev.reg (d : Dev) (off : Nat) : Nat :=
  match Tab.find d.regs off with
  | some v => v.toNat
  | none => match regAt off with
    | some (r, _) => r.reset
    | none => 0

/-- Sets a stored register. -/
def Dev.setReg (d : Dev) (off v : Nat) : Dev :=
  let dflt : Dword := match regAt off with
    | some (r, _) => BitVec.ofNat 64 r.reset
    | none => 0
  { d with regs := Tab.set d.regs off (BitVec.ofNat 64 v) dflt }

/-- A write to a stored register: RW bits take the value, RW1C bits written 1 are cleared, all others
keep theirs (R9, R10). -/
def Dev.writeReg (d : Dev) (r : RegDef) (off v : Nat) : Dev :=
  let old := d.reg off
  let kept := old - (old &&& r.rw)
  let set := kept ||| (v &&& r.rw)
  d.setReg off (set - (set &&& (v &&& r.w1c)))

/-- Bits of a stored register. -/
def Dev.regBits (d : Dev) (off hi lo : Nat) : Nat := bitsOf (d.reg off) hi lo

/-- One bit of a stored register. -/
def Dev.regBit (d : Dev) (off i : Nat) : Bool := bitOf (d.reg off) i

/-- Sets a bit of a stored register. -/
def Dev.setRegBit (d : Dev) (off i : Nat) (b : Bool) : Dev := d.setReg off (withBit (d.reg off) i b)

/-! ### Counters: 64 bits, wrapping at 2^64 (R65) -/

/-- Value of a counter. -/
def Dev.ctr (d : Dev) (off : Nat) : Nat := (Tab.get d.ctrs off 0).toNat

/-- Adds to a counter. -/
def Dev.bumpBy (d : Dev) (off n : Nat) : Dev :=
  { d with ctrs := Tab.set d.ctrs off (Tab.get d.ctrs off 0 + BitVec.ofNat 64 n) 0 }

/-- Adds 1 to a counter. -/
def Dev.bump (d : Dev) (off : Nat) : Dev := d.bumpBy off 1

/-! ### Names of counters, as offsets -/

def ctrRegDrop : Nat := 0x800
def ctrRxrDrop : Nat := 0x808
def ctrTxFrames : Nat := 0x810
def ctrGlbE2e : Nat := 0x818
def ctrPort (p o : Nat) : Nat := basePort p + o
def ctrFwd (k o : Nat) : Nat := baseFwd k + o
def ctrStore (o : Nat) : Nat := baseStore + o
def ctrTm (o : Nat) : Nat := baseTm + o
def ctrRed (k o : Nat) : Nat := baseRed k + o
def ctrThr (o : Nat) : Nat := baseThr + o
def ctrMem (o : Nat) : Nat := baseMem + o
def ctrTime (o : Nat) : Nat := baseTime + o
def ctrCnt (o : Nat) : Nat := baseCnt + o
def ctrMgl (m o : Nat) : Nat := baseMgl m + o
/-- Line counters of a port, by R331: first, second, third and fourth of its row. -/
def ctrLine (p i : Nat) : Nat := baseOpt (p / 32) + 0x1000 + 0x20 * (p % 32) + 8 * i
/-- Light counters of a port, by R357. -/
def ctrLight (p i : Nat) : Nat := baseOpt (p / 32) + 0x2000 + 0x20 * (p % 32) + 8 * i
/-- Class counts of a port, by R504: 0 RX_FRAMES, 1 RX_BYTES, 2 TX_FRAMES, 3 TX_BYTES. -/
def ctrClass (p c i : Nat) : Nat := basePort p + 0x200 + 0x20 * c + 8 * i

end Sys2Proof.Machine
end

