-- ==== Sys2Proof/Machine/Ops.lean ====
section
/-! DEFINITION. Shared operations: clocks and time stamps, what the device sends, interrupts (R533),
event packets (R427), fault records (R481), replies and the gate of a command (R402 to R410), port
numbering (R11, R369) and addresses (R46). -/

namespace Sys2Proof

/-- Rank of a class: the classes are nested. -/
def PrivClass.rank : PrivClass → Nat
  | .observer => 0
  | .operator => 1
  | .owner => 2

/-- What the header of a command says; none for an event. -/
def Instr.ctx? : Instr → Option CmdCtx
  | .devInfo c | .devState c | .devReset c .. | .devRole c .. | .devAdmit c | .devEventMask c ..
  | .devNop c .. | .begin_ c .. | .commit c | .rollback c | .txnStatus c .. | .planSet c ..
  | .planRead c .. | .planGroup c .. | .portMapSet c .. | .portMapRead c .. | .portRestart c ..
  | .portPrbs c .. | .portRead c .. | .optPortMode c .. | .optBandSet c .. | .optCampusFreq c ..
  | .optRead c .. | .optLaserRef c .. | .optSwap c .. | .optRelock c .. | .optLightRead c ..
  | .search c .. | .nextWalk c .. | .flushByPort c .. | .emInsert c .. | .emDelete c ..
  | .rehash c .. | .routeSet c .. | .groupSet c .. | .partSet c .. | .portsetSet c ..
  | .learnPeers c .. | .mirrorSet c .. | .partReserve c .. | .shaperSet c .. | .groupShaperSet c ..
  | .policerSet c .. | .policerMap c .. | .policerRead c .. | .ctxSet c .. | .ctxClose c ..
  | .ctxReform c .. | .ctxResize c .. | .ctxRead c .. | .sheafSet c .. | .sheafRead c ..
  | .sheafClose c .. | .thrJobSet c .. | .thrJobClose c .. | .thrParamSet c .. | .thrShardSet c ..
  | .thrShardClose c .. | .thrShardRole c .. | .thrRead c .. | .thrMapRead c ..
  | .memRegionSet c .. | .memRegionRead c | .memPageRetire c .. | .memPageList c ..
  | .memExpSwap c .. | .memSlotRestored c .. | .memStatus c | .timeRead c | .timeStep c ..
  | .timeAdjust c .. | .timeRateSet c .. | .ptpSet c .. | .ptpDomainSelect c .. | .launchRead c ..
  | .cntQueueRead c .. | .cntPartRead c .. | .gleanSet c .. | .gleanArm c .. | .gleanRead c ..
  | .cntPevSet c .. | .secRead c | .imageLoad c .. | .secOwnerEnroll c .. | .secOwnerRevoke c ..
  | .secRollbackSet c .. | .secCertRead c .. | .diagFaultRead c .. | .diagSpareRead c
  | .diagSelftestRead c .. | .diagEolRead c | .diagSpareForce c .. | .diagInject c .. => some c
  | _ => none

/-- Its source. -/
def Instr.source (i : Instr) : Option Source := (Instr.ctx? i).map fun c => c.src

/-- The objects that a staged command names (R417). -/
def Staged.objs : Staged → List Machine.Obj
  | .planSet p => [.plan p.port.toNat]
  | .planGroup p => [.planGroup p.engine.toNat]
  | .portMapSet p => [.portMap p.engine.toNat]
  | .optPortMode p => [.port p.port.toNat]
  | .optCampusFreq p => [.port p.port.toNat]
  | .emInsert p => [.em p.key]
  | .emDelete k => [.em k]
  | .rehash _ => [.rehash]
  | .routeSet p => [.route p.leaf.toNat]
  | .groupSet p => [.group p.group.toNat]
  | .partSet p => [.part p.part.toNat]
  | .portsetSet p => [.portset p.set.toNat]
  | .learnPeers _ => [.peers]
  | .mirrorSet p => [.mirror p.session.toNat]
  | .partReserve p => [.partRes p.part.toNat]
  | .shaperSet p => [.shaper p.port.toNat p.cls.toNat]
  | .groupShaperSet p => [.groupShaper p.group.toNat]
  | .policerSet p => [.policer p.policer.toNat]
  | .policerMap p => match p.key with
    | .portClass l c => [.polMapPort l.toNat c.toNat]
    | .partition n => [.polMapPart n.toNat]
  | .ctxSet p => [.ctx p.ctx.toNat]
  | .ctxClose c => [.ctx c.toNat]
  | .ctxReform p => [.ctx p.ctx.toNat]
  | .ctxResize p => [.ctx p.ctx.toNat]
  | .sheafSet p => [.sheaf p.n.toNat]
  | .sheafClose n => [.sheaf n.toNat]
  | .thrJobSet p => [.job p.j.toNat]
  | .thrJobClose j => [.job j.toNat]
  | .thrParamSet p => [.param p.block.toNat]
  | .thrShardSet p => [.shard p.shard.toNat]
  | .thrShardClose n => [.shard n.toNat]
  | .thrShardRole p => [.job p.j.toNat]
  | .memRegionSet p => [.region p.region.toNat]

/-- The mailbox number of a party (R391). -/
def RegActor.num : RegActor → Nat
  | .agent a => 0x10 + a.val
  | .sv n => 0x20 + n.val

end Sys2Proof

namespace Sys2Proof.Machine

/-! ### Clocks (R30) -/

/-- Core clocks in a microsecond and in a millisecond. -/
def clkUs : Nat := 1600
def clkMs : Nat := 1600000

/-- Nanoseconds that core clocks last, rounded down. -/
def nsOfClk (n : Nat) : Nat := n * 5 / 8

/-- Core clocks in which nanoseconds have passed, rounded up. -/
def clkOfNs (n : Nat) : Nat := (n * 8 + 4) / 5

/-- The time base in nanoseconds since 0 s (R431). -/
def Dev.timeNs (d : Dev) : Nat := d.time.sec.toNat * 1000000000 + d.time.ns

/-- A field in which 0 is taken as 1. -/
def atLeast1 (n : Nat) : Nat := if n = 0 then 1 else n

/-- The next state of a command: the device changes, the waiting commands stay. -/
def goto (s : State) (d : Dev) : Host.Outcome State Fault Refusal := .next { s with d := d }

/-! ### What the device sends -/

/-- Sends.  DESIGN CHOICE, log entry 5. -/
def Dev.send (d : Dev) (o : Out) : Dev := { d with out := o :: d.out }

/-- Draws the next free value.  DESIGN CHOICE, log entry 4. -/
def Dev.draw (d : Dev) : BitVec 512 × Dev := (Config.freeWord d.free, { d with free := d.free + 1 })

/-- Draws a free bit. -/
def Dev.drawBit (d : Dev) : Bool × Dev := (Config.freeBit d.free, { d with free := d.free + 1 })

/-- The device answers and forwards only outside reset; most events of the table cannot happen while
reset holds the device (R470, R471). -/
def Dev.awake (d : Dev) : Bool := !d.boot.inReset

/-- Supervisor core `n` runs. -/
def Dev.svRuns (d : Dev) (n : Nat) : Bool := !(d.boot.svStopped.getLsbD n || d.boot.svFail.getLsbD n)

/-- READY or RUN. -/
def Dev.serving (d : Dev) : Bool := d.boot.st = .ready || d.boot.st = .run

/-! ### Interrupts (R533) -/

/-- Offsets of the registers. -/
def offIntMask : Nat := 0x108

/-- The INT message of a vector; while Howlink is down it is discarded (R289), and reserved vectors are
never sent (R532). -/
def Dev.sendInt (d : Dev) (v : Nat) : Dev := if d.hl.up && decide (v < 24) then d.send (.int v) else d

/-- The source of vector `v`, 16 to 63, acts. -/
def Dev.raiseInt (d : Dev) (v : Nat) : Dev :=
  if d.intPend.getLsbD v then d
  else
    let d1 := { d with intPend := d.intPend ||| BitVec.ofNat 64 (1 <<< v) }
    if d1.regBit offIntMask v then d1 else d1.sendInt v

/-! ### Event packets (R427 to R429) -/

/-- The event queue of a destination. -/
def Dev.evDest (d : Dev) : Source → EvDest
  | .howlink => d.cmd.evHowlink
  | .mg0 => d.cmd.evMg0
  | .mg1 => d.cmd.evMg1

/-- Sets the event queue of a destination. -/
def Dev.setEvDest (d : Dev) (s : Source) (e : EvDest) : Dev :=
  match s with
  | .howlink => { d with cmd := { d.cmd with evHowlink := e } }
  | .mg0 => { d with cmd := { d.cmd with evMg0 := e } }
  | .mg1 => { d with cmd := { d.cmd with evMg1 := e } }

/-- The destination can receive: Howlink is up, or the link is ACTIVE (stage 5). -/
def Dev.destUp (d : Dev) : Source → Bool
  | .howlink => d.hl.up
  | .mg0 => d.mg0.st == 5
  | .mg1 => d.mg1.st == 5

/-- Generates an event for one destination: a masked event takes no sequence number, one for a full
queue or a destination that cannot receive takes one and is discarded. -/
def Dev.eventTo (d : Dev) (e : Ev) (s : Source) : Dev :=
  let q := d.evDest s
  if q.mask.getLsbD e.group then d
  else
    let q1 := { q with seq := q.seq + 1 }
    if d.destUp s && decide (q.queue.length < 256) then
      d.setEvDest s { q1 with queue := q.queue ++ [{
        dest := s, seq := q.seq, sec := d.time.sec,
        ns := d.time.ns, locked := decide (d.time.st = .locked), ev := e }] }
    else d.setEvDest s q1

/-- Generates an event for Howlink, MG0 and MG1.  SV1 sends events, and none is sent while it is
stopped (R23, R473). -/
def Dev.event (d : Dev) (e : Ev) : Dev :=
  if d.svRuns 1 then ((d.eventTo e .howlink).eventTo e .mg0).eventTo e .mg1 else d

/-! ### Fault records (R480 to R482) -/

/-- Raises vector 23 for the fault record `n`.  Where its FAULT packet waits for the companion, the INT message
follows it (R287, R533). -/
def Dev.raiseFault (d : Dev) (n : Word) (waits : Bool) : Dev :=
  if waits && !d.intPend.getLsbD 23 && !d.regBit offIntMask 23 then
    { d with intPend := d.intPend ||| BitVec.ofNat 64 (1 <<< 23),
             faults := { d.faults with intOwed := d.faults.intOwed ++ [n] } }
  else d.raiseInt 23

/-- A FAULT packet has left for the companion: the INT message that its record raised leaves. -/
def Dev.faultSent (d : Dev) (e : Ev) : Dev :=
  match e with
  | .fault r =>
    if d.faults.intOwed.contains r.fseq then
      { d with faults := { d.faults with intOwed := d.faults.intOwed.erase r.fseq } }.sendInt 23
    else d
  | _ => d

/-- Writes a fault record, sends it as FAULT, and raises vector 23 (R481, R482). -/
def Dev.recordFault (d : Dev) (cls unit_ index sub action left detail : Nat) : Dev :=
  let r : FaultRec := {
    fseq := d.faults.fseq, sec := d.time.sec, ns := d.time.ns, cls := cls,
    unit_ := unit_, index := index, sub := sub, action := action,
    left := if left > 255 then 255 else left, detail := detail }
  let d1 := { d with faults := { d.faults with
    fseq := d.faults.fseq + 1, log := (r :: d.faults.log).take 1024 } }
  let d2 := d1.event (.fault r)
  d2.raiseFault r.fseq (decide (d1.cmd.evHowlink.queue.length < d2.cmd.evHowlink.queue.length))

/-- A fault's record where SV2 writes it (R23, R480). -/
def Dev.faultRec (d : Dev) (cls unit_ index sub action left detail : Nat) : Dev :=
  if d.svRuns 2 then d.recordFault cls unit_ index sub action left detail else d

/-! ### Command packets -/

/-- The management link of a source. -/
def Dev.mgOf (d : Dev) : Source → MgLink
  | .mg1 => d.mg1
  | _ => d.mg0

/-- Link m. -/
def Dev.mg (d : Dev) (m : Nat) : MgLink := if m = 0 then d.mg0 else d.mg1

/-- Sets link m. -/
def Dev.setMg (d : Dev) (m : Nat) (l : MgLink) : Dev :=
  if m = 0 then { d with mg0 := l } else { d with mg1 := l }

/-- The privilege that a command's path holds (R410): none for a command outside an open session. -/
def Dev.classOf (d : Dev) (c : CmdCtx) : Option PrivClass :=
  match c.src with
  | .howlink => some (if d.boot.hlOwner then .owner else .operator)
  | s => match (d.mgOf s).sessions.find? (fun x => x.id == c.session) with
    | some x => x.cls
    | none => none

/-- Frees the place that a command holds (R405). -/
def Dev.freePlace (d : Dev) (c : CmdCtx) (op : Nat) : Dev :=
  { d with cmd := { d.cmd with
    places := d.cmd.places.eraseP fun p => p.src == c.src && p.seq == c.seq && p.opcode == op } }

/-- The path of a reply still stands: Howlink is up, or the link is ACTIVE and the session open
(R289, R388). -/
def Dev.pathUp (d : Dev) (c : CmdCtx) : Bool :=
  d.destUp c.src && (c.src == .howlink || (d.mgOf c.src).sessions.any fun x => x.id == c.session)

/-- Sends the reply of a command and frees its place.  A status other than OK carries no result,
except under R421 (R409).  A reply to the companion raises vector 16. -/
def Dev.reply (d : Dev) (c : CmdCtx) (op : Nat) (st : Status) (res : Res) : Dev :=
  let d1 := d.freePlace c op
  if d1.pathUp c && d1.svRuns 1 then
    let d2 := d1.send (.reply c op st res)
    match c.src with
    | .howlink => d2.raiseInt 16
    | .mg0 => d2.bump (ctrMgl 0 0x108)
    | .mg1 => d2.bump (ctrMgl 1 0x108)
  else d1

/-! ### Ports (R11, R369) -/

/-- A physical port. -/
def Dev.port (d : Dev) (p : Nat) : PortSt := Tab.get d.ports p {}

/-- Sets a physical port. -/
def Dev.setPort (d : Dev) (p : Nat) (x : PortSt) : Dev := { d with ports := Tab.set d.ports p x {} }

/-- Logical number of a physical port. -/
def Dev.logical (d : Dev) (p : Nat) : Nat := p / 32 * 32 + ((p % 32) ^^^ (d.port p).bind.toNat)

/-- Physical port that a logical number is bound to; its own number where no binding names it. -/
def Dev.physical (d : Dev) (l : Nat) : Nat :=
  match (List.range 32).find? (fun q => d.logical (l / 32 * 32 + q) == l) with
  | some q => l / 32 * 32 + q
  | none => l

/-- The objects that a command names, beside those of the units that `HeldFor.names` knows: those of R417,
under the same numbers; `phys` gives the physical number of a logical port.  DEDUCED, log entry 63. -/
def namedObjs (phys : Nat → Nat) : Instr → List Obj
  | .planSet _ p => (Staged.planSet p).objs
  | .planGroup _ p => (Staged.planGroup p).objs
  | .portMapSet _ p => (Staged.portMapSet p).objs
  | .optPortMode _ p => (Staged.optPortMode p).objs
  | .optCampusFreq _ p => (Staged.optCampusFreq p).objs
  | .emInsert _ p => (Staged.emInsert p).objs
  | .emDelete _ p => (Staged.emDelete p).objs
  | .rehash _ p => (Staged.rehash p).objs
  | .routeSet _ p => (Staged.routeSet p).objs
  | .groupSet _ p => (Staged.groupSet p).objs
  | .partSet _ p => (Staged.partSet p).objs
  | .portsetSet _ p => (Staged.portsetSet p).objs
  | .learnPeers _ p => (Staged.learnPeers p).objs
  | .mirrorSet _ p => (Staged.mirrorSet p).objs
  | .partReserve _ p => (Staged.partReserve p).objs
  | .shaperSet _ p => (Staged.shaperSet p).objs
  | .groupShaperSet _ p => (Staged.groupShaperSet p).objs
  | .policerSet _ p => (Staged.policerSet p).objs
  | .policerMap _ p => (Staged.policerMap p).objs
  | .ctxSet _ p => (Staged.ctxSet p).objs
  | .ctxClose _ p => (Staged.ctxClose p).objs
  | .ctxReform _ p => (Staged.ctxReform p).objs
  | .ctxResize _ p => (Staged.ctxResize p).objs
  | .sheafSet _ p => (Staged.sheafSet p).objs
  | .sheafClose _ p => (Staged.sheafClose p).objs
  | .thrJobSet _ p => (Staged.thrJobSet p).objs
  | .thrJobClose _ p => (Staged.thrJobClose p).objs
  | .thrParamSet _ p => (Staged.thrParamSet p).objs
  | .thrShardSet _ p => (Staged.thrShardSet p).objs
  | .thrShardClose _ p => (Staged.thrShardClose p).objs
  | .thrShardRole _ p => (Staged.thrShardRole p).objs
  | .memRegionSet _ p => (Staged.memRegionSet p).objs
  | .planRead _ l => [.plan l.toNat]
  | .portMapRead _ e => [.portMap e.toNat]
  | .portRestart _ l _ | .portRead _ l | .launchRead _ l => [.port (phys l.toNat)]
  | .portPrbs _ p _ | .optSwap _ p | .optRelock _ p => [.port p.toNat]
  | .flushByPort _ l _ => [.port (phys l.toNat)]
  | .search _ k => match k with
    | .emKey key => [.em key]
    | .emIndex _ => []
    | .route n => [.route n.toNat]
    | .group n => [.group n.toNat]
    | .part n => [.part n.toNat]
    | .portset n => [.portset n.toNat]
  | .policerRead _ n => [.policer n.toNat]
  | .ctxRead _ n => [.ctx n.toNat]
  | .sheafRead _ n => [.sheaf n.toNat]
  | .thrRead _ isShard ix => [if isShard then .shard ix.toNat else .job ix.toNat]
  | .thrMapRead _ n .. | .memSlotRestored _ n .. => [.shard n.toNat]
  | .cntPartRead _ n => [.part n.toNat]
  | _ => []

/-- Whether a later command names the transaction or the unit of a held one (R406).  DEDUCED, log entry 63. -/
def HeldFor.names (w : HeldFor) (i : Instr) : Bool :=
  match w with
  | .commit t => match i with
    | .commit c | .rollback c => c.txn == t
    | _ => false
  | .band e => match i with
    | .optBandSet _ k _ | .optRead _ k => k.toNat == e
    | _ => false
  | .fuses => match i with
    | .secRollbackSet .. | .secRead _ => true
    | _ => false
  | .spareCore n => match i with
    | .diagSpareForce _ b ix => !b && ix.toNat == n
    | _ => false
  | .spareBank n => match i with
    | .diagSpareForce _ b ix => b && ix.toNat == n
    | _ => false
  | .portRestart _ | .swap _ => false

/-- The objects that a held command names: a COMMIT names those of its transaction (R417).  DEDUCED, log
entry 63. -/
def Dev.heldObjs (d : Dev) (h : HeldReply) : List Obj :=
  match h.what with
  | .commit t => (d.cmd.txns.filter fun x => x.src == h.c.src && x.id == t).flatMap fun x => x.names.map Prod.fst
  | .portRestart l => [.port (d.physical l)]
  | .swap p => [.port p]
  | _ => []

/-- The place of a command in its source's queue, counted over all sources; none for one that no packet
brought. -/
def Dev.placeNo (d : Dev) (c : CmdCtx) : Option Nat :=
  d.cmd.places.findIdx? fun p => p.src == c.src && p.seq == c.seq

/-- The packet of `b` came before that of `a`. -/
def Dev.cameBefore (d : Dev) (b a : CmdCtx) : Bool :=
  match d.placeNo b, d.placeNo a with
  | some m, some n => decide (m < n)
  | _, _ => false

/-- A command names an object that a held command of its source names, or one of the commands `seen`, which
wait for such a one and whose packets did not come later (R406).  DEDUCED, log entry 63. -/
def Dev.mustFollow (d : Dev) (seen : List Instr) (c : CmdCtx) (i : Instr) : Bool :=
  (d.cmd.held.any fun h => !h.deferred && h.c.src == c.src &&
    (h.what.names i || (d.heldObjs h).any fun o => (namedObjs d.physical i).contains o)) ||
  seen.any fun j => match Instr.ctx? j with
    | some b => b.src == c.src && !d.cameBefore c b &&
      (namedObjs d.physical j).any fun o => (namedObjs d.physical i).contains o
    | none => false

/-- A place belongs to a command that has begun and is held, or that waits behind one. -/
def Dev.placeSeen (d : Dev) (p : Place) : Bool :=
  (d.cmd.held.any fun h => h.c.src == p.src && h.c.seq == p.seq) ||
  d.cmd.behind.any fun j => match Instr.ctx? j with
    | some b => b.src == p.src && b.seq == p.seq
    | none => false

/-- A packet of the source that came before the command's own has brought a command that has still to begin
(R405, R406). -/
def Dev.outOfTurn (d : Dev) (c : CmdCtx) : Bool :=
  match d.placeNo c with
  | some n => (d.cmd.places.take n).any fun p => p.src == c.src && !d.placeSeen p
  | none => false

/-- The first of the waiting commands that waits no more, between those before it and those after it. -/
def Dev.firstReady (d : Dev) : List Instr → List Instr → Option (List Instr × Instr × List Instr)
  | _, [] => none
  | seen, i :: r =>
    let waits := match Instr.ctx? i with
      | some c => d.mustFollow seen c i || d.outOfTurn c
      | none => false
    if waits then d.firstReady (seen ++ [i]) r else some (seen, i, r)

/-- The commands of a source that wait behind others. -/
def Dev.behindOf (d : Dev) (s : Source) : List Instr := d.cmd.behind.filter fun j => Instr.source j == some s

/-- A command cannot begin yet: it must follow another, or one of its source that came before it has still to
begin (R406).  DEDUCED, log entry 63. -/
def Dev.isBehind (d : Dev) (c : CmdCtx) (i : Instr) : Bool :=
  d.mustFollow d.cmd.behind c i || d.outOfTurn c || (d.firstReady [] (d.behindOf c.src)).isSome

/-- A batch stands between its validation and its flip: SV1 begins no other command (R420). -/
def Dev.flipping (d : Dev) : Bool := d.cmd.txns.any fun t => decide (t.st = .applying)

/-- A command may begin: its turn has come, or nothing is before it. -/
def Dev.mayBegin (d : Dev) (c : CmdCtx) (i : Instr) : Bool := d.cmd.turn || !(d.flipping || d.isBehind c i)

/-- SV1 takes a command: the pointer of R406 stands at its source, and one that bears the TXN of its source's
OPEN transaction restarts the idle time (R424), one that is answered DENIED too.  DEDUCED, log entry 47. -/
def Dev.touch (d : Dev) (c : CmdCtx) : Dev :=
  let bears := fun (t : Txn) => c.txn != 0 && t.src == c.src && t.id == c.txn
  let txns := d.cmd.txns.map fun t => if bears t then { t with touched := d.now } else t
  { d with cmd := { d.cmd with ptr := c.src.num, txns := txns } }

/-- What the gate of a command says. -/
inductive Gate where
  /-- The command runs. -/
  | run
  /-- It is answered with this status and has no effect. -/
  | answer (st : Status)
  /-- Its session has ended (R388): no reply. -/
  | discard
  /-- SV1 is stopped, or reset holds the device: nothing happens. -/
  | dead
  deriving DecidableEq, Repr

/-- State and privilege checks of R408 and R410 for opcode `op` of class `cls`; a device with a failed
supervisor core answers no command (R458). -/
def Dev.gate (d : Dev) (c : CmdCtx) (op : Nat) (cls : PrivClass) : Gate :=
  if !d.awake || !d.svRuns 1 || d.boot.svFail != 0 then .dead
  else match d.classOf c with
    | none => .discard
    | some k =>
      match d.boot.st with
      | .powerOn | .selfTest | .boot => .answer .busy
      | .safeTalk =>
        let g := op / 256
        if g = 0x01 || g = 0x0B || g = 0x0C || cls = .observer then
          if cls.rank ≤ k.rank then .run else .answer .denied
        else .answer .denied
      | .ready | .run => if cls.rank ≤ k.rank then .run else .answer .denied

/-- Runs an immediate command `i`: the gate, the hold of R406, then `f`, which gives the new state
and the reply; no reply means that it is held.  DEDUCED, log entry 47. -/
def Dev.runCmd (d : Dev) (i : Instr) (c : CmdCtx) (op : Nat) (cls : PrivClass)
    (f : Dev → Dev × Option (Status × Res)) : Dev :=
  match d.gate c op cls with
  | .dead => d
  | .discard => d
  | .answer st => (d.touch c).reply c op st .empty
  | .run =>
    if !d.mayBegin c i then { d with cmd := { d.cmd with behind := d.cmd.behind ++ [i] } }
    else match f (d.touch c) with
      | (d1, some (st, r)) => d1.reply c op st r
      | (d1, none) => d1

/-- A reply without a result. -/
def answer (d : Dev) (st : Status) : Dev × Option (Status × Res) := (d, some (st, .empty))

/-- OK with the fields of the reply. -/
def answerOk (d : Dev) (l : List Nat) : Dev × Option (Status × Res) := (d, some (.ok, .fields l))

/-- A command whose work is that of supervisor core `n` (R23): with that core stopped it meets an internal fault,
has no effect, is answered INTERNAL, and leaves a FIRMWARE record, whichever core has stopped (R489).
DEDUCED, log entry 142. -/
def needs (n : Nat) (f : Dev → Dev × Option (Status × Res)) (d : Dev) : Dev × Option (Status × Res) :=
  if d.svRuns n then f d else answer (d.recordFault 6 0x0D n 0 0 0 0) .internal

/-- Holds a reply, or answers DEFERRED under NO_WAIT (R406, R423, R426). -/
def Dev.hold (d : Dev) (c : CmdCtx) (op : Nat) (w : HeldFor) : Dev × Option (Status × Res) :=
  let h : HeldReply := { c := c, opcode := op, what := w, at_ := d.now, deferred := c.noWait }
  let d1 := { d with cmd := { d.cmd with held := d.cmd.held ++ [h] } }
  if c.noWait then (d1, some (.deferred, .empty)) else (d1, none)

/-- Holds a reply whatever NO_WAIT says: a command that NO_WAIT does not defer. -/
def Dev.holdReply (d : Dev) (c : CmdCtx) (op : Nat) (w : HeldFor) : Dev × Option (Status × Res) :=
  let h : HeldReply := { c := c, opcode := op, what := w, at_ := d.now, deferred := false }
  ({ d with cmd := { d.cmd with held := d.cmd.held ++ [h] } }, none)

/-- Ends the held command `h`: its reply, or OP_DONE after DEFERRED (R426). -/
def Dev.finishHeld (d : Dev) (h : HeldReply) (st : Status) (r : Res) : Dev :=
  let d1 := { d with cmd := { d.cmd with held := d.cmd.held.erase h } }
  if h.deferred then d1.event (.opDone h.c.src h.c.seq h.opcode st) else d1.reply h.c h.opcode st r

/-- Ends every held command that waits for `w`. -/
def Dev.finishFor (d : Dev) (w : HeldFor) (st : Status) (r : Res) : Dev :=
  (d.cmd.held.filter fun h => h.what == w).foldl (fun d h => d.finishHeld h st r) d

/-! ### Port states (R358) -/

/-- The port bound to a logical number is ACTIVE. -/
def Dev.activeL (d : Dev) (l : Nat) : Bool := (d.port (d.physical l)).st == .active

/-- The code of a port state (R358). -/
def PortState.code : PortState → Nat
  | .off => 0 | .detect => 1 | .train => 2 | .lock => 3 | .exchange => 4 | .active => 5
  | .draining => 6 | .down => 7 | .unplanned => 8 | .absent => 9 | .crossed => 10
  | .incompatible => 11 | .test => 12

/-! ### Roles and addresses (R2, R46, R48) -/

def Dev.isLeaf (d : Dev) : Bool := d.boot.role == 0
def Dev.isSpine (d : Dev) : Bool := d.boot.role == 1
def Dev.isSuper (d : Dev) : Bool := d.boot.role == 2

/-- Address kind and index. -/
def addrKind (a : BitVec 24) : Nat := bitsOf a.toNat 23 20
def addrIndex (a : BitVec 24) : Nat := bitsOf a.toNat 19 0
/-- Tier and device number of a switch-service address. -/
def addrTier (a : BitVec 24) : Nat := bitsOf a.toNat 19 18
def addrDev (a : BitVec 24) : Nat := bitsOf a.toNat 17 6
def addrSvc (a : BitVec 24) : Nat := bitsOf a.toNat 5 0

/-- A switch-service address. -/
def svcAddr (tier dev svc : Nat) : BitVec 24 :=
  BitVec.ofNat 24 (1 <<< 20 ||| tier <<< 18 ||| dev <<< 6 ||| svc)

/-- The device's own address of a service. -/
def Dev.ownAddr (d : Dev) (svc : Nat) : BitVec 24 :=
  svcAddr (addrTier d.boot.addr) (addrDev d.boot.addr) svc

/-- The own service that an address names. -/
def Dev.ownSvc (d : Dev) (a : BitVec 24) : Option Nat :=
  if addrKind a = 1 && addrTier a = addrTier d.boot.addr && addrDev a = addrDev d.boot.addr then
    some (addrSvc a) else none

/-- The device number in its tier: leaf ID of a leaf, spine index of a spine. -/
def Dev.devNum (d : Dev) : Nat := addrDev d.boot.addr

/-- Plan entry of a logical port. -/
def Dev.planOf (d : Dev) (l : Nat) : PlanEntry :=
  Tab.get d.plan l { valid := false, role := 0, addr := 0, port := 0, serial := 0, system := 0 }

/-- Logical ports whose VALID plan entry names an address with this role and device number. -/
def Dev.portsTo (d : Dev) (role dev : Nat) : List Nat :=
  (d.plan.filter fun e => e.2.valid && e.2.role.toNat == role && addrKind e.2.addr == 1 &&
    addrDev e.2.addr == dev).map Prod.fst

end Sys2Proof.Machine
end

