-- ==== Sys2Proof/Machine/Cells.lean ====
section
/-! DEFINITION. The cells of the store: where a frame's payload lies (R103, R104), which bank a write takes
(R107), and reads of cells and records under the check code (R130, R131). -/

namespace Sys2Proof.Machine

/-- Cells of a payload (R103). -/
def cellsOf (len : Nat) : Nat := (len + 255) / 256

/-- The bank that a cell lies in. -/
def cellBank (cell : Nat) : Nat := cell / 4096

/-- The bank that holds a position's number now. -/
def Slots.bankAt (s : Slots) (pos : Nat) : Nat := (Tab.get s.bankOf pos []).headD pos

/-- The bank that the newest spare of a position took over from. -/
def Slots.bankBefore (s : Slots) (pos : Nat) : Nat := ((Tab.get s.bankOf pos []).drop 1).headD pos

/-- Live cells of a bank. -/
def Slots.liveIn (s : Slots) (bank : Nat) : List Nat :=
  (s.cells.flatMap fun e => e.2).filter fun c => cellBank c == bank

/-- The cells of a frame, in payload order. -/
def Slots.cellsFor (s : Slots) (fid : Nat) : List Nat := Tab.get s.cells fid []

/-- The lowest free cell of a bank.  DESIGN CHOICE, log entry 134. -/
def Slots.freeCell (s : Slots) (bank : Nat) : Option Nat :=
  let live := s.liveIn bank ++ s.cellsOut.filter fun c => cellBank c == bank
  ((List.range (live.length + 1)).find? fun i => decide (i < 4096) && !live.contains (bank * 4096 + i)).map
    fun i => bank * 4096 + i

/-- The first position after `pos` in service whose bank is not among `shut` and has a free cell; the first
argument bounds the search (R107). -/
def Store.nextCell (s : Store) (shut : List Nat) : Nat → Nat → Option (Nat × Nat)
  | 0, _ => none
  | n + 1, pos =>
    let p := (pos + 1) % 1024
    if s.closed.contains p || shut.contains (s.slots.bankAt p) then s.nextCell shut n p
    else match s.slots.freeCell (s.slots.bankAt p) with
      | some c => some (p, c)
      | none => s.nextCell shut n p

/-- Writes the next cell of a frame: the first idle bank after the bank pointer, other than the bank of the
frame's last cell (R104, R107).  The answer names the bank taken. -/
def Store.writeCell (s : Store) (busy : List Nat) (fid : Nat) : Store × List Nat :=
  let l := s.slots.cellsFor fid
  let shut := busy ++ ((l.getLast?).map cellBank).toList
  match s.nextCell shut 1024 s.slots.bankPtr with
  | none => (s, [])
  | some (p, c) =>
    ({ s with slots := { s.slots with cells := Tab.put s.slots.cells fid (l ++ [c]), bankPtr := p } },
     [cellBank c])

/-- Writes up to `n` cells of a frame. -/
def Store.writeCells (busy : List Nat) (fid : Nat) : Nat → Store → Store × List Nat
  | 0, s => (s, [])
  | n + 1, s =>
    let x := s.writeCell busy fid
    let y := Store.writeCells (busy ++ x.2) fid n x.1
    (y.1, x.2 ++ y.2)

/-- Cells that a frame still has to write. -/
def Store.unwritten (s : Store) (fid : Nat) : Nat :=
  match Tab.find s.frames fid with
  | some f => cellsOf f.hdr.len.toNat - (s.slots.cellsFor fid).length
  | none => 0

/-- Banks that are found failing and wait for their replacement: no write takes them from the clock of
detection on (R133). -/
def Dev.failing (d : Dev) : List Nat :=
  (d.faults.failures.filter fun x => x.isBank).map fun x => d.store.slots.bankAt x.ix

/-- Writes what a frame has still to write: an event that finds the frame whole in the store comes after its
last write slot.  DESIGN CHOICE, log entry 134. -/
def Dev.writeRest (d : Dev) (fid : Nat) : Dev :=
  { d with store := (Store.writeCells d.failing fid (d.store.unwritten fid) d.store).1 }

/-! ### Reads (R130, R131, R488, R500) -/

/-- The MGMT clock that runs (R30). -/
def Dev.mgmtClk (d : Dev) : Nat := d.now / 4

/-- A failure is detected: SV2 will serve it in its turn, once (R29). -/
def Dev.detect (d : Dev) (isBank : Bool) (ix : Nat) (limit : Bool) : Dev :=
  if d.faults.failures.any fun x => x.isBank == isBank && x.ix == ix then d
  else { d with faults := { d.faults with failures :=
    d.faults.failures ++ [{ isBank := isBank, ix := ix, mgmt := d.mgmtClk, limit := limit }] } }

/-- The position whose number is allocated in a bank; none once the bank takes no new cells. -/
def Slots.posOf (s : Slots) (bank : Nat) : Option Nat :=
  if bank < 1024 then (if s.bankAt bank = bank then some bank else none)
  else (s.bankOf.find? fun e => e.2.head? == some bank).map Prod.fst

/-- SRAM die of a bank position (R102), and its spare banks left. -/
def dieOf (b : Nat) : Nat := b / 512
def Dev.bankSpares (d : Dev) (die : Nat) : Nat := if die = 0 then d.store.spare0 else d.store.spare1

/-- The record of data lost by an uncorrectable read of a bank, or of a row of the store's records (R480, R495). -/
def Dev.lostInBank (d : Dev) (bank : Nat) : Dev :=
  let p := (d.store.slots.posOf bank).getD bank
  d.faultRec 5 2 p 0 0 (d.bankSpares (dieOf p)) 0
def Dev.lostInRow (d : Dev) (array index : Nat) : Dev := d.faultRec 5 3 0 array 0 0 index

/-- The bank of a cell is found failing. -/
def Dev.bankFails (d : Dev) (bank : Nat) (limit : Bool) : Dev :=
  match d.store.slots.posOf bank with
  | some p => if d.store.closed.contains p then d else d.detect true p limit
  | none => d

/-- Counts a corrected read of a bank; more than CORR_LIMIT in 1 s make it fail, where CORR_LIMIT is not 0
(R131). -/
def Dev.bankCorrected (d : Dev) (bank : Nat) : Dev :=
  let recent := ((Tab.get d.store.slots.corr bank []).filter fun t => decide (d.now < t + 1000 * clkMs)) ++ [d.now]
  let d1 := (d.bump (ctrStore 0x128))
  let d2 := { d1 with store := { d1.store with slots := { d1.store.slots with
    corr := Tab.put d1.store.slots.corr bank recent } } }
  let limit := d.regBits (baseStore + 0x1C) 15 0
  if limit != 0 && decide (limit < recent.length) then d2.bankFails bank true else d2

/-- An armed error is met and gone. -/
def Dev.meetError (d : Dev) (x : Inject) : Dev :=
  { d with faults := { d.faults with injects := d.faults.injects.erase x } }

/-- What is left of the array of a retired row, in 1/1,024 of full (R490). -/
def Store.rowCapacity (s : Store) (array : Nat) : Nat :=
  if array = 1 then (1048576 - s.rowsOut) / 1024
  else if array = 2 then (2097152 - s.entriesOut) / 2048
  else (4194304 - s.slots.cellsOut.length) / 4096

/-- A row of the descriptors (1), the queue entries (2) or the link table (3) is taken out of use (R488), which is
a step of R490.  DEDUCED, log entry 136. -/
def Dev.retireRow (d : Dev) (array index : Nat) : Dev :=
  let s := d.store
  let s1 := { s with
    rowsOut := if array = 1 then s.rowsOut + 1 else s.rowsOut,
    entriesOut := if array = 2 then s.entriesOut + 1 else s.entriesOut,
    slots := { s.slots with cellsOut := if array = 3 then index :: s.slots.cellsOut else s.slots.cellsOut } }
  ({ d with store := s1 }.event (.serviceDegraded 3 0 1 (s1.rowCapacity array))).faultRec 4 3 0 array 3 0 index

/-- Reads one cell with its entry of the link table: false where a word of either is uncorrectable. -/
def Dev.readCell (d : Dev) (cell : Nat) : Dev × Bool :=
  match d.faults.injects.find? fun x => (x.array == 0 || x.array == 3) && x.index == cell with
  | none => (d, true)
  | some x =>
    let d1 := d.meetError x
    if x.two then
      (if x.array = 0 then (d1.bankFails (cellBank cell) false).lostInBank (cellBank cell)
       else (d1.retireRow 3 cell).lostInRow 3 cell, false)
    else if x.array = 0 then (d1.bankCorrected (cellBank cell), true)
    else (d1.bump (ctrStore 0x128), true)

/-- Reads cells one after the other. -/
def Dev.readList (d : Dev) : List Nat → Dev × Bool
  | [] => (d, true)
  | c :: r =>
    let x := d.readCell c
    let y := x.1.readList r
    (y.1, x.2 && y.2)

/-- Reads a record: the descriptor (array 1) or the queue entry (array 2) with this number. -/
def Dev.readRecord (d : Dev) (array index : Nat) : Dev × Bool :=
  match d.faults.injects.find? fun x => x.array == array && x.index == index with
  | none => (d, true)
  | some x =>
    if x.two then (((d.meetError x).retireRow array index).lostInRow array index, false)
    else ((d.meetError x).bump (ctrStore 0x128), true)

/-- The frame's descriptor reads uncorrectable: the read of every later copy meets it too. -/
def Dev.spoilFrame (d : Dev) (fid : Nat) : Dev :=
  { d with store := { d.store with frames := Tab.adj d.store.frames fid (fun g => { g with bad := true }) } }

/-- Reads the queue entry of a copy of a frame, and the frame's descriptor (R103).  Which of them they are the
spec leaves open: their numbers are free values.  DESIGN CHOICE, log entry 172. -/
def Dev.readRecords (d : Dev) (fid : Nat) : Dev × Bool :=
  let a := d.readRecord 2 (Config.queueEntryOf fid d.now)
  let b := a.1.readRecord 1 (Config.descriptorOf fid)
  (if b.2 then b.1 else b.1.spoilFrame fid, a.2 && b.2)

/-- Reads `n` cells of a frame for one of its copies, from cell `i`; with cell 0 the copy's records also: false
where a read is uncorrectable, which acts on that copy (R130). -/
def Dev.readCells (d : Dev) (fid i n : Nat) : Dev × Bool :=
  match Tab.find d.store.frames fid with
  | none => (d, false)
  | some f =>
    if f.bad then (if i = 0 then d.lostInRow 1 (Config.descriptorOf fid) else d, false)
    else
      let a := if i = 0 then d.readRecords fid else (d, true)
      let b := a.1.readList (((a.1.store.slots.cellsFor fid).drop i).take n)
      (b.1, a.2 && b.2)

end Sys2Proof.Machine
end

