-- ==== Sys2Proof/Machine/Store.lean ====
section
/-! DEFINITION. The central store: queues and their use of the pools, admission (R114 to R118),
residence (R119), the copies of one frame (R122 to R126) and the release of cells. -/

namespace Sys2Proof.Machine

/-- Number of a destination: logical ports 0 to 511, clusters 512 to 519, the agent 520. -/
def Dest.num : Dest → Nat
  | .port l => l
  | .cluster k => 512 + k
  | .agent => 520

/-- Key of a queue. -/
def qkey (t : Dest) (cls : Nat) : Nat := t.num * 8 + cls

/-- The copies that wait in a queue, oldest first. -/
def Dev.queue (d : Dev) (t : Dest) (cls : Nat) : List Copy := Tab.get d.store.queues (qkey t cls) []

/-- Sets a queue. -/
def Dev.setQueue (d : Dev) (t : Dest) (cls : Nat) (l : List Copy) : Dev :=
  { d with store := { d.store with queues := Tab.set d.store.queues (qkey t cls) l [] } }

/-- Every copy that holds cells: waiting, being sent, or waiting for its launch time. -/
def Store.copies (s : Store) : List Copy :=
  s.queues.flatMap (fun e => e.2) ++ s.sending.flatMap (fun e => e.2.map (fun x => x.copy)) ++
  s.launch.flatMap (fun e => e.2.map (fun x => x.copy))

def sumNat (l : List Nat) : Nat := l.foldl (· + ·) 0

/-- Queue entries in use: the copies that wait (R103). -/
def Store.entries (s : Store) : Nat :=
  sumNat (s.queues.map fun e => e.2.length) + sumNat (s.launch.map fun e => e.2.length)

/-- A queue's use of its reserve, Qr, and of the shared pool, Qs (R115). -/
def Dev.queueUse (d : Dev) (t : Dest) (cls : Nat) (shared : Bool) : Nat :=
  sumNat ((d.store.copies.filter fun c =>
    decide (c.dest = t) && c.cls.toNat == cls && c.shared == shared).map (fun c => c.cells))

/-- Cells that a queue holds: a copy's cells count until they are released (R154). -/
def Dev.queueCells (d : Dev) (t : Dest) (cls : Nat) : Nat :=
  sumNat ((d.store.copies.filter fun c =>
    decide (c.dest = t) && c.cls.toNat == cls).map (fun c => c.cells))

/-- A partition's use of a pool, Pr or Ps (R115). -/
def Dev.partUse (d : Dev) (part : Nat) (pool : Pool) : Nat :=
  sumNat (d.store.frames.map fun e => match e.2.charge with
    | some (p, k) => if p = pool && e.2.hdr.part.toNat == part then k else 0
    | none => 0)

/-- Total use of the shared pool, U. -/
def Dev.sharedUse (d : Dev) : Nat :=
  sumNat (d.store.frames.map fun e => match e.2.charge with
    | some (.shared, k) => k
    | _ => 0)

/-- Offset of STORE_CLASS_CFGc. -/
def offClassCfg (c : Nat) : Nat := baseStore + 0x20 + 4 * c

/-- QMIN[c] and the ALPHA code of class c (R116). -/
def Dev.qmin (d : Dev) (c : Nat) : Nat := d.regBits (offClassCfg c) 19 0
def Dev.alphaCode (d : Dev) (c : Nat) : Nat :=
  let a := d.regBits (offClassCfg c) 23 20
  if a > 11 then 11 else a

/-- floor(α × n), α = 2^(a - 8) (R116). -/
def alphaOf (a n : Nat) : Nat := n * 2 ^ a / 256

/-- Cells in service, A (R114, R132). -/
def Dev.activeBanks (d : Dev) : Nat := 1024 - d.store.closed.length
def Dev.cellsA (d : Dev) : Nat := d.activeBanks * 4096

/-- Size of the shared pool for given reserves, S (R114). -/
def sharedSizeOf (a : Nat) (qmins : List Nat) (pmins : Nat) : Nat := a - 521 * sumNat qmins - pmins

/-- The shared pool, S. -/
def Dev.sharedSize (d : Dev) : Nat :=
  sharedSizeOf d.cellsA ((List.range 8).map d.qmin) (sumNat (d.store.partRes.map fun e => e.2.pmin))

/-- PMIN and PMAX of a partition: 0 and no cap where none is set (R134). -/
def Dev.partRes (d : Dev) (part : Nat) : PartRes :=
  Tab.get d.store.partRes part { pmin := 0, pmax := 0xFFFFFFFF }

/-- PMAX admits `n` cells; 0xFFFF_FFFF is no cap. -/
def PartRes.allows (r : PartRes) (n : Nat) : Bool := r.pmax == 0xFFFFFFFF || decide (n ≤ r.pmax)

/-- The shared test of R115 that concerns the queue alone. -/
def Dev.queueShared (d : Dev) (t : Dest) (cls k : Nat) : Bool :=
  decide (d.queueUse t cls true + k ≤ alphaOf (d.alphaCode cls) (d.sharedSize - d.sharedUse))

/-- Admission of a frame's first copy: the pool that takes it (R115); a mirror copy takes the shared
pool only (R126). -/
def Dev.admitFirst (d : Dev) (part : Nat) (t : Dest) (cls k : Nat) (mirror : Bool) : Option Pool :=
  let r := d.partRes part
  if !mirror && decide (d.queueUse t cls false + k ≤ d.qmin cls) then some .queueRes
  else if !mirror && decide (d.partUse part .partRes + k ≤ r.pmin) then some .partRes
  else if d.queueShared t cls k && r.allows (d.partUse part .shared + k) &&
      decide (d.sharedUse + k ≤ d.sharedSize) then some .shared
  else none

/-- Admission of a later copy (R123): false from its queue reserve, true from the shared test. -/
def Dev.admitLater (d : Dev) (t : Dest) (cls k : Nat) (mirror : Bool) : Option Bool :=
  if !mirror && decide (d.queueUse t cls false + k ≤ d.qmin cls) then some false
  else if d.queueShared t cls k then some true
  else none

/-! ### Counts of queues and partitions (R505) -/

def Dev.countQ (d : Dev) (t : Dest) (cls : Nat) (f : QCount → QCount) : Dev :=
  { d with store := { d.store with
    qcount := Tab.set d.store.qcount (qkey t cls) (f (Tab.get d.store.qcount (qkey t cls) {})) {} } }

def Dev.countP (d : Dev) (part : Nat) (f : PCount → PCount) : Dev :=
  { d with store := { d.store with
    pcount := Tab.set d.store.pcount part (f (Tab.get d.store.pcount part {})) {} } }

/-! ### Frames and their release -/

/-- A frame of the store. -/
def Dev.frame? (d : Dev) (fid : Nat) : Option Frame := Tab.find d.store.frames fid

/-- Registers of a ring: TXR0 to TXR3, and 4 for RXR (R534). -/
def offRing (r o : Nat) : Nat := 0x1000 + 0x40 * r + o

/-- Descriptors of a ring. -/
def Dev.ringSize (d : Dev) (r : Nat) : Nat :=
  let log2 := d.regBits (offRing r 8) 20 16
  2 ^ (if decide (6 ≤ log2 ∧ log2 ≤ 16) then log2 else 6)

/-- A DMA write: Howlink carries it, and its address is companion DRAM (R283, R286); no other is issued.
DEDUCED, log entry 152. -/
def Dev.dmaSend (d : Dev) (a : Nat) (bytes : List Byte) : Dev :=
  if d.hl.up && decide (a + bytes.length ≤ 0x1000000000000) then d.send (.dmaWrite a bytes) else d

/-- Writes back descriptor `pos` of a ring and advances HEAD; WB_INT, and the receive ring always,
sets the ring's vector. -/
def Dev.writeBack (d : Dev) (r pos : Nat) (bytes : List Byte) : Dev :=
  let base := d.reg (offRing r 0) / 32 * 32
  let d1 := d.dmaSend (base + 32 * (pos % d.ringSize r) + 16) bytes
  let head := (Tab.get d.heads r 0).toNat
  let d2 := { d1 with heads := Tab.set d1.heads r (BitVec.ofNat 16 ((head + 1) % d.ringSize r)) 0 }
  if r = 4 || d2.regBit (offRing r 8) 1 then d2.raiseInt (17 + r) else d2

/-- The write-back that a frame of a transmit ring owes when nothing of it is left: SENT or LATE when
it has left, DISCARDED otherwise. -/
def Dev.writeBackOf (d : Dev) (f : Frame) : Dev :=
  match f.wb with
  | none => d
  | some (r, pos, ts) =>
    match f.sentAt with
    | none => d.writeBack r pos (writeBackBytes 4 none 0)
    | some (stamp, late) =>
      d.writeBack r pos (writeBackBytes (if late then 1 else 0) (if ts then stamp else none) 0)

/-- Two frames of the store are copies of one descriptor's frame (R124, R444). -/
def Frame.sameWb (f g : Frame) : Bool := f.wb.isSome && decide (f.wb = g.wb)

/-- Releases a frame's descriptor and cells when no copy is left (R123); the transmit descriptor is written back with
the last of its frames (R444). -/
def Dev.release (d : Dev) (fid : Nat) : Dev :=
  if d.store.copies.any (fun c => c.fid == fid) then d
  else match d.frame? fid with
    | none => d
    | some f =>
      let left := Tab.del d.store.frames fid
      let d1 := { d with store := { d.store with
        frames := left, slots := { d.store.slots with cells := Tab.del d.store.slots.cells fid } } }
      if left.any (fun e => f.sameWb e.2) then d1 else d1.writeBackOf f

/-! ### The glean buffer (R511 to R515) -/

def offGleanCtl : Nat := baseCnt + 0x08
def offGleanFilt : Nat := baseCnt + 0x10

/-- A sample enters its sampler's holding register; where that is still full it is dropped and counted
(R514).  One taken while ARMED is 0 is discarded (R515). -/
def Dev.gleanAdd (d : Dev) (sampler : Nat) (b : GleanBody) : Dev :=
  if !d.cnt.armed then d
  else match Tab.find d.cnt.holding sampler with
    | some _ => d.bump (ctrCnt 0x120)
    | none => { d with cnt := { d.cnt with holding := Tab.put d.cnt.holding sampler b } }

/-- The buffer takes a sample as its next entry: in WRAP mode the oldest is overwritten; in STOP mode the
4,096th after arming clears ARMED, discards the samples that wait, and sends GLEAN_FULL (R515).
DESIGN CHOICE, log entry 141. -/
def Dev.gleanTake (d : Dev) (sampler : Nat) : Dev :=
  match Tab.find d.cnt.holding sampler with
  | none => d
  | some b =>
    let g := d.cnt.nextGseq
    let held := d.cnt.glean ++ [{ gseq := g, body := b }]
    let n := d.cnt.sinceArm + 1
    let d1 := { d with cnt := { d.cnt with
      glean := if held.length > 4096 then held.drop 1 else held, nextGseq := g + 1, sinceArm := n,
      holding := Tab.del d.cnt.holding sampler, gleanPtr := sampler } }
    let d2 := d1.bump (ctrCnt 0x128)
    if d.cnt.armed && d.regBit offGleanCtl 3 && n == 4096 then
      ({ d2 with cnt := { d2.cnt with armed := false, holding := [] } }).event
        (.gleanFull g (BitVec.ofNat 64 (d2.ctr (ctrCnt 0x120))))
    else d2

/-- What the buffer takes in one core clock: at most 4 samples, by rotating pointer (R514). -/
def Dev.gleanDrain (d : Dev) : Dev :=
  let l := d.cnt.holding.keys
  let order := l.filter (fun k => decide (d.cnt.gleanPtr < k)) ++ l.filter (fun k => decide (k ≤ d.cnt.gleanPtr))
  (order.take 4).foldl Dev.gleanTake d

/-- Candidate count of a sampler, and whether the candidate is sampled (R511). -/
def Dev.gleanCandidate (d : Dev) (sampler rate : Nat) : Dev × Bool :=
  let i := Tab.get d.cnt.cand sampler 0
  let h := crc32c (beBytes 1 sampler ++ beBytes 4 i.toNat)
  ({ d with cnt := { d.cnt with cand := Tab.set d.cnt.cand sampler (i + 1) 0 } },
   h.toNat % 2 ^ rate == 0)

/-- Egress code of a destination in a glean entry (R513). -/
def Dev.gleanEg (d : Dev) : Dest → Nat
  | .port l => d.physical l
  | .cluster k => 0xFE00 + k
  | .agent => 0xFF00

/-- Residence in ns, saturating. -/
def Dev.residence (d : Dev) (f : Frame) : Nat :=
  let r := nsOfClk (d.now - f.at_)
  if r > 0xFFFFFFFF then 0xFFFFFFFF else r

/-- Writes the sample that a frame still owes, with its outcome. -/
def Dev.gleanFrame (d : Dev) (fid : Nat) (c : Copy) (outcome : Nat) (cut ce : Bool) : Dev :=
  if c.gleaned then
    match d.frame? fid with
    | none => d
    | some f =>
      d.gleanAdd f.sampler (.frame f.rx outcome (match f.arr with | some (p, _) => p | none => 0xFFFF)
        (d.gleanEg c.dest) (f.stamp / 1000000000) (f.stamp % 1000000000)
        (if cut then 7 else d.residence f) cut ce f.inputCopy f.oldBank)
  else d

/-! ### Discarding copies -/

/-- A copy's residence exceeds the limit (R119). -/
def Dev.expired (d : Dev) (c : Copy) : Bool :=
  match d.frame? c.fid with
  | some f => decide (d.store.limit * 8 < (d.now - f.at_) * 5)
  | none => true

/-- Drops copies that no longer stand in a queue, with a glean outcome. -/
def Dev.dropCopies (d : Dev) (l : List Copy) (outcome : Nat) : Dev :=
  l.foldl (fun d c => (d.gleanFrame c.fid c outcome false false).release c.fid) d

/-- Partition of a copy's frame. -/
def Dev.copyPart (d : Dev) (c : Copy) : Nat :=
  match d.frame? c.fid with
  | some f => f.hdr.part.toNat
  | none => 0

/-- Discards an expired copy that its queue has given up (R119, R120). -/
def Dev.ageOut (d : Dev) (c : Copy) : Dev :=
  let d1 := (d.bump (ctrStore 0x110)).bump (ctrCnt 0x100)
  let d2 := d1.countQ c.dest c.cls.toNat (fun q => { q with aged := q.aged + 1 })
  let d3 := d2.countP (d.copyPart c) (fun q => { q with aged := q.aged + 1 })
  d3.dropCopies [c] 2

/-- Copies being sent on a logical port, oldest first. -/
def Dev.sendingOn (d : Dev) (l : Nat) : List Sending := Tab.get d.store.sending l []

/-- Sets them. -/
def Dev.setSending (d : Dev) (l : Nat) (x : List Sending) : Dev :=
  { d with store := { d.store with sending := Tab.set d.store.sending l x [] } }

/-- Cells of the copy that are still to be read. -/
def Sending.unread (x : Sending) : Nat := cellsOf x.hdr.len.toNat - x.read

/-- Bytes of the copy may be on the wire: it cuts through, or its first read slot has moved its first cells. -/
def Sending.begun (x : Sending) : Bool := x.cut || x.read != 0 || x.unread == 0

/-- Discards every queued, launched and sent copy to a logical port that left ACTIVE (R129); a copy
being sent is abandoned on the wire. -/
def Dev.flushPort (d : Dev) (l : Nat) : Dev :=
  let waiting := (List.range 8).flatMap (fun c => d.queue (.port l) c)
  let launch := (Tab.get d.store.launch l []).map (fun x => x.copy)
  let q1 := (List.range 8).foldl (fun q c => Tab.del q (l * 8 + c)) d.store.queues
  let d1 := { d with store := { d.store with queues := q1, launch := Tab.del d.store.launch l } }
  let d2 := (d1.bumpBy (ctrStore 0x120) (waiting.length + launch.length)).dropCopies
    (waiting ++ launch) 5
  let sent := d2.sendingOn l
  let d3 := d2.setSending l []
  sent.foldl (fun d x =>
    let d4 := d.bump (ctrStore 0x120)
    (if x.begun then d4.send (.abandoned (d.physical l) x.hdr) else d4).release x.copy.fid) d3

/-- A frame in reception, or found bad, is given up (R63, R111): copies not started are discarded,
a copy being sent will be completed with a tail mark. -/
def Dev.failFrame (d : Dev) (fid outcome : Nat) : Dev :=
  let waiting := d.store.queues.flatMap (fun e => e.2.filter (fun c => c.fid == fid))
  let q1 := d.store.queues.filterMap (fun e =>
    let l := e.2.filter (fun c => c.fid != fid)
    if l.isEmpty then none else some (e.1, l))
  let s1 := d.store.sending.map (fun e => (e.1, e.2.map fun x =>
    if x.copy.fid == fid then { x with tailMark := true, ended := true } else x))
  ({ d with store := { d.store with queues := q1, sending := s1 } }).dropCopies waiting outcome

/-! ### Making copies -/

/-- Loop setting of a physical port (R523). -/
def Dev.loop (d : Dev) (p : Nat) : Nat := d.regBits (basePort p + 0x4C) 1 0

/-- What a port sends returns to its own receive side: NEAR and OPTICAL (R522). -/
def Dev.loopsBack (d : Dev) (p : Nat) : Bool := d.loop p == 1 || d.loop p == 3

/-- What a port sends: in loopback NEAR and OPTICAL its return follows, as the events `l` (R522).
DEDUCED, log entry 174. -/
def Dev.emit (d : Dev) (p : Nat) (o : Out) (l : List Instr) : Dev :=
  let d1 := d.send o
  if d.loopsBack p then { d1 with loopQ := d1.loopQ ++ l } else d1

/-- Nothing that a port sends leaves its modulator; in loopback NEAR the lanes carry it all the same (R337, R522). -/
def Dev.silent (d : Dev) (p : Nat) : Bool := (d.port p).muted && d.loop p != 1

/-- A physical port, where the number is one. -/
def asPort (p : Nat) : Port := Fin.ofNat 512 p

/-- A half-rate port (R110). -/
def PortSt.slow (x : PortSt) : Bool := x.mode == 2 || x.mode == 4

/-- Bits that leave a port in a core clock: 400 Gbit/s, and half of it on a half-rate port (R30, R110). -/
def PortSt.lineBits (x : PortSt) : Nat := if x.slow then 125 else 250

/-- Payload bytes of a copy that have been read into the transmit buffer, and those that have left it. -/
def Sending.inBytes (x : Sending) : Nat := min (256 * x.read) x.hdr.len.toNat
def Sending.outBytes (x : Sending) : Nat := min (x.bits / 8 - 32) x.inBytes

/-- Free bytes of a logical port's transmit buffer of 4 KiB (R108). -/
def Dev.txFree (d : Dev) (l : Nat) : Nat :=
  4096 - sumNat ((d.sendingOn l).map fun x => x.inBytes - x.outBytes)

/-- The port may take another copy's first read slot (R108): it has read all of the copies before it, and 512
bytes of its buffer are free. -/
def Dev.mayRead (d : Dev) (l : Nat) : Bool :=
  (d.sendingOn l).all (fun x => x.unread == 0) && decide (512 ≤ d.txFree l)

/-- The conditions of R110 for a copy that arrived on physical port `arr` and goes to logical port
`l`; while a launch frame is being sent, or is released and goes ahead of every other copy, none starts (R446,
R525 row 8), and a mirror copy never starts to a port slower than its source (R525 row 13). -/
def Dev.cutOk (d : Dev) (arr : Option Nat) (l cls : Nat) (mirror : Bool) : Bool :=
  match arr with
  | none => false
  | some p =>
    let e := d.port (d.physical l)
    !d.regBit (basePort p + 0x44) 0 && (d.queue (.port l) cls).isEmpty &&
    (d.sendingOn l).all (fun x => x.copy.cls.toNat != cls && !x.launch) && e.st == .active && !e.held &&
    !(Tab.get d.store.launch l []).any (fun x => x.ready) &&
    (!(d.port p).slow || e.slow) && (!mirror || (d.port p).slow == e.slow)

/-- Length of a frame for accounting (R8, R40). -/
def Frame.length (f : Frame) : Nat := 40 + f.hdr.len.toNat

/-! #### Shapers, as far as a start charges them (R137 to R141) -/

/-- Tokens taken from a bucket. -/
def Bucket.take (b : Bucket) (len : Nat) : Bucket :=
  if b.en then { b with tokens := b.tokens - (len * 4096 : Nat) } else b

/-- The shaper of a port and class: TC7 is enabled at 40 Gbit/s after reset (R142, R143), with a full bucket.
DESIGN CHOICE, log entry 138. -/
def defaultShaper (cls : Nat) : Shaper :=
  { b := if cls = 7 then { en := true, rate := 3276800, burst := 65536, tokens := 65536 * 4096 } else {},
    level := if cls = 7 then 3 else if 4 ≤ cls then 2 else 1 }

def Dev.shaper (d : Dev) (l cls : Nat) : Shaper := Tab.get d.tm.shapers (l * 8 + cls) (defaultShaper cls)

def Dev.setShaper (d : Dev) (l cls : Nat) (s : Shaper) : Dev :=
  { d with tm := { d.tm with shapers := Tab.set d.tm.shapers (l * 8 + cls) s (defaultShaper cls) } }

/-- The group shaper of a queue: the lowest-numbered enabled one whose masks cover it (R140). -/
def Dev.groupOf (d : Dev) (l cls : Nat) : Option Nat :=
  (d.tm.groups.find? fun e => e.2.b.en && hasPort e.2.ports l && e.2.classes.getLsbD cls).map Prod.fst

/-- Charges a copy of length `len` to the shapers that cover its queue (R141). -/
def Dev.chargeShapers (d : Dev) (l cls len : Nat) : Dev :=
  let s := d.shaper l cls
  let d1 := d.setShaper l cls { s with b := s.b.take len }
  match d.groupOf l cls with
  | none => d1
  | some g => { d1 with tm := { d1.tm with
      groups := Tab.adj d1.tm.groups g (fun x => { x with b := x.b.take len }) } }

/-- A frame as a copy is made of it: the frame, its number once it is stored, and whether each copy
is a frame of its own (R124). -/
structure Making where
  f : Frame
  fid : Option Nat
  fids : List Nat
  input : Bool
  /-- Physical arrival port of a frame that may cut through. -/
  cutArr : Option Nat
  /-- The sample of the frame still looks for its copy. -/
  sample : Bool
  deriving DecidableEq, Repr

/-- A copy is refused (R115, R123, R126); of a mirror copy STORE_MIRROR_DROP alone counts it (R136).
DESIGN CHOICE, log entry 167. -/
def Dev.refuseCopy (d : Dev) (m : Making) (t : Dest) (cls : Nat) (mirror desc : Bool) : Dev :=
  if mirror then d.bump (ctrStore 0x118)
  else
    let d1 := d.bump (ctrStore (if desc then 0x108 else 0x100))
    let d2 := d1.countQ t cls (fun q => { q with refused := q.refused + 1 })
    d2.countP m.f.hdr.part.toNat (fun q => { q with refused := q.refused + 1 })

/-- An entry of a frame that never reached a queue, with its outcome (R512, R513). -/
def Dev.gleanNow (d : Dev) (f : Frame) (eg outcome : Nat) : Dev :=
  d.gleanAdd f.sampler (.frame f.rx outcome (match f.arr with | some (p, _) => p | none => 0xFFFF) eg
    (f.stamp / 1000000000) (f.stamp % 1000000000) (d.residence f) false false f.inputCopy f.oldBank)

/-- Refuses a copy; the frame's sample ends with it when it follows this copy. -/
def Dev.refused (d : Dev) (m : Making) (t : Dest) (cls : Nat) (mirror desc : Bool) : Dev × Making × Bool :=
  let d1 := d.refuseCopy m t cls mirror desc
  if m.sample && !mirror then (d1.gleanNow m.f (d.gleanEg t) 1, { m with sample := false }, false)
  else (d1, m, false)

/-- Puts an admitted copy at its place: it starts by cut-through (R110), or joins its queue. -/
def Dev.placeCopy (d : Dev) (m : Making) (c : Copy) : Dev :=
  let cls := c.cls.toNat
  match c.dest with
  | .port l =>
    if !m.input && d.cutOk m.cutArr l cls c.mirror then
      let h := { m.f.hdr with hops := m.f.hdr.hops + 1 }
      let s : Sending := {
        copy := c, hdr := h, cut := true, ceSet := false, tailMark := false, ended := m.f.whole,
        stamp := d.timeNs, built := none, launch := false, late := false, era := d.cnt.era }
      ((d.setSending l (d.sendingOn l ++ [s])).chargeShapers l cls
        m.f.length).gleanFrame c.fid c 0 true false
    else d.setQueue c.dest cls (d.queue c.dest cls ++ [c])
  | _ => d.setQueue c.dest cls (d.queue c.dest cls ++ [c])

/-- Makes one copy: the descriptor and queue-entry limits, admission, the charge of the frame's
cells, and the copy's place (R103, R115, R123, R124, R126).  The lack of a descriptor or queue entry is tested
before the pools, and a copy that the partition reserve admits is charged to its queue's reserve use, Qr.
DESIGN CHOICE, log entry 139. -/
def Dev.makeCopy (d : Dev) (m : Making) (t : Dest) (cls : Nat) (mirror : Bool) : Dev × Making × Bool :=
  let k := cellsOf m.f.hdr.len.toNat
  let own := m.fid.isNone || m.input
  let noDesc := own && decide (1048576 - d.store.rowsOut ≤ d.store.frames.length)
  let noEntry := decide (2097152 - d.store.entriesOut ≤ d.store.entries)
  if noDesc || noEntry then d.refused m t cls mirror true
  else if own then
    match d.admitFirst m.f.hdr.part.toNat t cls k mirror with
    | none => d.refused m t cls mirror false
    | some pool =>
      let fid := d.store.nextFid
      let f := { m.f with
        charge := some (pool, k), glean := m.sample, wb := if mirror then none else m.f.wb }
      let c : Copy := {
        fid := fid, dest := t, cls := BitVec.ofNat 3 cls, shared := pool == .shared, cells := k,
        mirror := mirror, gleaned := m.sample && !mirror }
      let d1 := { d with store := { d.store with
        nextFid := fid + 1, frames := Tab.put d.store.frames fid f } }
      let d2 := d1.countQ t cls (fun q => { q with admitted := q.admitted + 1, admCells := q.admCells + BitVec.ofNat 64 k })
      let d3 := d2.countP m.f.hdr.part.toNat
        (fun q => { q with frames := q.frames + 1, cells := q.cells + BitVec.ofNat 64 k })
      (d3.placeCopy m c, { m with fid := some fid, fids := m.fids ++ [fid],
                                  sample := m.sample && mirror }, true)
  else
    match d.admitLater t cls k mirror with
    | none => d.refused m t cls mirror false
    | some sh =>
      let fid := m.fid.getD 0
      let c : Copy := {
        fid := fid, dest := t, cls := BitVec.ofNat 3 cls, shared := sh, cells := k, mirror := mirror,
        gleaned := m.sample && !mirror }
      let d1 := d.countQ t cls (fun q => { q with admitted := q.admitted + 1, admCells := q.admCells + BitVec.ofNat 64 k })
      (d1.placeCopy m c, { m with sample := m.sample && mirror }, true)

/-! ### Mirror sessions (R125, R126) -/

/-- The session's source matches the frame itself: ingress on logical port `arr`, or flow. -/
def mirrorHits (s : MirrorSrc) (h : Header) (arr : Option Nat) (egress : List Nat) : Bool :=
  match s with
  | .ingress p => arr == some p.toNat
  | .egress p => egress.contains p.toNat
  | .flow part a m => decide (part = h.part) && match m with
    | .src => decide (a = h.src)
    | .dst => decide (a = h.dst)
    | .either => decide (a = h.src) || decide (a = h.dst)

/-- Sessions that match, in session order. -/
def Dev.mirrorsOf (d : Dev) (h : Header) (arr : Option Nat) (egress : List Nat) : List MirrorSess :=
  (d.store.mirrors.filter fun e => mirrorHits e.2.source h arr egress).map Prod.snd

end Sys2Proof.Machine
end

