-- ==== Sys2Proof/Machine/Lookup.lean ====
section
/-! DEFINITION. Forwarding lookup (R66 to R86, R95, R96, R144 to R152, R194, R209): banks, keys,
routes, groups, port sets, the sprayer, policers and the start of a learn event. -/

namespace Sys2Proof.Machine

/-! ### Banks and epochs (R95, R96) -/

/-- The bank of a lookup: the bank, whether it is the old one, and 0, or the counter offset of a
lookup made in the current bank for another epoch. -/
def Dev.bankFor (d : Dev) (h : Header) : Bank × Bool × Nat :=
  if !h.es || h.epoch = d.fwd.epoch then (d.fwd.cur, false, 0)
  else if h.epoch = d.fwd.epoch - 1 then
    if d.fwd.oldLive then (d.fwd.other, true, 0) else (d.fwd.cur, false, 0x120)
  else if h.epoch = d.fwd.epoch + 1 then (d.fwd.cur, false, 0x128)
  else (d.fwd.cur, false, 0x120)

/-- Counts a lookup in the current bank for another epoch, and sets its SEEN bit (R96, R100). -/
def Dev.countEpoch (d : Dev) (k off : Nat) : Dev :=
  if off = 0 then d
  else (d.bump (ctrFwd k off)).setRegBit (baseFwd 0) (if off = 0x128 then 8 else 9) true

/-- A port is enabled for a partition (R81). -/
def Bank.enabled (b : Bank) (part : Nat) (l : Nat) : Bool :=
  match Tab.find b.parts part with
  | some e => e.valid && hasPort e.ports l
  | none => false

/-! ### The exact-match table (R75 to R79) -/

/-- Key of an endpoint and of a switch service (R75). -/
def keyEndpoint (part : BitVec 12) (a : BitVec 24) : BitVec 48 :=
  part ++ (0 : BitVec 4) ++ (0 : BitVec 8) ++ a
def keyService (a : BitVec 24) : BitVec 48 :=
  (0 : BitVec 12) ++ (1 : BitVec 4) ++ (0 : BitVec 8) ++ (a &&& 0xFFFFC0#24)

/-- Bucket of a key (R77). -/
def bucketOf (seed : Word) (key : BitVec 48) : Nat :=
  (crc32c (beBytes 4 seed.toNat ++ beBytes 6 key.toNat)).toNat % 65536

/-- Positions of the exact-match table: 4 ways of 65,536 buckets, then the overflow store (R92). -/
def emMain : Nat := 262144
def emPositions : Nat := 264192

/-- The entry that holds a key, with its position (R78). -/
def Bank.emFind (b : Bank) (key : BitVec 48) : Option (Nat × EmEntry) :=
  b.em.find? fun e => decide (e.2.key = key)

/-- First position of `n` from `p` that is free. -/
def firstFree (em : Tab EmEntry) : Nat → Nat → Option Nat
  | _, 0 => none
  | p, n + 1 => if (Tab.find em p).isNone then some p else firstFree em (p + 1) n

/-- The lowest free overflow position: the first gap in the listed keys from `p` on. -/
def overflowGap : Tab EmEntry → Nat → Option Nat
  | [], p => if p < emPositions then some p else none
  | (k, _) :: r, p => if k < p then overflowGap r p else if k = p then overflowGap r (p + 1)
    else if p < emPositions then some p else none

/-- Inserts an entry (R79): in place of one with its key, else in the lowest free way of its bucket,
else in the lowest free overflow position; none when both are full. -/
def Bank.emInsert (b : Bank) (e : EmEntry) : Option Bank :=
  match b.emFind e.key with
  | some (p, _) => some { b with em := Tab.put b.em p e }
  | none =>
    match firstFree b.em (4 * bucketOf b.seed e.key) 4 with
    | some p => some { b with em := Tab.put b.em p e }
    | none =>
      match overflowGap b.em emMain with
      | some p => some { b with em := Tab.put b.em p e }
      | none => none

/-- Removes the entry of a key. -/
def Bank.emDelete (b : Bank) (key : BitVec 48) : Bank :=
  { b with em := b.em.filter fun e => !decide (e.2.key = key) }

/-- A word of pipeline `k`'s copy is bad in either bank. -/
def Dev.tableBad (d : Dev) (k : Nat) (t : TableId) (ix : Nat) : Bool :=
  d.fwd.bad.any fun b => b.pipeline == k && decide (b.table = t) && b.index == ix

/-- A word of pipeline `k`'s copy is bad in the bank of this number. -/
def Dev.badIn (d : Dev) (k : Nat) (num : Bool) (t : TableId) (ix : Nat) : Bool :=
  d.fwd.bad.contains { pipeline := k, bank := num, table := t, index := ix }

/-- Counts an uncorrectable table read (R67). -/
def Dev.tableEcc (d : Dev) (k : Nat) (t : TableId) (ix : Nat) : Dev :=
  ((d.bump (ctrFwd k 0x160)).event (.tableEcc k t ix)).faultRec 3 0x04 k ix 7 0 0

/-- Arrays of DIAG_INJECT as the model numbers them (log entry 20): route, exact-match, group,
partition and port-set table of a copy are 0x10 to 0x14.  DESIGN CHOICE, log entry 20. -/
def TableId.inject : TableId → Nat
  | .route => 0x10 | .em => 0x11 | .group => 0x12 | .part => 0x13 | .portset => 0x14

/-- A read of a table word in copy `k` and the bank numbered `num`: an armed error is met here (R500), one
symbol is corrected and counted, two make the entry bad, and so does one in an entry that is bad already, recorded
once (R499).  The answer says whether the entry reads (R67). -/
def Dev.tableRead (d : Dev) (k : Nat) (num : Bool) (t : TableId) (ix : Nat) : Dev × Bool :=
  match d.faults.injects.find? (fun x => x.array == TableId.inject t && x.index == ix && x.word == k) with
  | some x =>
    let d1 := { d with faults := { d.faults with injects := d.faults.injects.erase x } }
    if d1.badIn k num t ix then (d1.tableEcc k t ix, false)
    else if x.two then
      let e : BadEntry := { pipeline := k, bank := num, table := t, index := ix }
      let d2 := { d1 with fwd := { d1.fwd with bad := d1.fwd.bad ++ [e] } }
      (d2.tableEcc k t ix, false)
    else (d1.bump (ctrFwd k 0x158), true)
  | none => if d.badIn k num t ix then (d.tableEcc k t ix, false) else (d, true)

/-- Reads of several words of one table, in order: those that read. -/
def Dev.tableReads (d : Dev) (k : Nat) (num : Bool) (t : TableId) : List Nat → Dev × List Nat
  | [] => (d, [])
  | i :: r =>
    let x := d.tableRead k num t i
    let y := x.1.tableReads k num t r
    (y.1, if x.2 then i :: y.2 else y.2)

/-- The partition entry as a lookup in copy `k` reads it: the bank, without the entry where it does not
read, so that no port is enabled for the partition (R67, R81). -/
def Dev.partView (d : Dev) (k : Nat) (b : Bank) (part : Nat) : Dev × Bank :=
  let r := d.tableRead k b.num .part part
  (r.1, if r.2 then b else { b with parts := Tab.del b.parts part })

/-- Exact-match lookup in pipeline `k`: the entry, unless it is unreadable. -/
def Dev.emLookup (d : Dev) (k : Nat) (b : Bank) (key : BitVec 48) : Dev × Option EmEntry :=
  match b.emFind key with
  | none => (d, none)
  | some (p, e) =>
    let r := d.tableRead k b.num .em p
    (r.1, if r.2 then some e else none)

/-- The leaf-route entry of a leaf; every entry is DROP after reset (R81). -/
def Bank.routeOf (b : Bank) (leaf : Nat) : Route := Tab.get b.route leaf { rtype := 3, target := 0 }

/-- Leaf-route lookup in pipeline `k`; an unreadable entry is a miss, which drops. -/
def Dev.routeLookup (d : Dev) (k : Nat) (b : Bank) (leaf : Nat) : Dev × Route :=
  let r := d.tableRead k b.num .route leaf
  (r.1, if r.2 then b.routeOf leaf else { rtype := 3, target := 0 })

/-- Sets the hit bit of copy `k` for a key (R83). -/
def Dev.hit (d : Dev) (k : Nat) (key : BitVec 48) : Dev :=
  let old := Tab.get d.fwd.hits key.toNat 0
  { d with fwd := { d.fwd with
    hits := Tab.set d.fwd.hits key.toNat (old ||| BitVec.ofNat 16 (1 <<< k)) 0 } }

/-! ### Leaf ports (R71) -/

/-- The down-port and the up-port of a number, as logical ports. -/
def downPort (n : Nat) : Nat := 32 * (n / 16) + n % 16
def upPort (n : Nat) : Nat := 32 * (n / 16) + 16 + n % 16
/-- A logical port that is a leaf's up-port, and its down-port number otherwise. -/
def isLeafUp (l : Nat) : Bool := decide (16 ≤ l % 32)
def downNum (l : Nat) : Nat := 16 * (l / 32) + l % 16

/-- Up-ports for R194 by role. -/
def Dev.isUpPort (d : Dev) (l : Nat) : Bool :=
  if d.isLeaf then isLeafUp l
  else if d.isSpine then (d.planOf l).valid && (d.planOf l).role == 2
  else false

/-! ### Port sets (R72) and the sprayer (R151, R152) -/

/-- Members of a port set. -/
def Bank.setMembers (b : Bank) (n : Nat) : List Nat := members (Tab.get b.sets n 0)

/-- The flow hash of R72. -/
def flowHash (h : Header) : Nat :=
  (crc32c (beBytes 2 (h.part.toNat * 16) ++ beBytes 2 h.job.toNat ++ beBytes 3 h.src.toNat ++
    beBytes 3 h.dst.toNat)).toNat

/-- A port set as a lookup in copy `k` reads it; none where its entry does not read (R67). -/
def Dev.readSet (d : Dev) (k : Nat) (b : Bank) (n : Nat) : Dev × Option (List Nat) :=
  let r := d.tableRead k b.num .portset n
  (r.1, if r.2 then some (b.setMembers n) else none)

/-- The ACTIVE member that the flow hash takes. -/
def Dev.hashMember (d : Dev) (b : Bank) (n : Nat) (h : Header) : Option Nat :=
  let m := (b.setMembers n).filter d.activeL
  if m.isEmpty then none else m[flowHash h % m.length]?

def offSpray : Nat := baseTm + 0x04
/-- KMARK of a class. -/
def Dev.kmark (d : Dev) (c : Nat) : Nat := d.regBits (baseTm + 0x10 + 4 * c) 19 0

/-- The weight of a candidate (R151). -/
def Dev.sprayWeight (d : Dev) (leaf cls l : Nat) : Nat :=
  let lev := Tab.get d.tm.levels (leaf * 512 + l) 0
  let w := d.regBits offSpray (4 * lev + 3) (4 * lev)
  let w1 := if lev = 3 then atLeast1 w else w
  let full := d.kmark cls != 0 && decide (d.kmark cls ≤ d.queueCells (.port l) cls)
  let w2 := if full then w1 / 2 else w1
  if w2 = 0 then 1 else w2

/-- The next candidate after the pointer in rising port order, wrapping round. -/
def nextAfter (cands : List Nat) (ptr : Nat) : Option Nat :=
  match cands.find? (fun c => decide (ptr < c)) with
  | some c => some c
  | none => cands.head?

/-- The destination leaf of a frame: the device number of a switch-service address, else the leaf ID of the
endpoint (R47, R69). -/
def dstLeaf (a : BitVec 24) : Nat := if addrKind a = 1 then addrDev a else addrIndex a / 256

/-- Sprays a frame over a set (R152).  DESIGN CHOICE, log entry 15. -/
def Dev.spray (d : Dev) (k : Nat) (b : Bank) (n : Nat) (h : Header) : Dev × Option Nat :=
  let mem := b.setMembers n
  let cands := mem.filter fun l => d.activeL l && b.enabled h.part.toNat l &&
    !(d.port (d.physical l)).held
  let key := k * 1024 + n
  let st := Tab.get d.tm.spray key (mem.headD 0, 0)
  let leaf := dstLeaf h.dst
  let set := fun (v : Nat × Nat) => { d with tm := { d.tm with spray := Tab.put d.tm.spray key v } }
  if cands.contains st.1 && decide (st.2 < d.sprayWeight leaf h.tc.toNat st.1) then
    (set (st.1, st.2 + 1), some st.1)
  else match nextAfter cands st.1 with
    | some c => (set (c, 1), some c)
    | none => (d, none)

/-! ### Routes (R69 to R72) -/

/-- What a lookup decides. -/
inductive Lk where
  /-- The frame is discarded and counted at this offset of its pipeline. -/
  | miss (off : Nat)
  /-- Copies to logical ports. -/
  | ports (l : List Nat)
  /-- The frame goes to a service queue. -/
  | svc (t : Dest)
  /-- It is consumed at lookup: a LEARN frame or a congestion notice (R101, R150). -/
  | consumed
  deriving DecidableEq, Repr

/-- One port of a unicast frame: the three discards that follow R70.  Of several that hold, the fence counts before
the return to the arrival port, and that before a port that is not ACTIVE.  DESIGN CHOICE, log entry 164. -/
def Dev.onePort (d : Dev) (b : Bank) (part : Nat) (arr : Option Nat) (l : Nat) : Lk :=
  if !b.enabled part l then .miss 0x108
  else if arr = some l then .miss 0x100
  else if !d.activeL l then .miss 0x110
  else .ports [l]

/-- Egress of a route result that is not LEAF (R70, R72).  A port-set entry that does not read ends the lookup with
FWD_NO_ROUTE, as any other miss (R67).  DESIGN CHOICE, log entry 165. -/
def Dev.followRoute (d : Dev) (k : Nat) (b : Bank) (h : Header) (arr : Option Nat) (r : Route) :
    Dev × Lk :=
  match r.rtype.toNat with
  | 0 => (d, d.onePort b h.part.toNat arr (r.target.toNat % 512))
  | 2 =>
    let n := r.target.toNat % 1024
    match d.readSet k b n with
    | (d0, none) => (d0, .miss 0x100)
    | (d0, some _) =>
      if d0.isLeaf && h.kind == 0 && bitOf (d0.regBits offSpray 23 16) h.tc.toNat then
        match d0.spray k b n h with
        | (d1, some l) => (d1, d1.onePort b h.part.toNat arr l)
        | (d1, none) => (d1, .miss 0x110)
      else match d0.hashMember b n h with
        | some l => (d0, d0.onePort b h.part.toNat arr l)
        | none => (d0, .miss 0x110)
  | 4 => (d, d.onePort b h.part.toNat arr (downPort (addrIndex h.dst % 256)))
  | _ => (d, .miss 0x100)

/-- Egress of a result of either table. -/
def Dev.follow (d : Dev) (k : Nat) (b : Bank) (h : Header) (arr : Option Nat) (r : Route) : Dev × Lk :=
  if r.rtype = 1 then
    let x := d.routeLookup k b r.target.toNat
    if x.2.rtype = 1 then (x.1, .miss 0x100) else x.1.followRoute k b h arr x.2
  else d.followRoute k b h arr r

/-- Destination lookup by an exact-match key, else by a leaf route where one is named (R69). -/
def Dev.lookupKey (d : Dev) (k : Nat) (b : Bank) (h : Header) (arr : Option Nat) (key : BitVec 48)
    (leaf : Option Nat) : Dev × Lk :=
  match d.emLookup k b key with
  | (d1, some e) => (d1.hit k key).follow k b h arr e.res
  | (d1, none) =>
    match leaf with
    | none => (d1, .miss 0x100)
    | some n =>
      let x := d1.routeLookup k b n
      x.1.followRoute k b h arr x.2

/-- A context's chunk membership for a SEQ (R199): MEMBERS_NEXT from BOUNDARY while a resize is
pending.  DEDUCED, log entry 92. -/
def Ctx.membership (c : Ctx) (seq : Word) : PortMask :=
  if c.resizePend && decide (0 ≤ seqDist seq c.e.boundary) then c.e.membersNext else c.e.members

/-- A member port counts as ACTIVE for a context or sheaf: ACTIVE, not in loopback, enabled for its
PART (R205, R525 row 19). -/
def Dev.memberUp (d : Dev) (part l : Nat) : Bool :=
  d.activeL l && d.loop (d.physical l) == 0 && d.fwd.cur.enabled part l

/-- The context that a number names, if VALID. -/
def Dev.ctx? (d : Dev) (c : Nat) : Option Ctx := Tab.find d.red.ctxs c

/-- Serving cluster of a context (R224). -/
def clusterOf (c : Nat) : Nat := c / 8192

/-- Puts a number into a rising list. -/
def insertNat (n : Nat) : List Nat → List Nat
  | [] => [n]
  | x :: r => if n < x then n :: x :: r else x :: insertNat n r

/-- Copies of a group frame (R82).  The further copy of step 3 is not made, and nothing counts it, where its member is
not enabled for PART or is the arrival port, or where the UP_SET entry does not read; where no member is ACTIVE,
FWD_PORT_DOWN counts and the copies of step 2 still go.  DEDUCED, log entry 92; DESIGN CHOICE, log entries 162
and 165. -/
def Dev.groupPorts (d : Dev) (k : Nat) (b : Bank) (h : Header) (arr : Option Nat) : Dev × Lk :=
  let g := addrIndex h.dst % 65536
  let r := d.tableRead k b.num .group g
  match (if r.2 then Tab.find b.groups g else none) with
  | none => (r.1, .miss 0x118)
  | some e =>
    if !e.valid || !decide (e.part = h.part) then (r.1, .miss 0x118)
    else
      let base := (members e.ports).filter fun l =>
        b.enabled h.part.toNat l && d.activeL l && !decide (arr = some l)
      let fromDown := match arr with
        | some l => !isLeafUp l
        | none => false
      if d.isLeaf && fromDown && e.upEn then
        match r.1.readSet k b e.upSet.toNat with
        | (d1, none) => (d1, .ports base)
        | (d1, some _) =>
          match d1.hashMember b e.upSet.toNat h with
          | some l =>
            if base.contains l || !b.enabled h.part.toNat l || arr = some l then (d1, .ports base)
            else (d1, .ports (insertNat l base))
          | none => (d1.bump (ctrFwd k 0x110), .ports base)
      else (r.1, .ports base)

/-- Cluster MCL of the job entry that a STATE_MIRROR frame's PART and JOB name (R270); cluster 0
receives the frames of no job. -/
def Dev.mirrorCluster (d : Dev) (h : Header) : Nat :=
  match d.thr.jobs.find? (fun e => decide (e.2.cfg.part = h.part) && decide (e.2.cfg.job = h.job)) with
  | some e => e.2.cfg.mcl.toNat
  | none => 0

/-- Service queue of a frame addressed to an own service (R48, R224, R113). A SHEAF frame with a
number of 8,192 or more is a header error (R217), which check 5 meets first. -/
def Dev.svcDest (d : Dev) (h : Header) (svc : Nat) : Lk :=
  let kctx := bitsOf h.ksf.toNat 63 48
  match svc with
  | 0 => .svc (.cluster (clusterOf (if h.kind = 2 then h.ctx.toNat else kctx)))
  | 1 => .svc (.cluster (h.ctx.toNat / 1024 % 8))
  | 2 => if h.kind = 7 && h.sub = 0x20 then .consumed else .svc .agent
  | 3 => .consumed
  | _ => .svc (.cluster (d.mirrorCluster h))

/-- The destination of a header: pipeline `k`, bank, arrival logical port (none for the agent port
and for frames that the device builds).  A context of another PART or JOB is none for the frame (R51, R199,
R209). -/
def Dev.lookup (d : Dev) (k : Nat) (b : Bank) (h : Header) (arr : Option Nat) : Dev × Lk :=
  let ctxPass := match d.ctx? h.ctx.toNat with
    | some c => c.e.level == 0 && decide (c.e.part = h.part) && decide (c.e.job = h.job)
    | none => false
  let toReduce := h.kind == 2 && !ctxPass && match arr with
    | some l => !d.isUpPort l
    | none => false
  if toReduce then (d, d.svcDest h 0)
  else match addrKind h.dst with
    | 0 => d.lookupKey k b h arr (keyEndpoint h.part h.dst) (some (addrIndex h.dst / 256))
    | 1 =>
      match d.ownSvc h.dst with
      | some s => (d, d.svcDest h s)
      | none => d.lookupKey k b h arr (keyService h.dst)
          (if addrTier h.dst = 0 then some (addrDev h.dst) else none)
    | 2 => d.groupPorts k b h arr
    | 3 =>
      match d.ctx? (addrIndex h.dst % 65536) with
      | none => (d, .miss 0x100)
      | some c =>
        if decide (c.e.part = h.part) && decide (c.e.job = h.job) then
          (d, .ports ((members (c.membership h.seq)).filter fun l =>
            d.activeL l && d.loop (d.physical l) == 0 && b.enabled h.part.toNat l))
        else (d, .miss 0x100)
    | _ => (d, .miss 0x100)

/-! ### Policers (R144, R145) -/

/-- The enabled policers that a frame consults, each once. -/
def Dev.policersOf (d : Dev) (arr : Option Nat) (cls part : Nat) : List (Nat × Policer) :=
  let a := match arr with
    | some l => (Tab.find d.tm.mapPort (l * 8 + cls)).toList
    | none => []
  let p := (Tab.find d.tm.mapPart part).toList
  ((a ++ p).eraseDups.filterMap fun n => (Tab.find d.tm.policers n).map fun x => (n, x)).filter
    fun x => x.2.b.en

/-- A bucket holds a frame's tokens. -/
def Bucket.holds (b : Bucket) (len : Nat) : Bool := decide (((len * 4096 : Nat) : Int) ≤ b.tokens)

/-- Polices a frame of length `len`: whether it conforms, with the policers charged or its drop
counted. -/
def Dev.police (d : Dev) (arr : Option (Nat × Nat)) (cls part len : Nat) : Dev × Bool :=
  let ps := d.policersOf (arr.map Prod.snd) cls part
  if ps.all (fun x => x.2.b.holds len) then
    let charged := fun (x : Policer) => { x with b := x.b.take len, bytes := x.bytes + len }
    ({ d with tm := { d.tm with
      policers := ps.foldl (fun (t : Tab Policer) (x : Nat × Policer) => Tab.put t x.1 (charged x.2)) d.tm.policers } }, true)
  else
    let dropped := fun (x : Policer) => if x.b.holds len then x else { x with dropped := x.dropped + 1 }
    let d1 := { d with tm := { d.tm with
      policers := ps.foldl (fun (t : Tab Policer) (x : Nat × Policer) => Tab.put t x.1 (dropped x.2)) d.tm.policers } }
    let d2 := (d1.bump (ctrTm 0x128)).bump (ctrCnt 0x108)
    (match arr with
     | some (p, _) => d2.bump (ctrPort p 0x130)
     | none => d2, false)

/-! ### The start of a learn event (R83, R86, R87) -/

/-- Puts an event into a pipeline's pending queue (R87).  DEDUCED, log entry 72. -/
def Dev.queueLearn (d : Dev) (k : Nat) (e : LearnEv) (port : Nat) : Dev :=
  let q := Tab.get d.fwd.learnQ k []
  let put := fun (d : Dev) (q : List (LearnEv × Nat)) =>
    { d with fwd := { d.fwd with learnQ := Tab.set d.fwd.learnQ k q [] } }
  if q.any (fun x => decide (x.1.key = e.key)) then
    put d (q.map fun x => if x.1.key = e.key then (e, port) else x)
  else if 64 ≤ q.length then (put d (q.drop 1 ++ [(e, port)])).bump (ctrFwd k 0x138)
  else put d (q ++ [(e, port)])

/-- The natural route of an endpoint, as copy `k` reads it, contains a port (R67, R86). -/
def Dev.natural (d : Dev) (k : Nat) (b : Bank) (src : BitVec 24) (l : Nat) : Dev × Bool :=
  let x := d.routeLookup k b (addrIndex src / 256)
  match x.2.rtype.toNat with
  | 0 => (x.1, x.2.target.toNat % 512 == l)
  | 2 =>
    let y := x.1.readSet k b (x.2.target.toNat % 1024)
    (y.1, (y.2.getD []).contains l)
  | 4 => (x.1, downPort (addrIndex src % 256) == l)
  | _ => (x.1, false)

/-- The source lookup of a header that arrived on logical port `l` of physical port `p`: hit bit, learn
event, and the count of a static entry on another port (R83, R86, R101).  `b` is the bank with the partition
entry as check 3 of R64 read it. -/
def Dev.sourceLookup (d : Dev) (b : Bank) (h : Header) (p l : Nat) : Dev :=
  if addrKind h.src ≠ 0 then d
  else
    let k := p / 32
    let key := keyEndpoint h.part h.src
    let onPort := fun (e : EmEntry) => e.res.rtype == 0 && e.res.target.toNat % 512 == l
    let r := d.emLookup k b key
    let d1 := match r.2 with
      | some e => if onPort e then r.1.hit k key else r.1
      | none => r.1
    let learnEn := match Tab.find b.parts h.part.toNat with
      | some e => e.learnEn
      | none => false
    let on := bitOf (d.reg (baseFwd k + 0x18)) (p % 32) && learnEn && d.regBit (baseFwd 0 + 0x14) 0
    let ev : LearnEv := { key := key, kind := .create 0 (BitVec.ofNat 12 l), peer := false }
    match r.2 with
    | none =>
      if on then
        let n := d1.natural k b h.src l
        if n.2 then n.1 else n.1.queueLearn k ev l
      else d1
    | some e =>
      if e.static then (if onPort e then d1 else d1.bump (ctrFwd k 0x150))
      else if onPort e then d1
      else if on then d1.queueLearn k ev l else d1

end Sys2Proof.Machine
end

