-- ==== Sys2Proof/Machine/Frames.lean ====
section
/-! DEFINITION. Frames (chapter "Fabric frames, addresses and classes"): the checks of an arriving
header (R64), its rewrites (R52 to R55), forwarding and admission, frames that the device builds, and
the end of a frame (R62, R63). -/

namespace Sys2Proof.Machine

/-! ### Features (R365) -/

/-- The feature that a kind needs: bit 2 for collectives, bit 3 for LEARN.  DEDUCED, log entry 64. -/
def kindFeature (kind : Nat) : Option Nat :=
  if kind = 2 || kind = 3 || kind = 4 || kind = 6 then some 2
  else if kind = 5 then some 3 else none

/-- A port carries frames of a kind. -/
def PortSt.carries (x : PortSt) (kind : Nat) : Bool :=
  match kindFeature kind with
  | some b => x.feat.getLsbD b
  | none => true

/-! ### The glean buffer's frame candidates (R511) -/

/-- Starts a frame's sample: whether the header passes the filters and is sampled. `arr` is the
physical arrival port, which a frame from a ring and a built frame have none of, and `eg` the destination of its
lowest-numbered copy. -/
def Dev.gleanStart (d : Dev) (h : Header) (cls sampler : Nat) (arr : Option Nat) (eg : Option Dest) : Dev × Bool :=
  let f := d.reg offGleanFilt
  let egOk := match eg with
    | some (.port l) => d.physical l == bitsOf f 23 15
    | _ => false
  let pass := bitOf (bitsOf f 63 56) h.kind.toNat && bitOf (bitsOf f 55 48) cls &&
    (!bitOf f 47 || bitsOf f 46 35 == h.part.toNat) && (!bitOf f 34 || decide (arr = some (bitsOf f 33 25))) &&
    (!bitOf f 24 || egOk)
  if d.cnt.armed && d.regBit offGleanCtl 1 && pass then
    d.gleanCandidate sampler (d.regBits offGleanCtl 14 10)
  else (d, false)

/-! ### Admission of a frame's copies (R122 to R126) -/

/-- Input copying is in force for every frame (R122, STORE_CTL.INPUT_COPY). -/
def Dev.inputCopy (d : Dev) : Bool := d.boot.st = .ready || d.regBit baseStore 1

/-- A logical port is in loopback. -/
def Dev.loopL (d : Dev) (l : Nat) : Bool := d.loop (d.physical l) != 0

/-- Copies of the frame itself, in ascending order of destination. -/
def Dev.makeCopies (d : Dev) (m : Making) (cls : Nat) : List Dest → Dev × Making × List Nat
  | [] => (d, m, [])
  | t :: r =>
    let x := d.makeCopy m t cls false
    let y := x.1.makeCopies x.2.1 cls r
    (y.1, y.2.1, match t with
      | .port l => if x.2.2 then l :: y.2.2 else y.2.2
      | _ => y.2.2)

/-- A mirror session's analysis port takes a copy of a frame: it is not fenced off, is ACTIVE, and carries
the kind (R126, R365). -/
def Dev.mirrorGoes (d : Dev) (b : Bank) (h : Header) (s : MirrorSess) : Bool :=
  b.enabled h.part.toNat s.analysis && d.activeL s.analysis && (d.port (d.physical s.analysis)).carries h.kind.toNat

/-- Mirror copies, in session order (R125, R126). -/
def Dev.makeMirrors (d : Dev) (m : Making) (b : Bank) : List MirrorSess → Dev × Making
  | [] => (d, m)
  | s :: r =>
    if !b.enabled m.f.hdr.part.toNat s.analysis || !d.activeL s.analysis then
      (d.bump (ctrStore 0x118)).makeMirrors m b r
    else if !(d.port (d.physical s.analysis)).carries m.f.hdr.kind.toNat then
      (d.bump (ctrPort (d.physical s.analysis) 0x158)).makeMirrors m b r
    else
      let x := d.makeCopy m (.port s.analysis) s.cls.toNat true
      x.1.makeMirrors x.2.1 b r

/-- Admits a frame to its destinations and mirrors; the answer names the frames stored. `cut` allows
cut-through.  A mirror copy that is admitted to a port matches no egress session of that port, and a frame
that lookup or a policer discards is not mirrored.  DESIGN CHOICE, log entry 137. -/
def Dev.admitCopies (d : Dev) (b : Bank) (f : Frame) (dests : List Dest) (cls : Nat) (sample cut : Bool) :
    Dev × List Nat :=
  let arrL := f.arr.map Prod.snd
  let ports := dests.filterMap fun t => match t with
    | .port l => some l
    | _ => none
  let sess := d.mirrorsOf f.hdr arrL ports
  let looped := (arrL.toList ++ ports ++ ((sess.take 4).filter (d.mirrorGoes b f.hdr)).map (fun s => s.analysis)).any d.loopL
  let input := d.inputCopy || looped
  let m : Making := {
    f := { f with inputCopy := input }, fid := none, fids := [], input := input,
    cutArr := if cut then f.arr.map Prod.fst else none, sample := sample }
  let x := d.makeCopies m cls dests
  let sess1 := d.mirrorsOf f.hdr arrL x.2.2
  let extra := sess1.length - 4
  let y := (x.1.bumpBy (ctrStore 0x118) extra).makeMirrors x.2.1 b (sess1.take 4)
  (y.1, y.2.fids)

/-! ### Forwarding -/

/-- Copies to ports that lack the feature of the kind are discarded and counted (R365).
DEDUCED, log entry 64. -/
def Dev.featureDrop (d : Dev) (kind : Nat) (dests : List Dest) : Dev × List Dest :=
  dests.foldr (fun t (r : Dev × List Dest) => match t with
    | .port l =>
      if (r.1.port (r.1.physical l)).carries kind then (r.1, t :: r.2)
      else (r.1.bump (ctrPort (r.1.physical l) 0x158), r.2)
    | _ => (r.1, t :: r.2)) (d, [])

/-- The device built this frame itself: no port and no ring brought it.  DEDUCED, log entry 67. -/
def Frame.isBuilt (f : Frame) : Bool := f.arr.isNone && f.wb.isNone

/-- What the pipeline posts of a frame that passes through: a result notice at level GATHER (R209), and
a SHEAF release, which a group addresses (R217, R219, R259).  DEDUCED, log entry 67. -/
def Dev.postPassing (d : Dev) (f : Frame) : Dev :=
  let h := f.hdr
  if f.isBuilt then d
  else if h.kind = 3 then
    let gather := match d.ctx? h.ctx.toNat with
      | some c => c.e.level == 1 && decide (c.e.part = h.part) && decide (c.e.job = h.job)
      | none => false
    if gather then
      let k := clusterOf h.ctx.toNat
      let n : Notice := { ctx := h.ctx, seq := h.seq, rh := h.sub.getLsbD 7 }
      { d with red := { d.red with
        notices := Tab.set d.red.notices k (Tab.get d.red.notices k [] ++ [n]) [] } }
    else d
  else if h.kind = 4 && addrKind h.dst == 2 then
    let r : SheafRel := {
      sheaf := h.ctx.toNat, part := h.part, job := h.job, phase := h.seq,
      count := bitsOf h.ksf.toNat 52 32, datum := BitVec.ofNat 32 h.ksf.toNat, src := h.src }
    let k := h.ctx.toNat / 1024
    { d with red := { d.red with passing := Tab.set d.red.passing k (Tab.get d.red.passing k [] ++ [r]) [] },
             thr := { d.thr with posts := d.thr.posts ++ [r] } }
  else d

/-- Destinations of a lookup that is no miss. -/
def Lk.dests : Lk → List Dest
  | .ports l => l.map Dest.port
  | .svc t => [t]
  | _ => []

/-- Forwards a frame after its lookup: discards and their counts (at pipeline `ck`), policing,
features, posts and admission. `looked` says that a pipeline looked its header up, which makes it a candidate of
the glean buffer (R511).  A sample ends where the copy that it follows is discarded (R512). -/
def Dev.forward (d : Dev) (ck : Nat) (b : Bank) (f : Frame) (cls : Nat) (lk : Lk) (police cut looked : Bool) :
    Dev × List Nat :=
  let eg := lk.dests.head?
  let s := if looked then d.gleanStart f.rx cls f.sampler (f.arr.map Prod.fst) eg else (d, false)
  let d1 := s.1
  let note := fun (d : Dev) (o : Nat) => if s.2 then
    d.gleanNow f (match eg with | some t => d.gleanEg t | none => 0xFFFF) o else d
  match lk with
  | .miss off => (note (d1.bump (ctrFwd ck off)) 5, [])
  | .consumed => (note d1 6, [])
  | _ =>
    let pol := if police then d1.police f.arr cls f.hdr.part.toNat f.length else (d1, true)
    if !pol.2 then (note pol.1 3, [])
    else
      let x := (pol.1.postPassing f).featureDrop f.hdr.kind.toNat lk.dests
      if s.2 && decide (x.2.head? ≠ eg) then (note x.1 5).admitCopies b f x.2 cls false cut
      else x.1.admitCopies b f x.2 cls s.2 cut

/-! ### Frames that the device builds (R44, R54, R55, R59) -/

/-- The requester of the write slots of a frame that the device builds: the cluster whose service sends it, else
pipeline `k` (R20). -/
def Dev.builder (d : Dev) (k : Nat) (h : Header) : Nat :=
  match addrSvc h.src with
  | 0 => 16 + clusterOf (if h.kind = 2 || h.kind = 3 then h.ctx.toNat else bitsOf h.ksf.toNat 63 48)
  | 1 => 16 + h.ctx.toNat / 1024 % 8
  | 4 => 16 + d.mirrorCluster h
  | _ => k

/-- A built frame: ES 1, the device's epoch, both checks computed; HOPS is 1 once it is sent. -/
def Dev.builtFrame (d : Dev) (k : Nat) (h : Header) (payload : List Byte) : Frame :=
  let h1 := { h with ver := 1, epoch := d.fwd.epoch, es := true, hops := 0,
                     len := BitVec.ofNat 14 payload.length }
  { hdr := h1, rx := h1, e2e := e2eCheck h1 payload, payload := payload, arr := none, at_ := d.now,
    stamp := d.timeNs, whole := true, inputCopy := false, oldBank := false, charge := none,
    ptp := false, wb := none, sentAt := none, glean := false, bad := false, sampler := k,
    writer := d.builder k h }

/-- Puts a frame that is consumed at lookup before its pipeline (R101). -/
def Dev.take (d : Dev) (k : Nat) (t : Taken) : Dev :=
  { d with fwd := { d.fwd with taken := Tab.set d.fwd.taken k (Tab.get d.fwd.taken k [] ++ [t]) [] } }

/-- Sends a frame that the device builds: it is looked up in the current bank, in the copy of
pipeline `k`, and its discards are counted there (R101). -/
def Dev.build (d : Dev) (k : Nat) (h : Header) (payload : List Byte) : Dev :=
  let f := d.builtFrame k h payload
  let v := d.partView k d.fwd.cur f.hdr.part.toNat
  let x := v.1.lookup k v.2 f.hdr none
  match x.2 with
  | .consumed => x.1.take k { hdr := f.hdr, payload := payload, e2e := f.e2e, port := 0xFFFF }
  | lk => (x.1.forward k v.2 f f.hdr.tc.toNat lk false false true).1

/-- Sends a built frame on one logical port, with the discards of R70. -/
def Dev.buildTo (d : Dev) (l : Nat) (h : Header) (payload : List Byte) : Dev :=
  let f := d.builtFrame 0 h payload
  let v := d.partView 0 d.fwd.cur f.hdr.part.toNat
  (v.1.forward 0 v.2 f f.hdr.tc.toNat (v.1.onePort v.2 f.hdr.part.toNat none l) false false false).1

/-! ### Arriving headers (R64) -/

/-- DST kinds that a KIND allows (R45). -/
def dstAllowed (kind ak : Nat) : Bool :=
  match kind with
  | 0 | 7 => ak == 0 || ak == 1
  | 1 => ak == 2
  | 2 | 5 | 6 => ak == 1
  | 3 => ak == 3
  | 4 => ak == 1 || ak == 2
  | _ => false

/-- Check 1 of R64. -/
def headerPlausible (h : Header) : Bool :=
  let ak := addrKind h.dst
  h.ver == 1 && decide (h.kind.toNat ≤ 7) && decide (h.len.toNat ≤ 8192) &&
  dstAllowed h.kind.toNat ak &&
  (if ak = 1 then addrTier h.dst != 3 else if ak = 2 || ak = 3 then addrIndex h.dst < 65536 else true)

/-- The source address that R53's check accepts on a logical port: the endpoint of a leaf's down-port.  A
port that has no down-port number has none, and SRC_CHECK discards every frame of it.
DESIGN CHOICE, log entry 130. -/
def Dev.portSource (d : Dev) (l : Nat) : Option (BitVec 24) :=
  if d.isLeaf && !isLeafUp l then some (BitVec.ofNat 24 (d.devNum <<< 8 ||| downNum l)) else none

/-- The services receive this KIND and SUB (R48). -/
def serviceReceives (svc kind sub : Nat) : Bool :=
  match svc with
  | 0 => kind == 2 || (kind == 7 && (sub == 0x10 || sub == 0x12 || sub == 0x13))
  | 1 => kind == 4
  | 2 => kind == 0 || kind == 7
  | 3 => kind == 5
  | 4 => kind == 6
  | _ => false

/-- Offset of PORT_FRAME_CTL of a physical port. -/
def offFrameCtl (p : Nat) : Nat := basePort p + 0x40

/-- The class of a kind (R52). -/
def kindClass (kind : Nat) : Nat :=
  match kind with
  | 2 => 5 | 3 | 6 => 6 | 4 => 4 | _ => 7

/-- TC on an untrusted port (R52). -/
def Dev.untrustedTc (d : Dev) (p : Nat) (h : Header) : BitVec 3 :=
  if h.kind = 0 || h.kind = 1 then
    (if h.tc.toNat ≤ 3 then h.tc else BitVec.ofNat 3 (d.regBits (offFrameCtl p) 10 8))
  else BitVec.ofNat 3 (kindClass h.kind.toNat)

/-- The header after R52 and R53. -/
def Dev.rewrite (d : Dev) (p : Nat) (h : Header) : Header :=
  if d.regBit (offFrameCtl p) 0 then h
  else { h with tc := d.untrustedTc p h, hops := 0, es := false }

/-- Check 2. -/
def Dev.untrustedOk (d : Dev) (p l : Nat) (h : Header) : Bool :=
  d.regBit (offFrameCtl p) 0 ||
  (!(h.kind = 3 || h.kind = 5 || h.kind = 6) &&
   (!d.regBit (offFrameCtl p) 11 || decide (d.portSource l = some h.src)))

/-- The epoch stamp of the first switch (R54). -/
def Dev.stampEpoch (d : Dev) (h : Header) : Header :=
  if h.es then h else { h with epoch := d.fwd.epoch, es := true }

/-- The checks of R64 in their order, with the sheaf number of R217 after check 1 and R365
after all: a counter of the port where one fails, and the state in which the bank's count is taken.  Check 4 reads
the HOPS that R53 leaves, which is 0 on an untrusted port.  DESIGN CHOICE, log entry 160. -/
def Dev.ingress (d : Dev) (p l : Nat) (h : Header) : Dev × Option Nat :=
  if !headerPlausible h then (d, some 0x100)
  else if h.kind = 4 && decide (8192 ≤ h.ctx.toNat) then (d, some 0x100)
  else if !d.untrustedOk p l h then (d, some 0x100)
  else
    let h1 := d.rewrite p h
    let b := d.bankFor h1
    let t := (d.countEpoch (p / 32) b.2.2).partView (p / 32) b.1 h1.part.toNat
    if !t.2.enabled h1.part.toNat l then (t.1, some 0x108)
    else if atLeast1 (d.regBits (offFrameCtl p) 7 4) ≤ h1.hops.toNat then (t.1, some 0x110)
    else
      let own := match d.ownSvc h1.dst with
        | some s => serviceReceives s h1.kind.toNat h1.sub.toNat
        | none => true
      if !own then (t.1, some 0x100)
      else if !(d.port p).carries h1.kind.toNat then (t.1, some 0x158)
      else (t.1, none)

/-! ### Congestion notices (R148, R149) -/

/-- The partner of a physical port, as EXCHANGE identified it: ROLE and ADDR (R364). -/
def PortSt.partnerRole (x : PortSt) : Nat := x.partnerId.field 9 1
def PortSt.partnerAddr (x : PortSt) : BitVec 24 := BitVec.ofNat 24 (x.partnerId.field 20 3)

/-- Core clocks between two notices of a pipeline: 10,000,000 a second (log entry 27).
DEDUCED, log entry 27. -/
def noticeGap : Nat := 160

/-- Answers a marked frame from another leaf, SRC.INDEX >> 8, that arrived on logical port `l` of port `p`.
DEDUCED, log entry 27. -/
def Dev.notice (d : Dev) (p l : Nat) (h : Header) : Dev :=
  let leaf := addrIndex h.src / 256
  let k := p / 32
  if !(d.isLeaf && h.kind = 0 && h.ce && isLeafUp l && leaf != d.devNum && d.regBit baseTm 0) then d
  else
    let i := (crc32c (beBytes 2 leaf ++ beBytes 2 l)).toNat % 4096
    let gap := atLeast1 (d.regBits baseTm 15 8) * clkUs
    let fresh := match Tab.find d.tm.cache (k * 4096 + i) with
      | some (lf, ap, t) => lf == leaf && ap == l && decide (d.now - t < gap)
      | none => false
    let fast := match Tab.find d.tm.cnLast k with
      | some t => decide (d.now - t < noticeGap)
      | none => false
    if fresh || fast then d.bump (ctrTm 0x110)
    else
      let d1 := { d with tm := { d.tm with
        cache := Tab.put d.tm.cache (k * 4096 + i) (leaf, l, d.now),
        cnLast := Tab.put d.tm.cnLast k d.now } }
      let spine := addrDev (d.port p).partnerAddr
      let h1 := { Header.blank with
        kind := 7, tc := 7, dst := svcAddr 0 leaf 2, src := d.ownAddr 2, sub := 0x20,
        ksf := BitVec.ofNat 64 (d.devNum <<< 52 ||| spine <<< 40 ||| h.tc.toNat <<< 37) }
      (d1.bump (ctrTm 0x108)).build k h1 []

/-! ### The header taken -/

/-- A PTP message that the device handles as a transparent clock: its type is read with its payload
(R441, R442). -/
def Dev.isPtp (d : Dev) (h : Header) : Bool :=
  h.kind == 7 && h.sub == 0x40 && d.regBit baseTime 2 && (d.ownSvc h.dst).isNone

/-- Takes a header on physical port `p` that is ACTIVE or DRAINING and framed.  A header that check 1 finds
implausible fails its frame's link check and loses the framing (R62, R322).  DEDUCED, log entry 66. -/
def Dev.takeHeader (d : Dev) (p : Nat) (h : Header) : Dev :=
  let l := d.logical p
  let k := p / 32
  let rx : RxFrame := {
    hdr := h, cls := (d.rewrite p h).tc, fids := [], consumed := false, at_ := d.now,
    stamp := d.timeNs, era := d.cnt.era }
  let setRx := fun (d : Dev) (r : RxFrame) => d.setPort p { d.port p with rx := some r }
  match d.ingress p l h with
  | (d1, some off) =>
    let d2 := d1.bump (ctrPort p off)
    if headerPlausible h then setRx d2 rx
    else
      let d3 := (d2.bump (ctrPort p 0x118)).bump (ctrLine p 2)
      d3.setPort p { d3.port p with rx := none, hunting := true, frameSync := false }
  | (d1, none) =>
    let h1 := d.stampEpoch (d.rewrite p h)
    let b := d.bankFor (d.rewrite p h)
    let d2 := (d1.notice p l h1).sourceLookup b.1 h1 p l
    let x := d2.lookup k b.1 h1 (some l)
    let ptp := d.isPtp h1
    let f : Frame := {
      hdr := h1, rx := h, e2e := 0, payload := [], arr := some (p, l), at_ := d.now, stamp := d.timeNs,
      whole := false, inputCopy := false, oldBank := b.2.1, charge := none, ptp := ptp, wb := none,
      sentAt := none, glean := false, bad := false, sampler := k, writer := k }
    let y := x.1.forward k b.1 f h1.tc.toNat x.2 true (!ptp) true
    setRx y.1 { rx with fids := y.2, consumed := decide (x.2 = .consumed) }

/-- The port is in a swap pause of its own (R346). -/
def Dev.ownPause (d : Dev) (p : Nat) : Bool :=
  match Tab.find d.opt.swaps (p / 32) with
  | some w => w.port == p && (decide (w.step = .paused) || decide (w.step = .shuttered))
  | none => false

/-- The first data block after SWAP_NOW ends the partner's hold of its own queues (R345). -/
def Dev.dataBlock (d : Dev) (p : Nat) : Dev :=
  let x := d.port p
  match x.hold with
  | some h =>
    if h.both && h.nowSeen && !h.data then
      d.setPort p { x with
        held := d.ownPause p, hold := if h.ended then none else some { h with data := true } }
    else d
  | none => d

/-- The copies that a frame of port `p` was made into are written before the pipeline takes the port's next header
(R124). -/
def Dev.writeCopies (d : Dev) (p : Nat) : Dev :=
  (d.store.frames.filter fun e => e.2.inputCopy && decide (e.2.arr.map Prod.fst = some p)).foldl
    (fun d e => d.writeRest e.1) d

/-- A port in FAR loopback returns what it receives: a frame's header begins one that no lookup sees (R522). -/
def Dev.returnHeader (d : Dev) (p : Nat) (h : Header) : Dev :=
  let x := d.port p
  if decide (x.st = .test) && !x.muted then
    d.setPort p { x with rx := some { hdr := h, cls := h.tc, fids := [], consumed := true, at_ := d.now, stamp := d.timeNs } }
  else d

/-- FRAME_HEADER_TAKEN (R64): a frame that no state accepts is discarded and counted (R359); a port
that hunts for framing hands over no header, and one in FAR loopback returns the frame. -/
def execFrameHeaderTaken (p : Port) (h : Header) (s : State) : Host.Outcome State Fault Refusal :=
  let d := s.d
  let x := d.port p.val
  goto s <|
    if !d.awake || x.hunting || x.rx.isSome then d
    else if d.loop p.val == 2 then d.returnHeader p.val h
    else if x.st = .active || x.st = .draining then ((d.dataBlock p.val).writeCopies p.val).takeHeader p.val h
    else d.bump (ctrPort p.val 0x150)

/-- INGRESS_OVERRUN (R35): a frame that finds the header buffer full is discarded whole. -/
def execIngressOverrun (p : Port) (s : State) : Host.Outcome State Fault Refusal :=
  let d := s.d
  let x := d.port p.val
  goto s <|
    if d.awake && (x.st = .active || x.st = .draining) then d.bump (ctrPort p.val 0x170) else d

/-- TABLE_ENTRY_REWRITE (R67): firmware rewrites a bad entry of pipeline `k` from FP0's copy, or from
FP1's when the fault is in FP0's.  DESIGN CHOICE, log entry 127. -/
def execTableEntryRewrite (k : Fin 16) (t : TableId) (index : Nat) (s : State) :
    Host.Outcome State Fault Refusal :=
  let d := s.d
  let src := if k.val = 0 then 1 else 0
  goto s <|
    if !d.awake || !d.tableBad k.val t index then d
    else if d.tableBad src t index then d.tableEcc src t index
    else { d with fwd := { d.fwd with
      bad := d.fwd.bad.filter fun b => !(b.pipeline == k.val && decide (b.table = t) && b.index == index) } }

/-! ### The end of a frame (R62, R63) -/

/-- The bandwidth window that holds a first byte, by its time-stamp and its era: the current one (true), the last
one (false), or none that is still open: the first byte fell between a cut and the next boundary, or its window is
further back (R509, R510). -/
def Dev.bwWindow (d : Dev) (era stamp : Nat) : Option Bool :=
  let c := d.cnt
  if era != c.era then
    (if c.lastShort && era == c.shortEra && decide (c.bwPrev ≤ stamp) then some false else none)
  else if c.curShort then none
  else if c.bwStart ≤ stamp then some true
  else if !c.lastShort && decide (c.bwPrev ≤ stamp) then some false
  else none

/-- Bytes of a frame in a port's bandwidth window: the window that holds its first byte (R509). -/
def Dev.bwAdd (d : Dev) (p : Nat) (isRx : Bool) (era stamp bytes : Nat) : Dev :=
  match d.bwWindow era stamp with
  | none => d
  | some cur =>
  let w := Tab.get d.cnt.bw p {}
  let w1 : Bw :=
    if cur then
      (if isRx then { w with rxAcc := w.rxAcc + bytes } else { w with txAcc := w.txAcc + bytes })
    else if isRx then { w with rxLast := w.rxLast + bytes }
    else { w with txLast := w.txLast + bytes }
  let seq := d.cnt.wseq
  let w2 : Bw :=
    if cur || d.cnt.lastShort then w1
    else if isRx then
      (if w1.rxPeak < w1.rxLast then { w1 with rxPeak := w1.rxLast, rxPeakSeq := seq } else w1)
    else (if w1.txPeak < w1.txLast then { w1 with txPeak := w1.txLast, txPeakSeq := seq } else w1)
  { d with cnt := { d.cnt with bw := Tab.set d.cnt.bw p w2 {} } }

/-- A frame's copies are complete and good: they become eligible; a copy that is being sent by
cut-through has all its bytes. -/
def Dev.frameWhole (d : Dev) (payload : List Byte) (e2e : Word) (ptp : Bool) (fid : Nat) : Dev :=
  { d with store := { d.store with
    frames := Tab.adj d.store.frames fid (fun f =>
      { f with payload := payload, e2e := e2e, whole := true, ptp := ptp }),
    sending := d.store.sending.map (fun e => (e.1, e.2.map fun x =>
      if x.copy.fid == fid then { x with ended := true } else x)) } }

/-- Ends the frame in reception on port `p` as failed: its copies are discarded, or completed with a
tail mark (R63, R111). -/
def Dev.failRx (d : Dev) (p : Nat) : Dev :=
  match (d.port p).rx with
  | none => d
  | some r => r.fids.foldl (fun d fid => d.failFrame fid 4) (d.setPort p { d.port p with rx := none })

/-- The bytes of a frame that failed, as they arrived: a copy on the wire goes on carrying them (R63). -/
def Dev.noteCut (d : Dev) (r : RxFrame) (payload : List Byte) (e2e : Word) : Dev :=
  { d with store := { d.store with frames := r.fids.foldl (fun l fid =>
      Tab.adj l fid (fun f => { f with payload := payload.take r.hdr.len.toNat, e2e := e2e })) d.store.frames } }

/-- Message type of a PTP payload: the low half of its first byte.  PRESUMED, log entry 69. -/
def ptpType (payload : List Byte) : Nat := (payload.headD 0x0F).toNat % 16

/-- What becomes of a good PTP frame in transit (R442). -/
inductive PtpDo where
  | forward | rebuild | drop
  deriving DecidableEq, Repr

/-- R442, by message type, PHOPS and the arrival port's HOP_LIMIT. -/
def Dev.ptpDo (d : Dev) (p : Nat) (h : Header) (payload : List Byte) : PtpDo :=
  let t := ptpType payload
  if t = 0 || t = 1 then
    (if atLeast1 (d.regBits (offFrameCtl p) 7 4) ≤ bitsOf h.ksf.toNat 63 60 then .drop else .rebuild)
  else if t = 2 || t = 3 || t = 10 then .drop
  else .forward

/-- A frame passed its link check. -/
def Dev.goodFrame (d : Dev) (p : Nat) (r : RxFrame) (payload : List Byte) (e2e : Word) : Dev :=
  let len := 40 + r.hdr.len.toNat
  let d1 := (d.bump (ctrClass p r.cls.toNat 0)).bumpBy (ctrClass p r.cls.toNat 1) len
  let d2 := (d1.setPort p { d1.port p with rx := none }).bwAdd p true r.era r.stamp len
  if r.consumed then
    d2.take (p / 32) {
      hdr := d.stampEpoch (d.rewrite p r.hdr), payload := payload, e2e := e2e, port := d.logical p }
  else
    let ptp := r.fids.any fun fid => match d2.frame? fid with
      | some f => f.ptp
      | none => false
    if ptp then
      match d.ptpDo p r.hdr payload with
      | .drop => r.fids.foldl (fun d fid => d.failFrame fid 5) (d2.bump (ctrTime 0x108))
      | .rebuild => r.fids.foldl (fun d fid => d.frameWhole payload e2e true fid) d2
      | .forward => r.fids.foldl (fun d fid => d.frameWhole payload e2e false fid) d2
    else r.fids.foldl (fun d fid => d.frameWhole payload e2e false fid) d2

/-- FRAME_TAIL_RECEIVED (R62): the received bytes and checks class the frame. -/
def execFrameTailReceived (p : Port) (payload : List Byte) (e2e link : Word) (s : State) :
    Host.Outcome State Fault Refusal :=
  let d := s.d
  goto s <|
    match (d.port p.val).rx with
    | none => d
    | some r =>
      let want := linkCheck r.hdr payload e2e
      let whole := payload.length == r.hdr.len.toNat
      if !d.awake then d
      else if d.loop p.val == 2 then
        (d.send (.frame p.val r.hdr payload e2e link (link == ~~~want))).setPort p.val { d.port p.val with rx := none }
      else if whole && link == want then d.goodFrame p.val r payload e2e
      else if whole && link == ~~~want then
        (((d.noteCut r payload e2e).bump (ctrPort p.val 0x120)).bump (ctrCnt 0x110)).failRx p.val
      else ((d.noteCut r payload e2e).bump (ctrPort p.val 0x118)).failRx p.val

end Sys2Proof.Machine
end

