-- ==== Sys2Proof/Machine/Egress.lean ====
section
/-! DEFINITION. Egress: token refill (R137 to R139), selection and transmission of copies (R108, R119,
R120, R141, R142, R147), launch frames (R445 to R447), transmit and receive rings (R444, R534),
rebuilt PTP frames (R442), and the decay of congestion levels (R150). -/

namespace Sys2Proof.Machine

/-! ### Refill (R137 to R139) -/

/-- One bucket at a refill: a pending change applies first. -/
def Bucket.refill (b : Bucket) : Bucket :=
  let b1 : Bucket := match b.pend with
    | none => b
    | some s =>
      let cap : Int := (s.burst * 4096 : Nat)
      { en := s.en, rate := s.rate, burst := s.burst, pend := none,
        tokens := if s.en && !b.en then cap - (s.rate : Int) else b.tokens }
  let cap : Int := (b1.burst * 4096 : Nat)
  let t := b1.tokens + (b1.rate : Int)
  { b1 with tokens := if cap < t then cap else t }

/-- A port-class shaper at a refill. -/
def Shaper.refill (s : Shaper) : Shaper :=
  { b := s.b.refill, level := s.levelPend.getD s.level, levelPend := none }

/-- A group shaper at a refill: its new masks take effect with its new rate and burst (R139, R155).
DESIGN CHOICE, log entry 168. -/
def GroupShaper.refill (g : GroupShaper) : GroupShaper :=
  match g.pend with
  | none => { g with b := g.b.refill }
  | some (p, c) => { b := g.b.refill, ports := p, classes := c, pend := none }

/-- TOKEN_REFILL (R137): every shaper and policer. -/
def execTokenRefill (s : State) : Host.Outcome State Fault Refusal :=
  let d := s.d
  let t := d.tm
  goto s <| if !d.awake then d else
    { d with tm := { t with
      shapers := t.shapers.foldl (fun (x : Tab Shaper) (e : Nat × Shaper) =>
        Tab.set x e.1 e.2.refill (defaultShaper (e.1 % 8))) t.shapers,
      groups := t.groups.map (fun e => (e.1, e.2.refill)),
      policers := t.policers.map (fun e => (e.1, { e.2 with b := e.2.b.refill })) } }

/-- DECAY_TICK (R150): every congestion level above 0 falls by 1. -/
def execDecayTick (s : State) : Host.Outcome State Fault Refusal :=
  let d := s.d
  let fall := fun (x : Tab Nat) (e : Nat × Nat) => Tab.set x e.1 (e.2 - 1) 0
  goto s <| if !d.awake then d else
    { d with tm := { d.tm with levels := d.tm.levels.foldl fall d.tm.levels } }

/-! ### Reads of the store (R130, R500) -/

/-- Reads what a copy on the wire has still to read (R111): where a read is uncorrectable the copy, which has
started, is completed with a tail mark and counted once (R130, R136). -/
def Dev.readOn (d : Dev) (x : Sending) (n : Nat) : Dev × Sending :=
  if n = 0 || x.unread = 0 then (d, x)
  else
    let r := d.readCells x.copy.fid x.read n
    let y := { x with read := min (x.read + n) (cellsOf x.hdr.len.toNat) }
    if r.2 || x.tailMark then (r.1, y) else (r.1.bump (ctrStore 0x130), { y with tailMark := true })

/-- Reads what is left of a whole frame that its cluster or the agent queue serves (R109). -/
def Dev.readQueued (d : Dev) (t : Dest) (fid : Nat) : Dev × Bool :=
  let d0 := d.writeRest fid
  let done := match Tab.find d0.store.slots.fetched t.num with
    | some (g, n) => if g = fid then n else 0
    | none => 0
  let bad := done != 0 && d0.store.slots.fetchBad.contains t.num
  let d1 := { d0 with store := { d0.store with slots := { d0.store.slots with
    fetched := Tab.del d0.store.slots.fetched t.num,
    fetchBad := d0.store.slots.fetchBad.filter fun n => n != t.num } } }
  let r := d1.readCells fid done (d1.store.slots.cellsFor fid).length
  (r.1, r.2 && !bad)

/-- A copy whose cells read uncorrectable before it started is discarded (R130). -/
def Dev.dropUncorr (d : Dev) (c : Copy) : Dev := (d.bump (ctrStore 0x130)).dropCopies [c] 4

/-- The first read slot of a copy that logical port `l` has selected: two cells at most, with its records (R20,
R108).  The copy starts, or is discarded (R130): none. -/
def Dev.beginCopy (d : Dev) (l : Nat) (x : Sending) : Dev × Option Sending :=
  let r := d.readCells x.copy.fid 0 2
  let y := { x with read := min 2 (cellsOf x.hdr.len.toNat), stamp := d.timeNs, era := d.cnt.era }
  if r.2 then (r.1.setSending l ((d.sendingOn l).map fun z => if z.begun then z else y), some y)
  else ((r.1.setSending l ((d.sendingOn l).filter Sending.begun)).dropUncorr x.copy, none)

/-- The copy, with its first cells read. -/
def Dev.begun (d : Dev) (l : Nat) (x : Sending) : Dev × Option Sending :=
  if x.begun then (d, some x) else (d.writeRest x.copy.fid).beginCopy l x

/-! ### Selection -/

/-- Removes the head of a queue. -/
def Dev.popQueue (d : Dev) (t : Dest) (cls : Nat) : Dev := d.setQueue t cls ((d.queue t cls).drop 1)

/-- The frame of a copy is whole in the store. -/
def Dev.wholeCopy (d : Dev) (c : Copy) : Bool :=
  match d.frame? c.fid with
  | some f => f.whole
  | none => false

/-- A class queue is eligible (R141). -/
def Dev.eligible (d : Dev) (l cls : Nat) : Bool :=
  match (d.queue (.port l) cls).head? with
  | none => false
  | some c =>
    let open_ := fun (b : Bucket) => !b.en || decide (0 < b.tokens)
    let group := match d.groupOf l cls with
      | none => true
      | some g => match Tab.find d.tm.groups g with
        | some x => open_ x.b
        | none => true
    d.wholeCopy c && open_ (d.shaper l cls).b && group

/-- The class that a port selects: the highest level, and within it the rotating pointer (R142). -/
def Dev.selectClass (d : Dev) (l : Nat) : Option Nat :=
  let el := (List.range 8).filter (d.eligible l)
  let top := el.foldl (fun a c => max a (d.shaper l c).level) 0
  let same := el.filter fun c => (d.shaper l c).level == top
  let last := Tab.get d.store.rr (l * 4 + top) 7
  match same.find? (fun c => decide (last < c)) with
  | some c => some c
  | none => same.head?

/-- A selected copy stands behind those that logical port `l` sends, and asks for its first read slot; the sample
that follows it is written (R512). -/
def Dev.startCopy (d : Dev) (l : Nat) (c : Copy) (ce launch late : Bool) : Dev :=
  match d.frame? c.fid with
  | none => d
  | some f =>
    let h := { f.hdr with hops := f.hdr.hops + 1, ce := f.hdr.ce || ce }
    let s : Sending := {
      copy := { c with gleaned := false }, hdr := h, cut := false, ceSet := ce, tailMark := false, ended := true,
      stamp := d.timeNs, built := none, launch := launch, late := late, era := d.cnt.era }
    let d2 := (d.setSending l (d.sendingOn l ++ [s])).gleanFrame c.fid c 0 false ce
    if ce then
      (d2.bump (ctrTm 0x100)).countQ (.port l) c.cls.toNat (fun q => { q with marked := q.marked + 1 })
    else d2

/-- A copy is found expired when its queue selects it: it is discarded, and its slot goes to no other requester in
this clock (R120, R133). -/
def Dev.ageSelected (d : Dev) (c : Copy) : Dev :=
  let s := d.store
  ({ d with store := { s with slots := { s.slots with lost := s.slots.lost + 1 } } }).ageOut c

/-- The copy that a class queue has given up is sent, and charged to the shapers that cover its queue (R141); one
that is found expired is discarded and not charged.  Without cells it needs no read slot.
DESIGN CHOICE, log entry 169. -/
def Dev.sendSelected (d : Dev) (l : Nat) (c : Copy) (ce launch late : Bool) : Dev :=
  if d.expired c then d.ageSelected c
  else match d.frame? c.fid with
    | none => d
    | some f =>
      let d1 := d.chargeShapers l c.cls.toNat f.length
      if cellsOf f.hdr.len.toNat = 0 then
        let r := d1.readCells c.fid 0 0
        if r.2 then r.1.startCopy l c ce launch late else r.1.dropUncorr c
      else d1.startCopy l c ce launch late

/-- Selection among the class queues of a port (R142, R147). -/
def Dev.selectFromClasses (d : Dev) (l : Nat) : Dev :=
  match d.selectClass l with
  | none => d
  | some c =>
    match (d.queue (.port l) c).head? with
    | none => d
    | some copy =>
      let ce := d.kmark c != 0 && decide (d.kmark c ≤ d.queueCells (.port l) c)
      let lev := (d.shaper l c).level
      let d1 := d.popQueue (.port l) c
      let d2 := { d1 with store := { d1.store with rr := Tab.set d1.store.rr (l * 4 + lev) c 7 } }
      d2.sendSelected l copy ce false false

/-- COPY_SELECTED (R141): a released launch frame goes ahead of every class queue (R446); a port that
is held, or neither ACTIVE nor DRAINING, makes no read request, nor one whose transmit buffer has no room
(R108, R128, R129).  A launch frame is never marked CE.  DESIGN CHOICE, log entry 171. -/
def execCopySelected (p : Port) (s : State) : Host.Outcome State Fault Refusal :=
  let d := s.d
  let x := d.port p.val
  let l := d.logical p.val
  goto s <|
    if !d.awake || !(x.st = .active || x.st = .draining) || x.held || !d.mayRead l then d
    else match Tab.get d.store.launch l [] with
      | e :: r =>
        if e.ready then
          let d1 := { d with store := { d.store with launch := Tab.set d.store.launch l r [] } }
          d1.sendSelected l e.copy false true e.late
        else d.selectFromClasses l
      | [] => d.selectFromClasses l

/-- HEAD_SCAN (R120): expired heads of every queue, and of the released launch frames, are discarded
until a head has not expired. -/
def Dev.scanHeads (d : Dev) : Dev :=
  let gone := d.store.queues.flatMap (fun e => e.2.takeWhile d.expired)
  let goneL := d.store.launch.flatMap (fun e =>
    (e.2.takeWhile (fun x => x.ready && d.expired x.copy)).map (fun x => x.copy))
  let q := d.store.queues.foldl (fun (t : Tab (List Copy)) (e : Nat × List Copy) =>
    Tab.set t e.1 (e.2.dropWhile d.expired) []) d.store.queues
  let la := d.store.launch.foldl (fun (t : Tab (List Launch)) (e : Nat × List Launch) =>
    Tab.set t e.1 (e.2.dropWhile (fun x => x.ready && d.expired x.copy)) []) d.store.launch
  let d1 := { d with store := { d.store with queues := q, launch := la } }
  (gone ++ goneL).foldl (fun d c => d.ageOut c) d1

/-- HEAD_SCAN (R120). -/
def execHeadScan (s : State) : Host.Outcome State Fault Refusal :=
  goto s <| if s.d.awake then s.d.scanHeads else s.d

/-! ### Rebuilt PTP frames (R442) -/

/-- The payload with a residence, in ns, added to correctionField: bytes 8 to 15 of the PTP header,
in 2^-16 ns. -/
def addCorrection (payload : List Byte) (ns : Int) : List Byte :=
  if payload.length < 16 then payload
  else
    let sum := BitVec.ofNat 64 (ofBe (slice payload 8 8)) + BitVec.ofInt 64 (ns * 65536)
    payload.take 8 ++ beBytes 8 sum.toNat ++ payload.drop 16

/-- The header of a rebuilt frame: PHOPS plus 1, and HOPS, EPOCH and ES of a frame that the device builds (R54,
R55, R442).  PRESUMED, log entry 69. -/
def Dev.ptpHeader (d : Dev) (h : Header) : Header :=
  { h with
    ksf := BitVec.ofNat 64 (withBits h.ksf.toNat 63 60 (bitsOf h.ksf.toNat 63 60 + 1)),
    hops := 1, epoch := d.fwd.epoch, es := true }

/-- Rebuilds the frame that is being sent, as its first byte leaves. -/
def Dev.rebuild (d : Dev) (f : Frame) (x : Sending) : Dev × Sending :=
  let h := d.ptpHeader x.hdr
  let pl := addCorrection f.payload ((x.stamp : Int) - f.stamp)
  (d.bump (ctrTime 0x100), { x with hdr := h, built := some (pl, e2eCheck h pl) })

/-- The copy on the wire is a PTP frame that is still to be rebuilt; mirror copies are not. -/
def Dev.owesRebuild (d : Dev) (x : Sending) : Option Frame :=
  match d.frame? x.copy.fid with
  | some f => if f.ptp && x.built.isNone && !x.copy.mirror then some f else none
  | none => none

/-- PTP_EVENT_FRAME_EGRESS (R442): the first byte of a rebuilt frame leaves on physical port `p`. -/
def execPtpEventFrameEgress (p : Port) (s : State) : Host.Outcome State Fault Refusal :=
  let d := s.d
  let l := d.logical p.val
  goto s <|
    match d.sendingOn l with
    | [] => d
    | x :: r =>
      if !d.awake || (d.owesRebuild x).isNone then d
      else match d.begun l x with
        | (d1, none) => d1
        | (d1, some y) => match d1.owesRebuild y with
          | some f =>
            let z := d1.rebuild f { y with stamp := d1.timeNs }
            z.1.setSending l (z.2 :: r)
          | none => d1

/-! ### The end of a transmission -/

/-- Notes that a frame of a transmit ring has left, with every frame of its descriptor. -/
def Dev.noteSent (d : Dev) (fid : Nat) (stamp : Option Nat) (late : Bool) : Dev :=
  match d.frame? fid with
  | none => d
  | some f =>
    let note := fun (g : Frame) =>
      if f.sameWb g && g.sentAt.isNone then { g with sentAt := some (stamp, late) } else g
    { d with store := { d.store with frames := d.store.frames.map fun e => (e.1, note e.2) } }

/-- Payload and end-to-end check that a completed copy carries.  A copy that is completed with a tail mark
is as long as its LEN says; bytes of it that never arrived, and then its check, are free values (R63, R111).
DESIGN CHOICE, log entry 129. -/
def Dev.carried (d : Dev) (x : Sending) (f : Frame) : (List Byte × Word) × Dev :=
  let n := x.hdr.len.toNat
  if x.tailMark && f.payload.length < n then
    ((f.payload ++ (List.range (n - f.payload.length)).map (Config.cutByte d.free),
      (Config.freeWord d.free).setWidth 32), { d with free := d.free + 1 })
  else ((f.payload, f.e2e), d)

/-- Completes the copy on the wire of physical port `p`, logical `l` (R55, R60, R63, R504). -/
def Dev.finishCopy (d : Dev) (p l : Nat) (x : Sending) (r : List Sending) : Dev :=
  match d.frame? x.copy.fid with
  | none => d.setSending l r
  | some f =>
    let y := match d.owesRebuild x with
      | some g => d.rebuild g x
      | none => (d, x)
    let h := y.2.hdr
    let v := match y.2.built with | some b => (b, y.1) | none => y.1.carried x f
    let good := linkCheck h v.1.1 v.1.2
    let link := if x.tailMark then ~~~good else good
    let len := 40 + h.len.toNat
    let back : List Instr := [.frameHeaderTaken (asPort p) h, .frameTailReceived (asPort p) v.1.1 v.1.2 link]
    let d1 := (v.2.setSending l r).emit p (.frame p h v.1.1 v.1.2 link x.tailMark) back
    let d2 := d1.countQ (.port l) x.copy.cls.toNat (fun q => { q with sent := q.sent + 1 })
    let d3 :=
      if x.tailMark then d2.bump (ctrPort p 0x128)
      else
        let d4 := (d2.bump (ctrClass p h.tc.toNat 2)).bumpBy (ctrClass p h.tc.toNat 3) len
        let d5 := d4.bwAdd p false x.era x.stamp len
        let d6 := if x.launch && x.late then d5.bump (ctrTime 0x120) else d5
        if x.copy.mirror then d6 else d6.noteSent x.copy.fid (some x.stamp) x.late
    d3.release x.copy.fid

/-- COPY_SENT: the last byte of the copy on the wire leaves physical port `p` (R123). -/
def execCopySent (p : Port) (s : State) : Host.Outcome State Fault Refusal :=
  let d := s.d
  let l := d.logical p.val
  goto s <|
    match d.sendingOn l with
    | [] => d
    | x :: r =>
      if d.awake && x.ended then
        match (d.writeRest x.copy.fid).begun l x with
        | (d1, none) => d1
        | (d1, some y) =>
          let z := d1.readOn y y.unread
          z.1.finishCopy p.val l z.2 r
      else d

/-! ### Launch queues (R445 to R447) -/

/-- Posting order among equal launch times. -/
def insertLaunch (e : Launch) : List Launch → List Launch
  | [] => [e]
  | x :: r => if e.t < x.t then e :: x :: r else x :: insertLaunch e r

/-- Sets a frame's residence to run from the time `t` of the time base, which is past (R445). -/
def Dev.ageFrom (d : Dev) (fid t : Nat) : Dev :=
  { d with store := { d.store with
    frames := Tab.adj d.store.frames fid (fun f => { f with at_ := d.now - clkOfNs (d.timeNs - t) }) } }

/-- Marks the first launch frame that is not yet released. -/
def releaseFirst (late : Bool) : List Launch → List Launch
  | [] => []
  | e :: r => if e.ready then e :: releaseFirst late r
    else { e with ready := true, late := e.late || late } :: r

/-- A launch frame whose port is not ACTIVE at its time, or at its posting after it, is discarded (R70, R447). -/
def Dev.launchDown (d : Dev) (c : Copy) : Dev := (d.bump (ctrFwd 0 0x110)).dropCopies [c] 5

/-- LAUNCH_RELEASE: the earliest pending launch frame of physical port `p` reaches its time: it is
released, late where a swap pause holds the port; it is discarded where the port is not ACTIVE. -/
def Dev.launchRelease (d : Dev) (p l : Nat) : Dev :=
  let q := Tab.get d.store.launch l []
  match q.find? (fun e => !e.ready) with
  | none => d
  | some e =>
    if d.timeNs < e.t then d
    else if d.activeL l then
      let q1 := releaseFirst (d.port p).held q
      ({ d with store := { d.store with launch := Tab.set d.store.launch l q1 [] } }).ageFrom e.copy.fid e.t
    else
      let d1 := { d with store := { d.store with launch := Tab.set d.store.launch l (q.erase e) [] } }
      d1.launchDown e.copy

/-- LAUNCH_RELEASE (R446). -/
def execLaunchRelease (p : Port) (s : State) : Host.Outcome State Fault Refusal :=
  goto s <| if s.d.awake then s.d.launchRelease p.val (s.d.logical p.val) else s.d

/-! ### Transmit rings (R444, R534) -/

/-- The device owns a descriptor of a ring: EN is 1 and the next one is below TAIL. -/
def Dev.ringOwned (d : Dev) (r : Nat) : Bool :=
  d.regBit (offRing r 8) 0 && d.hl.up &&
  (Tab.get d.heads (8 + r) 0).toNat != d.regBits (offRing r 0xC) 15 0 % d.ringSize r

/-- Takes the next descriptor of a ring: its position. -/
def Dev.takeDesc (d : Dev) (r : Nat) : Dev × Nat :=
  let n := (Tab.get d.heads (8 + r) 0).toNat
  ({ d with heads := Tab.set d.heads (8 + r) (BitVec.ofNat 16 ((n + 1) % d.ringSize r)) 0 }, n)

/-- The frame of a descriptor: its bytes as written, both checks appended, stamped where ES is 0. -/
def Dev.ringFrame (d : Dev) (bytes : List Byte) (wb : Nat × Nat × Bool) : Frame :=
  let h := d.stampEpoch (Header.ofBytes (bytes.take 32))
  let pl := bytes.drop 32
  { hdr := h, rx := h, e2e := e2eCheck h pl, payload := pl, arr := none, at_ := d.now,
    stamp := d.timeNs, whole := true, inputCopy := false, oldBank := (d.bankFor h).2.1, charge := none,
    ptp := false, wb := some wb, sentAt := none, glean := false, bad := false }

/-- A launch descriptor (R445; R525 rows 26 and 27): refused with a status, or admitted against its
class queue and moved to the launch queue.  One that its queue or its port's features refuse is discarded
(R365, R444).  A launch frame is not policed.  DESIGN CHOICE, log entry 170. -/
def Dev.postLaunch (d : Dev) (f : Frame) (l t r pos : Nat) : Dev :=
  let refuse := fun (d : Dev) (st : Nat) =>
    (d.bump (ctrTime 0x128)).writeBack r pos (writeBackBytes st none 0)
  let hor := d.regBits baseTime 63 48
  let ms := if hor = 0 then 1 else if 1000 < hor then 1000 else hor
  let v := d.partView 0 (d.bankFor f.hdr).1 f.hdr.part.toNat
  let q := Tab.get d.store.launch l []
  if 512 ≤ l || !v.2.enabled f.hdr.part.toNat l || d.loop (d.physical l) == 2 then refuse v.1 4
  else if d.timeNs + ms * 1000000 < t then refuse v.1 3
  else if 256 ≤ q.length then refuse v.1 2
  else
    let cls := f.hdr.tc.toNat
    let y := v.1.featureDrop f.hdr.kind.toNat [.port l]
    let x := y.1.admitCopies v.2 f y.2 cls false false
    match (x.1.queue (.port l) cls).find? (fun c => x.2.contains c.fid && !c.mirror) with
    | none => refuse x.1 4
    | some c =>
      let past := decide (t < d.timeNs)
      let e : Launch := { t := t, copy := c, late := past, ready := past }
      let d1 := x.1.setQueue (.port l) cls ((x.1.queue (.port l) cls).erase c)
      if past && !d1.activeL l then d1.launchDown c
      else
        let d2 := if past then d1.ageFrom c.fid t else d1
        { d2 with store := { d2.store with launch := Tab.set d2.store.launch l (insertLaunch e q) [] } }

/-- A frame of a ring that is not held for a launch time: looked up as an arrival on the agent port, or
sent to a named port. A header that check 1 or 5 of R64 refuses is discarded.  One that is looked up is policed by
the partition map alone, having no arrival port, and one for a named port is not policed.
DESIGN CHOICE, log entry 170. -/
def Dev.postFrame (d : Dev) (f : Frame) (port r pos : Nat) : Dev :=
  let b := d.bankFor f.hdr
  let v := (d.countEpoch 0 b.2.2).partView 0 b.1 f.hdr.part.toNat
  let d1 := v.1
  let own := match d.ownSvc f.hdr.dst with
    | some s => serviceReceives s f.hdr.kind.toNat f.hdr.sub.toNat
    | none => true
  let owes := fun (d : Dev) (fid : Nat) => match d.frame? fid with
    | some g => g.wb.isSome
    | none => false
  let done := fun (x : Dev × List Nat) =>
    if x.2.any (owes x.1) then x.1 else x.1.writeBack r pos (writeBackBytes 4 none 0)
  if port != 0xFFFF then
    done (d1.forward 0 v.2 f f.hdr.tc.toNat (d1.onePort v.2 f.hdr.part.toNat none port) false false false)
  else if !headerPlausible f.hdr || !own || (f.hdr.kind = 4 && decide (8192 ≤ f.hdr.ctx.toNat)) then
    d1.writeBack r pos (writeBackBytes 4 none 0)
  else
    let x := d1.lookup 0 v.2 f.hdr none
    match x.2 with
    | .consumed =>
      (x.1.take 0 { hdr := f.hdr, payload := f.payload, e2e := f.e2e, port := 0xFFFF }).writeBack r pos
        (writeBackBytes 0 none 0)
    | lk => done (x.1.forward 0 v.2 f f.hdr.tc.toNat lk true false true)

/-- TX_DESCRIPTOR_TAKEN: the bytes of ring TXRn's next descriptor and of its buffer, as the DMA reads return
them (R534).  DESIGN CHOICE, log entry 126. -/
def execTxDescriptorTaken (n : Fin 4) (raw bytes : List Byte) (s : State) :
    Host.Outcome State Fault Refusal :=
  let d := s.d
  let desc := TxDesc.ofBytes raw
  goto s <|
    if !d.awake || !d.serving || !d.ringOwned n.val then d
    else
      let x := d.takeDesc n.val
      let d1 := x.1.bump ctrTxFrames
      let f := d1.ringFrame bytes (n.val, x.2, desc.tsReq)
      if desc.len.toNat < 32 || 8224 < desc.len.toNat || bytes.length != desc.len.toNat then
        let d2 := if desc.launch then d1.bump (ctrTime 0x128) else d1
        d2.writeBack n.val x.2 (writeBackBytes 4 none 0)
      else if desc.launch then
        d1.postLaunch f desc.port.toNat (desc.sec.toNat * 1000000000 + desc.ns.toNat) n.val x.2
      else d1.postFrame f desc.port.toNat n.val x.2

/-! ### The receive ring (R109, R443, R534) -/

/-- Delivers a whole frame that leaves the agent queue: the end-to-end check, then the ring, then the buffer.
DESIGN CHOICE, log entry 140. -/
def Dev.deliver (d : Dev) (f : Frame) (desc : RxDesc) : Dev :=
  let n := 32 + f.hdr.len.toNat
  if e2eCheck f.hdr f.payload != f.e2e then d.bump ctrGlbE2e
  else if !d.ringOwned 4 then d.bump ctrRxrDrop
  else
    let x := d.takeDesc 4
    if desc.len.toNat < n then { x.1.bump ctrRxrDrop with heads := d.heads }
    else
      let d1 := x.1.dmaSend desc.buf.toNat (f.hdr.bytes ++ f.payload)
      let l := match f.arr with | some (_, l) => l | none => 0xFFFF
      d1.writeBack 4 x.2 (writeBackBytes 0 (some f.stamp) (n + l * 65536))

/-- AGENT_FRAME_DELIVERY: the head of the agent queue of class `tc` leaves it, and the receive ring's next
descriptor has these bytes (R534).  DESIGN CHOICE, log entry 126. -/
def execAgentFrameDelivery (tc : Fin 8) (raw : List Byte) (s : State) : Host.Outcome State Fault Refusal :=
  let d := s.d
  goto s <|
    match (d.queue .agent tc.val).head? with
    | none => d
    | some c =>
      if !d.awake || !d.wholeCopy c then d
      else
        let d1 := d.popQueue .agent tc.val
        if d.expired c then d1.ageSelected c
        else
          let r := d1.readQueued .agent c.fid
          match r.2, r.1.frame? c.fid with
          | true, some f =>
            let d2 := (r.1.countQ .agent tc.val (fun q => { q with sent := q.sent + 1 })).gleanFrame c.fid c
              6 false false
            ((d2.deliver f (RxDesc.ofBytes raw)).noteSent c.fid none false).release c.fid
          | _, _ => r.1.dropUncorr c

end Sys2Proof.Machine
end

