-- ==== Sys2Proof/Machine/Chunks.lean ====
section
/-! DEFINITION. Chunks of reduction contexts as shared operations: the tree (R192, R193, R199), slots
(R225), NACKs (R238 to R240), partials and re-homing (R201 to R206), finishing (R200, R210), linger
copies (R207) and member ports that leave ACTIVE (R205). -/

namespace Sys2Proof

/-! ### The tree (R192, R193) -/

/-- H of R192. -/
def homeHash (ctx : Nat) (seq : Word) : Nat := (crc32c (beBytes 2 ctx ++ beBytes 4 seq.toNat)).toNat

def CtxEntry.threeTiers (e : CtxEntry) : Bool := e.tiers == 3

/-- The indexes (j, k) of a chunk's home, or of its partner path (R193).  DEDUCED, log entry 81. -/
def CtxEntry.home (e : CtxEntry) (ctx : Nat) (seq : Word) (rh : Bool) : Nat × Nat :=
  let h := homeHash ctx seq
  let n2 := e.n2.toNat
  let n3 := e.n3.toNat
  let j := h % n2
  let k := if e.threeTiers then h / n2 % n3 else 0
  if rh then (Nat.xor j (n2 / 2), if e.threeTiers then Nat.xor k (n3 / 2) else 0) else (j, k)

/-- Bytes of an accumulator element (R167, R225). -/
def CtxEntry.width (e : CtxEntry) : Nat := if e.wide || fmtIsInt e.fmt.toNat then 8 else 4

/-- Slot units of a chunk, k of R225. -/
def CtxEntry.units (e : CtxEntry) : Nat := (e.cap.toNat * e.width + 8191) / 8192

/-- The attributes that a chunk latches (R160, R213). -/
def CtxEntry.arith (e : CtxEntry) (next : Bool) : Arith :=
  { fmt := e.fmt.toNat, op := e.op.toNat, tf := e.tf, wide := e.wide, rnd := e.rnd, seed := e.seed,
    meanN := (if next then e.meanNNext else e.meanN).toNat }

/-- Bytes of a partial or result: CAP elements (R197, R164). -/
def CtxEntry.payloadBytes (e : CtxEntry) : Nat := fmtBytes e.fmt.toNat e.cap.toNat

end Sys2Proof

namespace Sys2Proof.Machine

/-- Leaf whose pod a spine of three tiers reads from SRC (R199). -/
def sourceLeaf (src : BitVec 24) : Option Nat :=
  if addrKind src = 0 then some (addrIndex src / 256)
  else if addrKind src = 1 && addrTier src = 0 then some (addrDev src)
  else none

/-- The device lies on a chunk's path, or on its partner path with RH = 1 (R199).  DEDUCED, log entry 81. -/
def Dev.onPath (d : Dev) (e : CtxEntry) (ctx : Nat) (seq : Word) (rh : Bool) (src : BitVec 24) : Bool :=
  let h := e.home ctx seq rh
  if d.isLeaf then true
  else if !e.threeTiers then d.isSpine && d.devNum == h.1
  else if d.isSpine then
    (match sourceLeaf src with
     | some leaf => d.devNum == leaf / 256 * e.n2.toNat + h.1
     | none => false)
  else d.isSuper && d.devNum == h.1 * e.n3.toNat + h.2

/-- The REDUCE service that a chunk's partial goes to; at the chunk's root, the own one (R192). -/
def Dev.destOf (d : Dev) (e : CtxEntry) (ctx : Nat) (seq : Word) (rh : Bool) : BitVec 24 :=
  let h := e.home ctx seq rh
  if d.isLeaf then
    (if e.threeTiers then svcAddr 1 (d.devNum / 256 * e.n2.toNat + h.1) 0 else svcAddr 1 h.1 0)
  else if d.isSpine && e.threeTiers then svcAddr 2 (h.1 * e.n3.toNat + h.2) 0
  else d.ownAddr 0

/-- The port toward a destination is ACTIVE (R203). -/
def Dev.reaches (d : Dev) (e : CtxEntry) (dst : BitVec 24) : Bool :=
  let h := { Header.blank with kind := 2, part := e.part, job := e.job, dst := dst, src := d.ownAddr 0 }
  match (d.lookup 0 d.fwd.cur h none).2 with
  | .ports l => !l.isEmpty
  | .svc _ => true
  | _ => false

/-! ### Contexts and chunks -/

def Dev.setCtx (d : Dev) (c : Nat) (x : Ctx) : Dev :=
  { d with red := { d.red with ctxs := Tab.put d.red.ctxs c x } }

def Dev.modCtx (d : Dev) (c : Nat) (f : Ctx → Ctx) : Dev :=
  { d with red := { d.red with ctxs := Tab.adj d.red.ctxs c f } }

/-- An open chunk of a context. -/
def Ctx.chunk? (c : Ctx) (seq : Word) : Option Chunk := c.chunks.find? fun x => x.seq == seq

/-- Sets an open chunk. -/
def Ctx.putChunk (c : Ctx) (x : Chunk) : Ctx :=
  if (c.chunk? x.seq).isSome then
    { c with chunks := c.chunks.map fun y => if y.seq == x.seq then x else y }
  else { c with chunks := c.chunks ++ [x] }

def Ctx.dropChunk (c : Ctx) (seq : Word) : Ctx :=
  { c with chunks := c.chunks.filter fun y => y.seq != seq }

def Dev.modChunk (d : Dev) (cid : Nat) (seq : Word) (f : Chunk → Chunk) : Dev :=
  d.modCtx cid fun c => { c with chunks := c.chunks.map fun y => if y.seq == seq then f y else y }

/-- A finished-chunk record. -/
def Ctx.record? (c : Ctx) (seq : Word) : Option FinRec := c.fin.find? fun x => x.seq == seq

def Dev.modCounts (d : Dev) (cid : Nat) (f : CtxCounts → CtxCounts) : Dev :=
  d.modCtx cid fun c => { c with counts := f c.counts }

/-- Chunk slots of a reservation (R225, R488).  DESIGN CHOICE, log entry 84. -/
def Ctx.slots (c : Ctx) : Nat :=
  if c.short = 0 then c.e.window.toNat else (c.e.window.toNat * c.e.units - c.short) / c.e.units

/-- A cluster with no filled core position is closed (R487). -/
def Dev.clusterClosed (d : Dev) (k : Nat) : Bool :=
  (List.range 8).all fun q => decide ((Tab.get d.faults.cores (8 * k + q) {}).st = .empty)

/-! ### NACKs (R238 to R240) -/

def nackNoctx : Nat := 1
def nackWindow : Nat := 2
def nackResend : Nat := 3
def nackRehome : Nat := 4
def nackExpired : Nat := 5
def nackAbandoned : Nat := 6
def nackFormat : Nat := 7

/-- Address of the party at a logical port: none on a port that holds no valid EXCH_ID of its partner (R238). -/
def Dev.nackDst (d : Dev) (l : Nat) : Option (BitVec 24) :=
  let x := d.port (d.physical l)
  if !x.hasPair then none
  else if d.isLeaf && !isLeafUp l then some (BitVec.ofNat 24 (d.devNum <<< 8 ||| downNum l))
  else some x.partnerAddr

/-- Copies that the store has refused so far (R116, R124).  DEDUCED, log entry 83. -/
def Dev.refusals (d : Dev) : Nat := d.ctr (ctrStore 0x100) + d.ctr (ctrStore 0x108)

/-- Copies that a queue of a logical port has admitted. -/
def Dev.admittedTo (d : Dev) (l tc : Nat) : Dword :=
  (Tab.get d.store.qcount (qkey (.port l) tc) {}).admitted

/-- Sends a NACK on a logical port for a context of cluster `cid`; `own` counts it in the context's
record.  Only one that its queue admits is sent; one that the lookup discards is neither sent nor refused.
DEDUCED, log entry 83. -/
def Dev.sendNack (d : Dev) (cid : Nat) (own : Bool) (part : BitVec 12) (job : BitVec 16) (l : Nat)
    (seq : Word) (kind : Nat) (rh : Bool) : Dev :=
  let k := clusterOf cid
  match d.nackDst l with
  | none => d.bump (ctrRed k 0xC30)
  | some a =>
    let ksf := cid <<< 48 ||| seq.toNat <<< 16 ||| kind <<< 8 ||| rh.toNat <<< 7
    let h := { Header.blank with
      kind := 7, tc := 7, part := part, job := job, dst := a, src := d.ownAddr 0, sub := 0x12,
      ksf := BitVec.ofNat 64 ksf }
    let d1 := d.buildTo l h []
    if d1.admittedTo l 7 = d.admittedTo l 7 then
      (if d1.refusals != d.refusals then d1.bump (ctrRed k 0xC30) else d1)
    else
      let d2 := d1.bump (ctrRed k 0xC28)
      let d3 := if kind = nackNoctx then d2.bump (ctrRed k 0xC18)
        else if kind = nackWindow then (d2.bump (ctrRed k 0xC20)).bump (ctrCnt 0x118) else d2
      if own then d3.modCounts cid (fun n => { n with nacks := n.nacks + 1 }) else d3

/-- Sends a NACK for a VALID context. -/
def Dev.ctxNack (d : Dev) (cid l : Nat) (seq : Word) (kind : Nat) (rh : Bool) : Dev :=
  match d.ctx? cid with
  | none => d
  | some c => d.sendNack cid true c.e.part c.e.job l seq kind rh

/-- Sends the same NACK to several member ports. -/
def Dev.ctxNacks (d : Dev) (cid : Nat) (ports : List Nat) (seq : Word) (kind : Nat) (rh : Bool) : Dev :=
  ports.foldl (fun d l => d.ctxNack cid l seq kind rh) d

/-! ### Finishing (R200, R210, R223) -/

/-- Counts of one finished chunk. -/
def CtxCounts.add (n : CtxCounts) (x : Chunk) (isDone : Bool) : CtxCounts :=
  let b := fun (i : Nat) => if x.flags.getLsbD i then 1 else 0
  { n with
    flags := n.flags ||| x.flags,
    firstSeq := if n.anyDone then (if x.seq.toNat < n.firstSeq.toNat then x.seq else n.firstSeq) else x.seq,
    lastSeq := if n.anyDone then (if n.lastSeq.toNat < x.seq.toNat then x.seq else n.lastSeq) else x.seq,
    anyDone := true,
    isDone := if isDone then n.isDone + 1 else n.isDone,
    abandoned := if isDone then n.abandoned else n.abandoned + 1,
    nan := n.nan + b 0, inf := n.inf + b 1, sat := n.sat + b 2, wrap := n.wrap + b 3 }

/-- Frees a chunk's slot and remembers the chunk. -/
def Dev.finishChunk (d : Dev) (cid : Nat) (x : Chunk) (isDone : Bool) (linger : Option Linger) : Dev :=
  let d1 := d.modCtx cid fun c =>
    let c1 := c.dropChunk x.seq
    let rec_ : FinRec := { seq := x.seq, isDone := isDone, rh := x.rh, linger := linger }
    { c1 with
      fin := (rec_ :: c1.fin.filter (fun y => y.seq != x.seq)).take (2 * c1.e.window.toNat),
      counts := c1.counts.add x isDone }
  d1.bump (ctrRed (clusterOf cid) (if isDone then 0xA00 else 0xA08))

/-- Abandons a chunk: NACK_ABANDONED to the given member ports (R201, R202). -/
def Dev.abandonChunk (d : Dev) (cid : Nat) (x : Chunk) (ports : List Nat) : Dev :=
  (d.ctxNacks cid ports x.seq nackAbandoned x.rh).finishChunk cid x false none

/-- Abandons a chunk toward every member port. -/
def Dev.abandonAll (d : Dev) (cid : Nat) (x : Chunk) : Dev :=
  match d.ctx? cid with
  | none => d
  | some c => d.abandonChunk cid x (members (c.membership x.seq))

/-! ### Partials (R175, R198, R201 to R206) -/

/-- Counts the flags that a partial or result carries (R190).  DEDUCED, log entry 90. -/
def Dev.countFlags (d : Dev) (cid : Nat) (fl : Fl) : Dev :=
  [0, 1, 2, 3].foldl (fun d i =>
    if fl.getLsbD i then d.bump (ctrRed (clusterOf cid) (0x900 + 8 * i)) else d) d

/-- SUB of a contribution or result (R198). -/
def subOf (rh rsnd ovf : Bool) (fl : Fl) : BitVec 8 :=
  BitVec.ofNat 8 (rh.toNat <<< 7 ||| rsnd.toNat <<< 6 ||| ovf.toNat <<< 5 ||| fl.toNat)

/-- Encodes a chunk's partial or result: the payload, and the chunk with its flags.  The first encoding
counts the flags and the blocks of the forward transform. -/
def Dev.encodeChunk (d : Dev) (cid : Nat) (root : Bool) (x : Chunk) : Dev × List Byte × Chunk :=
  let r := x.att.encode root x.seq x.flags x.acc
  let y := { x with flags := x.flags ||| r.2.1, encoded := true }
  if x.encoded then (d, r.1, y)
  else
    let d1 := d.countFlags cid y.flags
    let d2 := if x.att.tf then
      d1.bumpBy (ctrRed (clusterOf cid) 0x920) (x.acc.length / 16) else d1
    (d2, r.1, y)

/-- Sends a chunk's partial to its destination, while the port toward it is ACTIVE. -/
def Dev.emitPartial (d : Dev) (cid : Nat) (x : Chunk) : Dev :=
  match d.ctx? cid with
  | none => d
  | some c =>
    let r := d.encodeChunk cid false x
    let y := r.2.2
    let d1 := r.1.setCtx cid (c.putChunk y)
    let dst := d.destOf c.e cid x.seq x.rh
    if !d.reaches c.e dst then d1
    else
      d1.build 0 { Header.blank with
        kind := 2, tc := 5, part := c.e.part, job := c.e.job, dst := dst,
        fmt := BitVec.ofNat 8 y.att.fmt, src := d.ownAddr 0, sub := subOf y.rh false y.ovf y.flags,
        ctx := BitVec.ofNat 16 cid, tf := y.att.tf, seq := y.seq } r.2.1

/-- Chunks outstanding to a destination leave a credit for chunk `seq` (R195). -/
def Dev.creditFree (d : Dev) (c : Ctx) (cid : Nat) (seq : Word) (rh : Bool) : Bool :=
  let dst := d.destOf c.e cid seq rh
  let n := (c.chunks.filter fun y => decide (y.st = .sent) && !y.waitCredit && y.seq != seq &&
    d.destOf c.e cid y.seq y.rh == dst).length
  decide (n < atLeast1 c.e.upCredits.toNat)

/-- The chunk is the lowest, in SEQ order, of those that wait for a credit of its destination
(R195). -/
def Dev.firstWaiting (d : Dev) (cid : Nat) (c : Ctx) (x : Chunk) : Bool :=
  c.chunks.all fun y =>
    !(decide (y.st = .hold) || y.waitCredit) || decide (seqDist x.seq y.seq ≤ 0) ||
    d.destOf c.e cid y.seq y.rh != d.destOf c.e cid x.seq x.rh

/-- Marks a chunk RH = 1 (R202, R203, R205). -/
def Dev.markRehomed (d : Dev) (cid : Nat) (x : Chunk) : Dev × Chunk :=
  let y := { x with rh := true }
  let d1 := d.modCtx cid fun c =>
    let c1 := c.putChunk y
    { c1 with counts := { c1.counts with rehomed := c1.counts.rehomed + 1 } }
  (d1.bump (ctrRed (clusterOf cid) 0xA30), y)

/-- A chunk whose last bit is set, or which leaves HOLD, at level GATHER (R201, R203): it is sent,
waits for a credit, or is re-homed or abandoned.  It waits behind a lower chunk that waits in HOLD for the
same destination, unless it is re-homed (R195).  DEDUCED, log entry 144. -/
def Dev.partialReady (d : Dev) (cid : Nat) (x : Chunk) : Dev :=
  match d.ctx? cid with
  | none => d
  | some c =>
    let go := fun (d : Dev) (x : Chunk) =>
      if d.creditFree c cid x.seq x.rh && (x.rh || d.firstWaiting cid c x) then
        let y := { x with st := .sent, retryFrom := d.now }
        (d.modCtx cid fun c => c.putChunk y).emitPartial cid y
      else d.modCtx cid fun c => c.putChunk { x with st := .hold }
    if d.reaches c.e (d.destOf c.e cid x.seq x.rh) then go d x
    else if x.rh || !d.reaches c.e (d.destOf c.e cid x.seq true) then d.abandonAll cid x
    else
      let r := d.markRehomed cid x
      go r.1 r.2

/-- Re-homes a chunk in SENT (R202). -/
def Dev.rehome (d : Dev) (cid : Nat) (x : Chunk) : Dev :=
  match d.ctx? cid with
  | none => d
  | some c =>
    if !d.reaches c.e (d.destOf c.e cid x.seq true) then d.abandonAll cid x
    else
      let free := d.creditFree c cid x.seq true
      let r := d.markRehomed cid { x with waitCredit := !free }
      if free then r.1.emitPartial cid r.2 else r.1

/-- Sends a RESULT_NACK for a chunk along a path (R208). -/
def Dev.sendResultNack (d : Dev) (cid : Nat) (c : Ctx) (seq : Word) (rh : Bool) : Dev :=
  d.build 0 { Header.blank with
    kind := 7, tc := 7, part := c.e.part, job := c.e.job, dst := d.destOf c.e cid seq rh,
    src := d.ownAddr 0, sub := 0x10, ksf := BitVec.ofNat 64 (cid <<< 48 ||| seq.toNat <<< 16) } []

/-! ### Results and linger copies (R207, R209) -/

/-- The header of a chunk's result. -/
def Dev.resultHeader (d : Dev) (cid : Nat) (e : CtxEntry) (tf : Bool) (seq : Word) (sub : BitVec 8) : Header :=
  { Header.blank with
    kind := 3, tc := 6, part := e.part, job := e.job, dst := BitVec.ofNat 24 (3 <<< 20 ||| cid),
    fmt := e.fmt, src := d.ownAddr 0, sub := sub, ctx := BitVec.ofNat 16 cid, tf := tf, seq := seq }

/-- Bytes of the regions of a kind. -/
def Dev.regionBytes (d : Dev) (k : RegionKind) : Nat :=
  sumNat (d.mem.regions.map fun e => if e.2.kind = k then e.2.size else 0)

/-- Bytes that a copy occupies: whole 256-byte units. -/
def Linger.bytes (x : Linger) : Nat := (x.payload.length + 255) / 256 * 256

/-- Linger copies whose time has not passed, by context and record. -/
def Dev.lingering (d : Dev) : List (Nat × Word × Linger) :=
  d.red.ctxs.flatMap fun e => e.2.fin.filterMap fun r => match r.linger with
    | some x => if d.now ≤ x.until_ then some (e.1, r.seq, x) else none
    | none => none

/-- Puts a copy into a list in order of age. -/
def insertLinger (x : Nat × Word × Linger) : List (Nat × Word × Linger) → List (Nat × Word × Linger)
  | [] => [x]
  | y :: r => if x.2.2.order < y.2.2.order then x :: y :: r else y :: insertLinger x r

/-- Ends a linger copy. -/
def Dev.endLinger (d : Dev) (cid : Nat) (seq : Word) : Dev :=
  d.modCtx cid fun c =>
    { c with fin := c.fin.map fun r => if r.seq == seq then { r with linger := none } else r }

/-- Evicts the oldest copies until `size` more bytes fit; `used` bytes are in use.
DESIGN CHOICE, log entry 16. -/
def Dev.evictLinger (d : Dev) (cap size : Nat) : Nat → List (Nat × Word × Linger) → Dev
  | _, [] => d
  | used, x :: r =>
    if used + size ≤ cap then d
    else ((d.endLinger x.1 x.2.1).bump (ctrRed (clusterOf x.1) 0xA50)).evictLinger cap size
      (used - x.2.2.bytes) r

/-- Makes room for a result's copy: the copy, unless the region cannot hold it. -/
def Dev.keepLinger (d : Dev) (cid : Nat) (e : CtxEntry) (payload : List Byte) (sub : BitVec 8) :
    Dev × Option Linger :=
  let us := if e.lingerUs = 0 then 500 else e.lingerUs.toNat
  let x : Linger := { payload := payload, sub := sub, until_ := d.now + us * clkUs, order := d.red.lingerOrder }
  let cap := d.regionBytes .linger
  if cap < x.bytes then (d.bump (ctrRed (clusterOf cid) 0xA50), none)
  else
    let all := d.lingering.foldl (fun l y => insertLinger y l) []
    let d1 := d.evictLinger cap x.bytes (sumNat (all.map fun y => y.2.2.bytes)) all
    ({ d1 with red := { d1.red with lingerOrder := d1.red.lingerOrder + 1 } }, some x)

/-- The lingering copy of a chunk's result, if its time has not passed (R221). -/
def Dev.lingerOf (d : Dev) (c : Ctx) (seq : Word) : Option Linger :=
  match c.record? seq with
  | some r => match r.linger with
    | some x => if d.now ≤ x.until_ then some x else none
    | none => none
  | none => none

/-- Sends a lingering result again, to one port, with RSND = 1 (R208). -/
def Dev.resendResult (d : Dev) (cid : Nat) (c : Ctx) (seq : Word) (x : Linger) (l : Nat) : Dev :=
  (d.buildTo l (d.resultHeader cid c.e c.e.tf seq (x.sub ||| 0x40#8)) x.payload).bump
    (ctrRed (clusterOf cid) 0xA48)

/-- Sends the result of a chunk whose last bit is set at its root, with its linger copy (R201, R207,
R209), and finishes the chunk. -/
def Dev.completeRoot (d : Dev) (cid : Nat) (x : Chunk) : Dev :=
  match d.ctx? cid with
  | none => d
  | some c =>
    let r := d.encodeChunk cid true x
    let y := r.2.2
    let sub := subOf y.rh false y.ovf y.flags
    let d1 := r.1.build 0 (d.resultHeader cid c.e y.att.tf y.seq sub) r.2.1
    let k := d1.keepLinger cid c.e r.2.1 sub
    k.1.finishChunk cid y true k.2

/-! ### Member ports that leave ACTIVE (R205; R525 row 19) -/

/-- Ends a chunk one of whose member ports, `l`, has left ACTIVE. -/
def Dev.endForPort (d : Dev) (cid : Nat) (c : Ctx) (x : Chunk) (l : Nat) : Dev :=
  let others := (members (c.membership x.seq)).filter fun p => p != l && d.memberUp c.e.part.toNat p
  if c.e.level == 2 && !x.rh then
    let d1 := d.ctxNacks cid others x.seq nackRehome x.rh
    (d1.modCtx cid fun c => c.dropChunk x.seq).bump (ctrRed (clusterOf cid) 0xA30)
  else d.abandonChunk cid x others

/-- A logical port counts as not ACTIVE for a context from now on.  DEDUCED, log entry 85. -/
def Dev.portLeftCtx (d : Dev) (l cid : Nat) : Dev :=
  match d.ctx? cid with
  | none => d
  | some c => (c.chunks.filter fun x => hasPort (c.membership x.seq) l).foldl
      (fun d x => d.endForPort cid c x l) d

/-- A logical port leaves ACTIVE. -/
def Dev.portLeft (d : Dev) (l : Nat) : Dev :=
  (Tab.keys d.red.ctxs).foldl (fun d cid => d.portLeftCtx l cid) d

/-- Contexts whose member ports a commit has left disabled for their partition; `before` holds the
ports that counted (R525 row 19). -/
def Dev.fenceLeft (d : Dev) (before : Nat → Nat → Bool) : Dev :=
  d.red.ctxs.foldl (fun d e =>
    (members (e.2.e.members ||| e.2.e.membersNext)).foldl (fun d l =>
      if before e.2.e.part.toNat l && !d.memberUp e.2.e.part.toNat l then d.portLeftCtx l e.1 else d) d) d

end Sys2Proof.Machine
end

