-- ==== Sys2Proof/Machine/Ports.lean ====
section
/-! DEFINITION. Physical ports, their rings and lasers as shared operations: entering DETECT, leaving
ACTIVE (R372), draining (R373), going DOWN (R374), laser swaps (R346 to R350), the exchange and its
evaluation (R364 to R369), and the end-of-life floor of fibers (R491). -/

namespace Sys2Proof.Machine

/-! ### Lasers, rings and spares -/

/-- Engine and place of a physical port. -/
def engOf (p : Nat) : Nat := p / 32
def placeOf (p : Nat) : Nat := p % 32

/-- A mode on the campus fibers, and one at half rate (R324). -/
def isCampus (mode : BitVec 3) : Bool := mode == 3 || mode == 4
def isHalf (mode : BitVec 3) : Bool := mode == 2 || mode == 4
/-- The half-rate mode of a mode. -/
def halfMode (mode : BitVec 3) : BitVec 3 := if isCampus mode then 4 else 2

/-- Spare that serves a port: its transmit fiber's (R17), or the C-band spare. -/
def spareOf (p : Nat) (mode : BitVec 3) : Nat := if isCampus mode then 4 else placeOf p / 8

/-- The lasers that an engine has: only OE0 and OE15 have C-band lasers (R12). -/
def laserExists (e ix : Nat) : Bool := decide (ix < 36) || e == 0 || e == 15

/-- A laser of an engine (R12).  DESIGN CHOICE, log entry 44. -/
def Dev.laser (d : Dev) (e ix : Nat) : Laser := Tab.get d.opt.lasers (e * 53 + ix) {}
def Dev.setLaser (d : Dev) (e ix : Nat) (x : Laser) : Dev :=
  { d with opt := { d.opt with lasers := Tab.set d.opt.lasers (e * 53 + ix) x {} } }

/-- A spare of an engine; only OE0 and OE15 have a C-band spare (R12). -/
def defaultSpare (e f : Nat) : Spare := { st := if f = 4 && e != 0 && e != 15 then 4 else 0 }
def Dev.spare (d : Dev) (e f : Nat) : Spare := Tab.get d.opt.spares (e * 5 + f) (defaultSpare e f)
def Dev.setSpare (d : Dev) (e f : Nat) (x : Spare) : Dev :=
  { d with opt := { d.opt with spares := Tab.set d.opt.spares (e * 5 + f) x (defaultSpare e f) } }

/-- A port's own laser in the band of a mode: its C-band laser in a campus mode, its O-band laser
otherwise (R317, R323). -/
def ownLaser (p : Nat) (mode : BitVec 3) : Nat := if isCampus mode then 37 + p % 16 else placeOf p

/-- The spare of the port's fiber or bank carries the port (R347). -/
def Dev.onSpare (d : Dev) (p : Nat) : Bool :=
  let y := d.spare (engOf p) (spareOf p (d.port p).mode)
  y.st == 2 && y.port == placeOf p

/-- The laser that lights a port: its own, or the spare in use for it.  DESIGN CHOICE, log entry 44. -/
def Dev.laserIx (d : Dev) (p : Nat) : Nat :=
  let m := (d.port p).mode
  if d.onSpare p then 32 + spareOf p m else ownLaser p m

/-- Number of a ring. -/
def ringNo (p : Nat) (r : Ring) : Nat := match r with
  | .tx => p * 2
  | .rx => p * 2 + 1

def Dev.ring (d : Dev) (p : Nat) (r : Ring) : RingSt := Tab.get d.opt.rings (ringNo p r) {}
def Dev.setRing (d : Dev) (p : Nat) (r : Ring) (x : RingSt) : Dev :=
  { d with opt := { d.opt with rings := Tab.set d.opt.rings (ringNo p r) x {} } }

/-- Junction temperature of an engine above T_cal, in °C; 0 before any reading. -/
def Dev.tempDelta (d : Dev) (e : Nat) : Int :=
  match d.clk.temps[Config.engineSensor e % 16]? with
  | some t => t - d.opt.tCal
  | none => 0

/-- The calibrated heater point at a temperature (R333), held in the DAC's range. -/
def RingSt.start (x : RingSt) (dt : Int) : BitVec 14 :=
  let v := (x.hcal.toNat : Int) + x.slope * dt
  if v < 0 then 0 else if 16383 < v then 16383 else BitVec.ofNat 14 v.toNat

/-- Starts a ring's sweep from its calibrated point, unless it holds an accepted lock (R334, R360). -/
def RingSt.sweep (dt : Int) (x : RingSt) : RingSt :=
  match x.lock with
  | .unlocked => { x with
      lock := .sweep, heater := x.start dt, matches_ := 0, misses := 0, passed := 0, windows := 0 }
  | _ => x

/-- Forgets a ring's lock: its light changes (R326). -/
def RingSt.retune (x : RingSt) : RingSt := { x with lock := .unlocked, matches_ := 0, misses := 0 }

/-- A modulator whose ring is not accepted stays muted (R337), and that of a port in loopback NEAR (R522).  A campus
port has no rings. -/
def Dev.mustMute (d : Dev) (p : Nat) : Bool :=
  d.loop p == 1 || (!isCampus (d.port p).mode && !decide ((d.ring p .tx).lock = .locked))

def Dev.mapRings (d : Dev) (p : Nat) (f : RingSt → RingSt) : Dev :=
  (d.setRing p .tx (f (d.ring p .tx))).setRing p .rx (f (d.ring p .rx))

/-- Lights or darkens the laser of a port; a failed laser is never lit again (R347). -/
def Dev.lightPort (d : Dev) (p : Nat) (lit : Bool) : Dev :=
  let ix := d.laserIx p
  let y := d.laser (engOf p) ix
  d.setLaser (engOf p) ix { y with lit := lit && !y.failed }

/-! ### The end-of-life floor of fibers (R491) -/

/-- A port counts toward the floor: at half rate or down, for light or lanes. -/
def Dev.fiberBad (d : Dev) (p : Nat) : Bool :=
  let x := d.port p
  x.forcedHalf || (x.st == .down && (x.reason == 1 || x.reason == 2 || x.reason == 3)) || x.badHalf == 3

/-- Ports of a transmit fiber, and of a campus bank. -/
def fiberPorts (e f : Nat) : List Nat := (List.range 8).map fun i => 32 * e + 8 * f + i
def bankPorts (e : Nat) : List Nat :=
  (List.range 16).map fun i => if e = 0 then i else 496 + i

/-- Count of the ports that count. -/
def Dev.badCount (d : Dev) (l : List Nat) : Nat := (l.filter d.fiberBad).length

/-- Crosses a floor: one END_OF_LIFE_ADVISORY and one ADVISORY record per floor until reset. -/
def Dev.crossFloor (d : Dev) (floor value unit_ index : Nat) : Dev :=
  if d.faults.eol.getLsbD (floor - 1) then d
  else
    let d1 := { d with faults := { d.faults with
      eol := d.faults.eol ||| BitVec.ofNat 3 (1 <<< (floor - 1)) } }
    (d1.event (.endOfLife floor value)).faultRec 7 unit_ index 0 0 0 value

/-- Checks the FIBER floor of the fiber, and of the campus bank, of a port: the value holds engine,
fiber and count. -/
def Dev.checkFiber (d : Dev) (p : Nat) : Dev :=
  let e := engOf p
  let f := placeOf p / 8
  let n := d.badCount (fiberPorts e f)
  let d1 := if 2 < n then d.crossFloor 3 (e * 65536 + f * 256 + n) 7 p else d
  let campus := (bankPorts e).filter fun q => isCampus (d.port q).mode
  let m := d1.badCount campus
  if (e = 0 || e = 15) && decide (4 < m) then d1.crossFloor 3 (e * 65536 + 4 * 256 + m) 7 p else d1

/-! ### Link messages (R364) -/

/-- The event of a link message that returns to the port that sent it; a pair is one event (R364). -/
def linkEvent (p : Nat) (bytes : List Byte) : List Instr :=
  let b := bytes.getD 1 0
  match (bytes.headD 0).toNat with
  | 0x12 => [.exchAckReceived (asPort p) b]
  | 0x20 => [.linkDownReceived (asPort p)]
  | 0x40 => [.swapReqReceived (asPort p) b ((bytes.getD 2 0).getLsbD 0)]
  | 0x41 => [.swapAckReceived (asPort p) b]
  | 0x42 => [.swapNakReceived (asPort p) b]
  | 0x43 => [.swapNowReceived (asPort p) b]
  | 0x44 => [.swapDoneReceived (asPort p) b]
  | 0x45 => [.rateDownReceived (asPort p)]
  | _ => []

/-- The port at which the return of a loopback arrives. -/
def loopPort : Instr → Option Port
  | .lightDetected p | .trainingFrameReceived p .. | .exchPairReceived p .. | .exchAckReceived p ..
  | .linkDownReceived p | .swapReqReceived p .. | .swapAckReceived p .. | .swapNakReceived p ..
  | .swapNowReceived p .. | .swapDoneReceived p .. | .rateDownReceived p | .frameHeaderTaken p ..
  | .frameTailReceived p .. => some p
  | _ => none

/-- Sends a link message; a muted modulator sends none (R337). -/
def Dev.sendLink (d : Dev) (p : Nat) (bytes : List Byte) : Dev :=
  if d.silent p then d else d.emit p (.link p (bytes.headD 0) (LinkMsg.ofBytes bytes)) (linkEvent p bytes)

/-- The port is in FAR loopback, where it returns on its own transmitter each block that it receives (R522). -/
def Dev.returns (d : Dev) (p : Nat) : Bool :=
  d.awake && d.loop p == 2 && decide ((d.port p).st = .test) && !(d.port p).muted

/-- A port in FAR loopback returns a link message that begins with the bytes `known`; an event does not give the
reserved bytes, which are free values.  DEDUCED, log entry 174. -/
def Dev.echo (d : Dev) (p : Nat) (known : List Byte) : Dev :=
  if d.returns p then
    let r := d.draw
    r.2.send (.link p (known.headD 0) (LinkMsg.ofBytes (known ++ beBytes (24 - known.length) r.1.toNat)))
  else d

/-- EXCH_ID of a port (R364). -/
def Dev.exchId (d : Dev) (p : Nat) (round : Byte) : List Byte :=
  [0x10, round] ++ beBytes 4 d.boot.system.toNat ++ beBytes 2 d.boot.chassis.toNat ++ [d.boot.slot] ++
  beBytes 1 d.boot.role.toNat ++ beBytes 2 p ++ beBytes 8 d.fuses.serial.toNat ++
  beBytes 3 d.boot.addr.toNat ++ [0]

/-- CHECK: CRC-32C over bytes 1 to 23 of EXCH_ID and bytes 1 to 7 of EXCH_FEAT. -/
def exchCheck (id feat : List Byte) : Word := crc32c (slice id 1 23 ++ slice feat 1 7)

/-- EXCH_FEAT. -/
def exchFeat (id : List Byte) (round : Byte) : List Byte :=
  let f := [0x11, round, 1, 0] ++ beBytes 4 0x0000000F
  f ++ beBytes 4 (exchCheck id f).toNat

/-- Sends the pair. -/
def Dev.sendPair (d : Dev) (p : Nat) : Dev :=
  let r := (d.port p).round
  let id := d.exchId p r
  let f := exchFeat id r
  let i := LinkMsg.ofBytes id
  let g := LinkMsg.ofBytes f
  if d.silent p then d
  else (d.emit p (.link p 0x10 i) []).emit p (.link p 0x11 g) [.exchPairReceived (asPort p) i g]

/-! ### Entering states -/

/-- What every exit of a port's stages clears. -/
def PortSt.cleared (x : PortSt) : PortSt :=
  { x with fecLock := false, frameSync := false, rxReady := false, winBits := 0, winErrs := 0,
           readySent := 0, readyGot := 0,
           pairNow := false, ackNow := false, admitted := false, feat := 0, verMinor := 0, drain := none,
           newMode := none, held := false, hold := none, reqWait := none, hunting := false, prbs := .none,
           prbsRun := 0 }

/-- A port in TEST sends its pattern, unless its modulator is muted (R376). -/
def Dev.sendPattern (d : Dev) (p : Nat) : Dev :=
  let x := d.port p
  if x.muted || decide (x.prbs = .none) then d else d.send (.prbs p x.prbs)

/-- Puts a port that is not ACTIVE into TEST with a pattern (R376). -/
def Dev.toTest (d : Dev) (p : Nat) (pat : PrbsPattern) : Dev :=
  let d1 := d.failRx p
  (d1.setPort p { (d1.port p).cleared with
    st := .test, prbs := pat, prbsBits := 0, prbsErrs := 0, muted := d.mustMute p }).sendPattern p

/-- A change of a port's stage ends what is on its way back to it; the lanes of a port in loopback NEAR bring it its
own signal at once, without light (R522). -/
def Dev.joinLoop (d : Dev) (p : Nat) : Dev :=
  let q := d.loopQ.filter fun i => loopPort i != some (asPort p)
  { d with loopQ := if d.loop p = 1 then q ++ [.lightDetected (asPort p)] else q }

/-- Takes a port DOWN with a reason, or for failed lanes with none (R18, R374). -/
def Dev.setDown (d : Dev) (p reason : Nat) : Dev :=
  let d1 := d.failRx p
  (d1.setPort p { (d1.port p).cleared with st := .down, reason := reason, muted := true }).checkFiber p

/-- A port with a failed lane in each half is down; with one failed half it runs at half rate (R18). -/
def PortSt.onLanes (x : PortSt) : PortSt :=
  if (x.badHalf != 0 || x.optTest == 1) && (x.mode == 1 || x.mode == 3) then
    { x with mode := halfMode x.mode, forcedHalf := true } else x

/-- A port takes a step of R490 for what self-test found of its lanes or optics: half rate, or down. -/
def Dev.degraded (d : Dev) (p step action capacity : Nat) : Dev :=
  (d.event (.serviceDegraded 7 p step capacity)).faultRec 4 7 p 0 action 0 0

/-- Enters DETECT, or OFF in mode OFF: the laser is lit, the modulator muted, rings without a lock
sweep (R324, R360).  A port in loopback NEAR keeps its laser dark, one in FAR shows TEST (R522,
R523). -/
def Dev.toDetect (d : Dev) (p : Nat) : Dev :=
  let d0 := d.failRx p
  let x := (d0.port p).cleared.onLanes
  if x.mode = 0 then
    let d1 := (d0.lightPort p false).setPort p { x with st := .off, reason := 0, muted := true }
    d1.mapRings p RingSt.retune
  else if x.badHalf = 3 then (d0.setDown p 0).degraded p 2 5 0
  else
    let y :=
      if d.loop p = 2 then { x with
        st := .test, reason := 0, muted := d.mustMute p, detectAt := d.now, prbsBits := 0, prbsErrs := 0 }
      else { x with st := .detect, reason := 0, muted := true, detectAt := d.now }
    let d2 := ((d0.setPort p y).joinLoop p).lightPort p (d.loop p != 1)
    let d3 := if isCampus x.mode then d2 else d2.mapRings p (RingSt.sweep (d2.tempDelta (engOf p)))
    if x.forcedHalf && !(d.port p).forcedHalf then (d3.degraded p 1 4 512).checkFiber p else d3

/-- LAST_EXIT codes of R378. -/
def exitLos : Nat := 1
def exitLock : Nat := 2
def exitWrong : Nat := 3
def exitLinkDown : Nat := 4
def exitMode : Nat := 5
def exitRestart : Nat := 6
def exitIdentity : Nat := 7
def exitPlan : Nat := 8
def exitLaser : Nat := 9

/-- What every exit from ACTIVE or DRAINING does (R129, R372): LAST_EXIT, PORT_ACTIVE_EXITS, the open
chunks of contexts that have the port as a member (R205), the queued copies, PORT_DOWN, and a DATA_LOSS record where copies were discarded (log entry 33).
DEDUCED, log entry 33. -/
def Dev.exitCommon (d : Dev) (p code : Nat) : Dev :=
  let l := d.logical p
  let d1 := (d.setPort p { d.port p with lastExit := code }).bump (ctrPort p 0x140)
  let lost := d1.ctr (ctrStore 0x120)
  let d2 := ((d1.failRx p).portLeft l).flushPort l
  let d3 := d2.event (.portDown l p code (d.port p).reason)
  if d3.ctr (ctrStore 0x120) = lost then d3 else d3.faultRec 5 0x07 p 0 5 0 0

/-- LINK_DOWN, three times (R372). -/
def Dev.sendLinkDown (d : Dev) (p code : Nat) : Dev :=
  let m : List Byte := [0x20, BitVec.ofNat 8 code]
  ((d.sendLink p m).sendLink p m).sendLink p m

/-- Leaves ACTIVE or DRAINING for DETECT (R372). `tx` says whether the transmit path works. -/
def Dev.exitToDetect (d : Dev) (p code : Nat) (tx : Bool) : Dev :=
  let d1 := d.exitCommon p code
  (if tx then d1.sendLinkDown p code else d1).toDetect p

/-- Enters EXCHANGE with the link framed: a new ROUND, and the pair (R364, R366). -/
def Dev.enterExchange (d : Dev) (p : Nat) : Dev :=
  let x := d.port p
  let x1 := { x.cleared with
    st := .exchange, round := x.round + 1, fecLock := true, frameSync := true, muted := d.mustMute p }
  (d.setPort p x1).sendPair p

/-! ### Laser swaps -/

def Dev.swapIn (d : Dev) (e : Nat) : Option Swap := Tab.find d.opt.swaps e
def Dev.putSwap (d : Dev) (e : Nat) (s : Option Swap) : Dev :=
  { d with opt := { d.opt with swaps := Tab.putOpt d.opt.swaps e s } }

/-- Unused spares of a fiber or campus bank. -/
def Dev.sparesLeft (d : Dev) (e f : Nat) : Nat := if (d.spare e f).st = 0 then 1 else 0

/-- Ends the commanded swap of an engine, if its reply is held. -/
def Dev.swapReply (d : Dev) (p : Nat) (st : Status) : Dev := d.finishFor (.swap p) st .empty

/-- Starts a swap of port `p`: the spare warms up behind its shutter (R346).  The fiber's spare leaves
the ready state, which is reported. -/
def Dev.startSwap (d : Dev) (p : Nat) (dead : Bool) : Dev :=
  let e := engOf p
  let f := spareOf p (d.port p).mode
  let t := d.opt.token + 1
  let d1 := (d.setSpare e f { st := 1, port := placeOf p }).putSwap e
    (some { port := p, spare := f, step := .tuning, token := t, dead := dead, at_ := d.now,
            was := Tab.get d.opt.ptr (e * 5 + f) 0 })
  ({ d1 with opt := { d1.opt with
    token := t, ptr := Tab.set d1.opt.ptr (e * 5 + f) ((placeOf p + 1) % 32) 0 } }).event (.spareGone e f)

/-- A spare for the port is ready and no swap runs in the engine. -/
def Dev.canSwap (d : Dev) (p : Nat) : Bool :=
  (d.spare (engOf p) (spareOf p (d.port p).mode)).st == 0 && (d.swapIn (engOf p)).isNone

/-- A swap that the SWAP level begins (R342). -/
def Dev.fadeSwap (d : Dev) (p : Nat) : Dev :=
  let e := engOf p
  let ix := d.laserIx p
  let d1 := (d.setLaser e ix { d.laser e ix with swapOwed := false }).startSwap p false
  d1.putSwap e ((d1.swapIn e).map fun w => { w with faded := true })

/-- One swap runs at a time in an engine; when it ends, a port whose laser has failed brings in its
fiber's spare, if that is ready, and after such ports one whose laser has reached the SWAP level meanwhile
(R342, R350, R355).  A port that drains for its mode takes no spare before (R327), nor does port `but`. -/
def Dev.resumeSwapsBut (d : Dev) (e : Nat) (but : Option Nat) : Dev :=
  let ports := ((List.range 32).map fun i => 32 * e + i).filter fun p =>
    (d.port p).st != .off && (d.port p).st != .down && (d.port p).drain != some .mode && but != some p &&
    d.canSwap p && !d.onSpare p
  match ports.find? fun p => (d.laser e (d.laserIx p)).failed with
  | some p => d.startSwap p true
  | none =>
    match ports.find? fun p => (d.laser e (d.laserIx p)).swapOwed with
    | some p => d.fadeSwap p
    | none => d

/-- A swap has ended in engine `e`. -/
def Dev.resumeSwaps (d : Dev) (e : Nat) : Dev := d.resumeSwapsBut e none

/-- Completes a swap: the old laser is retired, the spare carries the port (R347).  `paused` gives the
length of the pause in ns; none is a swap by retrain. -/
def Dev.finishSwap (d : Dev) (e : Nat) (s : Swap) (paused : Option Nat) : Dev :=
  let p := s.port
  let old := d.laserIx p
  let d1 := d.setLaser e old { d.laser e old with lit := false, failed := true }
  let d2 := d1.setSpare e s.spare { st := 2, port := placeOf p }
  let d3 := d2.setPort p { d2.port p with held := false }
  let sp := d3.laser e (32 + s.spare)
  let d4 := d3.setLaser e (32 + s.spare) { sp with
    lit := !sp.failed, level := 0, nWarn := 0, nSwap := 0, nHalf := 0, nDown := 0, nClear := 0,
    swapOwed := false, halfOwed := false }
  let d5 := match paused with
    | some ns => (d4.bump (ctrLight p 1)).bumpBy (ctrLight p 3) ns
    | none => d4.bump (ctrLight p 2)
  let d6 := (d5.putSwap e none).event (.laserSwapped e p s.spare (paused.getD 0))
  let d7 := d6.faultRec 3 0x05 (e * 64 + old) s.spare 2 (d6.sparesLeft e s.spare) s.spare
  (d7.swapReply p .ok).resumeSwaps e

/-- Gives up a swap: the spare fails, or returns unused.  Another port of the engine may then swap, but not `but`. -/
def Dev.dropSwapBut (d : Dev) (e : Nat) (s : Swap) (spareFails : Bool) (st : Status) (but : Option Nat) : Dev :=
  let d1 := d.setSpare e s.spare { st := if spareFails then 3 else 0 }
  let x := d1.laser e (32 + s.spare)
  let d2 := d1.setLaser e (32 + s.spare) { x with lit := false, failed := x.failed || spareFails }
  let d3 := d2.setPort s.port { d2.port s.port with held := false }
  ((d3.putSwap e none).swapReply s.port st).resumeSwapsBut e but

/-- Gives up a swap. -/
def Dev.dropSwap (d : Dev) (e : Nat) (s : Swap) (spareFails : Bool) (st : Status) : Dev :=
  d.dropSwapBut e s spareFails st none

/-- Lists the swap of a port, if one runs. -/
def Dev.swapOfPort (d : Dev) (p : Nat) : Option Swap :=
  match d.swapIn (engOf p) with
  | some s => if s.port == p then some s else none
  | none => none

/-- A swap that the port cannot use ends: from SWAP_NOW the spare stays in use, before it the spare returns
unused (R339, R354). -/
def Dev.abandonSwap (d : Dev) (p : Nat) : Dev :=
  match d.swapOfPort p with
  | some s => match s.step with
    | .shuttered => d.finishSwap (engOf p) s none
    | _ => d.dropSwap (engOf p) s false .conflict
  | none => d

/-- A swap of the port that has not sent SWAP_NOW is given up for a mode change, and the spare returns unused
(R327).  From SWAP_NOW the pause completes first (R354). -/
def Dev.giveUpSwap (d : Dev) (p : Nat) : Dev :=
  match d.swapOfPort p with
  | some s => match s.step with
    | .shuttered => d
    | _ => d.dropSwapBut (engOf p) s false .conflict (some p)
  | none => d

/-- A port leaves ACTIVE during its own swap pause: the new laser stays in use (R354); one that drains
for another purpose while its swap waits takes the new laser too. -/
def Dev.settleSwap (d : Dev) (p : Nat) : Dev :=
  match d.swapOfPort p with
  | some s => match s.step with
    | .paused | .shuttered | .draining => d.finishSwap (engOf p) s none
    | _ => d
  | none => d

/-! ### Modes (R326, R351) -/

/-- The mode that a port holds, or takes when its drain ends.  DEDUCED, log entry 59. -/
def PortSt.modeSet (x : PortSt) : NewMode :=
  match x.newMode with
  | some m => m
  | none => { mode := x.mode, express := x.express, xch := x.xch, cfreq := x.cfreq }

/-- Gives a port its new mode: its laser goes dark where the port leaves that laser's band or goes OFF
(R17, R324), and its locks are forgotten where its light changes.  DEDUCED, log entry 45. -/
def Dev.takeMode (d : Dev) (p : Nat) (m : NewMode) : Dev :=
  let x := d.port p
  let band := isCampus x.mode == isCampus m.mode && m.mode != 0
  let same := band && x.express == m.express && x.xch == m.xch && x.mode != 0
  let d1 := (if band then d else d.lightPort p false).setPort p { x with
    mode := m.mode, express := m.express, xch := m.xch, cfreq := m.cfreq, forcedHalf := x.forcedHalf && m.mode == x.mode,
    trainFails := 0 }
  if same then d1 else d1.mapRings p RingSt.retune

/-- A port enters half rate for a fade (R351). -/
def Dev.takeHalf (d : Dev) (p : Nat) : Dev :=
  let x := d.port p
  let m := halfMode x.mode
  let d1 := d.setPort p { x with mode := m, forcedHalf := true }
  let ix := d1.laserIx p
  let d2 := (d1.event (.laserHalf p m.toNat)).faultRec 4 0x05 (engOf p * 64 + ix) (spareOf p m) 4
    (d1.sparesLeft (engOf p) (spareOf p m)) 0
  d2.checkFiber p

/-! ### Draining (R373) -/

/-- Enters DRAINING for a purpose; the port has left ACTIVE for its contexts (R205). -/
def Dev.startDrain (d : Dev) (p : Nat) (why : DrainWhy) : Dev :=
  (d.setPort p { d.port p with st := .draining, drain := some why, drainAt := d.now }).portLeft (d.logical p)

/-- The exit code of a drain's purpose. -/
def DrainWhy.code : DrainWhy → Nat
  | .mode => exitMode
  | .swap | .half | .rate => exitLaser
  | .restart | .prbs => exitRestart
  | .plan => exitPlan

/-- Ends a drain: on its own, or early by the exit `code`; its purpose is carried out (R373). -/
def Dev.endDrain (d : Dev) (p : Nat) (early : Option Nat) : Dev :=
  let x := d.port p
  let why := x.drain.getD .restart
  let code := early.getD why.code
  let d0 := match why with
    | .swap => d
    | .mode => (d.giveUpSwap p).settleSwap p
    | _ => d.settleSwap p
  match why with
  | .plan =>
    if early.isSome then d0.exitToDetect p code true
    else (d0.exitCommon p code).enterExchange p
  | .mode =>
    let d1 := (d0.exitCommon p code).sendLinkDown p code
    let d2 := match x.newMode with
      | some m => d1.takeMode p m
      | none => d1
    d2.toDetect p
  | .half =>
    let d1 := (d0.exitCommon p code).sendLink p [0x45, 0, 0, 0, 0, 50]
    ((d1.sendLinkDown p code).takeHalf p).toDetect p
  | .rate =>
    let d1 := (d0.exitCommon p code).sendLinkDown p code
    let y := d1.port p
    let m := halfMode y.mode
    let d2 := (d1.setPort p { y with mode := m, forcedHalf := true }).event (.laserHalf p m.toNat)
    (d2.checkFiber p).toDetect p
  | .swap =>
    let d1 := (d0.exitCommon p code).sendLinkDown p code
    let d2 := match d1.swapOfPort p with
      | some s => d1.finishSwap (engOf p) s none
      | none => d1
    d2.toDetect p
  | .restart => d0.exitToDetect p code true
  | .prbs =>
    let d1 := (d0.exitCommon p code).sendLinkDown p code
    if d1.loop p = 2 then d1.toDetect p else d1.toTest p x.prbs

/-- Whether a port's stage is one that a loss ends silently (R550). -/
def PortState.bringUp (s : PortState) (withTrain : Bool) : Bool :=
  match s with
  | .train | .lock => withTrain
  | .exchange | .unplanned | .crossed | .incompatible => true
  | _ => false

/-- Ends a port's stage for a loss: at once out of ACTIVE or DRAINING, silently out of bring-up. -/
def Dev.lose (d : Dev) (p code : Nat) (withTrain tx : Bool) : Dev :=
  match (d.port p).st with
  | .active => (d.settleSwap p).exitToDetect p code tx
  | .draining => d.endDrain p (some code)
  | s => if s.bringUp withTrain then d.toDetect p else d

/-- Takes a port DOWN from any lit state (R339, R342, R350). -/
def Dev.goDown (d : Dev) (p reason code : Nat) (tx : Bool) : Dev :=
  let x := d.port p
  if x.st = .off || x.st = .down then d
  else
    let d1 := match x.st with
      | .active | .draining =>
        let d0 := (d.settleSwap p).exitCommon p code
        if tx then d0.sendLinkDown p code else d0
      | _ => d
    let unit_ := if reason = 1 then 0x06 else 0x05
    let index := if reason = 1 then p else engOf p * 64 + d.laserIx p
    let d2 := d1.setDown p reason
    let d3 := if reason = 1 then d2 else d2.event (.serviceDegraded unit_ index 2 0)
    d3.faultRec 4 unit_ index (if reason = 1 then 0 else spareOf p x.mode) 5 (d.sparesLeft (engOf p) (spareOf p x.mode)) 0

/-- A training failure (R362, R363, R366): DETECT, or DOWN after TRAIN_RETRY failures in a row. -/
def Dev.trainFail (d : Dev) (p : Nat) : Dev :=
  let d1 := d.bump (ctrPort p 0x148)
  let x := d1.port p
  let n := if x.trainFails < 255 then x.trainFails + 1 else 255
  let d2 := d1.setPort p { x with trainFails := n }
  let lim := d.regBits (basePort p + 4) 7 0
  if lim != 0 && decide (lim ≤ n) then d2.setDown p 4 else d2.toDetect p

/-! ### The plan and its evaluation (R367 to R369) -/

/-- A partner's pair matches an entry. -/
def planMatches (e : PlanEntry) (id : LinkMsg) : Bool :=
  e.valid && e.role.toNat == id.field 9 1 && e.addr.toNat == id.field 20 3 &&
  (e.port == 0xFFFF#16 || e.port.toNat == id.field 10 2) &&
  (e.serial == 0 || e.serial.toNat == id.field 12 8) &&
  (e.system == 0 || e.system.toNat == id.field 2 4)

/-- What an evaluation of R368 gives: admitted, or a state; or a remap onto a logical number. -/
inductive Verdict where
  | take | to (s : PortState) | remap (q : Nat)
  deriving DecidableEq, Repr

/-- The conditions of a remap of port `p` onto logical `q`, now bound to `r` (R369). -/
def Dev.canRemap (d : Dev) (p r : Nat) : Bool :=
  let x := d.port p
  let y := d.port r
  d.autoRemap.getLsbD (engOf p) && !(y.st == .active || y.st == .draining) && x.mode == y.mode &&
  x.express == y.express && (!d.isLeaf || (placeOf p < 16 : Bool) == (placeOf r < 16 : Bool))

/-- Evaluates the stored pair of a port (R368, R523). -/
def Dev.verdict (d : Dev) (p : Nat) : Verdict :=
  let x := d.port p
  let l := d.logical p
  let e := engOf p
  if x.partnerFeat.field 2 1 != 1 then .to .incompatible
  else if d.loop p == 1 || d.loop p == 3 then
    (if x.partnerId.field 12 8 == d.fuses.serial.toNat && x.partnerId.field 10 2 == p then .take
     else .to .unplanned)
  else if !(d.planOf l).valid then .to .unplanned
  else if planMatches (d.planOf l) x.partnerId then .take
  else
    match ((List.range 32).map (fun i => 32 * e + i)).find?
        (fun q => q != l && planMatches (d.planOf q) x.partnerId) with
    | none => .to .unplanned
    | some q => if d.canRemap p (d.physical q) then .remap q else .to .crossed

/-- Enters ACTIVE (R366, R368). -/
def Dev.enterActive (d : Dev) (p : Nat) : Dev :=
  let x := d.port p
  let feat := BitVec.ofNat 4 (x.partnerFeat.field 4 4)
  let d1 := d.setPort p { x with
    st := .active, feat := feat, verMinor := 0, trainFails := 0, muted := d.mustMute p, admitted := true }
  d1.event (.portUp (d.logical p) p feat x.partnerId)

/-- Enters a state that keeps the port out; entering it, and not staying, sends PORT_PLAN. -/
def Dev.enterPlan (d : Dev) (p : Nat) (s : PortState) : Dev :=
  let x := d.port p
  let d1 := d.setPort p { x with st := s, admitted := false }
  if x.st = s then d1 else d1.event (.portPlan (d.logical p) p s.code x.partnerId)

/-- Sets the logical number of a port. -/
def Dev.bindTo (d : Dev) (p l : Nat) : Dev :=
  d.setPort p { d.port p with bind := BitVec.ofNat 5 ((l % 32) ^^^ (p % 32)) }

/-- Evaluates a port that is in EXCHANGE, UNPLANNED, CROSSED or INCOMPATIBLE and has a pair; a remap
evaluates the other port at once.  The first argument bounds the chain of remaps. -/
def Dev.evaluate : Nat → Dev → Nat → Dev
  | 0, d, _ => d
  | n + 1, d, p =>
    let x := d.port p
    if !(x.st.bringUp false && x.hasPair && x.pairNow) then d
    else match d.verdict p with
      | .to s => d.enterPlan p s
      | .take =>
        if x.ackNow then d.enterActive p else d.setPort p { x with admitted := true }
      | .remap q =>
        let r := d.physical q
        let l := d.logical p
        let ptr := Tab.set d.opt.mapPtr (engOf p) ((placeOf p + 1) % 32) 0
        let d0 := { d with opt := { d.opt with mapPtr := ptr } }
        let d1 := ((d0.bindTo p q).bindTo r l).event (.portRemapped (engOf p) p r q l)
        let y := d1.port p
        let d2 := if y.ackNow then d1.enterActive p else d1.setPort p { y with admitted := true }
        d2.evaluate n r

/-- The ports that are not as at reset, each engine's from its pointer on (R377). -/
def Dev.pointedPorts (d : Dev) : List Nat :=
  let ports := d.ports.map Prod.fst
  (List.range 16).flatMap fun e =>
    let own := ports.filter fun p => engOf p == e
    let ptr := Tab.get d.opt.mapPtr e 0
    (own.filter fun p => decide (ptr ≤ placeOf p)) ++ own.filter fun p => decide (placeOf p < ptr)

/-- Evaluates the ports that hold in UNPLANNED, CROSSED or INCOMPATIBLE, and takes ACTIVE ports whose
entry was `was` and has changed so that it no longer matches into DRAINING (R368, R370). -/
def Dev.replan (was : Nat → PlanEntry) (d : Dev) : Dev :=
  let d1 := d.pointedPorts.foldl (fun d p =>
    let x := d.port p
    if x.st = .unplanned || x.st = .crossed || x.st = .incompatible then d.evaluate 32 p
    else d) d
  (d1.ports.map Prod.fst).foldl (fun d p =>
    let x := d.port p
    let l := d.logical p
    if x.st = .active && d.loop p == 0 && was l != d.planOf l && !planMatches (d.planOf l) x.partnerId then
      d.startDrain p .plan
    else d) d1

end Sys2Proof.Machine
end

