-- ==== Sys2Proof/Machine/MemCore.lean ====
section
/-! DEFINITION. Board memory as shared operations: the address map (R282), regions (R296), the
device's own reads and writes with the snoop filter (R290, R291), page retirement (R295) and the
granary's expanders (R300, R302, R303). -/

namespace Sys2Proof.Machine

/-! ### The address map (R282, R294, R300) -/

def nearBase : Nat := 0x2000000000000
def granBase : Nat := 0x4000000000000
def windowBase : Nat := 0x1000000000000
def windowSize : Nat := 0x4000000
def diagBase : Nat := 0x1000004000000
def mib : Nat := 0x100000
def gib : Nat := 0x40000000
/-- A near-tier page (R295). -/
def pageSize : Nat := 0x10000

/-- NEAR_SIZE by density (R294). -/
def nearSizeOf (density : Nat) : Nat :=
  if density = 16 then 27 * gib else if density = 24 then 81 * gib / 2
  else if density = 32 then 54 * gib else 0

/-- Spare pages by density (R294). -/
def sparePagesOf (density : Nat) : Nat :=
  if density = 16 then 16384 else if density = 24 then 24576 else if density = 32 then 32768 else 0

def Dev.nearSize (d : Dev) : Nat := nearSizeOf d.mem.density

/-- Spare pages left in the pool. -/
def Dev.poolFree (d : Dev) : Nat := sparePagesOf d.mem.density - d.mem.poolUsed

/-- An expander by root port. -/
def Dev.expander (d : Dev) (e : Nat) : Expander :=
  match e with
  | 0 => d.mem.exp0 | 1 => d.mem.exp1 | 2 => d.mem.exp2 | _ => d.mem.exp3

def Dev.setExpander (d : Dev) (e : Nat) (x : Expander) : Dev :=
  let m := d.mem
  match e with
  | 0 => { d with mem := { m with exp0 := x } }
  | 1 => { d with mem := { m with exp1 := x } }
  | 2 => { d with mem := { m with exp2 := x } }
  | _ => { d with mem := { m with exp3 := x } }

/-- C of R300 from the expanders as they stand: the smallest capacity among the ACTIVE expanders and the spare, at most 1 TiB. -/
def Dev.expanderCap (d : Dev) : Nat :=
  ([0, 1, 2, 3].filter fun e => let r := (d.expander e).role; r == 1 || r == 2 || r == 3).foldl
    (fun c e => if (d.expander e).capGib.toNat < c then (d.expander e).capGib.toNat else c) 1024

/-- GRAN_SIZE (R300); a closed granary is unmapped (R303). -/
def Dev.granSize (d : Dev) : Nat :=
  if d.mem.granClosed then 0 else d.mem.stripes.length * d.mem.granCap * gib

/-- A range lies in the mapped near tier, or in the mapped granary. -/
def Dev.inNear (d : Dev) (a n : Nat) : Bool := decide (nearBase ≤ a ∧ a + n ≤ nearBase + d.nearSize)
def Dev.inGran (d : Dev) (a n : Nat) : Bool := decide (granBase ≤ a ∧ a + n ≤ granBase + d.granSize)

/-- Root port of the expander that holds a granary address (R300). -/
def Dev.stripePort (d : Dev) (a : Nat) : Nat :=
  d.mem.stripes.getD ((a - granBase) / 4096 % d.mem.stripes.length) 0

/-- The region that holds a range. -/
def Dev.regionOf (d : Dev) (a n : Nat) : Option (Nat × Region) :=
  d.mem.regions.find? fun e => decide (e.2.base ≤ a ∧ a + n ≤ e.2.base + e.2.size)

/-! ### The device's own accesses (R290, R291) -/

/-- The line of a board address. -/
def lineOf (a : Nat) : Nat := a / 64

/-- Board memory as the device's accesses see it: writes that wait for a snoop response come first
for every later access of their line. -/
def Dev.memView (d : Dev) : List Host.Cell :=
  d.mem.waits.foldl (fun m w => memWrite m w.addr w.data) d.mem.cells

def Dev.devRead (d : Dev) (a n : Nat) : List Byte := memRead d.memView a n

/-- Invalidates the companion's copy of a line. -/
def Dev.snoop (d : Dev) (line : Nat) : Dev :=
  let d1 := { d with mem := { d.mem with snoop := d.mem.snoop.filter fun x => x != line } }
  if d.hl.up then d1.send (.snoopInvalidate line) else d1

/-- Applies a write: its lines read correctable again (R295). -/
def Dev.applyWrite (d : Dev) (a : Nat) (bytes : List Byte) : Dev :=
  { d with mem := { d.mem with
    cells := memWrite d.mem.cells a bytes,
    badLines := d.mem.badLines.filter fun x =>
      !(decide (lineOf a ≤ x ∧ x ≤ lineOf (a + bytes.length - 1))) || bytes.isEmpty } }

/-- A write takes its place behind those that wait. -/
def Dev.waitWrite (d : Dev) (w : WaitWrite) : Dev := { d with mem := { d.mem with waits := d.mem.waits ++ [w] } }

/-- Writes bytes that lie in one line: a tracked line is invalidated first, and the write waits. -/
def Dev.writeLine (d : Dev) (a : Nat) (bytes : List Byte) : Dev :=
  let line := lineOf a
  let w : WaitWrite := { line := line, addr := a, data := bytes, fromHost := false }
  if d.mem.snoop.contains line then (d.snoop line).waitWrite { w with asked := true }
  else if d.mem.waits.any fun x => x.line == line then d.waitWrite w
  else d.applyWrite a bytes

/-- A write of the companion within one line: it stays behind the writes that wait for the line, and behind
the companion's own earlier ones (R287). -/
def Dev.hostWriteLine (d : Dev) (a : Nat) (bytes : List Byte) : Dev :=
  if d.mem.waits.any fun w => w.line == lineOf a || w.fromHost then
    d.waitWrite { line := lineOf a, addr := a, data := bytes, fromHost := true }
  else d.applyWrite a bytes

/-- Applies, in order, the waiting writes that wait for nothing more: no invalidation, no earlier write of
their line, and for the companion's no earlier one of its own (R287, R291). -/
def Dev.drainWrites (d : Dev) : Dev :=
  d.mem.waits.foldl (fun d w =>
    if w.asked || d.mem.waits.any (fun x => x.line == w.line || (x.fromHost && w.fromHost)) then d.waitWrite w
    else d.applyWrite w.addr w.data) { d with mem := { d.mem with waits := [] } }

/-- Writes bytes line by line, each by `f`; the first argument bounds the lines. -/
def Dev.writeLines (f : Dev → Nat → List Byte → Dev) : Nat → Dev → Nat → List Byte → Dev
  | 0, d, _, _ => d
  | n + 1, d, a, bytes =>
    let k := 64 - a % 64
    if bytes.length ≤ k then (if bytes.isEmpty then d else f d a bytes)
    else Dev.writeLines f n (f d a (bytes.take k)) (a + k) (bytes.drop k)

/-- A write of the device, which issues no access to an unmapped address (R283). -/
def Dev.devWrite (d : Dev) (a : Nat) (bytes : List Byte) : Dev :=
  if d.inNear a bytes.length || d.inGran a bytes.length then
    Dev.writeLines Dev.writeLine (bytes.length + 1) d a bytes
  else d

/-- The GDDR7 device that holds a near-tier address: 256-byte units rotate over the 16 (R294). -/
def unitDevice (a : Nat) : Nat := (a - nearBase) / 256 % 16

/-- A line reads uncorrectable: it is marked so, or lies in a failed GDDR7 device (R304). -/
def Dev.lineBad (d : Dev) (line : Nat) : Bool :=
  d.mem.badLines.contains line || (d.inNear (64 * line) 1 && d.mem.failedDevs.contains (unitDevice (64 * line)))

/-! ### Pages (R295) -/

/-- Page of a near-tier address, as the address of its first byte. -/
def pageOf (a : Nat) : Nat := a / pageSize * pageSize

/-- Starts to retire a page, also one whose spare page fails in turn; an empty pool, or a copy of it that
runs, leaves the page as it is. -/
def Dev.startRetire (d : Dev) (a : Nat) : Dev :=
  let p := pageOf a
  if d.poolFree == 0 || d.mem.copyPages.contains p then d
  else { d with mem := { d.mem with copyPages := d.mem.copyPages ++ [p], poolUsed := d.mem.poolUsed + 1 } }

end Sys2Proof.Machine
end

