-- ==== Sys2Proof/Machine/ThrCore.lean ====
section
/-! DEFINITION. Thresh as shared operations (chapter "Thresh: reduce-and-update in the switch"): chunk
maps, the handover of a completed chunk, prefetch, the gate, the mirror stream, copy states and
weights. -/

namespace Sys2Proof

/-! ### State of an element (R262, R267) -/

/-- The recipe has a first moment, and a second one. -/
def ThrParam.hasM (f : ThrParam) : Bool := f.recipe != 0
def ThrParam.hasV (f : ThrParam) : Bool := f.recipe == 2
/-- Bytes of a stored moment. -/
def ThrParam.momentBytes (f : ThrParam) : Nat := if f.mtype then 2 else 4
/-- B of R262. -/
def ThrParam.stateBytes (f : ThrParam) : Nat :=
  4 + (if f.hasM then f.momentBytes else 0) + (if f.hasV then f.momentBytes else 0)

/-- A rounding to binary64. -/
def f64r (v : Val) : Val := fp64.decode (fp64.encodeIeee v)

/-- 1 as a value. -/
def valOne : Val := .fin false 1 0

/-- BETA^t in binary64 (R261): the exact power, rounded once.  A power below 2^-1100 is zero there, whatever its
mantissa.  DEDUCED, log entry 99. -/
def betaPower (beta t : Word) : Val :=
  match f32v beta with
  | .fin n m e =>
    if m != 0 && decide (((Nat.log2 m : Int) + 1 + e) * (t.toNat : Int) < -1100) then .fin false 0 0
    else f64r (.fin (n && t.toNat % 2 == 1) (m ^ t.toNat) (e * (t.toNat : Int)))
  | v => if t = 0 then valOne else match v with
    | .inf n => .inf (n && t.toNat % 2 == 1)
    | w => w

/-- 1 - x, and 1 / (1 - BETA^t), in binary64 and then FP32 (R261). -/
def oneMinus (x : Word) : Word := f32of (f64r (valOne.add (f32v x).neg))
def biasFactor (beta t : Word) : Word :=
  f32of (f64r (valOne.div (f64r (valOne.add (betaPower beta t).neg))))

/-- FP32(1/LOSS_SCALE) (R257, R261). -/
def rlsOf (scale : Word) : Word := f32of (f64r (valOne.div (f32v scale)))

/-- The sign of R263. -/
def f32sign (x : Word) : Word :=
  match f32v x with
  | .nan => 0x7FC00000#32
  | .inf n => if n then 0xBF800000#32 else 0x3F800000#32
  | .fin n m _ => if m = 0 then 0 else if n then 0xBF800000#32 else 0x3F800000#32

/-- New w, m and v of one element (R263): `t` is STEP plus 1. -/
def ThrParam.update (f : ThrParam) (t g w m v : Word) : Word × Word × Word :=
  let om1 := oneMinus f.beta1
  let om2 := oneMinus f.beta2
  let decay := fun (x : Word) => f32sub w (f32mul f.lr (f32add x (f32mul f.wd w)))
  match f.recipe.toNat with
  | 0 => (decay g, m, v)
  | 1 =>
    let m1 := f32add (f32mul f.beta1 m) g
    (decay m1, m1, v)
  | 2 =>
    let m1 := f32add (f32mul f.beta1 m) (f32mul om1 g)
    let v1 := f32add (f32mul f.beta2 v) (f32mul om2 (f32mul g g))
    let k1 := if f.biasCorr then biasFactor f.beta1 t else 0x3F800000#32
    let k2 := if f.biasCorr then biasFactor f.beta2 t else 0x3F800000#32
    let q := f32div (f32mul m1 k1) (f32add (f32sqrt (f32mul v1 k2)) f.eps)
    (decay q, m1, v1)
  | _ =>
    let u := f32sign (f32add (f32mul f.beta1 m) (f32mul om1 g))
    (decay u, f32add (f32mul f.beta2 m) (f32mul om2 g), v)

/-- A 32-bit word of little-endian bytes, by index. -/
def leWord (l : List Byte) (i : Nat) : Word := BitVec.ofNat 32 (ofLe (slice l (4 * i) 4))

/-- Element `i` of an array of moments that starts at byte `o` of a slot. -/
def ThrParam.moment (f : ThrParam) (l : List Byte) (o i : Nat) : Word :=
  if f.mtype then f32of (bf16.decode (ofLe (slice l (o + 2 * i) 2)))
  else BitVec.ofNat 32 (ofLe (slice l (o + 4 * i) 4))

/-- Stored form of a moment: FP32, or BF16 under the context's rounding with element index `ix`
(R264); and whether it is finite. -/
def ThrParam.storeMoment (f : ThrParam) (rnd : Nat → Rnd) (ix : Nat) (x : Word) : List Byte × Bool :=
  if f.mtype then
    let c := (ieeeCode bf16 (rnd ix) (f32v x)).1
    (leBytes 2 c, match bf16.decode c with
      | .fin .. => true
      | _ => false)
  else (leBytes 4 x.toNat, f32finite x)

/-- Sums of adjacent pairs; an odd last value stands. -/
def pairSums : List Word → List Word
  | a :: b :: r => f32add a b :: pairSums r
  | r => r

/-- The pairwise tree of a list of FP32 values, adjacent pairs first; the first argument bounds its
depth (R260). -/
def treeSum : Nat → List Word → Word
  | 0, l => l.headD 0
  | n + 1, l => treeSum n (pairSums l)

/-- The chunk's sum of squares (R254, R260). -/
def sumSquares (l : List Word) : Word := treeSum 16 (l.map fun a => f32mul a a)

end Sys2Proof

namespace Sys2Proof.Machine

/-! ### Jobs, shards and their contexts -/

def Dev.job? (d : Dev) (j : Nat) : Option ThrJob := Tab.find d.thr.jobs j
def Dev.setJob (d : Dev) (j : Nat) (x : ThrJob) : Dev :=
  { d with thr := { d.thr with jobs := Tab.put d.thr.jobs j x } }
def Dev.modJob (d : Dev) (j : Nat) (f : ThrJob → ThrJob) : Dev :=
  { d with thr := { d.thr with jobs := Tab.adj d.thr.jobs j f } }
def Dev.modShard (d : Dev) (n : Nat) (f : ThrShard → ThrShard) : Dev :=
  { d with thr := { d.thr with shards := Tab.adj d.thr.shards n f } }

/-- Shards of a job, by number. -/
def Dev.shardsOf (d : Dev) (j : Nat) : List (Nat × ThrShard) :=
  d.thr.shards.filter fun e => e.2.cfg.jent.toNat == j

/-- The shard of a Thresh context. -/
def Dev.shardOfCtx (d : Dev) (cid : Nat) : Option (Nat × ThrShard) :=
  d.thr.shards.find? fun e => e.2.cfg.ctx.toNat == cid

/-- A context at its root whose operation is THRESH. -/
def Ctx.isThresh (c : Ctx) : Bool := c.e.op == 7 && c.e.level == 2

/-- The parameter block of a shard. -/
def Dev.paramOf (d : Dev) (s : ThrShard) : ThrParamSt := Tab.get d.thr.params s.cfg.param.toNat ThrParamSt.unset

/-- Bytes of a slot (R267). -/
def slotBytes (e : CtxEntry) (f : ThrParam) : Nat := e.cap.toNat * f.stateBytes

/-- Bytes of a slot of a shard, by its context and parameter block. -/
def Dev.shardSlotBytes (d : Dev) (s : ThrShard) : Nat :=
  match d.ctx? s.cfg.ctx.toNat with
  | some c => slotBytes c.e (d.paramOf s).f
  | none => 0

/-- Slots with LOST set in a job's shards. -/
def Dev.lostSlots (d : Dev) (j : Nat) : Nat := sumNat ((d.shardsOf j).map fun e => e.2.lost)

/-- The partner's device number (R248). -/
def CtxEntry.partner (e : CtxEntry) (num : Nat) : Nat :=
  let n2 := e.n2.toNat
  let n3 := e.n3.toNat
  if e.tiers == 3 then Nat.xor (num / n3) (n2 / 2) * n3 + Nat.xor (num % n3) (n3 / 2)
  else Nat.xor num (n2 / 2)

/-- The partner's MIRROR service address, from the context of one of the job's shards. -/
def Dev.partnerAddr (d : Dev) (j : Nat) : Option (BitVec 24) :=
  match (d.shardsOf j).head? with
  | none => none
  | some (_, s) => match d.ctx? s.cfg.ctx.toNat with
    | none => none
    | some c => some (svcAddr (addrTier d.boot.addr) (CtxEntry.partner c.e d.devNum) 4)

/-! ### Chunk maps (R248, R252) -/

/-- An entry of a chunk map. -/
structure MapEnt where
  valid : Bool
  peer : Bool
  lost : Bool
  stale : Bool
  slot : Nat
  stamp : Word
  deriving DecidableEq, Repr

def MapEnt.word (m : MapEnt) : Nat :=
  m.valid.toNat <<< 63 ||| m.peer.toNat <<< 62 ||| m.lost.toNat <<< 61 ||| m.stale.toNat <<< 60 |||
  (m.slot % 2 ^ 28) <<< 32 ||| m.stamp.toNat

def MapEnt.ofWord (w : Nat) : MapEnt :=
  { valid := bitOf w 63, peer := bitOf w 62, lost := bitOf w 61, stale := bitOf w 60,
    slot := bitsOf w 59 32, stamp := BitVec.ofNat 32 w }

/-- Address of an entry. -/
def ThrShard.mapAddr (s : ThrShard) (j : Nat) : Nat := s.cfg.mapBase.toNat + 8 * j

def Dev.mapEnt (d : Dev) (s : ThrShard) (j : Nat) : MapEnt :=
  MapEnt.ofWord (ofLe (d.devRead (s.mapAddr j) 8))

def Dev.setMapEnt (d : Dev) (s : ThrShard) (j : Nat) (m : MapEnt) : Dev :=
  d.devWrite (s.mapAddr j) (leBytes 8 m.word)

/-- Stamps a slot by an act of this device's own. -/
def Dev.stampSlot (d : Dev) (n : Nat) (s : ThrShard) (j : Nat) (m : MapEnt) : Dev :=
  (d.setMapEnt s j m).modShard n fun y => { y with here := j :: y.here.filter (fun i => i != j) }

/-- Where chunk index j is homed: in the own set, in the peer set, or elsewhere. -/
def Dev.inSets (d : Dev) (e : CtxEntry) (ctx j : Nat) : Bool × Bool :=
  let num := fun (h : Nat × Nat) => if e.tiers == 3 then h.1 * e.n3.toNat + h.2 else h.1
  let at_ := num (e.home ctx (BitVec.ofNat 32 j) false)
  (at_ == d.devNum, at_ == CtxEntry.partner e d.devNum)

/-- Sizes of the own set and of the peer set among the indexes below `n`. -/
def Dev.countSets (d : Dev) (e : CtxEntry) (ctx n : Nat) : Nat × Nat :=
  (List.range n).foldl (fun a j =>
    let b := d.inSets e ctx j
    if b.1 then (a.1 + 1, a.2) else if b.2 then (a.1, a.2 + 1) else a) (0, 0)

/-- Builds a shard's chunk map: slots rise over both sets, and STAMP is PHASE - 1. -/
def Dev.buildMap (d : Dev) (s : ThrShard) (e : CtxEntry) (phase : Word) : Dev :=
  ((List.range s.cfg.cps.toNat).foldl (fun (a : Dev × Nat) j =>
    let b := d.inSets e s.cfg.ctx.toNat j
    let m : MapEnt := {
      valid := b.1 || b.2, peer := !b.1 && b.2, lost := false, stale := false,
      slot := if b.1 || b.2 then a.2 else 0, stamp := if b.1 || b.2 then phase - 1 else 0 }
    (a.1.setMapEnt s j m, if b.1 || b.2 then a.2 + 1 else a.2)) (d, 0)).1

/-- Index of the chunk that holds slot `n`. -/
def Dev.indexOfSlot (d : Dev) (s : ThrShard) (n : Nat) : Option Nat :=
  (List.range s.cfg.cps.toNat).find? fun j =>
    let m := d.mapEnt s j
    m.valid && m.slot == n

/-- Sets LOST on the slots of a shard from slot `from_` on; a map that is not built yet is marked for it. -/
def Dev.loseSlots (d : Dev) (n : Nat) (s : ThrShard) (from_ : Nat) : Dev :=
  if !s.ready then d.modShard n fun y => { y with doomed := y.doomed || from_ == 0 }
  else
  let x := (List.range s.cfg.cps.toNat).foldl (fun (a : Dev × Nat) j =>
    let m := d.mapEnt s j
    if m.valid && decide (from_ ≤ m.slot) then
      (a.1.setMapEnt s j { m with lost := true }, if m.lost then a.2 else a.2 + 1)
    else a) (d, 0)
  x.1.modShard n fun s => { s with lost := s.lost + x.2 }

/-- Clears LOST on every slot of a shard. -/
def Dev.unloseSlots (d : Dev) (n : Nat) (s : ThrShard) : Dev :=
  let x := (List.range s.cfg.cps.toNat).foldl (fun (a : Dev) j =>
    let m := d.mapEnt s j
    if m.valid && m.lost then a.setMapEnt s j { m with lost := false } else a) d
  x.modShard n fun s => { s with lost := 0, doomed := false }

/-! ### Phases (R253) -/

/-- Index and phase of the chunk with a sequence number, by its distance from SEQ_BASE. -/
def ThrShard.place (s : ThrShard) (phase : Word) (seq : Word) : Nat × Word :=
  let cps : Int := (atLeast1 s.cfg.cps.toNat : Nat)
  let dist := seqDist seq s.seqBase
  ((dist.emod cps).toNat, phase + BitVec.ofInt 32 (dist.ediv cps))

/-- The chunk lies in one of the two open phases. -/
def ThrShard.inPhases (s : ThrShard) (seq : Word) : Bool :=
  decide ((seq - s.seqBase).toNat < 2 * s.cfg.cps.toNat)

/-- Sequence number of chunk index `j` in a phase. -/
def ThrShard.seqOf (s : ThrShard) (phase : Word) (j : Nat) (q : Word) : Word :=
  s.seqBase + BitVec.ofNat 32 j + (q - phase) * BitVec.ofNat 32 s.cfg.cps.toNat

/-! ### The mirror stream (R270 to R273) -/

/-- Frame of the stream with a mirror sequence. -/
def Dev.mirrorHeader (d : Dev) (cfg : ThrJobCfg) (dst : BitVec 24) (f : MFrame) : Header :=
  { Header.blank with
    kind := 6, tc := 6, part := cfg.part, job := cfg.job, dst := dst, src := d.ownAddr 4, sub := f.sub,
    seq := f.seq, ksf := f.ksf }

/-- Sends a frame of the stream, or an ACK. -/
def Dev.sendMirror (d : Dev) (j : Nat) (f : MFrame) : Dev :=
  match d.job? j, d.partnerAddr j with
  | some x, some a => (d.build 0 (d.mirrorHeader x.cfg a f) f.payload).bump (ctrThr 0x130)
  | _, _ => d

/-- Sends frames that take mirror sequences, and logs them; the last one's sequence is answered. -/
def Dev.mirror (d : Dev) (j : Nat) (sub : Byte) (ksf : Nat) (payload : List Byte) : Dev :=
  match d.job? j with
  | none => d
  | some x =>
    let f : MFrame := { seq := x.txNext, sub := sub, ksf := BitVec.ofNat 64 ksf, payload := payload }
    let d1 := d.setJob j { x with
      txNext := x.txNext + 1, log := x.log ++ [f],
      lastAckAdv := if x.log.isEmpty then d.now else x.lastAckAdv }
    d1.sendMirror j f

/-- Sends an ACK. -/
def Dev.sendAck (d : Dev) (j : Nat) : Dev :=
  match d.job? j with
  | none => d
  | some x =>
    let f : MFrame := {
      seq := x.txNext, sub := 2, ksf := BitVec.ofNat 64 (x.rxNext.toNat <<< 32), payload := [] }
    (d.setJob j { x with rxSinceAck := 0 }).sendMirror j f

/-- Pieces of a slot's state, each of at most 8,192 bytes, with their offsets; the first argument
bounds them. -/
def statePieces : Nat → Nat → List Byte → List (Nat × List Byte)
  | 0, _, _ => []
  | n + 1, o, l => if l.isEmpty then [] else (o, l.take 8192) :: statePieces n (o + 8192) (l.drop 8192)

/-- Frames that one slot takes in the log. -/
def slotFrames (bytes : Nat) : Nat := (bytes + 8191) / 8192 + 1

/-- Sends a slot's state and its COMMIT (R272): STAMP and the chunk's SEQ. -/
def Dev.mirrorSlot (d : Dev) (j : Nat) (s : ThrShard) (slot bytes : Nat) (stamp seq : Word) : Dev :=
  let o := slot * bytes
  let ctx := s.cfg.ctx.toNat <<< 48
  let st := d.devRead (s.cfg.stateBase.toNat + o) bytes
  let d1 := (statePieces (bytes / 8192 + 1) o st).foldl (fun d p => d.mirror j 1 (ctx ||| p.1) p.2) d
  d1.mirror j 3 (ctx ||| o) (beBytes 4 stamp.toNat ++ beBytes 4 seq.toNat)

/-- The other copy of a slot is in sync (R272). -/
def ThrJob.otherInSync (x : ThrJob) (ctx slot : Nat) : Bool :=
  match x.own with
  | .inSync => true
  | .solo => x.endSeq.isSome || (match x.bulk with
    | some (c, n) => decide (ctx < c ∨ (ctx = c ∧ slot < n))
    | none => false)
  | _ => false

/-- A reset of both directions (R273). -/
def ThrJob.restart (x : ThrJob) : ThrJob :=
  { x with txNext := 0, log := [], rxNext := 0, rxSinceAck := 0, bulk := none, endSeq := none }

/-! ### Weights (R268) -/

/-- Header and payload of a chunk's weights, from its slot's state. -/
def Dev.weights (d : Dev) (s : ThrShard) (c : Ctx) (st : List Byte) (seq t : Word) (stale : Bool) :
    Header × List Byte :=
  let acc := (List.range c.e.cap.toNat).map fun i => ({ v := wordEl (leWord st i), hit := true } : AccEl)
  let a : Arith := {
    fmt := s.cfg.wfmt.toNat, op := 0, tf := false, wide := false, rnd := c.e.rnd, seed := c.e.seed, meanN := 1 }
  let ksf := s.cfg.ctx.toNat <<< 48 ||| t.toNat <<< 16
  ({ Header.blank with
     kind := 1, tc := 6, part := c.e.part, job := c.e.job,
     dst := BitVec.ofNat 24 (2 <<< 20 ||| s.cfg.wgroup.toNat), src := d.ownAddr 0, fmt := s.cfg.wfmt,
     sub := if stale then 0x31 else 0x30, seq := seq, ksf := BitVec.ofNat 64 ksf },
   (a.encode false seq 0 acc).1)

/-- The t of an update of a phase (R261, R268). -/
def Dev.stepOf (d : Dev) (x : ThrJob) (s : ThrShard) (phase : Word) : Word :=
  match x.runs.find? fun r => r.phase == phase with
  | some r => match Tab.find r.params s.cfg.param.toNat with
    | some f => f.step + 1
    | none => 0
  | none =>
    let p := d.paramOf s
    if phase == x.phase then p.f.step + 1 else p.lastT

/-- Sends a chunk's weights to WGROUP, from the state in staging, and finishes the chunk (R255). -/
def Dev.sendWeights (d : Dev) (p : Parked) (stale : Bool) : Dev :=
  let d0 := { d with thr := { d.thr with
    park := d.thr.park.filter fun q => !(q.ctx == p.ctx && q.seq == p.seq) } }
  match d.shardOfCtx p.ctx.toNat, d.ctx? p.ctx.toNat with
  | some (_, s), some c => match d.job? s.cfg.jent.toNat with
    | some x =>
      let w := d.weights s c p.state p.seq (d.stepOf x s p.phase) stale
      let d1 := d0.build 0 w.1 w.2
      if stale then d1 else d1.bump (ctrThr 0x108)
    | none => d0
  | _, _ => d0

/-- Removes a parked chunk without weights. -/
def Dev.unpark (d : Dev) (p : Parked) : Dev :=
  { d with thr := { d.thr with
    park := d.thr.park.filter fun q => !(q.ctx == p.ctx && q.seq == p.seq) } }

/-- Sets the state of a parked chunk. -/
def Dev.setParked (d : Dev) (p : Parked) : Dev :=
  { d with thr := { d.thr with
    park := d.thr.park.map fun q => if q.ctx == p.ctx && q.seq == p.seq then p else q } }

/-! ### The gate (R256, R258, R259) -/

/-- Chunks to account for in the phase (R258, R275). -/
def Dev.expected (d : Dev) (j : Nat) (x : ThrJob) : Nat :=
  sumNat ((d.shardsOf j).map fun e => e.2.home + (if x.both then e.2.peer else 0))

/-- Sends the vote arrival, and the norm arrival where it has not been released; each is built once
for the phase, and a vote that is repeated carries LOSS while LOST_SLOTS is not 0 (R276). -/
def Dev.sendArrivals (d : Dev) (j : Nat) (x : ThrJob) : Dev :=
  let frame := fun (d : Dev) (dst : BitVec 24) (sheaf : BitVec 13) (datum : Word) =>
    d.build 0 { Header.blank with
      kind := 4, tc := 4, part := x.cfg.part, job := x.cfg.job, dst := dst, src := d.ownAddr 1,
      ctx := BitVec.ofNat 16 sheaf.toNat, seq := x.phase,
      ksf := BitVec.ofNat 64 ((if x.arrTwo then 2 else 1) <<< 32 ||| datum.toNat) } []
  let vote := if d.lostSlots j != 0 then x.arrVote ||| 8#32 else x.arrVote
  let d1 := if x.voteSeen.isNone then frame d x.cfg.voteUp x.cfg.voteSheaf vote else d
  if x.cfg.gate == 2 && x.normSeen.isNone then frame d1 x.cfg.normUp x.cfg.normSheaf x.arrNorm else d1

/-- DATUM of the norm and of the vote (R258). -/
def Dev.arrivalData (d : Dev) (j : Nat) (x : ThrJob) : Word × Word :=
  let rls := rlsOf x.cfg.lossScale
  let norm := f32of ((pairVal x.sum0.sumsq).mul (f32v (f32mul rls rls)))
  let loss := x.loss || d.lostSlots j != 0
  let vote := x.sum0.flags.getLsbD 0 |>.toNat
  let bits := vote ||| (x.sum0.flags.getLsbD 1).toNat <<< 1 |||
    (x.cfg.gate == 2 && !f32finite norm).toNat <<< 2 ||| loss.toNat <<< 3
  (norm, BitVec.ofNat 32 bits)

/-- Prepares and sends the arrivals of the phase. -/
def Dev.arrive (d : Dev) (j : Nat) : Dev :=
  match d.job? j with
  | none => d
  | some x =>
    let a := d.arrivalData j x
    let y := { x with arrivalsSent := true, arrTwo := x.both, arrNorm := a.1, arrVote := a.2 }
    (d.setJob j y).sendArrivals j y

/-- Sends the arrivals once every chunk of the phase is accounted for. -/
def Dev.maybeArrive (d : Dev) (j : Nat) : Dev :=
  match d.job? j with
  | none => d
  | some x =>
    let all := d.shardsOf j
    if x.arrivalsSent || x.nackUntil || x.own = .rebuild || all.isEmpty || !(all.all fun e => e.2.ready) ||
        decide (x.sum0.accounted < d.expected j x) then d
    else d.arrive j

/-- A released phase whose updates run. -/
def ThrJob.running (x : ThrJob) (q : Word) : Bool := x.runs.any fun r => r.phase == q && !r.skip

/-- A phase of a job is updatable here (R256). -/
def ThrJob.updatable (x : ThrJob) (q : Word) : Bool :=
  if x.cfg.gate == 0 then decide (seqDist q x.phase ≤ 0) else x.running q

/-- A phase before the current one that runs no updates: its vote skipped it. -/
def ThrJob.skipped (x : ThrJob) (q : Word) : Bool :=
  x.cfg.gate != 0 && decide (seqDist q x.phase < 0) && !x.running q

/-! ### Prefetch (R255, R267) -/

/-- What an update uses: the parameters with STEP as it stood at the start of the chunk's phase, c, and
rls. -/
def Dev.updateConsts (d : Dev) (x : ThrJob) (s : ThrShard) (q : Word) : ThrParam × Word × Word × Word :=
  let p := d.paramOf s
  match x.runs.find? fun r => r.phase == q with
  | some r =>
    let f := Tab.get r.params s.cfg.param.toNat p.f
    (f, f.step + 1, r.c, r.rls)
  | none => (p.f, if q == x.phase then p.f.step + 1 else p.lastT, 0x3F800000#32, rlsOf x.cfg.lossScale)

/-- Bytes of the largest slot of a cluster's shards. -/
def Dev.largestSlot (d : Dev) (k : Nat) : Nat :=
  d.thr.shards.foldl (fun n e => if clusterOf e.2.cfg.ctx.toNat == k then max n (d.shardSlotBytes e.2) else n) 0

/-- Slots of a cluster's share of the STAGING region (R297): 256 of its largest, where the shares of the
clusters before it leave so much.  DESIGN CHOICE, log entry 148. -/
def Dev.stagingDepth (d : Dev) (k : Nat) : Nat :=
  let before := sumNat ((List.range k).map fun i => 256 * d.largestSlot i)
  min 256 ((d.regionBytes .staging - before) / atLeast1 (d.largestSlot k))

/-- Chunks in staging in a cluster. -/
def Dev.staged (d : Dev) (k : Nat) : Nat :=
  (d.thr.park.filter fun p => clusterOf p.ctx.toNat == k && decide (p.st = .staging)).length

/-- The state of a parked chunk's slot, as the granary holds it. -/
def Dev.slotState (d : Dev) (x : ThrJob) (s : ThrShard) (p : Parked) : List Byte :=
  match d.ctx? p.ctx.toNat with
  | none => []
  | some c =>
    let bytes := slotBytes c.e (d.updateConsts x s p.phase).1
    d.devRead (s.cfg.stateBase.toNat + (d.mapEnt s (s.place x.phase p.seq).1).slot * bytes) bytes

/-- What becomes of one parked chunk: discarded by a skip or for a LOST slot, or prefetched. -/
def Dev.prefetchOne (d : Dev) (p : Parked) : Dev :=
  if p.st ≠ .parked then d
  else match d.shardOfCtx p.ctx.toNat with
    | none => d.unpark p
    | some (_, s) => match d.job? s.cfg.jent.toNat with
      | none => d.unpark p
      | some x =>
        let k := clusterOf p.ctx.toNat
        if (d.mapEnt s (s.place x.phase p.seq).1).lost then (d.unpark p).bump (ctrThr 0x158)
        else if x.skipped p.phase then (d.unpark p).bump (ctrThr 0x118)
        else if !x.updatable p.phase then d
        else if d.staged k < d.stagingDepth k then d.setParked { p with st := .staging, state := d.slotState x s p }
        else d

/-- Prefetches in parking order. -/
def Dev.prefetch (d : Dev) : Dev := d.thr.park.foldl (fun d p => d.prefetchOne p) d

/-! ### Ends of phases (R259, R277) -/

/-- The peer-set updates that the partner had still to apply are lost (R277). -/
def Dev.loseUpdates (d : Dev) (j : Nat) (x : ThrJob) (q : Word) : Dev :=
  (d.shardsOf j).foldl (fun d e =>
    (List.range e.2.cfg.cps.toNat).foldl (fun (d : Dev) i =>
      let m := d.mapEnt e.2 i
      if m.valid && m.peer && !m.lost && m.stamp != q && x.own = .solo then
        (d.stampSlot e.1 e.2 i { m with stamp := q, stale := true }).bump (ctrThr 0x160)
      else d) d) d

/-- Sends THR_PHASE_DONE for the oldest released phase whose updates are all written and
acknowledged, after the core clock of its release: what comes in that clock comes first (R278).  A chunk of the phase
that is still open may still be updated.  DEDUCED, log entry 145. -/
def Dev.phaseDone (d : Dev) (j : Nat) : Dev :=
  match d.job? j with
  | none => d
  | some x => match x.runs with
    | [] => d
    | r :: rest =>
      let parked := d.thr.park.any fun p => p.phase == r.phase && match d.shardOfCtx p.ctx.toNat with
        | some (_, s) => s.cfg.jent.toNat == j
        | none => false
      let waiting := (d.shardsOf j).any fun e => match d.ctx? e.2.cfg.ctx.toNat with
        | some c => c.chunks.any fun y =>
          (decide (y.st = .waitPark) || !r.skip) && (e.2.place x.phase y.seq).2 == r.phase
        | none => false
      let d1 := d.setJob j { x with runs := rest }
      if parked || waiting || decide (d.now ≤ r.since) then d
      else (if r.skip then d1 else d1.loseUpdates j x r.phase).event (.thrPhaseDone j r.phase r.datum)

/-- A draining shard goes when the last of its chunks has finished (R279). -/
def Dev.dropShards (d : Dev) : Dev :=
  { d with thr := { d.thr with shards := d.thr.shards.filter fun e =>
    !(e.2.draining && !(d.thr.park.any fun p => p.ctx == e.2.cfg.ctx) &&
      (match d.ctx? e.2.cfg.ctx.toNat with
       | some c => c.chunks.isEmpty
       | none => true)) } }

/-- Advances a job's phase (R259, R261): `skip` leaves STEP unchanged and runs no updates. -/
def Dev.advance (d : Dev) (j : Nat) (x : ThrJob) (skip : Bool) (vote c : Word) : Dev :=
  let datum := BitVec.ofNat 4 vote.toNat
  let blocks := d.thr.params.filter fun e => e.2.f.jent.toNat == j
  let run : PhaseRun := {
    phase := x.phase, datum := datum, c := c, rls := rlsOf x.cfg.lossScale,
    params := blocks.map (fun e => (e.1, e.2.f)), skip := skip, since := d.now }
  let y : ThrJob := { x with
    cfg := x.next.getD x.cfg, next := none, phase := x.phase + 1, sum0 := x.sum1, sum1 := {}, loss := false,
    both := decide (x.own = .solo ∨ x.own = .lost), nackUntil := false, arrivalsSent := false,
    voteSeen := none, normSeen := none, runs := x.runs ++ [run] }
  let step := fun (p : ThrParamSt) => { p with
    f := match p.next with
      | some f => f
      | none => if skip then p.f else { p.f with step := p.f.step + 1 },
    next := none, lastT := p.f.step + 1 }
  let ps := d.thr.params.map fun e => if e.2.f.jent.toNat == j then (e.1, step e.2) else e
  let ss := d.thr.shards.map fun e =>
    if e.2.cfg.jent.toNat == j then
      (e.1, { e.2 with seqBase := e.2.seqBase + BitVec.ofNat 32 e.2.cfg.cps.toNat })
    else e
  { (d.setJob j y) with thr := { (d.setJob j y).thr with params := ps, shards := ss } }

/-! ### Copy states (R274) -/

/-- The weights that wait for an ACK leave, for the commits that `go` covers. -/
def Dev.releaseWeights (d : Dev) (j : Nat) (go : Word → Bool) : Dev :=
  d.thr.park.foldl (fun d p => match p.st with
    | .mirroring c => match d.shardOfCtx p.ctx.toNat with
      | some (_, s) => if s.cfg.jent.toNat == j && go c then d.sendWeights p (p.sub == 0x31) else d
      | none => d
    | _ => d) d

/-- The copies of a job enter SOLO. -/
def Dev.enterSolo (d : Dev) (j : Nat) : Dev :=
  match d.job? j with
  | none => d
  | some x =>
    let d1 := d.setJob j { x.restart with own := .solo, loss := true, both := true, lostUpdates := 0 }
    ((d1.releaseWeights j fun _ => true).event (.thrSolo j x.phase)).arrive j

/-- Sends REBUILD_REQ as soon as every chunk map of the job is built (R275). -/
def Dev.maybeRequest (d : Dev) (j : Nat) : Dev :=
  match d.job? j with
  | none => d
  | some x =>
    let all := d.shardsOf j
    if x.own = .rebuild && !x.reqSent && !all.isEmpty && all.all (fun e => e.2.ready) then
      (d.setJob j { x with reqSent := true, lastRx := d.now }).mirror j 5 0 []
    else d

/-- What follows every Thresh event: prefetch, arrivals, ends of phases and of shards, and the request of a rebuild
whose last map is built or gone. -/
def Dev.thrTidy (d : Dev) : Dev :=
  let d1 := d.prefetch
  let d2 := (d1.thr.jobs.foldl (fun d e =>
    e.2.runs.foldl (fun d _ => d.phaseDone e.1) (d.maybeArrive e.1)) d1).dropShards
  d2.thr.jobs.foldl (fun d e => d.maybeRequest e.1) d2

/-- The copies of a job enter REBUILD: cursor 0, and the streams restart. -/
def Dev.enterRebuild (d : Dev) (j : Nat) : Dev :=
  match d.job? j with
  | none => d
  | some x =>
    let d1 := d.setJob j { x.restart with
      own := .rebuild, both := false, reqSent := false, nackUntil := false, lastRx := d.now }
    let d2 := (d1.shardsOf j).foldl (fun d e => d.modShard e.1 fun s => { s with cursor := 0 }) d1
    let d3 := if x.own = .solo && x.lostUpdates != 0 then
      d2.event (.thrLost j (d2.lostSlots j) x.lostUpdates) else d2
    d3.maybeRequest j

/-- The copies of a job become PRIMARY and MIRROR. -/
def Dev.enterInSync (d : Dev) (j : Nat) : Dev :=
  match d.job? j with
  | none => d
  | some x =>
    (d.setJob j { x with
      own := .inSync, bulk := none, endSeq := none, reqSent := false, lostUpdates := 0,
      nackUntil := decide (x.own = .rebuild) }).event (.thrRebuildDone j)

/-! ### The handover of a completed chunk (R254, R267) -/

/-- Bytes that parked chunks occupy. -/
def Dev.parkUsed (d : Dev) : Nat := sumNat (d.thr.park.map fun p => 4 * p.vals.length)

/-- The park region has room for a chunk (R267). -/
def Dev.parkFits (d : Dev) (cap : Nat) : Bool := decide (d.parkUsed + 4 * cap ≤ d.regionBytes .park)

/-- Accounts for a chunk, once (R258). -/
def PhaseSum.add (p : PhaseSum) (key : BitVec 16 × Word) (flags : Fl) (sq : Word) : PhaseSum :=
  if p.counted.contains key then p
  else
    { accounted := p.accounted + 1, flags := p.flags ||| flags, sumsq := wideAdd p.sumsq sq,
      counted := key :: p.counted }

/-- Accounts for a chunk of a phase of a job. -/
def ThrJob.account (x : ThrJob) (q : Word) (key : BitVec 16 × Word) (flags : Fl) (sq : Word) : ThrJob :=
  if q == x.phase then { x with sum0 := x.sum0.add key flags sq }
  else if q == x.phase + 1 then { x with sum1 := x.sum1.add key flags sq }
  else x

/-- Most frames in a log (R273). -/
def logLimit : Nat := 4096

/-- Hands a completed chunk to the update pipeline: RESULT, park, account.  It waits for room in the park
region, and for a place in the log where it owes a NOTE.  DEDUCED, log entry 146. -/
def Dev.handOver (d : Dev) (cid : Nat) (x : Chunk) : Dev :=
  match d.ctx? cid, d.shardOfCtx cid with
  | some c, some (_, s) => match d.job? s.cfg.jent.toNat with
    | none => d
    | some job =>
      let at_ := s.place job.phase x.seq
      let owes := (d.mapEnt s at_.1).peer && decide (job.own = .inSync)
      if !d.parkFits c.e.cap.toNat || (owes && decide (logLimit ≤ job.log.length)) then
        d.modCtx cid fun c => c.putChunk { x with st := .waitPark }
      else
        let j := s.cfg.jent.toNat
        let means := x.acc.map fun e =>
          f32of ((x.att.val e).mul (f32v (recip x.att.meanN)))
        let acc := (means.zip x.acc).map fun p => ({ v := wordEl p.1, hit := p.2.hit } : AccEl)
        let y := { x with
          att := { x.att with wide := false, op := 0 }, acc := acc,
          flags := x.flags ||| flScan (means.zip x.acc |>.filterMap fun p => if p.2.hit then some p.1 else none) }
        let r := d.encodeChunk cid false y
        let z := r.2.2
        let sub := subOf z.rh false z.ovf z.flags
        let d1 := r.1.build 0 (d.resultHeader cid c.e z.att.tf z.seq sub) r.2.1
        let l := d1.keepLinger cid c.e r.2.1 sub
        let sq := sumSquares means
        let pk : Parked := {
          ctx := BitVec.ofNat 16 cid, seq := z.seq, phase := at_.2, vals := means, flags := z.flags, st := .parked }
        let d2 := (l.1.finishChunk cid z true l.2).bump (ctrThr 0x100)
        let d3 := { d2 with thr := { d2.thr with park := d2.thr.park ++ [pk] } }
        if owes then
          d3.mirror j 4 (cid <<< 48 ||| z.seq.toNat)
            (beBytes 4 sq.toNat ++ beBytes 4 z.flags.toNat)
        else d3.modJob j fun job => job.account at_.2 (BitVec.ofNat 16 cid, z.seq) z.flags sq
  | _, _ => d

/-! ### Completion -/

/-- A chunk's last bit is set (R201). -/
def Dev.complete (d : Dev) (cid : Nat) (x : Chunk) : Dev :=
  match d.ctx? cid with
  | none => d
  | some c =>
    if c.e.level == 1 then d.partialReady cid x
    else if x.att.op == 7 then (d.handOver cid x).thrTidy
    else d.completeRoot cid x

end Sys2Proof.Machine
end

