-- ==== Sys2Proof/Machine/Collect.lean ====
section
/-! DEFINITION. Clusters at work: contributions (R237), RESULT_NACKs and NACKs (R204, R208), result
notices (R209), the timers of chunks (R201, R202, R207), setups (R229 to R232), resizes and drains
(R211, R213, R222), and sheaves (R216 to R220). -/

namespace Sys2Proof.Machine

/-! ### Service queues (R109, R119, R61) -/

/-- An instruction of position `q` of cluster `k` is a candidate (R511, R512): its address and its latency. -/
def Dev.microCandidate (k cid : Nat) (seq : Word) (a : Arith) (d : Dev) (x : Nat × BitVec 64) : Dev :=
  let q := x.1
  let spare := (Tab.get d.faults.cores (8 * k + q) {}).spare
  let g := d.gleanCandidate (16 + 8 * k + q) (d.regBits offGleanCtl 19 15)
  if g.2 then
    g.1.gleanAdd (16 + 8 * k + q) (.micro (bitsOf x.2.toNat 63 32) k q (if spare = 0 then 8 * k + q else 63 + spare)
      (BitVec.ofNat 16 cid) seq (BitVec.ofNat 4 a.op) (BitVec.ofNat 8 a.fmt) (bitsOf x.2.toNat 31 0)
      (d.timeNs / 1000000000) (d.timeNs % 1000000000))
  else g.1

/-- The instructions that cluster `k` issues for a chunk's work, on each filled position.  The spec gives no microcode:
how many each position issues, where they stand in core SRAM and how long they take are free values.
DEDUCED, log entry 89. -/
def Dev.gleanMicro (d : Dev) (k cid : Nat) (seq : Word) (a : Arith) : Dev :=
  if !(d.cnt.armed && d.regBit offGleanCtl 2) then d
  else
    let filled := (List.range 8).filter fun q => decide ((Tab.get d.faults.cores (8 * k + q) {}).st = .filled)
    let issued := filled.flatMap fun q =>
      (List.range (Config.microIssued d.free q)).map fun i => (q, Config.microInstr d.free q i)
    issued.foldl (Dev.microCandidate k cid seq a) { d with free := d.free + 1 }

/-- Serves the head of a cluster's queue, if it is a frame that the event is about: it expires, reads
uncorrectable, fails its end-to-end check, or is handled.  DEDUCED, log entry 73. -/
def Dev.serve (d : Dev) (k tc : Nat) (want : Header → Bool) (f : Dev → Frame → Dev) : Dev :=
  match (d.queue (.cluster k) tc).head? with
  | none => d
  | some c => match d.frame? c.fid with
    | none => d
    | some fr =>
      if !d.awake || !d.wholeCopy c || !want fr.hdr then d
      else
        let d1 := d.popQueue (.cluster k) tc
        if d.expired c then d1.ageOut c
        else
          let r := d1.readQueued (.cluster k) c.fid
          if !r.2 then r.1.dropUncorr c
          else
            let d2 := (r.1.countQ (.cluster k) tc (fun q => { q with sent := q.sent + 1 })).gleanFrame
              c.fid c 6 false false
            let d3 := if e2eCheck fr.hdr fr.payload != fr.e2e then d2.bump (ctrRed k 0xA78) else f d2 fr
            (d3.noteSent c.fid none false).release c.fid

/-- Arrival logical port of a frame; one above all for the agent port and for frames built here. -/
def Frame.port (f : Frame) : Nat := match f.arr with
  | some (_, l) => l
  | none => 512

/-- Sends a NACK to the port that a frame came from. -/
def Dev.nackBack (d : Dev) (f : Frame) (cid : Nat) (own : Bool) (seq : Word) (kind : Nat) (rh : Bool) : Dev :=
  if f.arr.isNone then d else d.sendNack cid own f.hdr.part f.hdr.job f.port seq kind rh

/-! ### Memory of a cluster (R225, R230, R488) -/

/-- Slot units of a cluster's SRAM that are free. -/
def Dev.freeUnits (d : Dev) (k : Nat) : Nat :=
  2048 - Tab.get d.red.retired k 0 - sumNat (d.red.ctxs.map fun e =>
    if clusterOf e.1 == k && !e.2.spilled && e.2.st != .pending && e.2.e.level != 0 then
      e.2.e.window.toNat * e.2.e.units - e.2.short else 0)

/-- Finished-chunk records of a cluster that are free. -/
def Dev.freeRecords (d : Dev) (k : Nat) : Nat :=
  32768 - sumNat (d.red.ctxs.map fun e =>
    if clusterOf e.1 == k && e.2.st != .pending && e.2.e.level != 0 then 2 * e.2.e.window.toNat else 0)

/-- Slot units of the spill region, and those that are free. -/
def Dev.spillUnits (d : Dev) : Nat := d.regionBytes .spill / 8192
def Dev.freeSpill (d : Dev) : Nat :=
  d.spillUnits - sumNat (d.red.ctxs.map fun e =>
    if e.2.spilled then e.2.e.window.toNat * e.2.e.units else 0)

/-- Short reservations take free units first (R488). -/
def Dev.fillShort (d : Dev) (k : Nat) : Dev :=
  d.red.ctxs.foldl (fun d e =>
    if clusterOf e.1 == k && e.2.short != 0 then
      let n := min e.2.short (d.freeUnits k)
      d.modCtx e.1 fun c => { c with short := c.short - n }
    else d) d

/-- A chunk-slot unit is retired: its chunk is abandoned as at the gather limit, and the reservation
takes a free unit in its place, or stays one short. -/
def Dev.retireUnit (d : Dev) (cid : Nat) (x : Chunk) : Dev :=
  let k := clusterOf cid
  let d1 := (d.abandonChunk cid x (members x.bits)).dropShards
  let d2 := d1.modCtx cid fun c => { c with short := c.short + 1 }
  let d3 := { d2 with red := { d2.red with retired := Tab.put d2.red.retired k (Tab.get d2.red.retired k 0 + 1) } }
  let d4 := d3.event (.serviceDegraded 3 k 1 ((2048 - Tab.get d3.red.retired k 0) / 2))
  (d4.fillShort k).faultRec 4 0x03 k 0x20 8 0 cid

/-! ### Core positions (R15, R485 to R487) -/

def Dev.corePos (d : Dev) (n : Nat) : CorePos := Tab.get d.faults.cores n {}
def Dev.setCorePos (d : Dev) (n : Nat) (x : CorePos) : Dev :=
  { d with faults := { d.faults with cores := Tab.set d.faults.cores n x {} } }

/-- A spare core: 0 idle and good, 1 in use, 2 failed its last test. -/
def Dev.spareCore (d : Dev) (n : Nat) : Nat := Tab.get d.faults.spareCores n 0
def Dev.setSpareCore (d : Dev) (n v : Nat) : Dev :=
  { d with faults := { d.faults with spareCores := Tab.set d.faults.spareCores n v 0 } }

/-- The spare wired to the cluster of a position. -/
def spareOfPos (n : Nat) : Nat := n / 16

/-- Spare cores left for a position. -/
def Dev.coreLeft (d : Dev) (n : Nat) : Nat := if d.spareCore (spareOfPos n) = 0 then 1 else 0

/-- Stops a core whose check fails (R485). -/
def Dev.stopCore (d : Dev) (n : Nat) : Dev :=
  let x := d.corePos n
  d.setCorePos n { x with st := .stopped, failAt := some d.now, prevFail := x.failAt }

/-- An open chunk of a context. -/
def Dev.chunk? (d : Dev) (cid : Nat) (seq : Word) : Option (Ctx × Chunk) :=
  match d.ctx? cid with
  | none => none
  | some c => (c.chunk? seq).map fun x => (c, x)

/-- A word of a position's core SRAM is uncorrectable: the chunk whose operands its row held is abandoned and SV2
reloads the row; a row that fails twice within 1 s fails its position, which waits for SV2 (R487).
DEDUCED, log entry 175. -/
def Dev.coreSramFault (d : Dev) (n row : Nat) (ctx : BitVec 16) (seq : Word) : Dev :=
  let key := n * 65536 + row
  let again := match Tab.find d.faults.sramAt key with
    | some t => decide (d.now ≤ t + 1000 * clkMs)
    | none => false
  let d1 := { d with faults := { d.faults with sramAt := Tab.put d.faults.sramAt key d.now } }
  let d2 := match d1.chunk? ctx.toNat seq with
    | some (_, x) => (d1.abandonChunk ctx.toNat x (members x.bits), 5)
    | none => (d1, 2)
  let d3 := d2.1.faultRec d2.2 1 n row 6 (d1.coreLeft n) (ctx.toNat <<< 32 ||| seq.toNat)
  if again then (d3.stopCore n).detect false n false else d3

/-- The numbers of DIAG_INJECT for cluster SRAM, for the record store and for core SRAM (log entry 20). -/
def injectSlots : Nat := 0x20
def injectRecords : Nat := 0x21
def injectCores : Nat := 0x22

/-- An armed error that a read for a chunk meets in one of the array's units `ixs`: its index and word, and whether it
is uncorrectable (R500).  DESIGN CHOICE, log entry 20. -/
def Dev.meetInject (d : Dev) (array : Nat) (ixs : List Nat) (cid : Nat) (seq : Word) : Dev × Option Inject :=
  match d.faults.injects.find? fun x =>
      x.array == array && ixs.contains x.index && Config.holdsWord array x.index cid seq x.word with
  | none => (d, none)
  | some x => (d.meetError x, if x.two then some x else none)

/-! ### Contributions (R237) -/

/-- A Thresh context is set up for a contribution: its chunk map is built, its job's copies are not
being rebuilt, and its shard does not drain, or the chunk is open (R252, R275). -/
def Dev.thrServes (d : Dev) (cid : Nat) (open_ : Bool) : Bool :=
  match d.shardOfCtx cid with
  | none => false
  | some (_, s) => match d.job? s.cfg.jent.toNat with
    | none => false
    | some x => s.ready && x.own != .rebuild && !x.nackUntil && (!s.draining || open_)

/-- Check 2: the context serves a contribution of this partition and job to a chunk that is open or
not (R199, R233, R487). -/
def Dev.serves (d : Dev) (k cid : Nat) (c : Ctx) (h : Header) (open_ : Bool) : Bool :=
  decide (c.e.part = h.part) && decide (c.e.job = h.job) && !d.clusterClosed k &&
  (match c.st with
   | .active | .spill => true
   | .draining => open_
   | .pending => false) && (!c.isThresh || d.thrServes cid open_)

/-- Check 3, as far as Thresh adds to it: the chunk's index is VALID in the map (R253). -/
def Dev.thrMapped (d : Dev) (cid : Nat) (c : Ctx) (seq : Word) : Bool :=
  if !c.isThresh then true
  else match d.shardOfCtx cid with
    | none => false
    | some (_, s) => match d.job? s.cfg.jent.toNat with
      | none => false
      | some x => !s.inPhases seq || (d.mapEnt s (s.place x.phase seq).1).valid

/-- The chunk lies outside the two open phases of its Thresh context (R253). -/
def Dev.thrMiss (d : Dev) (cid : Nat) (c : Ctx) (seq : Word) : Bool :=
  c.isThresh && match d.shardOfCtx cid with
    | some (_, s) => !s.inPhases seq
    | none => false

/-- Check 5: format, rotation and length (R58, R165). -/
def formatOk (a : Arith) (h : Header) : Bool :=
  h.fmt.toNat == a.fmt && h.tf == a.tf && fmtLenOk a.fmt h.len.toNat &&
  !(h.tf && (h.fmt == 4 || h.fmt == 5) && fmtElems a.fmt h.len.toNat % 16 != 0)

/-- A contribution to a remembered chunk (R200). -/
def Dev.toRemembered (d : Dev) (f : Frame) (k cid : Nat) (c : Ctx) (r : FinRec) (rh : Bool) : Dev :=
  let d1 := d.modCounts cid fun n => { n with dup := n.dup + 1 }
  if !r.isDone then d1.nackBack f cid true r.seq nackAbandoned rh
  else match d.lingerOf c r.seq with
    | some x => if f.arr.isSome then d1.resendResult cid c r.seq x f.port else d1
    | none => d1.bump (ctrRed k 0xA18)

/-- Opens a chunk for a contribution (R201, R213). -/
def Dev.openChunk (d : Dev) (k cid : Nat) (c : Ctx) (seq : Word) (rh : Bool) : Dev × Chunk :=
  let next := c.resizePend && decide (0 ≤ seqDist seq c.e.boundary)
  let x : Chunk := { seq := seq, rh := rh, att := c.e.arith next, opened := d.now }
  let hi := match c.highest with
    | some s => if 0 < seqDist seq s then seq else s
    | none => seq
  let d1 := d.modCtx cid fun c =>
    let c1 := c.putChunk x
    { c1 with highest := some hi,
              counts := if rh then { c1.counts with rehomed := c1.counts.rehomed + 1 } else c1.counts }
  (if rh then d1.bump (ctrRed k 0xA38) else d1, x)

/-- Combines a contribution with a chunk (R171, R175, R182, R197, R198).  DEDUCED, log entry 90. -/
def Chunk.absorb (x : Chunk) (cap : Nat) (f : Frame) : Chunk :=
  let h := f.hdr
  let original := addrKind h.src = 0
  let v := x.att.decode cap f.payload
  let drop := fmtElems x.att.fmt h.len.toNat - cap
  let sq := original && x.att.op == 4
  let acc := x.att.addAll cap sq x.acc v.1
  { x with
    acc := acc,
    bits := x.bits ||| portBit f.port,
    dropped := x.dropped + drop,
    ovf := x.ovf || drop != 0 || (!original && h.sub.getLsbD 5),
    flags := x.flags ||| v.2 ||| x.att.accFlags acc ||| (if sq then x.att.squareFlags v.1 else 0) ||| (if original then 0 else BitVec.ofNat 4 h.sub.toNat) }

/-- A contribution that passed every check (R201). -/
def Dev.combine (d : Dev) (k cid : Nat) (c : Ctx) (x : Chunk) (f : Frame) : Dev :=
  let cap := c.e.cap.toNat
  let n := fmtElems x.att.fmt f.hdr.len.toNat
  let y := x.absorb cap f
  let d1 := d.modCtx cid fun c =>
    let c1 := c.putChunk y
    { c1 with counts := { c1.counts with dropped := c1.counts.dropped + (n - cap) } }
  let d2 := if x.att.tf then d1.bumpBy (ctrRed k 0x920) (n / 16) else d1
  let d3 := if cap < n then d2.bumpBy (ctrRed k 0xA58) (n - cap) else d2
  let d4 := if c.spilled then d3.bumpBy (ctrRed k 0xC38) (min n cap) else d3
  let d5 := d4.gleanMicro k cid x.seq x.att
  if y.bits == c.membership y.seq then d5.complete cid y else d5

/-- Positions of a cluster that are filled. -/
def Dev.clusterCores (d : Dev) (k : Nat) : List Nat :=
  ((List.range 8).map fun q => 8 * k + q).filter fun n => decide ((Tab.get d.faults.cores n {}).st = .filled)

/-- A contribution that would open its chunk (R201, R237). -/
def Dev.newChunk (d : Dev) (k cid : Nat) (c : Ctx) (f : Frame) : Dev :=
  let seq := f.hdr.seq
  let rh := f.hdr.sub.getLsbD 7
  if d.thrMiss cid c seq then
    (d.nackBack f cid true seq nackAbandoned rh).bump (ctrThr 0x120)
  else if c.slots ≤ c.chunks.length then d.nackBack f cid true seq nackWindow rh
  else if !((members (c.membership seq)).all fun l => d.memberUp c.e.part.toNat l) then
    d.nackBack f cid true seq (if c.e.level == 2 && !rh then nackRehome else nackAbandoned) rh
  else
    let r := d.openChunk k cid c seq rh
    r.1.combine k cid c r.2 f

/-- The checks of R237 in their order, from check 2. -/
def Dev.contribution (d : Dev) (k : Nat) (f : Frame) : Dev :=
  let h := f.hdr
  let cid := h.ctx.toNat
  let seq := h.seq
  let rh := h.sub.getLsbD 7
  match d.ctx? cid with
  | none => d.nackBack f cid false seq nackNoctx rh
  | some c =>
    let x := c.chunk? seq
    let mem := c.membership seq
    if !d.serves k cid c h x.isSome then
      d.nackBack f cid (decide (c.e.part = h.part) && decide (c.e.job = h.job)) seq nackNoctx rh
    else if c.e.level = 0 || !d.onPath c.e cid seq rh h.src || !d.thrMapped cid c seq then
      d.bump (ctrRed k 0xA28)
    else if !hasPort mem f.port then d.bump (ctrRed k 0xA20)
    else if !formatOk (match x with | some y => y.att | none => c.e.arith false) h then
      (d.bump (ctrRed k 0x928)).nackBack f cid true seq nackFormat rh
    else match x, c.record? seq with
      | none, some r =>
        let m := d.meetInject injectRecords [k] cid seq
        if m.2.isSome then
          let c1 := { c with fin := c.fin.filter fun y => y.seq != seq }
          ((m.1.setCtx cid c1).faultRec 5 0x03 k injectRecords 0 0 (cid <<< 32 ||| seq.toNat)).newChunk k cid c1 f
        else m.1.toRemembered f k cid c r rh
      | some y, _ =>
        if hasPort y.bits f.port then
          (d.bump (ctrRed k 0xA10)).modCounts cid fun n => { n with dup := n.dup + 1 }
        else
          let m := d.meetInject injectSlots [k] cid seq
          let q := m.1.meetInject injectCores (d.clusterCores k) cid seq
          match m.2, q.2 with
          | some _, _ => m.1.retireUnit cid y
          | none, some e => q.1.coreSramFault e.index e.word h.ctx seq
          | none, none =>
            if !((members mem).all fun l => d.memberUp c.e.part.toNat l) then
              q.1.nackBack f cid true seq (if c.e.level == 2 && !rh then nackRehome else nackAbandoned) rh
            else q.1.combine k cid c y f
      | none, none => d.newChunk k cid c f

/-- CONTRIBUTION_SERVED (R237). -/
def execContributionServed (k tc : Fin 8) (s : State) : Host.Outcome State Fault Refusal :=
  goto s <| s.d.serve k.val tc.val (fun h => h.kind == 2) fun d f => d.contribution k.val f

/-! ### RESULT_NACK and NACK (R204, R208) -/

/-- Context and chunk that a CONTROL frame names. -/
def ksfCtx (h : Header) : Nat := bitsOf h.ksf.toNat 63 48
def ksfSeq (h : Header) : Word := BitVec.ofNat 32 (bitsOf h.ksf.toNat 47 16)

/-- The answer to a RESULT_NACK (R208); RH of its NACKs is R238's, and where the context is not VALID
here, so that no path is known, a free bit.  DEDUCED, log entry 86. -/
def Dev.answerResultNack (d : Dev) (k : Nat) (f : Frame) : Dev :=
  let h := f.hdr
  let cid := ksfCtx h
  let seq := ksfSeq h
  match d.ctx? cid with
  | none =>
    let r := d.drawBit
    r.2.nackBack f cid false seq nackNoctx r.1
  | some c =>
    let rh := d.onPath c.e cid seq true h.src && !d.onPath c.e cid seq false h.src
    let ignored := d.bump (ctrRed k 0xA40)
    if c.st = .pending || c.e.level = 0 || d.clusterClosed k then
      d.nackBack f cid (decide (c.e.part = h.part) && decide (c.e.job = h.job)) seq nackNoctx rh
    else if c.e.part ≠ h.part then ignored
    else if c.e.job ≠ h.job then d.nackBack f cid false seq nackNoctx rh
    else match (if c.e.level == 2 then d.lingerOf c seq else none), c.chunk? seq, c.record? seq with
      | some x, _, _ => if f.arr.isSome then d.resendResult cid c seq x f.port else d
      | none, some y, _ =>
        if y.st ≠ .sent && !hasPort y.bits f.port then d.nackBack f cid true seq nackResend rh
        else ignored
      | none, none, some r =>
        if !r.isDone then d.nackBack f cid true seq nackAbandoned rh
        else if c.e.level == 1 then d.sendResultNack cid c seq r.rh
        else d.nackBack f cid true seq nackExpired rh
      | none, none, none => d.nackBack f cid true seq nackResend rh

/-- RESULT_NACK_RECEIVED (R208).  DEDUCED, log entry 86. -/
def execResultNackReceived (k tc : Fin 8) (s : State) : Host.Outcome State Fault Refusal :=
  goto s <| s.d.serve k.val tc.val (fun h => h.kind == 7 && h.sub == 0x10) fun d f =>
    d.answerResultNack k.val f

/-- A NACK for a chunk (R204, R205): a CONTROL frame, whose JOB the device does not act on (R51).
DEDUCED, log entry 87. -/
def Dev.takeNack (d : Dev) (k : Nat) (h : Header) : Dev :=
  let cid := ksfCtx h
  let seq := ksfSeq h
  let kind := bitsOf h.ksf.toNat 15 8
  let rh := bitOf h.ksf.toNat 7
  let ignored := d.bump (ctrRed k 0xA40)
  match d.ctx? cid with
  | none => ignored
  | some c => match c.chunk? seq with
    | none => ignored
    | some x =>
      if c.e.part ≠ h.part then ignored
      else if kind = nackRehome && c.e.level == 1 && (x.st = .gather || x.st = .hold) then
        if x.rh || rh then ignored
        else
          let r := d.markRehomed cid x
          if x.st = .hold then r.1.partialReady cid r.2 else r.1
      else if x.st ≠ .sent || rh != x.rh then ignored
      else if kind = nackResend then (if x.waitCredit then d else d.emitPartial cid x)
      else if kind = nackWindow then d.modChunk cid seq fun y => { y with resend := true }
      else if kind = nackNoctx || kind = nackRehome then
        (if x.rh then d.abandonAll cid x else d.rehome cid x)
      else if kind = nackExpired || kind = nackAbandoned || kind = nackFormat then d.abandonAll cid x
      else ignored

/-- NACK_RECEIVED (R204).  DEDUCED, log entry 87. -/
def execNackReceived (k tc : Fin 8) (s : State) : Host.Outcome State Fault Refusal :=
  goto s <| s.d.serve k.val tc.val (fun h => h.kind == 7 && h.sub == 0x12) fun d f => d.takeNack k.val f.hdr

/-! ### Result notices (R209) -/

/-- RESULT_NOTICE: the oldest notice of a cluster finishes a chunk in SENT (R209). -/
def execResultNotice (k : Fin 8) (s : State) : Host.Outcome State Fault Refusal :=
  let d := s.d
  goto s <|
    match Tab.get d.red.notices k.val [] with
    | [] => d
    | n :: r =>
      if !d.awake then d
      else
        let d1 := { d with red := { d.red with notices := Tab.set d.red.notices k.val r [] } }
        match d1.ctx? n.ctx.toNat with
        | none => d1
        | some c => match c.chunk? n.seq with
          | some x => if x.st = .sent then d1.finishChunk n.ctx.toNat x true none else d1
          | none => d1

/-! ### Timers of a chunk (R201, R202, R207) -/

/-- GATHER_TIMER_EXPIRY (R201). -/
def execGatherTimerExpiry (ctx : BitVec 16) (seq : Word) (s : State) : Host.Outcome State Fault Refusal :=
  let d := s.d
  goto s <|
    match (if d.awake then d.chunk? ctx.toNat seq else none) with
    | some (_, x) =>
      if x.st = .gather || x.st = .hold then (d.abandonChunk ctx.toNat x (members x.bits)).dropShards else d
    | none => d

/-- An expiry of the retry timer (R202, R204): `c` holds the chunk `x` with its expiries counted. -/
def Dev.retryExpiry (d : Dev) (cid : Nat) (c : Ctx) (x : Chunk) : Dev :=
  let ok := d.reaches c.e (d.destOf c.e cid x.seq x.rh)
  if 3 ≤ x.expiries then d.abandonAll cid x
  else if x.resend then
    let y := { x with resend := false }
    let d1 := d.modCtx cid fun c => c.putChunk y
    if x.waitCredit then d1 else d1.emitPartial cid y
  else if (x.expiries == 1 && !ok) || (x.expiries == 2 && !x.rh) then
    (if x.rh then d.abandonAll cid x else d.rehome cid x)
  else if ok then (if x.waitCredit then d else d.sendResultNack cid c x.seq x.rh)
  else d.abandonAll cid x

/-- RETRY_TIMER_EXPIRY (R202).  DESIGN CHOICE, log entry 42. -/
def execRetryTimerExpiry (ctx : BitVec 16) (seq : Word) (s : State) : Host.Outcome State Fault Refusal :=
  let d := s.d
  goto s <|
    match (if d.awake then d.chunk? ctx.toNat seq else none) with
    | some (c, x) =>
      if x.st ≠ .sent then d
      else
        let y := { x with expiries := x.expiries + 1, retryFrom := d.now }
        (d.setCtx ctx.toNat (c.putChunk y)).retryExpiry ctx.toNat (c.putChunk y) y
    | none => d

/-- CREDIT_RETURN (R201): a chunk in HOLD finds a credit. -/
def execCreditReturn (ctx : BitVec 16) (seq : Word) (s : State) : Host.Outcome State Fault Refusal :=
  let d := s.d
  goto s <|
    match (if d.awake then d.chunk? ctx.toNat seq else none) with
    | some (c, x) =>
      if x.st = .hold && d.firstWaiting ctx.toNat c x && d.creditFree c ctx.toNat seq x.rh then
        d.partialReady ctx.toNat x
      else d
    | none => d

/-- PARTNER_CREDIT_FREE (R202): a re-homed chunk in SENT finds a credit of the partner. -/
def execPartnerCreditFree (ctx : BitVec 16) (seq : Word) (s : State) : Host.Outcome State Fault Refusal :=
  let d := s.d
  goto s <|
    match (if d.awake then d.chunk? ctx.toNat seq else none) with
    | some (c, x) =>
      if x.st = .sent && x.waitCredit && d.firstWaiting ctx.toNat c x &&
          d.creditFree c ctx.toNat seq x.rh then
        let y := { x with waitCredit := false }
        (d.modCtx ctx.toNat fun c => c.putChunk y).emitPartial ctx.toNat y
      else d
    | none => d

/-- LINGER_EXPIRY (R207). -/
def execLingerExpiry (ctx : BitVec 16) (seq : Word) (s : State) : Host.Outcome State Fault Refusal :=
  goto s <| if s.d.awake then s.d.endLinger ctx.toNat seq else s.d

/-! ### Setups (R229 to R232) -/

/-- A setup precedes another in the order of R229. -/
def earlier (a b : Nat × Ctx) : Bool :=
  let key := fun (x : Nat × Ctx) => x.2.e.job.toNat * 2 ^ 32 + x.2.e.cseq.toNat
  if a.2.e.prio ≠ b.2.e.prio then decide (b.2.e.prio.toNat < a.2.e.prio.toNat)
  else if key a ≠ key b then decide (key a < key b)
  else decide (a.1 < b.1)

/-- Pending setups, and the head. -/
def Dev.pendingSetups (d : Dev) : List (Nat × Ctx) := d.red.ctxs.filter fun e => decide (e.2.st = .pending)
def Dev.setupHead (d : Dev) : Option (Nat × Ctx) :=
  d.pendingSetups.foldl (fun h x => match h with
    | none => some x
    | some y => if earlier x y then some x else some y) none

/-- Serves a setup whose reservation fits (R230). -/
def Dev.serveSetup (d : Dev) (cid : Nat) (c : Ctx) : Dev :=
  let k := clusterOf cid
  let units := c.e.window.toNat * c.e.units
  if d.freeRecords k < 2 * c.e.window.toNat then d
  else if units ≤ d.freeUnits k then
    ((d.setCtx cid { c with st := .active }).bump (ctrRed k 0xC00)).event
      (.ctxReady (BitVec.ofNat 16 cid) false)
  else if c.e.spillOk && decide (units ≤ d.freeSpill) then
    ((d.setCtx cid { c with st := .spill, spilled := true }).bump (ctrRed k 0xC08)).event
      (.ctxReady (BitVec.ofNat 16 cid) true)
  else d

/-- Offset of RED_SETUP_CTL. -/
def offSetupCtl : Nat := baseRed 0 + 0xB14

/-- SETTLE_US in core clocks.  DEDUCED, log entry 88. -/
def Dev.settleClk (d : Dev) : Nat := d.regBits offSetupCtl 31 16 * clkUs

/-- A setup has been pending for its settle time (R230, R234). -/
def Dev.settled (d : Dev) (c : Ctx) : Bool := decide (c.since + d.settleClk ≤ d.now)

/-- The head has been pending for longer than STALL_MS, which is not 0 (R231). -/
def Dev.stalled (d : Dev) (c : Ctx) : Bool :=
  d.regBits offSetupCtl 15 0 != 0 && decide (c.since + d.regBits offSetupCtl 15 0 * clkMs < d.now)

/-- SETUP_HEAD_SERVED: the head, once it has settled (R230). -/
def execSetupHeadServed (s : State) : Host.Outcome State Fault Refusal :=
  let d := s.d
  goto s <|
    match (if d.awake then d.setupHead else none) with
    | some (cid, c) => if d.settled c then d.serveSetup cid c else d
    | none => d

/-- SETUP_STALL (R231): the head has waited for longer than STALL_MS. -/
def execSetupStall (s : State) : Host.Outcome State Fault Refusal :=
  let d := s.d
  goto s <|
    match (if d.awake then d.setupHead else none) with
    | some (cid, c) =>
      if c.stallSent || !d.stalled c then d
      else (d.setCtx cid { c with stallSent := true }).event
        (.setupStall (BitVec.ofNat 16 cid) ((d.now - c.since) / clkMs))
    | none => d

/-! ### Resizes and drains (R211, R213, R222) -/

/-- RESIZE_BOUNDARY_REACHED (R213). -/
def execResizeBoundaryReached (ctx : BitVec 16) (s : State) : Host.Outcome State Fault Refusal :=
  let d := s.d
  goto s <|
    match (if d.awake then d.ctx? ctx.toNat else none) with
    | none => d
    | some c =>
      let before := fun (q : Word) => decide (seqDist q c.e.boundary < 0)
      if !c.resizePend || c.chunks.any (fun x => before x.seq) || c.fin.any (fun x => before x.seq) then d
      else d.setCtx ctx.toNat { c with
        resizePend := false, e := { c.e with members := c.e.membersNext, meanN := c.e.meanNNext } }

/-- The sixteen words of a completion record (R210). -/
def completionRecord (cid : Nat) (c : Ctx) : List Nat :=
  let n := c.counts
  [cid <<< 16 ||| c.e.part.toNat <<< 4 ||| n.flags.toNat, c.e.job.toNat <<< 16 ||| c.e.level.toNat <<< 14,
   c.e.cseq.toNat, n.firstSeq.toNat, n.lastSeq.toNat, n.isDone, n.abandoned, n.nan, n.inf, n.sat, n.wrap,
   n.dropped / 2 ^ 32, n.dropped % 2 ^ 32, n.dup, n.nacks, n.rehomed]

/-- CONTEXT_DRAIN_END: the record is emitted and the context becomes FREE (R222). -/
def execContextDrainEnd (ctx : BitVec 16) (s : State) : Host.Outcome State Fault Refusal :=
  let d := s.d
  let cid := ctx.toNat
  goto s <|
    match (if d.awake then d.ctx? cid else none) with
    | none => d
    | some c =>
      let lingers := c.fin.any fun r => match r.linger with
        | some x => decide (d.now ≤ x.until_)
        | none => false
      if c.st ≠ .draining || !c.chunks.isEmpty || lingers then d
      else
        let r := completionRecord cid c
        let d1 := d.event (.ctxComplete r)
        let d2 := if c.e.report = 0 then d1
          else d1.build 0 { Header.blank with
            kind := 7, tc := 7, part := c.e.part, job := c.e.job, dst := c.e.report, src := d.ownAddr 0,
            sub := 0x11, ksf := BitVec.ofNat 64 (cid <<< 48) } (r.flatMap fun w => beBytes 4 w)
        let d3 := { d2 with red := { d2.red with
          ctxs := Tab.del d2.red.ctxs cid, last := Tab.put d2.red.last cid r } }
        d3.fillShort (clusterOf cid)

/-! ### Sheaves (R216 to R220) -/

def Dev.sheaf? (d : Dev) (n : Nat) : Option Sheaf := Tab.find d.red.sheaves n
def Dev.setSheaf (d : Dev) (n : Nat) (x : Sheaf) : Dev :=
  { d with red := { d.red with sheaves := Tab.put d.red.sheaves n x } }

/-- A SHEAF frame (R217). -/
def Sheaf.header (x : Sheaf) (n : Nat) (dst src : BitVec 24) (seq : Word) (count : Nat) (datum : Word) : Header :=
  { Header.blank with
    kind := 4, tc := 4, part := x.cfg.part, job := x.cfg.job, dst := dst, src := src,
    ctx := BitVec.ofNat 16 n, seq := seq,
    ksf := BitVec.ofNat 64 ((count % 2 ^ 21) <<< 32 ||| datum.toNat) }

/-- Address of the release group. -/
def Sheaf.group (x : Sheaf) : BitVec 24 := BitVec.ofNat 24 (2 <<< 20 ||| x.cfg.releaseGroup.toNat)

/-- Combines a datum (R218).  SUM propagates NaN; which NaN `Dev.nextDatum` says. -/
def combineDatum (dop : BitVec 2) (first : Bool) (a b : Word) : Word :=
  match dop.toNat with
  | 0 => 0
  | 1 => if first then b else f32add a b
  | 2 => if first then b else f32max a b
  | _ => if first then b else a ||| b

/-- Begins the next phase: ARRIVED, COUNT and DATUM are cleared (R219). -/
def Sheaf.nextPhase (x : Sheaf) (count : Nat) (datum : Word) (src : BitVec 24) : Sheaf :=
  { x with
    cfg := { x.cfg with phase := x.cfg.phase + 1 }, lastCount := count, lastDatum := datum, lastSrc := src,
    count := 0, datum := 0, arrived := 0, got := false, released := true, sentUp := false, firstAt := none,
    stuckSent := false }

/-- A ROOT sheaf releases: its actions, and the next phase. -/
def Dev.releaseSheaf (d : Dev) (n : Nat) (x : Sheaf) : Dev :=
  let src := d.ownAddr 1
  let d1 := (d.setSheaf n (x.nextPhase x.count x.datum src)).bump (ctrRed (n / 1024) 0xA60)
  let r : SheafRel := {
    sheaf := n, part := x.cfg.part, job := x.cfg.job, phase := x.cfg.phase, count := x.count,
    datum := x.datum, src := src }
  let d2 := if x.cfg.actThresh then { d1 with thr := { d1.thr with posts := d1.thr.posts ++ [r] } } else d1
  if x.cfg.actMcast then d2.build 0 (x.header n x.group src x.cfg.phase x.count x.datum) [] else d2

/-- Sends the upward arrival of a GATHER sheaf. -/
def Dev.sendUp (d : Dev) (n : Nat) (x : Sheaf) : Dev :=
  d.build 0 (x.header n x.cfg.up (d.ownAddr 1) x.cfg.phase x.count x.datum) []

/-- A sheaf that meets R219 releases, or sends its arrival, at once. -/
def Dev.checkSheaf (d : Dev) (n : Nat) : Dev :=
  match d.sheaf? n with
  | none => d
  | some x =>
    if x.cfg.level == 2 then
      (if x.cfg.target.toNat ≤ x.count then d.releaseSheaf n x else d)
    else if !x.sentUp && x.arrived == x.cfg.members then
      (d.setSheaf n { x with sentUp := true }).sendUp n x
    else d

/-- COUNT with one arrival's; where the sum leaves the 21 bits of the field the spec states no result, and
a free value stands.  DEDUCED, log entry 91. -/
def Dev.nextCount (d : Dev) (x : Sheaf) (more : Nat) : Dev × Nat :=
  if x.count + more < 2 ^ 21 then (d, x.count + more)
  else (d.draw.2, d.draw.1.toNat % 2 ^ 21)

/-- A NaN with a sign and mantissa of its own. -/
def nanOf (v : Nat) : Word :=
  BitVec.ofNat 32 (v % 2 ^ 32 &&& 0x80000000 ||| 0x7F800000 ||| (if v % 2 ^ 23 = 0 then 0x400000 else v % 2 ^ 23))

/-- DATUM with one arrival's.  SUM that is NaN is some NaN: R218 propagates NaN and states no encoding of
it, so a free one stands.  DEDUCED, log entry 91. -/
def Dev.nextDatum (d : Dev) (x : Sheaf) (more : Word) : Dev × Word :=
  let v := combineDatum x.cfg.dop (!x.got) x.datum more
  if x.cfg.dop == 1 && x.got && f32isNan v then (d.draw.2, nanOf d.draw.1.toNat) else (d, v)

/-- An arrival (R218).  A member port that counts as not ACTIVE for the sheaf has none to count (R525 row 19).
DEDUCED, log entry 173. -/
def Dev.sheafArrival (d : Dev) (f : Frame) : Dev :=
  let h := f.hdr
  let n := h.ctx.toNat
  let dup := d.bump (ctrRed (n / 1024) 0xA68)
  match d.sheaf? n with
  | none => dup
  | some x =>
    if x.cfg.part ≠ h.part || x.cfg.job ≠ h.job || !hasPort x.cfg.members f.port ||
        !d.memberUp h.part.toNat f.port then dup
    else if h.seq = x.cfg.phase then
      if hasPort x.arrived f.port then dup
      else
        let a := d.nextCount x (bitsOf h.ksf.toNat 52 32)
        let b := a.1.nextDatum x (BitVec.ofNat 32 h.ksf.toNat)
        let y := { x with
          arrived := x.arrived ||| portBit f.port, got := true, count := a.2, datum := b.2,
          firstAt := if x.firstAt.isSome then x.firstAt else some d.now }
        (b.1.setSheaf n y).checkSheaf n
    else if h.seq = x.cfg.phase - 1 && x.released then
      d.buildTo f.port (x.header n x.group x.lastSrc h.seq x.lastCount x.lastDatum) []
    else dup

/-- SHEAF_ARRIVAL (R218). -/
def execSheafArrival (k tc : Fin 8) (s : State) : Host.Outcome State Fault Refusal :=
  goto s <| s.d.serve k.val tc.val (fun h => h.kind == 4) fun d f => d.sheafArrival f

/-- SHEAF_RELEASE_PASSING: the oldest release that passed for a sheaf of cluster `k` (R219). -/
def execSheafReleasePassing (k : Fin 8) (s : State) : Host.Outcome State Fault Refusal :=
  let d := s.d
  goto s <|
    match Tab.get d.red.passing k.val [] with
    | [] => d
    | r :: rest =>
      if !d.awake then d
      else
        let d1 := { d with red := { d.red with passing := Tab.set d.red.passing k.val rest [] } }
        match d1.sheaf? r.sheaf with
        | none => d1
        | some x =>
          if x.cfg.level == 1 && decide (x.cfg.part = r.part) && decide (x.cfg.job = r.job) &&
              x.cfg.phase == r.phase then
            (d1.setSheaf r.sheaf (x.nextPhase r.count r.datum r.src)).checkSheaf r.sheaf
          else d1

/-- SHEAF_RETRY_EXPIRY (R219). -/
def execSheafRetryExpiry (n : Fin 8192) (s : State) : Host.Outcome State Fault Refusal :=
  let d := s.d
  goto s <|
    match (if d.awake then d.sheaf? n.val else none) with
    | some x => if x.cfg.level == 1 && x.sentUp then d.sendUp n.val x else d
    | none => d

/-- SHEAF_STUCK (R220): once for a phase. -/
def execSheafStuck (n : Fin 8192) (s : State) : Host.Outcome State Fault Refusal :=
  let d := s.d
  goto s <|
    match (if d.awake then d.sheaf? n.val else none) with
    | some x =>
      if x.firstAt.isSome && !x.stuckSent then
        ((d.setSheaf n.val { x with stuckSent := true }).bump (ctrRed (n.val / 1024) 0xA70)).event
          (.sheafStuck n.val x.cfg.phase x.count)
      else d
    | none => d

end Sys2Proof.Machine
end

