-- ==== Sys2Proof/Machine/Claims.lean ====
section
/-! DEFINITION. Objects of transactions and their claims (R417, R418). -/

namespace Sys2Proof

/-- The opcode of a staged command. -/
def Staged.opcode : Staged → Nat
  | .planSet _ => 0x0201 | .planGroup _ => 0x0203 | .portMapSet _ => 0x0204
  | .optPortMode _ => 0x0301 | .optCampusFreq _ => 0x0303
  | .emInsert _ => 0x0410 | .emDelete _ => 0x0411 | .rehash _ => 0x0412 | .routeSet _ => 0x0420
  | .groupSet _ => 0x0421 | .partSet _ => 0x0422 | .portsetSet _ => 0x0423 | .learnPeers _ => 0x0424
  | .mirrorSet _ => 0x0425 | .partReserve _ => 0x0426 | .shaperSet _ => 0x0427
  | .groupShaperSet _ => 0x0428 | .policerSet _ => 0x0429 | .policerMap _ => 0x042A
  | .ctxSet _ => 0x0501 | .ctxClose _ => 0x0502 | .ctxReform _ => 0x0503 | .ctxResize _ => 0x0504
  | .sheafSet _ => 0x0510 | .sheafClose _ => 0x0512
  | .thrJobSet _ => 0x0601 | .thrJobClose _ => 0x0602 | .thrParamSet _ => 0x0603
  | .thrShardSet _ => 0x0604 | .thrShardClose _ => 0x0605 | .thrShardRole _ => 0x0606
  | .memRegionSet _ => 0x0701

namespace Machine

/-- A transaction whose claims count: OPEN or WAITING. -/
def Txn.claims (t : Txn) : Bool := t.st = .isOpen || t.st = .waiting

/-- The staging number under which a transaction names an object. -/
def Txn.nameNo (t : Txn) (o : Obj) : Option Nat := (t.names.find? fun x => x.1 == o).map Prod.snd

/-- The transaction that claims an object: of those that name it, the one that named it first. -/
def Dev.claimer (d : Dev) (o : Obj) : Option Txn :=
  d.cmd.txns.foldl (fun best t =>
    if !t.claims then best
    else match t.nameNo o, best with
      | none, _ => best
      | some _, none => some t
      | some n, some b => match b.nameNo o with
        | some m => if n < m then some t else best
        | none => some t) none

/-- An object is claimed by another source's OPEN or WAITING transaction (R418).  DEDUCED, log entry 61. -/
def Dev.claimedElse (d : Dev) (src : Source) (o : Obj) : Bool :=
  match d.claimer o with
  | some t => t.src != src
  | none => false

/-- Removes a transaction. -/
def Dev.dropTxn (d : Dev) (src : Source) (id : BitVec 16) : Dev :=
  { d with cmd := { d.cmd with txns := d.cmd.txns.filter fun t => !(t.src == src && t.id == id) } }

/-- The OPEN transaction of a source. -/
def Dev.openTxn (d : Dev) (src : Source) : Option Txn :=
  d.cmd.txns.find? fun t => t.src == src && decide (t.st = .isOpen)

/-- Rolls back the OPEN transaction of a source, with TXN_ABORTED to some destinations (R424). -/
def Dev.abortOpen (d : Dev) (src : Source) (cause : Nat) (dests : List Source) : Dev :=
  match d.openTxn src with
  | none => d
  | some t =>
    let d1 := d.dropTxn src t.id
    if d1.svRuns 1 then dests.foldl (fun d s => d.eventTo (.txnAborted src t.id cause) s) d1 else d1

end Machine
end Sys2Proof
end

