-- ==== Sys2Proof/Machine/Thresh.lean ====
section
/-! DEFINITION. Thresh at work: maps (R252), releases (R259), updates (R255, R257, R263 to R266), the
mirror stream (R270 to R273), copy states (R274 to R276), weight requests (R269), and the reads of its
entries (R279). -/

namespace Sys2Proof.Machine

/-! ### Maps and arrivals -/

/-- Offset of THR_CTL. -/
def offThrCtl : Nat := baseThr

/-- CHUNK_MAP_BUILT (R252): slots that were lost while the map was not built have LOST from the start (R274, R276,
R303).  DEDUCED, log entry 93. -/
def execChunkMapBuilt (shard : Fin 16384) (s : State) : Host.Outcome State Fault Refusal :=
  let d := s.d
  goto s <|
    match (if d.awake then Tab.find d.thr.shards shard.val else none) with
    | none => d
    | some sh => match d.ctx? sh.cfg.ctx.toNat, d.job? sh.cfg.jent.toNat with
      | some c, some x =>
        if sh.ready then d
        else
          let cursor := if x.own = .rebuild then 0 else if x.own = .lost then sh.cursor else sh.home + sh.peer
          let d1 := (d.buildMap sh c.e x.phase).modShard shard.val fun y => { y with
            ready := true, cursor := cursor }
          let built := { sh with ready := true }
          let d2 := if sh.doomed || d.mem.granClosed then d1.loseSlots shard.val built 0
            else if x.own = .lost then d1.loseSlots shard.val built cursor else d1
          ((d2.event (.thrReady shard.val)).maybeRequest sh.cfg.jent.toNat).thrTidy
      | _, _ => d

/-- THRESH_ARRIVAL_REPEAT (R258). -/
def execThreshArrivalRepeat (j : Fin 64) (s : State) : Host.Outcome State Fault Refusal :=
  let d := s.d
  goto s <|
    match (if d.awake then d.job? j.val else none) with
    | some x => if x.arrivalsSent then d.sendArrivals j.val x else d
    | none => d

/-! ### Releases (R259) -/

/-- c of R259 from the norm DATUM. -/
def clipFactor (clipMax norm : Word) : Word :=
  let root := f32sqrt norm
  if (f32v clipMax).less (f32v root) then f32div clipMax root else 0x3F800000#32

/-- What a job does with the releases of its phase that it has seen. -/
def Dev.gate_ (d : Dev) (j : Nat) (x : ThrJob) : Dev :=
  match x.voteSeen with
  | none => d.setJob j x
  | some v =>
    if x.cfg.gate = 0 then d.advance j x false v 0x3F800000#32
    else if bitsOf v.toNat 3 0 ≠ 0 then d.advance j x true v 0x3F800000#32
    else if x.cfg.gate = 1 then d.advance j x false v 0x3F800000#32
    else match x.normSeen with
      | some n => d.advance j x false v (clipFactor x.cfg.clipMax n)
      | none => d.setJob j x

/-- A release posted to the sequencer, as one job takes it. -/
def Dev.takeRelease (d : Dev) (r : SheafRel) (j : Nat) : Dev :=
  match d.job? j with
  | none => d
  | some x =>
    if x.cfg.part ≠ r.part || x.cfg.job ≠ r.job || x.phase ≠ r.phase then d
    else
      let vote := x.cfg.voteSheaf.toNat == r.sheaf
      let norm := x.cfg.gate == 2 && x.cfg.normSheaf.toNat == r.sheaf
      let y := { x with
        voteSeen := if vote then some r.datum else x.voteSeen,
        normSeen := if norm then some r.datum else x.normSeen }
      if vote || norm then d.gate_ j y else d

/-- THRESH_RELEASE_POSTED: the oldest posted release (R259). -/
def execThreshReleasePosted (s : State) : Host.Outcome State Fault Refusal :=
  let d := s.d
  goto s <|
    match d.thr.posts with
    | [] => d
    | r :: rest =>
      if !d.awake then d
      else
        let d1 := { d with thr := { d.thr with posts := rest } }
        ((Tab.keys d1.thr.jobs).foldl (fun d j => d.takeRelease r j) d1).thrTidy

/-! ### Updates (R255 to R257, R263 to R266) -/

/-- New bytes of an element's w, m and v, and whether g and all of them are finite. -/
def ThrParam.element (f : ThrParam) (rnd : Nat → Rnd) (cap i : Nat) (t g w m v : Word) :
    List Byte × List Byte × List Byte × Bool :=
  let n := f.update t g w m v
  let m1 := f.storeMoment rnd (cap + i) n.2.1
  let v1 := f.storeMoment rnd (2 * cap + i) n.2.2
  (leBytes 4 n.1.toNat, if f.hasM then m1.1 else [], if f.hasV then v1.1 else [],
   f32finite g && f32finite n.1 && (!f.hasM || m1.2) && (!f.hasV || v1.2))

/-- A chunk's update: the slot's new bytes, or none where R266 leaves it unchanged. -/
def ThrParam.slot (f : ThrParam) (rnd : Nat → Rnd) (cap : Nat) (t c rls : Word) (vals : List Word)
    (st : List Byte) : Option (List Byte) :=
  let mo := 4 * cap
  let vo := mo + (if f.hasM then f.momentBytes else 0) * cap
  let els := (List.range cap).map fun i =>
    ThrParam.element f rnd cap i t (f32mul (f32mul (vals.getD i 0) rls) c) (leWord st i)
      (if f.hasM then f.moment st mo i else 0) (if f.hasV then f.moment st vo i else 0)
  if els.all fun e => e.2.2.2 then
    some (els.flatMap (fun e => e.1) ++ els.flatMap (fun e => e.2.1) ++ els.flatMap (fun e => e.2.2.1))
  else none

/-- The update of a chunk in staging must wait for room in its job's log (R273). -/
def Dev.paused (d : Dev) (p : Parked) : Bool :=
  match d.shardOfCtx p.ctx.toNat with
  | none => false
  | some (_, s) => match d.job? s.cfg.jent.toNat with
    | none => false
    | some x =>
      x.otherInSync p.ctx.toNat (d.mapEnt s (s.place x.phase p.seq).1).slot &&
        decide (logLimit < x.log.length + slotFrames (d.shardSlotBytes s))

/-- The job and the phase of a parked chunk: its updates run in parking order (R256). -/
def Dev.runOf (d : Dev) (p : Parked) : Nat × Word :=
  match d.shardOfCtx p.ctx.toNat with
  | some (_, s) => (s.cfg.jent.toNat, p.phase)
  | none => (64, p.phase)

/-- The oldest chunk in staging of a cluster whose update does not wait, with no older chunk of its
job and phase waiting (R256). -/
def Dev.nextUpdate (d : Dev) (k : Nat) : Option Parked :=
  let all := d.thr.park.filter fun p => clusterOf p.ctx.toNat == k && decide (p.st = .staging)
  (all.foldl (fun (a : Option Parked × List (Nat × Word)) p =>
    if a.1.isSome || a.2.contains (d.runOf p) then a
    else if d.paused p then (a.1, d.runOf p :: a.2) else (some p, a.2)) (none, [])).1

/-- Writes an update: state, STAMP, mirror frames or weights (R255, R272). -/
def Dev.writeUpdate (d : Dev) (j : Nat) (x : ThrJob) (n : Nat) (s : ThrShard) (p : Parked) (ix : Nat) (m : MapEnt)
    (bytes : List Byte) : Dev :=
  let d1 := (d.devWrite (s.cfg.stateBase.toNat + m.slot * bytes.length) bytes).stampSlot n s ix
    { m with stamp := p.phase, stale := false }
  if x.otherInSync p.ctx.toNat m.slot then
    let d2 := d1.mirrorSlot j s m.slot bytes.length p.phase p.seq
    match d2.job? j with
    | some y => d2.setParked { p with st := .mirroring (y.txNext - 1), state := bytes }
    | none => d2
  else
    (d1.modJob j fun y => if y.own = .solo then { y with lostUpdates := y.lostUpdates + 1 } else y).sendWeights
      { p with state := bytes } false

/-- The update of a chunk in staging.  DEDUCED, log entry 94. -/
def Dev.updateChunk (d : Dev) (p : Parked) : Dev :=
  match d.shardOfCtx p.ctx.toNat, d.ctx? p.ctx.toNat with
  | some (n, s), some c => match d.job? s.cfg.jent.toNat with
    | none => d.unpark p
    | some x =>
      let ix := (s.place x.phase p.seq).1
      let m := d.mapEnt s ix
      let u := d.updateConsts x s p.phase
      if m.lost then (d.unpark p).bump (ctrThr 0x158)
      else if m.stamp == p.phase then (d.unpark p).bump (ctrThr 0x128)
      else
        match ThrParam.slot u.1 (rndFor c.e.rnd c.e.seed p.seq) c.e.cap.toNat u.2.1 u.2.2.1 u.2.2.2 p.vals p.state with
        | some new => d.writeUpdate s.cfg.jent.toNat x n s p ix m new
        | none =>
          ((d.stampSlot n s ix { m with stamp := p.phase, stale := true }).bump (ctrThr 0x110)).sendWeights
            p true
  | _, _ => d.unpark p

/-- STAGING_READY: a cluster updates the next chunk in staging (R255). -/
def execStagingReady (k : Fin 8) (s : State) : Host.Outcome State Fault Refusal :=
  let d := s.d
  goto s <|
    match (if d.awake then d.nextUpdate k.val else none) with
    | some p => (d.updateChunk p).thrTidy
    | none => d

/-- PARK_SPACE_FREED (R267): a chunk that waits for the park region tries again.  DEDUCED, log entry 85. -/
def execParkSpaceFreed (ctx : BitVec 16) (seq : Word) (s : State) : Host.Outcome State Fault Refusal :=
  let d := s.d
  goto s <|
    match (if d.awake then d.chunk? ctx.toNat seq else none) with
    | some (_, x) => if x.st = .waitPark then (d.handOver ctx.toNat x).thrTidy else d
    | none => d

/-! ### The mirror stream (R270 to R275) -/

/-- The job of a STATE_MIRROR frame. -/
def Dev.mirrorJob (d : Dev) (h : Header) : Option (Nat × ThrJob) :=
  d.thr.jobs.find? fun e => e.2.cfg.part == h.part && e.2.cfg.job == h.job

/-- The frame is the next expected one of its stream; REBUILD_REQ also begins a stream. -/
def Dev.inOrder (d : Dev) (h : Header) : Bool :=
  match d.mirrorJob h with
  | none => false
  | some (_, x) => h.seq == x.rxNext || (h.sub == 5 && h.seq == 0)

/-- An in-order frame of a kind. -/
def Dev.mirrorWant (d : Dev) (sub : Byte) (h : Header) : Bool := h.kind == 6 && h.sub == sub && d.inOrder h

/-- Takes an in-order frame: after every sixteenth an ACK leaves. -/
def Dev.tookInOrder (d : Dev) (j : Nat) : Dev :=
  match d.job? j with
  | none => d
  | some x =>
    let y := { x with rxNext := x.rxNext + 1, rxSinceAck := x.rxSinceAck + 1, lastRx := d.now }
    let d1 := d.setJob j y
    if 16 ≤ y.rxSinceAck then d1.sendAck j else d1

/-- Serves an in-order frame of the stream: `f` acts on it, and the sequencer tidies up. -/
def Dev.serveMirror (d : Dev) (k tc : Nat) (sub : Byte) (f : Dev → Nat → Frame → Dev) : Dev :=
  (d.serve k tc (d.mirrorWant sub) fun d fr =>
    match d.mirrorJob fr.hdr with
    | some (j, _) => (f d j fr).tookInOrder j
    | none => d).thrTidy

/-- The shard of a job that a frame's KSF names by its context. -/
def Dev.mirrorShard (d : Dev) (j : Nat) (h : Header) : Option (Nat × ThrShard) :=
  (d.shardsOf j).find? fun e => e.2.cfg.ctx.toNat == ksfCtx h

/-- MIRROR_STATE_RECEIVED (R273). -/
def execMirrorStateReceived (k tc : Fin 8) (s : State) : Host.Outcome State Fault Refusal :=
  goto s <| s.d.serveMirror k.val tc.val 1 fun d j f =>
    match d.mirrorShard j f.hdr with
    | none => d
    | some (_, sh) =>
      let o := bitsOf f.hdr.ksf.toNat 47 0
      if (sh.home + sh.peer) * d.shardSlotBytes sh < o + f.payload.length then d
      else d.devWrite (sh.cfg.stateBase.toNat + o) f.payload

/-- An ACK: log frames go, weights leave, and REBUILD_END is covered.  DEDUCED, log entry 71. -/
def Dev.takeAck (d : Dev) (j : Nat) (n : Word) : Dev :=
  match d.job? j with
  | none => d
  | some x =>
    let covers := fun (q : Word) => decide (seqDist q n < 0)
    let y := { x with lastRx := d.now }
    if 0 < seqDist n x.txNext then d.setJob j y
    else
      let rest := x.log.filter fun f => !covers f.seq
      let moved := rest.length != x.log.length
      let d1 := d.setJob j { y with log := rest, lastAckAdv := if moved then d.now else x.lastAckAdv }
      let d2 := d1.releaseWeights j covers
      match x.endSeq with
      | some q => if covers q then d2.enterInSync j else d2
      | none => d2

/-- MIRROR_ACK_RECEIVED (R273). -/
def execMirrorAckReceived (k tc : Fin 8) (s : State) : Host.Outcome State Fault Refusal :=
  let d := s.d
  goto s <| (d.serve k.val tc.val (fun h => h.kind == 6 && h.sub == 2 && (d.mirrorJob h).isSome) fun d f =>
    match d.mirrorJob f.hdr with
    | some (j, _) => d.takeAck j (BitVec.ofNat 32 (bitsOf f.hdr.ksf.toNat 63 32))
    | none => d).thrTidy

/-- A COMMIT: STAMP is set, and STALE and LOST are cleared; one for a slot that this device stamped itself in
that phase is a conflict. -/
def Dev.takeCommit (d : Dev) (j : Nat) (n : Nat) (sh : ThrShard) (slot : Nat) (stamp : Word) : Dev :=
  match d.job? j, d.indexOfSlot sh slot with
  | some x, some ix =>
    let m := d.mapEnt sh ix
    let stays := m.lost && d.mem.granClosed
    let d1 := if m.stamp == stamp && sh.here.contains ix then d.bump (ctrThr 0x148) else d
    let d2 := d1.setMapEnt sh ix { m with stamp := stamp, stale := false, lost := stays }
    d2.modShard n fun y => { y with
      lost := if m.lost && !stays then y.lost - 1 else y.lost,
      here := y.here.filter (fun i => i != ix),
      cursor := if x.own = .rebuild then max y.cursor (slot + 1) else y.cursor }
  | _, _ => d

/-- MIRROR_COMMIT_RECEIVED (R273). -/
def execMirrorCommitReceived (k tc : Fin 8) (s : State) : Host.Outcome State Fault Refusal :=
  goto s <| s.d.serveMirror k.val tc.val 3 fun d j f =>
    match d.mirrorShard j f.hdr with
    | none => d
    | some (n, sh) =>
      let bytes := d.shardSlotBytes sh
      if bytes = 0 then d
      else d.takeCommit j n sh (bitsOf f.hdr.ksf.toNat 47 0 / bytes) (BitVec.ofNat 32 (ofBe (f.payload.take 4)))

/-- MIRROR_NOTE_RECEIVED (R258). -/
def execMirrorNoteReceived (k tc : Fin 8) (s : State) : Host.Outcome State Fault Refusal :=
  goto s <| s.d.serveMirror k.val tc.val 4 fun d j f =>
    match d.mirrorShard j f.hdr with
    | none => d
    | some (_, sh) => d.modJob j fun x =>
      x.account (sh.place x.phase (BitVec.ofNat 32 f.hdr.ksf.toNat)).2
        (sh.cfg.ctx, BitVec.ofNat 32 f.hdr.ksf.toNat)
        (BitVec.ofNat 4 (ofBe (slice f.payload 4 4))) (BitVec.ofNat 32 (ofBe (f.payload.take 4)))

/-- The slot that a bulk copy which stands at a context and a slot sends next, with its shard: slots rise in
ascending CTX; a shard that has gone, or that has no slots, is passed over (R275). -/
def Dev.bulkAt (d : Dev) (j : Nat) (b : Nat × Nat) : Option (Nat × ThrShard × Nat) :=
  let slots := fun (e : Nat × ThrShard) => e.2.home + e.2.peer
  let ctx := fun (e : Nat × ThrShard) => e.2.cfg.ctx.toNat
  let left := (d.shardsOf j).filter fun e =>
    decide ((ctx e = b.1 ∧ b.2 < slots e) ∨ (b.1 < ctx e ∧ 0 < slots e))
  (left.foldl (fun a e => match a with
    | some y => if ctx e < ctx y then some e else a
    | none => some e) none).map fun e => (e.1, e.2, if ctx e = b.1 then b.2 else 0)

/-- REBUILD_REQ: the copies are SOLO, the streams begin anew, and the bulk copy starts (R274). -/
def Dev.takeRebuildReq (d : Dev) (j : Nat) : Dev :=
  match d.job? j with
  | none => d
  | some x =>
    if x.own = .rebuild || x.own = .lost then d
    else
      let d1 := if x.own = .inSync then d.enterSolo j
        else (d.setJob j x.restart).releaseWeights j fun _ => true
      let d2 := (d1.shardsOf j).foldl (fun d e => d.modShard e.1 fun s => { s with cursor := 0 }) d1
      d2.modJob j fun x => { x with
        rxNext := 0, bulk := some (0, 0) }

/-- MIRROR_REBUILD_REQ_RECEIVED (R274).  DEDUCED, log entry 95. -/
def execMirrorRebuildReqReceived (k tc : Fin 8) (s : State) : Host.Outcome State Fault Refusal :=
  goto s <| s.d.serveMirror k.val tc.val 5 fun d j _ => d.takeRebuildReq j

/-- MIRROR_REBUILD_END_RECEIVED (R274).  DEDUCED, log entry 95. -/
def execMirrorRebuildEndReceived (k tc : Fin 8) (s : State) : Host.Outcome State Fault Refusal :=
  goto s <| s.d.serveMirror k.val tc.val 6 fun d j _ =>
    match d.job? j with
    | some x => if x.own = .rebuild then d.enterInSync j else d
    | none => d

/-- MIRROR_OUT_OF_ORDER: a frame that is not the next expected one is counted and answered with an ACK;
one of no job here, or with a reserved code, is discarded (R273). -/
def execMirrorOutOfOrder (k tc : Fin 8) (s : State) : Host.Outcome State Fault Refusal :=
  let d := s.d
  let known := fun (h : Header) => (d.mirrorJob h).isSome && decide (1 ≤ h.sub.toNat ∧ h.sub.toNat ≤ 6)
  goto s <| d.serve k.val tc.val
    (fun h => h.kind == 6 && (!known h || (h.sub != 2 && !d.inOrder h))) fun d f =>
      match d.mirrorJob f.hdr with
      | some (j, _) =>
        if known f.hdr then
          ((d.bump (ctrThr 0x140)).modJob j fun x => { x with lastRx := d.now }).sendAck j
        else d
      | none => d

/-- MIRROR_RTO_EXPIRY: the log is sent again from the oldest frame (R273).  DEDUCED, log entry 94. -/
def execMirrorRtoExpiry (j : Fin 64) (s : State) : Host.Outcome State Fault Refusal :=
  let d := s.d
  goto s <|
    match (if d.awake then d.job? j.val else none) with
    | some x =>
      if x.log.isEmpty then d
      else x.log.foldl (fun d f => (d.sendMirror j.val f).bump (ctrThr 0x138))
        (d.setJob j.val { x with lastAckAdv := d.now })
    | none => d

/-- MIRROR_ACK_INTERVAL (R273). -/
def execMirrorAckInterval (j : Fin 64) (s : State) : Host.Outcome State Fault Refusal :=
  goto s <| if s.d.awake then s.d.sendAck j.val else s.d

/-- The copies of a job become LOST (R274, R276). -/
def Dev.enterLost (d : Dev) (j : Nat) (x : ThrJob) : Dev :=
  let d1 := d.setJob j { x with own := .lost, both := true, reqSent := false }
  let d2 := (d1.shardsOf j).foldl (fun d e => d.loseSlots e.1 e.2 e.2.cursor) d1
  d2.event (.thrLost j (d2.lostSlots j) 0)

/-- MIRROR_DEAD_EXPIRY: no stream frame for DEAD_US (R274). -/
def execMirrorDeadExpiry (j : Fin 64) (s : State) : Host.Outcome State Fault Refusal :=
  let d := s.d
  goto s <|
    match (if d.awake then d.job? j.val else none) with
    | some x => match x.own with
      | .inSync => (d.enterSolo j.val).thrTidy
      | .rebuild => (d.enterLost j.val x).thrTidy
      | _ => d
    | none => d

/-- Ends a bulk copy with REBUILD_END. -/
def Dev.endBulk (d : Dev) (j : Nat) : Dev :=
  (d.modJob j fun x => { x with bulk := none, endSeq := some x.txNext }).mirror j 6 0 []

/-- Sends the slot that a bulk copy is at, and moves on; the last slot brings REBUILD_END with it (R275).
DEDUCED, log entry 96. -/
def Dev.bulkSlot (d : Dev) (j n : Nat) (s : ThrShard) (slot : Nat) (last : Bool) : Dev :=
  let bytes := d.shardSlotBytes s
  let ix := (d.indexOfSlot s slot).getD 0
  let m := d.mapEnt s ix
  let seq := match d.job? j with
    | some x => s.seqOf x.phase ix m.stamp
    | none => 0
  let d1 := (d.mirrorSlot j s slot bytes m.stamp seq).bumpBy (ctrThr 0x150) (bytes + 40 * slotFrames bytes + 8)
  let d2 := d1.modShard n fun s => { s with cursor := slot + 1 }
  if last then d2.endBulk j else d2.modJob j fun x => { x with bulk := some (s.cfg.ctx.toNat, slot + 1) }

/-- BULK_COPY_SLOT (R275): no slot is read from a closed granary (R303).  DEDUCED, log entry 96. -/
def execBulkCopySlot (j : Fin 64) (s : State) : Host.Outcome State Fault Refusal :=
  let d := s.d
  goto s <|
    match (if d.awake then d.job? j.val else none) with
    | none => d
    | some x => match x.bulk with
      | none => d
      | some b => match d.bulkAt j.val b with
        | none => if x.log.length < logLimit then d.endBulk j.val else d
        | some (n, sh, slot) =>
          let last := (d.bulkAt j.val (sh.cfg.ctx.toNat, slot + 1)).isNone
          if d.mem.granClosed || logLimit < x.log.length + slotFrames (d.shardSlotBytes sh) + last.toNat then d
          else d.bulkSlot j.val n sh slot last

/-! ### Weight requests (R269) -/

/-- The answer for a chunk.  One of before phase P - 1 has expired, whatever its STAMP.
DEDUCED, log entry 149. -/
def Dev.answerWeights (d : Dev) (f : Frame) (k cid : Nat) (c : Ctx) (x : ThrJob) (s : ThrShard) (seq : Word)
    (rh : Bool) : Dev :=
  let at_ := s.place x.phase seq
  let m := d.mapEnt s at_.1
  let q := at_.2
  if !m.valid then d.bump (ctrRed k 0xA40)
  else if m.lost then d.nackBack f cid true seq nackAbandoned rh
  else if seqDist q x.phase < -1 then d.nackBack f cid true seq nackExpired rh
  else if m.stamp == q then
    let st := d.devRead (s.cfg.stateBase.toNat + m.slot * d.shardSlotBytes s) (4 * c.e.cap.toNat)
    let w := d.weights s c st seq (d.stepOf x s q) m.stale
    (d.build 0 { w.1 with kind := 0, dst := f.hdr.src } w.2).bump (ctrThr 0x168)
  else if 0 < seqDist m.stamp q then d.nackBack f cid true seq nackExpired rh
  else d.bump (ctrThr 0x170)

/-- WEIGHT_REQ_RECEIVED (R269): a CONTROL frame, whose JOB the device does not act on (R51). -/
def execWeightReqReceived (k tc : Fin 8) (s : State) : Host.Outcome State Fault Refusal :=
  goto s <| s.d.serve k.val tc.val (fun h => h.kind == 7 && h.sub == 0x13) fun d f =>
    let cid := ksfCtx f.hdr
    let seq := ksfSeq f.hdr
    match d.ctx? cid, d.shardOfCtx cid with
    | some c, some (_, sh) =>
      let rh := d.onPath c.e cid seq true f.hdr.src && !d.onPath c.e cid seq false f.hdr.src
      if c.e.part ≠ f.hdr.part then d.bump (ctrRed k.val 0xA40)
      else match d.job? sh.cfg.jent.toNat with
        | none => d.nackBack f cid false seq nackNoctx rh
        | some x =>
          if !sh.ready || x.own = .rebuild || x.nackUntil then d.nackBack f cid true seq nackNoctx rh
          else d.answerWeights f k.val cid c x sh seq rh
    | _, _ =>
      let r := d.drawBit
      r.2.nackBack f cid false seq nackNoctx r.1

/-! ### Reads (R249, R251, R279) -/

/-- The codes of OWN_STATE and PEER_STATE. -/
def CopyState.codes : CopyState → Nat × Nat
  | .inSync => (1, 2)
  | .solo => (3, 3)
  | .rebuild => (4, 4)
  | .lost => (5, 5)

/-- The sixteen words of a job entry. -/
def Dev.jobWords (d : Dev) (j : Nat) (x : ThrJob) : List Nat :=
  let e := x.cfg
  let c := x.own.codes
  [1 <<< 31 ||| e.gate.toNat <<< 29 ||| e.mcl.toNat <<< 26 ||| e.part.toNat,
   e.job.toNat <<< 16 ||| e.voteSheaf.toNat, e.voteUp.toNat <<< 8, e.normUp.toNat <<< 8, e.normSheaf.toNat,
   e.lossScale.toNat, e.clipMax.toNat, x.phase.toNat,
   c.1 <<< 29 ||| c.2 <<< 26 ||| ((d.partnerAddr j).getD 0).toNat, d.expected j x, x.sum0.accounted,
   x.sum0.flags.toNat, (pairHi x.sum0.sumsq).toNat, (pairLo x.sum0.sumsq).toNat, d.lostSlots j, 0]

/-- CURSOR: during a rebuild the next slot to copy, otherwise the slot count (R251). -/
def Dev.cursorOf (d : Dev) (s : ThrShard) : Nat :=
  match d.job? s.cfg.jent.toNat with
  | some x => if x.own = .rebuild || x.bulk.isSome || x.endSeq.isSome then s.cursor else s.home + s.peer
  | none => s.home + s.peer

/-- The eleven words of a shard entry. -/
def ThrShard.words (s : ThrShard) (cursor : Nat) : List Nat :=
  let e := s.cfg
  [1 <<< 31 ||| s.ready.toNat <<< 30 ||| e.jent.toNat <<< 24 ||| e.param.toNat <<< 14 ||| e.wfmt.toNat,
   e.ctx.toNat <<< 16 ||| e.wgroup.toNat, e.cps.toNat, s.seqBase.toNat,
   e.stateBase.toNat / 2 ^ 32, e.stateBase.toNat % 2 ^ 32, e.mapBase.toNat / 2 ^ 32,
   e.mapBase.toNat % 2 ^ 32, s.home, s.peer, cursor]

/-- THR_READ (R279). -/
def execThrRead (c : CmdCtx) (isShard : Bool) (ix : BitVec 16) (s : State) :
    Host.Outcome State Fault Refusal :=
  goto s <| s.d.runCmd (.thrRead c isShard ix) c 0x0607 .observer fun d =>
    if isShard then
      (if 16384 ≤ ix.toNat then answer d .badParam
       else match Tab.find d.thr.shards ix.toNat with
        | some x => answerOk d (x.words (d.cursorOf x))
        | none => answerOk d (List.replicate 11 0))
    else if 64 ≤ ix.toNat then answer d .badParam
    else match d.job? ix.toNat with
      | some x => answerOk d (d.jobWords ix.toNat x)
      | none => answerOk d (List.replicate 16 0)

/-- THR_MAP_READ (R279).  DEDUCED, log entry 98. -/
def execThrMapRead (c : CmdCtx) (shard : BitVec 16) (first : Word) (count : BitVec 16) (s : State) :
    Host.Outcome State Fault Refusal :=
  goto s <| s.d.runCmd (.thrMapRead c shard first count) c 0x0608 .observer fun d =>
    if 16384 ≤ shard.toNat || 512 < count.toNat then answer d .badParam
    else match Tab.find d.thr.shards shard.toNat with
      | none => answer d .notFound
      | some x =>
        answerOk d (((List.range count.toNat).filter fun i => decide (first.toNat + i < x.cfg.cps.toNat)).map
          fun i => (d.mapEnt x (first.toNat + i)).word)

end Sys2Proof.Machine
end

