-- ==== Sys2Proof/Machine/MemTier.lean ====
section
/-! DEFINITION. The memory tiers at work: the companion's accesses (R283, R290, R291, R305), page
retirement (R295), expanders (R302, R303, R306), uncorrectable data (R304), and the
commands of R307. -/

namespace Sys2Proof.Machine

/-! ### The companion's accesses (R282, R283, R290, R291, R296) -/

/-- An unmapped or refused access: counted, and reported at most once in 1 ms. -/
def Dev.memDenied (d : Dev) (a : Nat) : Dev :=
  let n := d.mem.faultCount + 1
  let due := match d.mem.faultEvtAt with
    | some t => decide (t + clkMs ≤ d.now)
    | none => true
  let d1 := d.bump (ctrMem 0x130)
  if due then
    ({ d1 with mem := { d1.mem with faultEvtAt := some d.now, faultCount := 0, lastFault := a } }).event
      (.memAccessFault (BitVec.ofNat 52 a) n)
  else { d1 with mem := { d1.mem with faultCount := n, lastFault := a } }

/-- What the companion may do with a range. -/
inductive MemRight where
  | denied | readOnly | full
  deriving DecidableEq, Repr

/-- The right of one region kind. -/
def kindRight (k : RegionKind) : MemRight := if k = .host then .full else .readOnly

/-- The right of a byte of the near tier; a byte that no region holds is refused.  DEDUCED, log entry 100. -/
def Dev.nearRight (d : Dev) (a : Nat) : MemRight :=
  match d.regionOf a 1 with
  | some (_, r) => kindRight r.kind
  | none => .denied

/-- The right of a range: of its first and its last byte, the lesser.  DEDUCED, log entry 100. -/
def Dev.memRight (d : Dev) (a n : Nat) : MemRight :=
  if n = 0 then .denied
  else if d.inGran a n then .full
  else if d.inNear a n then
    match d.nearRight a, d.nearRight (a + n - 1) with
    | .full, .full => .full
    | .denied, _ => .denied
    | _, .denied => .denied
    | _, _ => .readOnly
  else .denied

/-- The lines of a range. -/
def linesOf (a n : Nat) : List Nat := (List.range (lineOf (a + n - 1) + 1 - lineOf a)).map fun i => lineOf a + i

/-- Entries of the snoop filter (R291). -/
def snoopSize : Nat := 1048576

/-- Tracks a line that the companion caches; a full filter evicts the oldest line first. -/
def Dev.track (d : Dev) (line : Nat) : Dev :=
  if d.mem.snoop.contains line then d
  else
    let d1 := if d.mem.snoop.length < snoopSize then d
      else (d.snoop (d.mem.snoop.headD 0)).bump (ctrMem 0x138)
    { d1 with mem := { d1.mem with snoop := d1.mem.snoop ++ [line] } }

/-- Counts an uncorrectable read at an address. -/
def Dev.countUncorr (d : Dev) (a : Nat) : Dev := d.bump (ctrMem (if granBase ≤ a then 0x128 else 0x108))

/-- A read of the companion. -/
def Dev.hostRead (d : Dev) (a n : Nat) : Dev :=
  if (linesOf a n).any fun l => d.lineBad l then (d.countUncorr a).send .memError
  else d.send (.memData (d.devRead a n))

/-- A write of the companion: line by line, each behind the writes that wait for it. -/
def Dev.hostWrite (d : Dev) (a : Nat) (bytes : List Byte) : Dev :=
  let d1 := if d.mem.waits.isEmpty then d.applyWrite a bytes
    else Dev.writeLines Dev.hostWriteLine (bytes.length + 1) d a bytes
  d1.send .memWritten

/-- Objects of a kind that MEM_DIAG_SEL names (R102, R103, R308); the other codes are reserved. -/
def diagObjects (kind : Nat) : Nat :=
  if kind = 1 then 1048576 else if kind = 2 then 2097152 else 4194304

/-- A byte of the diagnostic window shows an object that exists (R305, R308). -/
def Dev.diagShown (d : Dev) (a : Nat) : Bool :=
  let sel := baseMem + 0x80
  decide (d.regBits sel 21 0 + (a - diagBase) / 256 < diagObjects (d.regBits sel 63 60))

/-- The frame whose payload a cell holds, and the cell's place in it. -/
def Dev.cellOwner (d : Dev) (cell : Nat) : Option (Nat × Nat) :=
  d.store.slots.cells.findSome? fun e => (e.2.idxOf? cell).map fun i => (e.1, i)

/-- An object as it stands, with its number: a descriptor is the frame of that place in the store, a queue
entry the waiting copy of that place.  DEDUCED, log entry 101. -/
def Dev.diagObject (d : Dev) (kind n : Nat) : List Nat :=
  match kind with
  | 0 => match d.cellOwner n with
    | some x => [n, x.1, x.2]
    | none => [n]
  | 1 => match d.store.frames[n]? with
    | some x => [n, x.1, x.2.at_, x.2.e2e.toNat, x.2.payload.length] ++ x.2.hdr.bytes.map fun b => b.toNat
    | none => [n]
  | 2 => match (d.store.queues.flatMap fun e => e.2)[n]? with
    | some c => [n, c.fid, c.dest.num, c.cls.toNat]
    | none => [n]
  | _ => match d.cellOwner n with
    | some x => [n, x.1, (d.store.slots.cellsFor x.1).getD (x.2 + 1) 4194304]
    | none => [n]

/-- A byte of an object's lane: a cell's payload as its frame holds it; the rest has no layout in the spec,
nor has the correction status of the last 16 bytes.  DEDUCED, log entry 101. -/
def Dev.diagLane (d : Dev) (kind n o : Nat) : Byte :=
  let free := Config.diagByte kind (d.diagObject kind n) o
  if kind = 0 && decide (o < 240) then
    match d.cellOwner n with
    | some x => match d.frame? x.1 with
      | some f => f.payload.getD (256 * x.2 + o) free
      | none => free
    | none => free
  else free

/-- `n` bytes of the diagnostic window from an address: the objects as they stand, and zeros beyond the last
object of the kind.  DEDUCED, log entry 101. -/
def Dev.diagRead (d : Dev) (n a : Nat) : List Byte :=
  let sel := baseMem + 0x80
  (List.range n).map fun i =>
    let o := a + i - diagBase
    if d.diagShown (a + i) then
      d.diagLane (d.regBits sel 63 60) (d.regBits sel 21 0 + o / 256) (o % 256)
    else 0

/-- HOWLINK_MEM_ACCESS (R290).  DEDUCED, log entry 101. -/
def execHowlinkMemAccess (m : MemAccess) (s : State) : Host.Outcome State Fault Refusal :=
  let d := s.d
  let a := m.addr.toNat
  let n := if m.write then m.data.length else m.len
  goto s <|
    if !d.awake || !d.hl.up then d
    else if diagBase ≤ a && decide (a + n ≤ diagBase + 0x1000) && !m.write then
      d.send (.memData (d.diagRead n a))
    else match d.memRight a n, m.write with
      | .full, w =>
        let d1 := if m.cache then (linesOf a n).foldl (fun d l => d.track l) d else d
        if w then d1.hostWrite a m.data else d1.hostRead a n
      | .readOnly, false => d.hostRead a n
      | _, w => if w then d.memDenied a else (d.memDenied a).send .memError

/-- SNOOP_RESPONSE: the writes that wait for the line proceed, and those behind them (R287, R291). -/
def execSnoopResponse (line : BitVec 52) (s : State) : Host.Outcome State Fault Refusal :=
  let d := s.d
  let l := line.toNat
  goto s <|
    if !d.awake then d
    else
      { d with mem := { d.mem with
        waits := d.mem.waits.map fun (w : WaitWrite) => if w.line == l then { w with asked := false } else w } }.drainWrites

/-! ### Pages (R295) -/

/-- A GDDR7 device has failed: its 1/16 of every region reads uncorrectable, and NEAR_OK is 0 (R490). -/
def Dev.failDevice (d : Dev) (n : Nat) : Dev :=
  let d1 := { d with mem := { d.mem with failedDevs := d.mem.failedDevs ++ [n], nearOk := false } }
  (d1.event (.serviceDegraded 0x0A n 2 (64 * (16 - d1.mem.failedDevs.length)))).faultRec 4 0x0A n 0 0 0 0

/-- A failing page retires, or with the pool empty stays in service; then the failure may be that of its device
(R490).  DESIGN CHOICE, log entry 103. -/
def Dev.failPage (d : Dev) (a : Nat) : Dev :=
  let dev := unitDevice a
  if !d.svRuns 2 then d
  else if d.poolFree == 0 && !d.mem.failedDevs.contains dev && Config.deviceFailed dev d.now then d.failDevice dev
  else if d.poolFree == 0 then
    (d.event (.serviceDegraded 9 0 1 1024)).faultRec 4 9 0 0 0 0 (pageOf a)
  else d.startRetire a

/-- PAGE_COPY_COMPLETE: the oldest copy's remap takes effect (R295).  DEDUCED, log entry 104. -/
def execPageCopyComplete (s : State) : Host.Outcome State Fault Refusal :=
  let d := s.d
  goto s <|
    match d.mem.copyPages with
    | [] => d
    | p :: rest =>
      if !d.awake then d
      else
        let d1 := { d with mem := { d.mem with
          copyPages := rest, retiredPages := d.mem.retiredPages.filter (fun x => x != p) ++ [p] } }
        ((d1.bump (ctrMem 0x110)).event (.pageRetired p d1.poolFree)).faultRec 3 9 0 0 2 d1.poolFree p

/-- PAGE_CORR_LIMIT (R295).  DEDUCED, log entry 104. -/
def execPageCorrLimit (addr : BitVec 52) (s : State) : Host.Outcome State Fault Refusal :=
  let d := s.d
  let a := addr.toNat
  goto s <|
    if !d.awake || !d.svRuns 2 || !d.inNear a 1 || d.regBits (baseMem + 8) 15 0 == 0 then d
    else (d.faultRec 1 9 0 0 2 d.poolFree (pageOf a)).failPage a

/-! ### Expanders (R302, R303, R306) -/

/-- The SPARE expander, if one is present. -/
def Dev.spareExpander (d : Dev) : Option Nat := [0, 1, 2, 3].find? fun e => (d.expander e).role == 2

def Dev.setRole (d : Dev) (e r : Nat) : Dev := d.setExpander e { d.expander e with role := BitVec.ofNat 3 r }

/-- Starts a predictive copy. -/
def Dev.startExpCopy (d : Dev) (e f : Nat) : Dev :=
  let d1 := d.setRole f 3
  { d1 with mem := { d1.mem with copyExp := some (e, f) } }

/-- Puts an expander into the place of another in the stripe order. -/
def Dev.restripe (d : Dev) (e f : Nat) : Dev :=
  { d with mem := { d.mem with stripes := d.mem.stripes.map fun x => if x == e then f else x } }

/-- EXPANDER_COPY_COMPLETE (R302). -/
def execExpanderCopyComplete (s : State) : Host.Outcome State Fault Refusal :=
  let d := s.d
  goto s <|
    match d.mem.copyExp with
    | none => d
    | some (e, f) =>
      if !d.awake then d
      else
        let d1 := (((d.restripe e f).setRole f 1).setRole e 0)
        let d2 := { d1 with mem := { d1.mem with copyExp := none } }
        ((d2.bump (ctrMem 0x140)).event (.expSwapDone e)).faultRec 3 0x0B e 0 2 0 f

/-- Every slot of every shard is LOST (R303). -/
def Dev.loseEverySlot (d : Dev) : Dev := d.thr.shards.foldl (fun d e => d.loseSlots e.1 e.2 0) d

/-- What an expander held is gone. -/
def Dev.emptyStripes (d : Dev) (e : Nat) : Dev :=
  let gone := fun (a : Nat) => decide (granBase ≤ a) && d.stripePort a == e
  { d with mem := { d.mem with
    cells := d.mem.cells.filter fun c => !gone c.1,
    badLines := d.mem.badLines.filter fun l => !gone (64 * l) } }

/-- EXPANDER_LOSS: a copy from it is abandoned, and its target is the spare again (R303).  SV2 maps the spare;
with SV2 stopped, or with no spare, the granary is closed.  DEDUCED, log entry 151. -/
def execExpanderLoss (e : Fin 4) (s : State) : Host.Outcome State Fault Refusal :=
  let d := s.d
  goto s <|
    if !d.awake || (d.expander e.val).role ≠ 1 then d
    else
      let d1 := match d.mem.copyExp with
        | some (a, f) =>
          if a = e.val then
            let y := d.setRole f 2
            { y with mem := { y.mem with copyExp := none } }
          else d
        | none => d
      let d2 := ((d1.loseEverySlot).emptyStripes e.val).setRole e.val 4
      match (if d2.svRuns 2 then d2.spareExpander else none) with
      | some f =>
        ((((d2.restripe e.val f).setRole f 1).event (.granaryLoss e.val true)).faultRec
          5 0x0B e.val 0 2 0 f).thrTidy
      | none =>
        let d2a := match d2.mem.copyExp with
          | some (_, f) => d2.setRole f 2
          | none => d2
        let d3 := { d2a with mem := { d2a.mem with granClosed := true, copyExp := none } }
        (((d3.event (.granaryLoss e.val false)).event (.serviceDegraded 0x0B e.val 1 0)).faultRec
          5 0x0B e.val 0 3 0 0).thrTidy

/-- SPARE_EXPANDER_LOSS: a copy to it is abandoned, and its source stays ACTIVE (R306). -/
def execSpareExpanderLoss (s : State) : Host.Outcome State Fault Refusal :=
  let d := s.d
  goto s <|
    match [0, 1, 2, 3].find? fun e => (d.expander e).role == 2 || (d.expander e).role == 3 with
    | none => d
    | some e =>
      if !d.awake then d
      else
        let d1 := d.setRole e 4
        { d1 with mem := { d1.mem with copyExp := none } }

/-! ### Uncorrectable data (R301, R304) -/

/-- Marks one map entry's slot LOST. -/
def Dev.loseEntry (d : Dev) (n : Nat) (s : ThrShard) (ix : Nat) (m : MapEnt) : Dev :=
  if m.lost then d
  else (d.setMapEnt s ix { m with lost := true }).modShard n fun s => { s with lost := s.lost + 1 }

/-- An uncorrectable read in the granary: the slot that holds the address is LOST. -/
def Dev.uncorrGranary (d : Dev) (a : Nat) : Dev :=
  let d1 := d.faultRec 5 0x0B (d.stripePort a) 0 0 d.spareExpander.isSome.toNat a
  d1.thr.shards.foldl (fun d e =>
    let bytes := d.shardSlotBytes e.2
    let base := e.2.cfg.stateBase.toNat
    if bytes = 0 || a < base || base + (e.2.home + e.2.peer) * bytes ≤ a then d
    else match d.indexOfSlot e.2 ((a - base) / bytes) with
      | some ix => d.loseEntry e.1 e.2 ix (d.mapEnt e.2 ix)
      | none => d) d1

/-- A choice among things of a list, or none of them, by a free value: the spec gives no place in its
region to a chunk, a copy or a frame.  DEDUCED, log entry 103. -/
def Dev.pick {α : Type} (d : Dev) (l : List α) : Dev × Option α :=
  let r := d.draw
  (r.2, l[r.1.toNat % (l.length + 1)]?)

/-- Open chunks of spilled contexts. -/
def Dev.spillChunks (d : Dev) : List (Nat × Chunk) :=
  d.red.ctxs.flatMap fun e => if e.2.spilled then e.2.chunks.map fun x => (e.1, x) else []

/-- A chunk whose park entry reads uncorrectable is left unchanged, as R266 states. -/
def Dev.uncorrPark (d : Dev) (p : Parked) : Dev :=
  match d.shardOfCtx p.ctx.toNat with
  | none => d.unpark p
  | some (n, s) => match d.job? s.cfg.jent.toNat with
    | none => d.unpark p
    | some x =>
      let ix := (s.place x.phase p.seq).1
      let m := d.mapEnt s ix
      if m.lost then (d.unpark p).bump (ctrThr 0x158)
      else ((d.stampSlot n s ix { m with stamp := p.phase, stale := true }).bump (ctrThr 0x110)).sendWeights p true

/-- A map entry is rewritten: derived anew, with STAMP = PHASE - 1 and LOST. -/
def Dev.rewriteEntry (d : Dev) (n : Nat) (s : ThrShard) (ix : Nat) : Dev :=
  match d.ctx? s.cfg.ctx.toNat, d.job? s.cfg.jent.toNat with
  | some c, some x =>
    let b := d.inSets c.e s.cfg.ctx.toNat ix
    let below := d.countSets c.e s.cfg.ctx.toNat ix
    let valid := b.1 || b.2
    let was := d.mapEnt s ix
    let m : MapEnt := {
      valid := valid, peer := !b.1 && b.2, lost := true, stale := false,
      slot := if valid then below.1 + below.2 else 0, stamp := x.phase - 1 }
    (d.setMapEnt s ix m).modShard n fun s => { s with lost := if valid && !was.lost then s.lost + 1 else s.lost }
  | _, _ => d

/-- A slot's state in staging reads uncorrectable: it is read from the granary once more (R304). -/
def Dev.restage (d : Dev) (p : Parked) : Dev :=
  match d.shardOfCtx p.ctx.toNat with
  | none => d
  | some (_, s) => match d.job? s.cfg.jent.toNat with
    | some x => if d.mem.granClosed then d else d.setParked { p with state := d.slotState x s p }
    | none => d

/-- A frame of a mirror log is rebuilt from the slot's current state and sent under its sequence; from a closed
granary, which the device does not read (R283), it cannot be. -/
def Dev.rebuildFrame (d : Dev) (j : Nat) (f : MFrame) : Dev :=
  let sh := (d.shardsOf j).find? fun e => e.2.cfg.ctx.toNat == bitsOf f.ksf.toNat 63 48
  let payload := match sh with
    | some (_, s) =>
      if f.sub = 1 then d.devRead (s.cfg.stateBase.toNat + bitsOf f.ksf.toNat 47 0) f.payload.length else f.payload
    | none => f.payload
  let g := { f with payload := payload }
  (d.modJob j fun x => { x with log := x.log.map fun y => if y.seq == f.seq then g else y }).sendMirror j g

/-- An uncorrectable read of a region of the near tier.  DEDUCED, log entry 103. -/
def Dev.uncorrRegion (d : Dev) (a : Nat) (k : RegionKind) : Dev :=
  let lost := fun (d : Dev) (action : Nat) => d.faultRec 5 9 0 0 action d.poolFree a
  match k with
  | .host => lost d 0
  | .spill =>
    let r := d.pick d.spillChunks
    match r.2 with
    | some (cid, x) => lost (r.1.abandonChunk cid x (members x.bits)) 8
    | none => r.1
  | .linger =>
    let r := d.pick d.lingering
    match r.2 with
    | some (cid, seq, _) => lost (r.1.endLinger cid seq) 0
    | none => r.1
  | .park =>
    let r := d.pick (d.thr.park.filter fun p => decide (p.st = .staging))
    match r.2 with
    | some p => lost (r.1.uncorrPark p) 0
    | none => r.1
  | .staging =>
    let r := d.pick (d.thr.park.filter fun p => decide (p.st = .staging))
    match r.2 with
    | some p => r.1.restage p
    | none => r.1
  | .mlog =>
    let r := d.pick (d.thr.jobs.flatMap fun e => e.2.log.map fun f => (e.1, f))
    match r.2 with
    | some (j, f) => if r.1.mem.granClosed && f.sub = 1 then r.1 else r.1.rebuildFrame j f
    | none => r.1
  | .map =>
    match d.thr.shards.find? fun e => decide (e.2.cfg.mapBase.toNat ≤ a ∧ a < e.2.mapAddr e.2.cfg.cps.toNat) with
    | some (n, s) => lost (d.rewriteEntry n s ((a - s.cfg.mapBase.toNat) / 8)) 7
    | none => d

/-- A line reads uncorrectable until it is written. -/
def Dev.markBad (d : Dev) (a : Nat) : Dev :=
  if d.mem.badLines.contains (lineOf a) then d
  else { d with mem := { d.mem with badLines := d.mem.badLines ++ [lineOf a] } }

/-- NEAR_TIER_UNCORRECTABLE_READ: a line of the near tier or of the granary (R304).
DESIGN CHOICE, log entry 127. -/
def execNearTierUncorrectableRead (addr : BitVec 52) (s : State) : Host.Outcome State Fault Refusal :=
  let d := s.d
  let a := addr.toNat
  goto s <|
    if !d.awake then d
    else if d.inGran a 1 then (((d.countUncorr a).markBad a).uncorrGranary a).thrTidy
    else if d.inNear a 1 then
      let d1 := ((d.countUncorr a).markBad a).failPage a
      match d1.regionOf a 1 with
      | some (_, r) => (d1.uncorrRegion a r.kind).thrTidy
      | none => d1
    else d

/-! ### Status registers (R308) -/

/-- The lane's place in the remapped set: the spare stands where the lane it replaces stood. -/
def Howlink.place (h : Howlink) (lane : Nat) : Nat := if lane = 16 then h.failedLane.toNat else lane

/-- The lane carries data.  DEDUCED, log entry 77. -/
def Howlink.carries (h : Howlink) (lane : Nat) : Bool :=
  (if h.spareUsed then lane != h.failedLane.toNat else lane != 16) &&
  (h.lanes == 16 || h.lanes == 8 && ((8 ≤ h.place lane : Bool) == h.upper))

def Dev.g7StatusReg (d : Dev) : Nat :=
  (d.poolFree % 65536) <<< 32 ||| d.mem.rate <<< 16 ||| d.mem.density <<< 8 ||| d.mem.nearOk.toNat <<< 7

def Dev.hlStatusReg (d : Dev) : Nat :=
  (if d.hl.up then d.hl.lanes else 0) <<< 16 ||| d.hl.verMismatch.toNat <<< 11 |||
  (d.hl.spareUsed && d.hl.failedLane != 16 && d.hl.carries 16).toNat <<< 10 ||| d.hl.up.toNat <<< 9 ||| d.hl.failedLane.toNat

def Dev.cxlStatusReg (d : Dev) (e : Nat) : Nat :=
  let x := d.expander e
  x.capGib.toNat <<< 32 ||| x.role.toNat <<< 24 ||| x.rate.toNat <<< 16 ||| x.width.toNat <<< 8

/-! ### Commands (R307) -/

/-- The number of a kind in replies: its row of R296 from 1; 0 is an empty region.  DEDUCED, log entry 102. -/
def RegionKind.num : RegionKind → Nat
  | .host => 1 | .spill => 2 | .linger => 3 | .park => 4 | .staging => 5 | .mlog => 6 | .map => 7

/-- MEM_REGION_READ (R307).  DEDUCED, log entry 102. -/
def execMemRegionRead (c : CmdCtx) (s : State) : Host.Outcome State Fault Refusal :=
  goto s <| s.d.runCmd (.memRegionRead c) c 0x0702 .observer fun d =>
    answerOk d (((List.range 16).flatMap fun n => match Tab.find d.mem.regions n with
      | some r => [RegionKind.num r.kind, r.base, r.size]
      | none => [0, 0, 0]) ++ [granBase, d.granSize])

/-- MEM_PAGE_RETIRE (R295): SV2 retires pages.  DEDUCED, log entry 142. -/
def execMemPageRetire (c : CmdCtx) (addr : Dword) (s : State) : Host.Outcome State Fault Refusal :=
  goto s <| s.d.runCmd (.memPageRetire c addr) c 0x0703 .operator fun d =>
    let p := pageOf addr.toNat
    if !d.inNear addr.toNat 1 then answer d .badParam
    else if d.mem.retiredPages.contains p || d.mem.copyPages.contains p then answer d .conflict
    else if d.poolFree == 0 then answer d .noSpace
    else needs 2 (fun d => answer (d.startRetire addr.toNat) .ok) d

/-- MEM_PAGE_LIST (R307). -/
def execMemPageList (c : CmdCtx) (first count : BitVec 16) (s : State) : Host.Outcome State Fault Refusal :=
  goto s <| s.d.runCmd (.memPageList c first count) c 0x0704 .observer fun d =>
    if 256 < count.toNat then answer d .badParam
    else answerOk d ((d.mem.retiredPages.drop first.toNat).take count.toNat)

/-- A slot's state is restored: LOST goes, STAMP is set, and the slot is mirrored as an update.
DEDUCED, log entry 97. -/
def Dev.restoreSlot (d : Dev) (n : Nat) (s : ThrShard) (ix : Nat) (m : MapEnt) (phase : Word) : Dev :=
  let d1 := (d.setMapEnt s ix { m with lost := false, stamp := phase, stale := false }).modShard n fun s =>
    { s with lost := s.lost - 1, here := s.here.filter (fun i => i != ix) }
  match d1.job? s.cfg.jent.toNat with
  | none => d1
  | some x =>
    if x.otherInSync s.cfg.ctx.toNat m.slot then
      d1.mirrorSlot s.cfg.jent.toNat s m.slot (d1.shardSlotBytes s) phase (s.seqOf x.phase ix phase)
    else d1

/-- MEM_SLOT_RESTORED (R307).  DEDUCED, log entry 97. -/
def execMemSlotRestored (c : CmdCtx) (shard : BitVec 16) (j phase : Word) (s : State) :
    Host.Outcome State Fault Refusal :=
  goto s <| s.d.runCmd (.memSlotRestored c shard j phase) c 0x0706 .operator fun d =>
    match Tab.find d.thr.shards shard.toNat with
    | none => answer d .notFound
    | some sh =>
      if d.claimedElse c.src (.shard shard.toNat) then answer d .conflict
      else if d.mem.granClosed then answer d .lost
      else if sh.cfg.cps.toNat ≤ j.toNat then answer d .badParam
      else
        let m := d.mapEnt sh j.toNat
        if !m.valid || !m.lost then answer d .badParam
        else
          let full := match d.job? sh.cfg.jent.toNat with
            | some x => x.otherInSync sh.cfg.ctx.toNat m.slot &&
              decide (logLimit < x.log.length + slotFrames (d.shardSlotBytes sh))
            | none => false
          if full then answer d .conflict
          else answer ((d.restoreSlot shard.toNat sh j.toNat m phase).thrTidy) .ok

/-- MEM_STATUS (R307). -/
def execMemStatus (c : CmdCtx) (s : State) : Host.Outcome State Fault Refusal :=
  goto s <| s.d.runCmd (.memStatus c) c 0x0707 .observer fun d =>
    answerOk d ([d.g7StatusReg, d.hlStatusReg] ++ [0, 1, 2, 3].map fun e => d.cxlStatusReg e)

end Sys2Proof.Machine
end

