-- ==== Sys2Proof/Machine/Cores.lean ====
section
/-! DEFINITION. Faults at run time (chapter "Faults, spares and wear-out"): reduction cores and their
spares (R485 to R487), store banks (R131, R132), and the commands of R500. -/

namespace Sys2Proof.Machine

/-! ### Positions and spares (R15, R485 to R487, R491) -/

/-- Positions that are not empty; one whose core is stopped for its retest is filled. -/
def Dev.filledPositions (d : Dev) : Nat :=
  ((List.range 64).filter fun n => decide ((d.corePos n).st ≠ .empty)).length

/-- Checks the CORES floor. -/
def Dev.checkCores (d : Dev) (n : Nat) : Dev :=
  if d.filledPositions < 56 then d.crossFloor 1 d.filledPositions 1 n else d

/-- The cluster of a position has no filled position left: it is closed. -/
def Dev.closeCluster (d : Dev) (k : Nat) : Dev :=
  if d.clusterClosed k then
    d.event (.clusterClosed k (d.red.ctxs.filter fun e => clusterOf e.1 == k).length
      (d.red.sheaves.filter fun e => e.1 / 1024 == k).length)
  else d

/-- A failed position takes its spare.  DEDUCED, log entry 107. -/
def Dev.fillPosition (d : Dev) (n : Nat) : Dev :=
  let s := spareOfPos n
  let d1 := (d.setCorePos n { st := .filled, spare := s + 1 }).setSpareCore s 1
  (d1.event (.spareUsed 1 n (64 + s) 0)).faultRec 3 1 n 0 2 0 (64 + s)

/-- A failed position is left empty.  DEDUCED, log entry 107. -/
def Dev.emptyPosition (d : Dev) (n : Nat) : Dev :=
  let d1 := d.setCorePos n { d.corePos n with st := .empty }
  let d2 := (d1.event (.serviceDegraded 1 n 1 (16 * d1.filledPositions))).faultRec 4 1 n 0 3 0 0
  (d2.closeCluster (n / 8)).checkCores n

/-- The chunk's update is left out, as R266 states. -/
def Dev.failUpdate (d : Dev) (n : Nat) (ctx : BitVec 16) (seq : Word) : Dev :=
  match d.thr.park.find? fun p => p.ctx == ctx && p.seq == seq && decide (p.st = .staging) with
  | some p => ((d.uncorrPark p).faultRec 5 1 n 0 0 (d.coreLeft n) (ctx.toNat <<< 32 ||| seq.toNat)).thrTidy
  | none => d

/-- The chunk is abandoned as at the gather limit. -/
def Dev.failChunk (d : Dev) (n : Nat) (ctx : BitVec 16) (seq : Word) : Dev :=
  match d.chunk? ctx.toNat seq with
  | some (_, x) =>
    (d.abandonChunk ctx.toNat x (members x.bits)).faultRec 5 1 n 0 8 (d.coreLeft n) (ctx.toNat <<< 32 ||| seq.toNat)
  | none => d

/-- A DIAG_SPARE_FORCE waits for the position (R500). -/
def Dev.forced (d : Dev) (n : Nat) : Bool := d.cmd.held.any fun h => h.what == .spareCore n

/-- SPARE_IDLE_TEST (R486): a spare that has failed its last test counts as used. -/
def execSpareIdleTest (sp : Fin 4) (pass : Bool) (s : State) : Host.Outcome State Fault Refusal :=
  let d := s.d
  goto s <|
    if !d.awake || !d.svRuns 2 || d.spareCore sp.val = 1 then d
    else d.setSpareCore sp.val (if pass then 0 else 2)

/-! ### Store banks (R21, R131, R132) -/

def Dev.takeBankSpare (d : Dev) (die : Nat) : Dev :=
  if die = 0 then { d with store := { d.store with spare0 := d.store.spare0 - 1 } }
  else { d with store := { d.store with spare1 := d.store.spare1 - 1 } }

/-- Checks the STORE floor. -/
def Dev.checkStore (d : Dev) (b : Nat) : Dev :=
  if d.activeBanks ≤ 921 then d.crossFloor 2 d.activeBanks 2 b else d

/-- The lowest spare bank of a die, as 0 to 31, that is good and has not been taken. -/
def Store.spareBank (s : Store) (die : Nat) : Nat :=
  let taken := s.slots.bankOf.flatMap fun e => e.2
  ((List.range 16).map fun i => 16 * die + i).find? (fun i => !taken.contains (1024 + i) &&
    !s.slots.badSpares.contains i) |>.getD (16 * die)

/-- A position's number is allocated in a spare bank of its die from now on (R131). -/
def Dev.mapSpare (d : Dev) (b : Nat) : Dev :=
  let sp := 1024 + d.store.spareBank (dieOf b)
  let d1 := d.takeBankSpare (dieOf b)
  let s := d1.store.slots
  { d1 with store := { d1.store with
    swapped := d1.store.swapped ++ [b],
    slots := { s with bankOf := Tab.put s.bankOf b (sp :: Tab.get s.bankOf b []) } } }

/-- Starts to replace a bank, or closes its position. -/
def Dev.replaceBank (d : Dev) (b : Nat) : Dev :=
  let die := dieOf b
  let left := d.bankSpares die
  if left = 0 then
    let d1 := { d with store := { d.store with closed := d.store.closed ++ [b] } }
    ((d1.event (.storeCapacity b d1.activeBanks d1.sharedSize)).faultRec 4 2 b 0 3 0 0).checkStore b
  else
    let d1 := d.mapSpare b
    let d2 := { d1 with store := { d1.store with replacing := some b } }
    d2.faultRec 3 2 b 0 2 (left - 1) (d.store.spareBank die)

/-! ### One spare swap at a time (R29) -/

/-- The block that reports a failure: its cluster, its SRAM die after the eight clusters, or the expanders. -/
def Failure.block (f : Failure) : Nat := if f.isBank then 8 + dieOf f.ix else if f.ix < 64 then f.ix / 8 else 10

/-- The failure that SV2 serves next: of those detected in the earliest MGMT clock, the one whose block the
rotating pointer comes to first. -/
def FaultSt.nextFailure (s : FaultSt) : Option Failure :=
  match s.failures with
  | [] => none
  | f :: r =>
    let same := f :: r.filter fun x => x.mgmt == f.mgmt
    match (List.range 11).find? fun i => same.any fun x => x.block == (s.failPtr + 1 + i) % 11 with
    | some i => same.find? fun x => x.block == (s.failPtr + 1 + i) % 11
    | none => some f

/-- A failed position takes its spare, or is left empty, and a DIAG_SPARE_FORCE of it ends (R486, R487). -/
def Dev.swapCore (d : Dev) (n : Nat) : Dev :=
  if d.spareCore (spareOfPos n) = 0 then (d.fillPosition n).finishFor (.spareCore n) .ok .empty
  else (d.emptyPosition n).finishFor (.spareCore n) .notFound .empty

/-- A failing bank is replaced or closed; the count that passed its limit is recorded first (R480). -/
def Dev.swapBank (d : Dev) (b : Nat) (limit : Bool) : Dev :=
  if d.store.closed.contains b then d
  else if limit then (d.faultRec 1 2 b 0 2 (d.bankSpares (dieOf b)) 0).replaceBank b
  else d.replaceBank b

/-- A spare swap takes time: a bank's replacement, or an expander's copy. -/
def Dev.swapping (d : Dev) : Bool := d.store.replacing.isSome || d.mem.copyExp.isSome

/-- An expander's copy to the spare begins, if it is still wanted and a spare is left (R302). -/
def Dev.swapExpander (d : Dev) (e : Nat) (limit : Bool) : Dev :=
  match d.spareExpander with
  | none => d
  | some f =>
    if (d.expander e).role ≠ 1 then d
    else
      let d1 := d.startExpCopy e f
      if limit then d1.faultRec 1 0x0B e 0 2 0 f else d1

/-- What a failure asks for. -/
def Dev.serveFailure (d : Dev) (f : Failure) : Dev :=
  if f.isBank then d.swapBank f.ix f.limit
  else if 64 ≤ f.ix then d.swapExpander (f.ix - 64) f.limit
  else if (d.corePos f.ix).st = .stopped then d.swapCore f.ix
  else d

/-- Serves the failures that wait, until one's swap takes time. -/
def Dev.nextSwaps : Nat → Dev → Dev
  | 0, d => d
  | n + 1, d =>
    if d.swapping || !d.svRuns 2 then d
    else match d.faults.nextFailure with
      | none => d
      | some f =>
        Dev.nextSwaps n ({ d with faults := { d.faults with
          failures := d.faults.failures.erase f, failPtr := f.block } }.serveFailure f)

/-- SV2 serves what waits. -/
def Dev.serveFailures (d : Dev) : Dev := d.nextSwaps d.faults.failures.length

/-- CORE_CHECK_FAILURE (R485): the core stops; an operation whose replay failed is given up.  A word of core SRAM that
fails its code stops no core on its own (R487). -/
def execCoreCheckFailure (k q : Fin 8) (work : CoreWork) (replayOk : Bool) (s : State) :
    Host.Outcome State Fault Refusal :=
  let d := s.d
  let n := 8 * k.val + q.val
  let given := fun (f : Dev → Dev) => if replayOk then d.stopCore n else f (d.stopCore n)
  goto s <|
    if !d.awake || (d.corePos n).st ≠ .filled then d
    else match work with
      | .idle => d.stopCore n
      | .chunk ctx seq => given fun d => d.failChunk n ctx seq
      | .update ctx seq => given fun d => d.failUpdate n ctx seq
      | .sram row ctx seq => (d.coreSramFault n row.toNat ctx seq).serveFailures

/-- EXPANDER_CORR_LIMIT (R302): the swap waits behind one that runs (R29). -/
def execExpanderCorrLimit (e : Fin 4) (s : State) : Host.Outcome State Fault Refusal :=
  let d := s.d
  goto s <|
    if !d.awake || !d.svRuns 2 || (d.expander e.val).role ≠ 1 || d.spareExpander.isNone || d.mem.copyExp.isSome ||
        !d.regBit (baseMem + 0x40) 0 then d
    else (d.detect false (64 + e.val) true).serveFailures

/-- An expander's swap runs, or waits for SV2. -/
def Dev.expSwapOwed (d : Dev) : Bool :=
  d.mem.copyExp.isSome || d.faults.failures.any fun f => !f.isBank && decide (64 ≤ f.ix)

/-- MEM_EXP_SWAP (R302): SV2 starts swaps, one at a time (R29).  DEDUCED, log entry 142. -/
def execMemExpSwap (c : CmdCtx) (port : Byte) (s : State) : Host.Outcome State Fault Refusal :=
  goto s <| s.d.runCmd (.memExpSwap c port) c 0x0705 .operator fun d =>
    if 4 ≤ port.toNat then answer d .badParam
    else if d.expSwapOwed then answer d .conflict
    else if d.spareExpander.isNone then answer d .notFound
    else if (d.expander port.toNat).role ≠ 1 then answer d .conflict
    else needs 2 (fun d => answer (d.detect false (64 + port.toNat) false).serveFailures .ok) d

/-- BANK_REPLACEMENT_START: one swap runs at a time, and a failure found meanwhile waits (R29, R131). -/
def execBankReplacementStart (b : Fin 1024) (cause : BankCause) (s : State) : Host.Outcome State Fault Refusal :=
  let d := s.d
  let limit := decide (cause = .corrLimit)
  let off := limit && d.regBits (baseStore + 0x1C) 15 0 == 0
  goto s <|
    if !d.awake || !d.svRuns 2 || d.store.closed.contains b.val || off then d
    else (d.detect true b.val limit).serveFailures

/-- BANK_RETIRE: the failing bank holds no live cell any more, and SV2 serves what waits (R29, R131). -/
def execBankRetire (s : State) : Host.Outcome State Fault Refusal :=
  let d := s.d
  goto s <|
    match d.store.replacing with
    | none => d
    | some b =>
      let s1 := d.store.slots
      if !d.awake || !d.svRuns 2 || !(s1.liveIn (s1.bankBefore b)).isEmpty then d
      else
        let d1 := { d with store := { d.store with replacing := none } }
        ((d1.bump (ctrStore 0x138)).finishFor (.spareBank b) .ok .empty).serveFailures

/-- CORE_RETEST_COMPLETE (R485, R486): a failed position waits while a swap runs (R29, R499). -/
def execCoreRetestComplete (k q : Fin 8) (pass : Bool) (s : State) : Host.Outcome State Fault Refusal :=
  let d := s.d
  let n := 8 * k.val + q.val
  let x := d.corePos n
  let recent := match x.prevFail with
    | some t => decide (d.now ≤ t + 1000 * clkMs)
    | none => false
  let waits := d.faults.failures.any fun f => !f.isBank && f.ix == n
  goto s <|
    if !d.awake || !d.svRuns 2 || x.st ≠ .stopped || waits then d
    else if pass && !recent && !d.forced n then
      (d.setCorePos n { x with st := .filled }).faultRec 2 1 n 0 1 (d.coreLeft n) 0
    else (d.detect false n false).serveFailures

/-! ### Commands (R500) -/

/-- DIAG_FAULT_READ (R500). -/
def execDiagFaultRead (c : CmdCtx) (first : Word) (count : BitVec 16) (s : State) :
    Host.Outcome State Fault Refusal :=
  goto s <| s.d.runCmd (.diagFaultRead c first count) c 0x0C01 .observer fun d =>
    if 64 < count.toNat then answer d .badParam
    else
      let held := d.faults.log.reverse.filter fun r => decide (0 ≤ seqDist r.fseq first)
      if held.isEmpty then answer d .notFound
      else (d, some (.ok, .bytes ((held.take count.toNat).flatMap FaultRec.bytes)))

/-- DIAG_SPARE_READ (R500). -/
def execDiagSpareRead (c : CmdCtx) (s : State) : Host.Outcome State Fault Refusal :=
  goto s <| s.d.runCmd (.diagSpareRead c) c 0x0C02 .observer fun d =>
    answerOk d ((List.range 4).map d.spareCore ++ [d.store.spare0, d.store.spare1] ++
      (List.range 80).map (fun i => (d.spare (i / 5) (i % 5)).st) ++
      [d.hl.spareUsed.toNat, d.poolFree, d.spareExpander.getD 4])

/-- DIAG_SELFTEST_READ: the eight items of R457 in their order. -/
def execDiagSelftestRead (c : CmdCtx) (item : Byte) (s : State) : Host.Outcome State Fault Refusal :=
  goto s <| s.d.runCmd (.diagSelftestRead c item) c 0x0C03 .observer fun d =>
    if 8 ≤ item.toNat then answer d .badParam
    else
      let x := Tab.get d.boot.items item.toNat {}
      answerOk d ([x.repaired, x.degraded, x.fatal] ++ x.units)

/-- The fullest count of the FIBER floor over limits: the excess count of each fiber and campus bank. -/
def Dev.fiberCounts (d : Dev) : List Nat :=
  (List.range 64).map (fun i => d.badCount (fiberPorts (i / 4) (i % 4))) ++
  [0, 15].map fun e => d.badCount ((bankPorts e).filter fun q => isCampus (d.port q).mode)

/-- DIAG_EOL_READ (R500). -/
def execDiagEolRead (c : CmdCtx) (s : State) : Host.Outcome State Fault Refusal :=
  goto s <| s.d.runCmd (.diagEolRead c) c 0x0C04 .observer fun d =>
    answerOk d ([d.filledPositions, (d.faults.eol.getLsbD 0).toNat, d.activeBanks,
      (d.faults.eol.getLsbD 1).toNat, (d.faults.eol.getLsbD 2).toNat] ++ d.fiberCounts)

/-- DIAG_SPARE_FORCE: the unit is taken as failed; the reply waits for the end of the swap (R500).  SV2 makes
the swap, and no other core does where it has stopped (R23): the answer is then INTERNAL (R489).
DEDUCED, log entry 142. -/
def execDiagSpareForce (c : CmdCtx) (isBank : Bool) (ix : BitVec 16) (s : State) :
    Host.Outcome State Fault Refusal :=
  goto s <| s.d.runCmd (.diagSpareForce c isBank ix) c 0x0C05 .operator fun d =>
    let n := ix.toNat
    if (if isBank then 1024 else 64) ≤ n then answer d .badParam
    else needs 2 (fun d =>
      if isBank then
        (if d.store.replacing.isSome || d.faults.failures.any (fun f => f.isBank) then answer d .conflict
         else if d.store.closed.contains n || d.bankSpares (dieOf n) = 0 then answer d .notFound
         else (if d.swapping then d.detect true n false else d.replaceBank n).holdReply c 0x0C05 (.spareBank n))
      else if (List.range 64).any fun i => decide ((d.corePos i).st = .stopped) then answer d .conflict
      else if (d.corePos n).st ≠ .filled || d.spareCore (spareOfPos n) ≠ 0 then answer d .notFound
      else (d.setCorePos n { d.corePos n with st := .stopped }).holdReply c 0x0C05 (.spareCore n)) d

/-- Words of an array that DIAG_INJECT names (log entry 20).  DESIGN CHOICE, log entry 20. -/
def injectSize (array : Nat) : Nat :=
  match array with
  | 0 => 4194304
  | 1 => 1048576
  | 2 => 2097152
  | 3 => 4194304
  | 0x10 => 4096
  | 0x11 => 264192
  | 0x12 => 65536
  | 0x13 => 4096
  | 0x14 => 1024
  | 0x20 => 8
  | 0x21 => 8
  | 0x22 => 64
  | 0x30 => 4096
  | _ => 0

/-- DIAG_INJECT: the next read of the word sees the error (R500); with one that the word holds already, it sees one of
the weight of both (R499). -/
def execDiagInject (c : CmdCtx) (array : Byte) (index : Word) (word : BitVec 16) (two : Bool) (s : State) :
    Host.Outcome State Fault Refusal :=
  let cls := if s.d.boot.st = .run then PrivClass.owner else .operator
  goto s <| s.d.runCmd (.diagInject c array index word two) c 0x0C06 cls fun d =>
    let table := decide (0x10 ≤ array.toNat ∧ array.toNat ≤ 0x14)
    if injectSize array.toNat ≤ index.toNat || table && decide (16 ≤ word.toNat) then answer d .badParam
    else
      let same := fun (y : Inject) => y.array == array.toNat && y.index == index.toNat && y.word == word.toNat
      let x : Inject := {
        array := array.toNat, index := index.toNat, word := word.toNat, two := two || d.faults.injects.any same }
      answer { d with faults := { d.faults with injects := d.faults.injects.filter (fun y => !same y) ++ [x] } } .ok

end Sys2Proof.Machine
end

