-- ==== Sys2Proof/Machine/Window.lean ====
section
/-! DEFINITION. Who reaches the register window in which device state (R528, R529), and the result of an
access. -/

namespace Sys2Proof.Machine

/-- What the window does with an access. -/
inductive WinGate where
  /-- No access can arrive. -/
  | silent
  /-- Dropped under R528: counted, a read returns zero. -/
  | drop
  | serve
  deriving DecidableEq, Repr

/-- The access comes from Howlink. -/
def RegActor.isHost : RegActor → Bool
  | .agent _ => true
  | .sv _ => false

/-- The offset lies in GLB, or in MBX (R527). -/
def inGlb (off : Nat) : Bool := decide (off < 0x100000)
def inMbx (off : Nat) : Bool := decide (0x100000 ≤ off ∧ off < 0x200000)
def inSec (off : Nat) : Bool := decide (0x200000 ≤ off ∧ off < 0x400000)

/-- The gate of R529; a supervisor core that has stopped makes no access. -/
def Dev.window (d : Dev) (a : RegActor) (off : Nat) (write : Bool) : WinGate :=
  let host := RegActor.isHost a
  let runs := match a with
    | .agent _ => true
    | .sv n => d.svRuns n.val
  if !d.awake || !runs then .silent
  else if host && !(d.hl.up && d.hl.trained) then .silent
  else match d.boot.st with
    | .powerOn => .silent
    | .selfTest => if !write && (inGlb off || inSec off) then .serve else .drop
    | .safeTalk | .boot => if write && host && !(inGlb off || inMbx off) then .drop else .serve
    | .ready | .run => .serve

/-- A write through the window. -/
def Dev.winWrite (d : Dev) (a : RegActor) (off : Nat) (f : Dev → Dev) : Dev :=
  match d.window a off true with
  | .silent => d
  | .drop => d.bump ctrRegDrop
  | .serve => f d

/-- A read through the window: `f` gives the value and what the read changes. -/
def Dev.winRead (d : Dev) (a : RegActor) (off : Nat) (f : Dev → Dev × Nat) : Dev :=
  match d.window a off false with
  | .silent => d
  | .drop => (d.bump ctrRegDrop).send (.regValue 0)
  | .serve => (f d).1.send (.regValue (BitVec.ofNat 64 (f d).2))

end Sys2Proof.Machine
end

