-- ==== Sys2Proof/Machine/Counters.lean ====
section
/-! DEFINITION. Counts of queues and partitions (R505), programmable counters (R507, R508), bandwidth
windows (R509, R510), and the commands of the glean buffer (R515, R517). -/

namespace Sys2Proof.Machine

/-! ### Queues and partitions (R505) -/

/-- The queue that CNT_QUEUE_READ names. -/
def queueOf : QueueName → Option (Dest × Nat)
  | .port p c => if p.toNat < 512 && c.toNat < 8 then some (.port p.toNat, c.toNat) else none
  | .cluster k c => if k.toNat < 8 && c.toNat < 8 then some (.cluster k.toNat, c.toNat) else none
  | .agent c => if c.toNat < 8 then some (.agent, c.toNat) else none

/-- Residence of a queue's oldest copy, in ns. -/
def Dev.oldestNs (d : Dev) (t : Dest) (cls : Nat) : Nat :=
  match (d.queue t cls).head? with
  | none => 0
  | some c => match d.frame? c.fid with
    | some f => d.residence f
    | none => 0

/-- CNT_QUEUE_READ (R505). -/
def execCntQueueRead (c : CmdCtx) (q : QueueName) (s : State) : Host.Outcome State Fault Refusal :=
  goto s <| s.d.runCmd (.cntQueueRead c q) c 0x0901 .observer fun d =>
    match queueOf q with
    | none => answer d .badParam
    | some (t, cls) =>
      let n := Tab.get d.store.qcount (qkey t cls) {}
      answerOk d [n.admitted.toNat, n.admCells.toNat, n.sent.toNat, n.refused.toNat, n.aged.toNat, n.marked.toNat,
        d.queueCells t cls, (d.queue t cls).length, d.oldestNs t cls]

/-- CNT_PART_READ (R505). -/
def execCntPartRead (c : CmdCtx) (part : BitVec 16) (s : State) : Host.Outcome State Fault Refusal :=
  goto s <| s.d.runCmd (.cntPartRead c part) c 0x0902 .observer fun d =>
    let p := part.toNat
    if 4096 ≤ p then answer d .badParam
    else match Tab.find d.fwd.cur.parts p with
      | none => answer d .notFound
      | some e =>
        if !e.valid then answer d .notFound
        else
          let n := Tab.get d.store.pcount p {}
          let r := d.partRes p
          answerOk d [n.frames.toNat, n.cells.toNat, n.refused.toNat, n.aged.toNat, d.partUse p .partRes,
            d.partUse p .shared, r.pmin, r.pmax]

/-! ### Programmable counters (R507, R508) -/

def offPevSel (n : Nat) : Nat := baseCnt + 0x200 + 8 * n

/-- A condition of R508 with its index; reserved codes and indexes out of range are never true. -/
def Dev.condition (d : Dev) (event index : Nat) : Bool :=
  let phys := fun (p : Nat) => decide (p < 512)
  match event with
  | 0x01 =>
    let mark := d.kmark (index % 8)
    decide (index < 4096) && mark != 0 && decide (mark ≤ d.queueCells (.port (d.logical (index / 8))) (index % 8))
  | 0x02 => phys index && (d.port index).held
  | 0x03 => phys index && (d.port index).st != .active
  | 0x04 => d.red.ctxs.any fun e => decide (e.2.st = .pending)
  | 0x05 => d.fwd.oldLive
  | 0x06 => decide (index < 16 ∧ 64 ≤ (Tab.get d.fwd.learnQ index []).length)
  | 0x07 => decide (index < 8) && (List.range 8).any fun c => !(d.queue (.cluster index) c).isEmpty
  | 0x08 => d.regionBytes .park != 0 &&
      (!d.parkFits 1 || d.red.ctxs.any fun e => e.2.chunks.any fun x => decide (x.st = .waitPark))
  | 0x09 => d.sharedUse == d.sharedSize
  | 0x0A => decide (d.time.st = .locked)
  | _ => false

/-- The condition that counter `n` selects. -/
def Dev.pevCondition (d : Dev) (n : Nat) : Bool :=
  d.condition (d.regBits (offPevSel n) 23 16) (d.regBits (offPevSel n) 15 0)

/-- One core clock of the counters: EDGE counts a condition that becomes true, LEVEL one that is.
DESIGN CHOICE, log entry 22. -/
def Dev.pevTick (d : Dev) : Dev :=
  let now := (List.range 64).filter d.pevCondition
  let hits := now.filter fun n => d.regBit (offPevSel n) 31 || !d.cnt.pevPrev.contains n
  { d with cnt := { d.cnt with
    pevPrev := now, pev := hits.foldl (fun t n => Tab.set t n (Tab.get t n 0 + 1) 0) d.cnt.pev } }

/-- A write to a selection register clears its counter. -/
def Dev.writePevSel (d : Dev) (n v : Nat) : Dev :=
  let d1 := match regAt (offPevSel n) with
    | some (r, o) => d.writeReg r o v
    | none => d
  let prev := d1.cnt.pevPrev.filter fun x => x != n
  { d1 with cnt := { d1.cnt with
    pev := Tab.del d1.cnt.pev n, pevPrev := if d1.pevCondition n then prev ++ [n] else prev } }

/-- CNT_PEV_SEL_WRITE (R507). -/
def execCntPevSelWrite (a : RegActor) (n : Fin 64) (v : Word) (s : State) : Host.Outcome State Fault Refusal :=
  goto s <| s.d.winWrite a (offPevSel n.val) fun d => d.writePevSel n.val v.toNat

/-- CNT_PEV_SET: as a write to CNT_PEV_SEL (R507). -/
def execCntPevSet (c : CmdCtx) (n : Byte) (level : Bool) (event : Byte) (index : BitVec 16) (s : State) :
    Host.Outcome State Fault Refusal :=
  goto s <| s.d.runCmd (.cntPevSet c n level event index) c 0x0906 .operator <| needs 3 fun d =>
    if 64 ≤ n.toNat then answer d .badParam
    else answer (d.writePevSel n.toNat (level.toNat <<< 31 ||| event.toNat <<< 16 ||| index.toNat)) .ok

/-! ### Bandwidth windows (R509, R510) -/

/-- W in microseconds. -/
def windowUs (win : Nat) : Nat :=
  let n := if win > 18 then 18 else win
  (if n % 3 = 0 then 1 else if n % 3 = 1 then 2 else 5) * 10 ^ (n / 3)

/-- One port's counts at the end of a full window: the last window, and a new peak. -/
def Bw.finish (w : Bw) (seq : BitVec 15) : Bw :=
  let rx := decide (w.rxPeak < w.rxAcc)
  let tx := decide (w.txPeak < w.txAcc)
  { rxAcc := 0, txAcc := 0, rxLast := w.rxAcc, txLast := w.txAcc,
    rxPeak := if rx then w.rxAcc else w.rxPeak, rxPeakSeq := if rx then seq else w.rxPeakSeq,
    txPeak := if tx then w.txAcc else w.txPeak, txPeakSeq := if tx then seq else w.txPeakSeq }

/-- Changes every listed window. -/
def bwMap (t : Tab Bw) (f : Bw → Bw) : Tab Bw := t.map fun e => (e.1, f e.2)

/-- BW_WINDOW_END: at a boundary the window's counts are written together; after a cut, the next window
only begins (R510). -/
def execBwWindowEnd (s : State) : Host.Outcome State Fault Refusal :=
  let d := s.d
  let w := windowUs (d.regBits baseCnt 4 0) * 1000
  let start := d.timeNs - d.time.ns % w
  goto s <|
    if !d.awake || !d.svRuns 3 then d
    else if d.cnt.curShort then
      { d with cnt := { d.cnt with
        bw := bwMap d.cnt.bw fun x => { x with rxAcc := 0, txAcc := 0 }, bwStart := start, bwPrev := d.cnt.bwStart,
        curShort := false } }
    else
      { d with cnt := { d.cnt with
        bw := bwMap d.cnt.bw fun x => x.finish (d.cnt.wseq + 1), bwStart := start, bwPrev := d.cnt.bwStart,
        wseq := d.cnt.wseq + 1, lastShort := false } }

/-- A window is cut short (R510): its counts are written and marked SHORT, and no window runs until the
next boundary. -/
def Dev.cutWindow (d : Dev) : Dev :=
  let c := d.cnt
  let cut := fun (x : Bw) => { x with rxLast := x.rxAcc, txLast := x.txAcc, rxAcc := 0, txAcc := 0 }
  if c.curShort then { d with cnt := { c with era := c.era + 1 } }
  else { d with cnt := { c with
    bw := bwMap c.bw cut, wseq := c.wseq + 1, lastShort := true, curShort := true, bwPrev := c.bwStart,
    era := c.era + 1, shortEra := c.era } }

/-- A write of WIN: the window is cut short and every peak is cleared. -/
def Dev.writeBwCtl (d : Dev) (v : Nat) : Dev :=
  let d1 := d.cutWindow.setReg baseCnt (v % 32)
  let clear := fun (x : Bw) => { x with rxPeak := 0, txPeak := 0, rxPeakSeq := 0, txPeakSeq := 0 }
  { d1 with cnt := { d1.cnt with bw := bwMap d1.cnt.bw clear } }

/-- CNT_BW_CTL_WRITE (R510). -/
def execCntBwCtlWrite (a : RegActor) (v : Word) (s : State) : Host.Outcome State Fault Refusal :=
  goto s <| s.d.winWrite a baseCnt fun d => d.writeBwCtl v.toNat

/-- PORT_BW_PEAK_RX and PORT_BW_PEAK_TX: a read clears the peak (R519). -/
def Dev.readPeak (d : Dev) (p : Nat) (tx : Bool) : Dev × Nat :=
  let w := Tab.get d.cnt.bw p {}
  let y := if tx then { w with txPeak := 0, txPeakSeq := 0 } else { w with rxPeak := 0, rxPeakSeq := 0 }
  ({ d with cnt := { d.cnt with bw := Tab.set d.cnt.bw p y {} } },
   (if tx then w.txPeakSeq else w.rxPeakSeq).toNat <<< 48 ||| (if tx then w.txPeak else w.rxPeak) % 2 ^ 48)

/-- PORT_BW_PEAK_READ (R519). -/
def execPortBwPeakRead (a : RegActor) (p : Port) (tx : Bool) (s : State) : Host.Outcome State Fault Refusal :=
  goto s <| s.d.winRead a (basePort p.val + 0x310 + (if tx then 8 else 0)) fun d => d.readPeak p.val tx

/-! ### The glean buffer (R513, R515, R517) -/

/-- The 64 bytes of an entry. -/
def GleanEnt.bytes (e : GleanEnt) : List Byte :=
  match e.body with
  | .frame h outcome arr eg sec ns residence cut ce inCopy old =>
    h.bytes ++ [1, BitVec.ofNat 8 outcome] ++ beBytes 2 arr ++ beBytes 2 eg ++ beBytes 6 sec ++ beBytes 4 ns ++
    beBytes 4 residence ++
    [BitVec.ofNat 8 (cut.toNat ||| ce.toNat <<< 1 ||| inCopy.toNat <<< 2 ||| old.toNat <<< 3)] ++ beBytes 3 0 ++
    beBytes 4 e.gseq.toNat ++ beBytes 4 0
  | .micro addr cluster position core ctx seq op fmt latency sec ns =>
    beBytes 4 addr ++ [BitVec.ofNat 8 cluster, BitVec.ofNat 8 position] ++ beBytes 2 core ++ beBytes 2 ctx.toNat ++
    beBytes 4 seq.toNat ++ beBytes 1 op.toNat ++ [fmt] ++ beBytes 4 latency ++ beBytes 12 0 ++ [2] ++ beBytes 5 0 ++
    beBytes 6 sec ++ beBytes 4 ns ++ beBytes 8 0 ++ beBytes 4 e.gseq.toNat ++ beBytes 4 0
  | .uncorr bits => (beBytes 64 bits.toNat).set 32 0xFF#8

/-- The RW bits of CNT_GLEAN_CTL (R519). -/
def gleanCtlBits : Nat := 0xFFC0E

/-- GLEAN_SET (R515): no value of the two registers is out of range, and what is reserved or RO in them is
ignored (R9, R10). -/
def execGleanSet (c : CmdCtx) (ctl : Word) (filt : Dword) (s : State) : Host.Outcome State Fault Refusal :=
  goto s <| s.d.runCmd (.gleanSet c ctl filt) c 0x0903 .operator <| needs 3 fun d =>
    answer ((d.setReg offGleanCtl (ctl.toNat &&& gleanCtlBits)).setReg offGleanFilt
      (filt.toNat - filt.toNat % 2 ^ 15)) .ok

/-- GLEAN_ARM: arming restarts every sampler's count (R515). -/
def execGleanArm (c : CmdCtx) (arm : Bool) (s : State) : Host.Outcome State Fault Refusal :=
  goto s <| s.d.runCmd (.gleanArm c arm) c 0x0904 .operator <| needs 3 fun d =>
    if arm then answer { d with cnt := { d.cnt with armed := true, cand := [], sinceArm := 0 } } .ok
    else answer { d with cnt := { d.cnt with armed := false } } .ok

/-- Reads an entry of the buffer's SRAM: an armed error of two symbols shows it as uncorrectable from then on
(R511, R513). -/
def Dev.readGlean (d : Dev) (e : GleanEnt) : Dev × List Byte :=
  match d.faults.injects.find? fun x => x.array == 0x30 && x.index == e.gseq.toNat % 4096 with
  | none => (d, e.bytes)
  | some x =>
    if !x.two then (d.meetError x, e.bytes)
    else
      let r := d.draw
      let b : GleanEnt := { e with body := .uncorr r.1 }
      let d1 := r.2.meetError x
      ({ d1 with cnt := { d1.cnt with glean := d1.cnt.glean.map fun y => if y.gseq == e.gseq then b else y } },
       b.bytes)

/-- GLEAN_READ (R517). -/
def execGleanRead (c : CmdCtx) (first : Word) (count : BitVec 16) (s : State) :
    Host.Outcome State Fault Refusal :=
  goto s <| s.d.runCmd (.gleanRead c first count) c 0x0905 .observer <| needs 3 fun d =>
    if 63 < count.toNat then answer d .badParam
    else
      let l := (d.cnt.glean.filter fun e => decide (0 ≤ seqDist e.gseq first)).take count.toNat
      let g := match l.head? with
        | some e => e.gseq
        | none => first
      let r := l.foldl (fun (a : Dev × List Byte) e => let x := a.1.readGlean e; (x.1, a.2 ++ x.2)) (d, [])
      (r.1, some (.ok, .bytes (beBytes 4 g.toNat ++ r.2)))

end Sys2Proof.Machine
end

