-- ==== Sys2Proof/Machine/LineCode.lean ====
section
/-! DEFINITION. The code groups of the management links (R382): 8b/10b of IEEE 802.3 Clause 36, which the spec
names, with the running disparity.  The tables are those of that standard.  PRESUMED, log entry 158. -/

namespace Sys2Proof

/-- What a code group stands for: a data byte, or K28.5, K27.7 or K29.7. -/
inductive Sym where
  | data (b : Byte)
  | comma
  | start
  | stop
  deriving DecidableEq, Repr

/-- The 5b/6b codes D0 to D31 for negative disparity, first bit sent most significant.  PRESUMED, log entry 158. -/
def sixCodes : List Nat :=
  [0b100111, 0b011101, 0b101101, 0b110001, 0b110101, 0b101001, 0b011001, 0b111000,
   0b111001, 0b100101, 0b010101, 0b110100, 0b001101, 0b101100, 0b011100, 0b010111] ++
  [0b011011, 0b100011, 0b010011, 0b110010, 0b001011, 0b101010, 0b011010, 0b111010,
   0b110011, 0b100110, 0b010110, 0b110110, 0b001110, 0b101110, 0b011110, 0b101011]

/-- The 3b/4b codes for negative disparity.  PRESUMED, log entry 158. -/
def fourCodes : List Nat := [0b1011, 0b1001, 0b0101, 0b1100, 0b1101, 0b1010, 0b0110, 0b1110]

/-- A part of `n` bits for the disparity at hand, `flips` where it is one of the balanced codes that have two
forms: the bits, and the disparity after them. -/
def codePart (n code : Nat) (flips rd : Bool) : Nat × Bool :=
  let even := decide (2 * popCount (BitVec.ofNat n code) = n)
  (if rd && (!even || flips) then 2 ^ n - 1 - code else code, rd != !even)

/-- The alternate 3b/4b code of D.x.7. -/
def altSeven (x : Nat) (rd : Bool) : Bool := if rd then [11, 13, 14].contains x else [17, 18, 20].contains x

/-- One code group for the disparity at hand, and the disparity after it. -/
def codeGroup (s : Sym) (rd : Bool) : BitVec 10 × Bool :=
  let join := fun (a b : Nat × Bool) => (BitVec.ofNat 10 (16 * a.1 + b.1), b.2)
  match s with
  | .data b =>
    let x := b.toNat % 32
    let y := b.toNat / 32
    let a := codePart 6 (sixCodes.getD x 0) (x == 7) rd
    join a (codePart 4 (if y = 7 && altSeven x a.2 then 0b0111 else fourCodes.getD y 0) (y == 3) a.2)
  | .comma => let a := codePart 6 0b001111 false rd; join a (codePart 4 0b0101 true a.2)
  | .start => let a := codePart 6 0b110110 false rd; join a (codePart 4 0b0111 false a.2)
  | .stop => let a := codePart 6 0b101110 false rd; join a (codePart 4 0b0111 false a.2)

/-- Code groups in the order of sending, and the disparity after them. -/
def codeGroups (l : List Sym) (rd : Bool) : List (BitVec 10) × Bool :=
  l.foldl (fun r s => let g := codeGroup s r.2; (r.1 ++ [g.1], g.2)) ([], rd)

/-- A GLM packet on the line: an /I/, K28.5 with D16.2, then /S/, the packet's bytes and /T/ (R382). -/
def glmSymbols (l : List Byte) : List Sym := [.comma, .data 0x50, .start] ++ l.map Sym.data ++ [.stop]

end Sys2Proof
end

