-- ==== Sys2Proof/Machine/LinkUp.lean ====
section
/-! DEFINITION. Link bring-up (chapter "Link bring-up, identity and neighbours"): the stages of a port,
the exchange, losses, drains, PRBS testing and the commands of group 0x02 that run at once. -/

namespace Sys2Proof.Machine

/-! ### Register values (R379) -/

/-- PORT_STATE. -/
def Dev.portStateReg (d : Dev) (p : Nat) : Nat :=
  let x := d.port p
  d.logical p <<< 23 ||| x.reason <<< 12 ||| x.lastExit <<< 8 ||| x.st.code

/-- Offset of PORT_LINK_STATUS; its PRBS_RELOCK bit is stored there. -/
def offLinkStatus (p : Nat) : Nat := basePort p + 8

/-- PORT_LINK_STATUS. -/
def Dev.linkStatusReg (d : Dev) (p : Nat) : Nat :=
  let x := d.port p
  x.trainFails <<< 48 ||| x.round.toNat <<< 40 ||| x.verMinor.toNat <<< 32 ||| x.feat.toNat <<< 8 |||
  (d.reg (offLinkStatus p) &&& 8) ||| x.rxReady.toNat <<< 2 ||| x.fecLock.toNat <<< 1 ||| x.los.toNat

/-- PORT_PARTNERn. -/
def PortSt.partnerReg (x : PortSt) (n : Nat) : Nat := x.partnerId.field (8 * n) 8

/-- PORT_PARTNER_FEAT. -/
def PortSt.partnerFeatReg (x : PortSt) : Nat :=
  x.partnerFeat.field 2 1 <<< 56 ||| x.partnerFeat.field 3 1 <<< 48 ||| x.partnerFeat.field 4 4

/-! ### Stages (R360 to R363) -/

/-- What DETECT waits for besides light: both rings accepted, on a port that has rings and whose light
is its own concern (R360, R522). -/
def Dev.ringsReady (d : Dev) (p : Nat) : Bool :=
  isCampus (d.port p).mode || d.loop p == 1 ||
  (decide ((d.ring p .tx).lock = .locked) && decide ((d.ring p .rx).lock = .locked))

/-- A port leaves DETECT or ABSENT for TRAIN; the counters of R375 start over (R360, R376). -/
def Dev.enterTrain (d : Dev) (p : Nat) : Dev :=
  d.setPort p { d.port p with
    st := .train, muted := d.mustMute p, rxReady := false, winBits := 0, winErrs := 0, readySent := 0,
    readyGot := 0, prbsBits := 0, prbsErrs := 0 }

/-- The conditions of R360 hold together: light, rings, and no test. -/
def Dev.leaveDetect (d : Dev) (p : Nat) : Dev :=
  let x := d.port p
  if (x.st = .detect || x.st = .absent) && !x.los && d.ringsReady p then d.enterTrain p else d

/-- LIGHT_DETECTED (R360): received power has stood clear for 10 µs. -/
def execLightDetected (p : Port) (s : State) : Host.Outcome State Fault Refusal :=
  let d := s.d
  goto s <| if !d.awake then d else (d.setPort p.val { d.port p.val with los := false }).leaveDetect p.val

/-- ABSENT_TIMEOUT (R360): a planned port has stayed in DETECT for ABSENT_MS. -/
def execAbsentTimeout (p : Port) (s : State) : Host.Outcome State Fault Refusal :=
  let d := s.d
  let x := d.port p.val
  goto s <|
    if d.awake && x.st = .detect && (d.planOf (d.logical p.val)).valid then
      d.setPort p.val { x with st := .absent }
    else d

/-- The conditions that end TRAIN (R362). -/
def PortSt.trained (x : PortSt) : Bool :=
  x.rxReady && decide (8 ≤ x.readySent) && decide (3 ≤ x.readyGot)

/-- A level of a PAM4 symbol: the outer levels are 3 and −3. -/
abbrev Level := Int

/-- The marker: symbols 0 to 31 (R361). -/
def trainMarker : List Level := (List.range 32).map fun i => if i % 2 = 0 then 3 else -3

/-- The status word three times on the outer levels, first bit most significant: symbols 32 to 79.
DESIGN CHOICE, log entry 154. -/
def trainStatus (w : BitVec 16) : List Level :=
  (List.range 48).map fun i => if w.getLsbD (15 - i % 16) then 3 else -3

/-- One bit of PRBS13, x^13 + x^12 + x^2 + x + 1: the register holds the last thirteen bits, the newest as
bit 0 (R361). -/
def prbs13Next (r : BitVec 13) : BitVec 13 :=
  let b := ((r.getLsbD 12 ^^ r.getLsbD 11) ^^ r.getLsbD 1) ^^ r.getLsbD 0
  (r <<< 1) ||| BitVec.ofNat 13 b.toNat

/-- The register of PRBS13 after `n` bits.  DESIGN CHOICE, log entry 154. -/
def prbs13At : Nat → BitVec 13
  | 0 => 0x1FFF
  | n + 1 => prbs13Next (prbs13At n)

/-- Bit `n` of PRBS13, whose period is 8,191 bits. -/
def prbs13Bit (n : Nat) : Bool := (prbs13At (n % 8191 + 1)).getLsbD 0

/-- Gray mapping of two bits onto a PAM4 level. -/
def grayLevel (msb lsb : Bool) : Level :=
  match msb, lsb with
  | false, false => -3
  | false, true => -1
  | true, true => 1
  | true, false => 3

/-- Symbol `i` of a training frame whose PRBS13 goes on from place `pos` (R361). -/
def trainSymbol (w : BitVec 16) (pos i : Nat) : Level :=
  if i < 32 then trainMarker.getD i 0
  else if i < 80 then (trainStatus w).getD (i - 32) 0
  else grayLevel (prbs13Bit (pos + 2 * (i - 80))) (prbs13Bit (pos + 2 * (i - 80) + 1))

/-- Bits of PRBS13 in a training frame: symbols 80 to 16,383, two bits each. -/
def trainBits : Nat := 2 * 16304

/-- Each bit of the status word by majority of its three copies (R361). -/
def majority (a b c : BitVec 16) : BitVec 16 := a &&& b ||| a &&& c ||| b &&& c

/-- The receiver counts the bits of a frame towards its window of 2^27 bits, and decides RX_READY where the
window ends: a bit error ratio of at most 1 in 1,000 (R361).  DEDUCED, log entry 154. -/
def PortSt.berWindow (x : PortSt) (bits errs : Nat) : PortSt :=
  let b := x.winBits + bits
  let e := x.winErrs + errs
  if b < 2 ^ 27 then { x with winBits := b, winErrs := e }
  else { x with winBits := 0, winErrs := 0, rxReady := decide (e * 1000 ≤ b) }

/-- TRAINING_FRAME_RECEIVED (R361, R362, R375): the three copies of the status word, and the PRBS13 bits
checked.  Three frames in a row with RX_READY are remembered. -/
def execTrainingFrameReceived (p : Port) (c0 : BitVec 16) (more : BitVec 16 × BitVec 16) (bits errs : Nat)
    (s : State) : Host.Outcome State Fault Refusal :=
  let d := s.d
  let x := d.port p.val
  let got := if 3 ≤ x.readyGot then 3 else if (majority c0 more.1 more.2).getLsbD 0 then x.readyGot + 1 else 0
  let x1 := { x.berWindow bits errs with
    prbsBits := x.prbsBits + BitVec.ofNat 64 bits, prbsErrs := x.prbsErrs + BitVec.ofNat 64 errs,
    readyGot := got }
  goto s <|
    if !d.awake || !decide (x.st = .train) then d
    else if x1.trained then d.setPort p.val { x1 with st := .lock }
    else d.setPort p.val x1

/-- A training frame with this status word returns to the port that sent it (R522). -/
def Dev.trainingReturn (d : Dev) (p : Nat) (w : BitVec 16) : Instr :=
  .trainingFrameReceived (asPort p) w (w, w) trainBits (if d.loop p = 3 then min trainBits (Config.loopErrors d.free) else 0)

/-- TRAINING_FRAME_SENT (R361, R362): a frame ends, and a muted modulator sends none; one sent with RX_READY
counts, and the coded format follows the frame in which TRAIN's exit conditions hold. -/
def execTrainingFrameSent (p : Port) (s : State) : Host.Outcome State Fault Refusal :=
  let d := s.d
  let x := d.port p.val
  let n := if x.rxReady then x.readySent + 1 else x.readySent
  let w : BitVec 16 := if x.rxReady then 1 else 0
  let x1 := { x with readySent := n, prbsPos := (x.prbsPos + trainBits) % 8191 }
  let d1 := d.emit p.val (.training p.val w x.prbsPos) [d.trainingReturn p.val w]
  goto s <|
    if !d.awake || d.silent p.val then d
    else if x.st = .train then
      (if x1.trained then d1.setPort p.val { x1 with st := .lock, readySent := 0 } else d1.setPort p.val x1)
    else if x.st = .lock && x.readySent != 0 then d1.setPort p.val { x with readySent := 0 }
    else d

/-- TRAIN_TIMEOUT (R362).  DESIGN CHOICE, log entry 42. -/
def execTrainTimeout (p : Port) (s : State) : Host.Outcome State Fault Refusal :=
  goto s <| if s.d.awake && (s.d.port p.val).st = .train then s.d.trainFail p.val else s.d

/-- LOCK_ACHIEVED (R363): codeword lock and framing have held for 64 codewords. -/
def execLockAchieved (p : Port) (s : State) : Host.Outcome State Fault Refusal :=
  goto s <| if s.d.awake && (s.d.port p.val).st = .lock then s.d.enterExchange p.val else s.d

/-- LOCK_TIMEOUT (R363). -/
def execLockTimeout (p : Port) (s : State) : Host.Outcome State Fault Refusal :=
  goto s <| if s.d.awake && (s.d.port p.val).st = .lock then s.d.trainFail p.val else s.d

/-! ### The exchange (R364 to R370) -/

/-- Counts link control blocks that a port receives (R331). -/
def Dev.countLink (d : Dev) (p n : Nat) : Dev := d.bumpBy (ctrLine p 3) n

/-- The port receives link messages: its receiver holds codeword lock. -/
def Dev.hears (d : Dev) (p : Nat) : Bool := d.awake && (d.port p).fecLock && d.loop p != 2

/-- A pair is valid: one ROUND, and the CHECK of R364. -/
def pairValid (id feat : LinkMsg) : Bool :=
  LinkMsg.byte id 0 == 0x10 && LinkMsg.byte feat 0 == 0x11 && LinkMsg.byte id 1 == LinkMsg.byte feat 1 &&
  (exchCheck (LinkMsg.bytes id) (LinkMsg.bytes feat)).toNat == LinkMsg.field feat 8 4

/-- Identity and version of a pair: bytes 2 to 22 of EXCH_ID, and the versions. -/
def pairIdentity (id feat : LinkMsg) : Nat × Nat := (LinkMsg.field id 2 21, LinkMsg.field feat 2 2)

/-- Stores a valid pair and answers it. -/
def Dev.takePair (d : Dev) (p : Nat) (id feat : LinkMsg) : Dev :=
  let d1 := d.setPort p { d.port p with partnerId := id, partnerFeat := feat, hasPair := true, pairNow := true }
  d1.sendLink p [0x12, LinkMsg.byte id 1]

/-- EXCH_PAIR_RECEIVED (R366, R368, R370): a port that is ACTIVE leaves with IDENTITY_CHANGE where the
identity or version differs, with the link still framed. -/
def execExchPairReceived (p : Port) (id feat : LinkMsg) (s : State) : Host.Outcome State Fault Refusal :=
  let d := s.d
  let x := d.port p.val
  let d1 := d.countLink p.val 2
  goto s <|
    if !d.hears p.val then (d.echo p.val (LinkMsg.bytes id)).echo p.val (LinkMsg.bytes feat)
    else if !pairValid id feat then d1
    else if x.st = .active then
      (if pairIdentity id feat = pairIdentity x.partnerId x.partnerFeat then d1.takePair p.val id feat
       else
        let d2 := ((d1.settleSwap p.val).exitCommon p.val exitIdentity).enterExchange p.val
        (d2.takePair p.val id feat).evaluate 32 p.val)
    else if x.st.bringUp false then (d1.takePair p.val id feat).evaluate 32 p.val
    else if x.st = .draining then d1.takePair p.val id feat
    else d1

/-- EXCH_ACK_RECEIVED (R366). -/
def execExchAckReceived (p : Port) (round : Byte) (s : State) : Host.Outcome State Fault Refusal :=
  let d := s.d
  let x := d.port p.val
  let d1 := d.countLink p.val 1
  let d2 := d1.setPort p.val { x with ackNow := true }
  goto s <|
    if !d.hears p.val then d.echo p.val [0x12, round]
    else if round != x.round || !x.st.bringUp false then d1
    else if x.admitted then d2.enterActive p.val
    else d2

/-- EXCH_REPEAT_TIMER (R366, R368, R370): every 10 µs in EXCHANGE, every 100 ms in ACTIVE, UNPLANNED,
CROSSED and INCOMPATIBLE. -/
def execExchRepeatTimer (p : Port) (s : State) : Host.Outcome State Fault Refusal :=
  let st := (s.d.port p.val).st
  goto s <| if s.d.awake && (st = .active || st.bringUp false) then s.d.sendPair p.val else s.d

/-- EXCHANGE_TIMEOUT (R366). -/
def execExchangeTimeout (p : Port) (s : State) : Host.Outcome State Fault Refusal :=
  goto s <| if s.d.awake && (s.d.port p.val).st = .exchange then s.d.trainFail p.val else s.d

/-! ### Losses (R371, R372, R550, R322) -/

/-- LINK_DOWN_RECEIVED (R372). -/
def execLinkDownReceived (p : Port) (s : State) : Host.Outcome State Fault Refusal :=
  let d := s.d
  goto s <| if d.hears p.val then (d.countLink p.val 1).lose p.val exitLinkDown false true else d.echo p.val [0x20]

/-- R345 holds off the declaration of losses. -/
def PortSt.holdsOff (x : PortSt) : Bool :=
  match x.hold with
  | some h => !h.ended
  | none => false

/-- LOSS_OF_SIGNAL: declared once until light returns, and not while R345 holds it off.
DEDUCED, log entry 74. -/
def execLossOfSignal (p : Port) (s : State) : Host.Outcome State Fault Refusal :=
  let d := s.d
  let x := d.port p.val
  goto s <|
    if !d.awake || x.los || x.holdsOff then d
    else
      let d1 := (d.setPort p.val { x with los := true }).bump (ctrPort p.val 0x138)
      d1.lose p.val exitLos true true

/-- LOSS_OF_LOCK (R371): a port in LOCK goes on looking for codewords.  DEDUCED, log entry 74. -/
def execLossOfLock (p : Port) (s : State) : Host.Outcome State Fault Refusal :=
  let d := s.d
  let x := d.port p.val
  goto s <|
    if !(d.awake && x.fecLock && !x.holdsOff) then d
    else if x.st = .lock then d.setPort p.val { x with fecLock := false, frameSync := false, hunting := false }
    else d.lose p.val exitLock false true

/-- Loses framing: the frame in reception fails its link check, and bytes are discarded until the next
SYNC (R322).  DEDUCED, log entry 66. -/
def Dev.loseFraming (d : Dev) (p : Nat) : Dev :=
  let d1 := if (d.port p).rx.isSome then (d.bump (ctrPort p 0x118)).failRx p else d
  let d2 := if (d.port p).hunting then d1 else d1.bump (ctrLine p 2)
  d2.setPort p { d2.port p with hunting := true, frameSync := false }

/-- UNCORRECTABLE_CODEWORD (R321, R322). -/
def execUncorrectableCodeword (p : Port) (s : State) : Host.Outcome State Fault Refusal :=
  let d := s.d
  goto s <|
    if d.awake && (d.port p.val).fecLock then (d.bump (ctrLine p.val 1)).loseFraming p.val else d

/-- The body of a control block (R322). -/
inductive ControlBlock where
  | idle
  | sync (off : BitVec 16)
  | link (m : LinkMsg)
  | reserved
  deriving DecidableEq, Repr

/-- Bits [255:248] name the type; bits that the table does not list are ignored. -/
def ControlBlock.ofBody (b : BitVec 256) : ControlBlock :=
  match (b.extractLsb' 248 8).toNat with
  | 0 => .idle
  | 1 => .sync (b.extractLsb' 224 16)
  | 2 => .link (b.extractLsb' 48 192)
  | _ => .reserved

/-- A SYNC that names a frame's start. -/
def ControlBlock.starts : ControlBlock → Bool
  | .sync off => off != 0xFFFF#16
  | _ => false

/-- SYNC_BLOCK_RECEIVED (R322): a control block of any type.  Framing is acquired in LOCK, and resumes later, at a
SYNC's offset; a SYNC with 0xFFFF names none, and the receiver goes on looking for one.  A block that decodes in LOCK
shows codeword lock (R363), a LINK block is counted (R331), and FAR loopback returns each (R522). -/
def execSyncBlockReceived (b : ArrivedBlock) (s : State) : Host.Outcome State Fault Refusal :=
  let d := s.d
  let p := b.p.val
  let x := d.port p
  let c := ControlBlock.ofBody b.body
  let y := if c.starts && (x.hunting || x.st = .lock) then { x with hunting := false, frameSync := true } else x
  let d1 := match c with
    | .link _ => d.countLink p 1
    | _ => d
  goto s <|
    if d.returns p then d.send (.block p b.body)
    else if !d.awake then d
    else if x.st = .lock then d1.setPort p { y with fecLock := true }
    else if x.fecLock then d1.setPort p y
    else d

/-! ### Draining (R373) -/

/-- Nothing is queued to a logical port: no copy waits in a class queue, none is being sent, and no
launch frame is released. -/
def Dev.queuesEmpty (d : Dev) (l : Nat) : Bool :=
  (List.range 8).all (fun c => (d.queue (.port l) c).isEmpty) && (d.sendingOn l).isEmpty &&
  (Tab.get d.store.launch l []).all (fun e => !e.ready)

/-- The drain has nothing to wait for: a mode change waits for a swap pause whose SWAP_NOW has left (R354, R373). -/
def Dev.drained (d : Dev) (p : Nat) : Bool :=
  let pausing := match d.swapOfPort p with
    | some w => decide (w.step = .shuttered) && decide ((d.port p).drain = some .mode)
    | none => false
  d.queuesEmpty (d.logical p) && !pausing

/-- PORT_QUEUES_EMPTY: the drain's purpose is carried out (R373). -/
def execPortQueuesEmpty (p : Port) (s : State) : Host.Outcome State Fault Refusal :=
  let d := s.d
  goto s <|
    if d.awake && (d.port p.val).st = .draining && d.drained p.val then d.endDrain p.val none
    else d

/-- DRAIN_TIME_LIMIT: the residence limit plus 1 µs have passed; the copies that still wait are discarded
as expired (R120). -/
def execDrainTimeLimit (p : Port) (s : State) : Host.Outcome State Fault Refusal :=
  let d := s.d
  let l := d.logical p.val
  goto s <|
    if d.awake && (d.port p.val).st = .draining then
      let gone := (List.range 8).flatMap (fun c => d.queue (.port l) c)
      let goneL := ((Tab.get d.store.launch l []).filter (fun e => e.ready)).map (fun e => e.copy)
      let q := (List.range 8).foldl (fun (t : Tab (List Copy)) (c : Nat) => Tab.del t (l * 8 + c)) d.store.queues
      let la := Tab.set d.store.launch l ((Tab.get d.store.launch l []).filter (fun e => !e.ready)) []
      let d1 := { d with store := { d.store with queues := q, launch := la } }
      (gone ++ goneL).foldl (fun d c => d.ageOut c) d1
    else d

/-! ### PRBS (R375, R376) -/

/-- PRBS31, x^31 + x^28 + 1: the register holds the last 31 bits, the newest as bit 0 (R376). -/
def prbs31Next (r : BitVec 31) : BitVec 31 :=
  (r <<< 1) ||| BitVec.ofNat 31 (r.getLsbD 30 ^^ r.getLsbD 27).toNat

/-- The register of PRBS31 after `n` bits.  DESIGN CHOICE, log entry 154. -/
def prbs31At : Nat → BitVec 31
  | 0 => 0x7FFFFFFF
  | n + 1 => prbs31Next (prbs31At n)

/-- Bit `n` of the pattern that a port in TEST sends, and symbol `n`, Gray mapped (R376). -/
def patternBit (pat : PrbsPattern) (n : Nat) : Bool :=
  match pat with
  | .prbs31 => (prbs31At (n % 2147483647 + 1)).getLsbD 0
  | _ => prbs13Bit n

def patternSymbol (pat : PrbsPattern) (n : Nat) : Level :=
  grayLevel (patternBit pat (2 * n)) (patternBit pat (2 * n + 1))

/-- A core clock of TEST's checker: 64 error-free symbols lock it, and from there it counts every bit that it receives
and every bit in error (R376).  The fiber decides what comes.  DESIGN CHOICE, log entry 143. -/
def Dev.checkPattern (d : Dev) (p : Nat) : Dev :=
  let x := d.port p
  let n := Config.prbsSymbols p d.now
  let e := min (2 * n) (Config.prbsErrors p d.now)
  if !decide (x.st = .test) || decide (x.prbs = .none) || x.los then d
  else if x.prbsRun < 64 then d.setPort p { x with prbsRun := if e = 0 then min 64 (x.prbsRun + n) else 0 }
  else d.setPort p { x with
    prbsBits := x.prbsBits + BitVec.ofNat 64 (2 * n), prbsErrs := x.prbsErrs + BitVec.ofNat 64 e }

/-- PRBS_RELOCK: 1,024 errors in 2,048 bits, after which the checker looks for its lock again (R376).
DESIGN CHOICE, log entry 143. -/
def execPrbsRelock (p : Port) (s : State) : Host.Outcome State Fault Refusal :=
  let d := s.d
  let x := d.port p.val
  goto s <|
    if d.awake && x.st = .test && x.prbs != .none then
      let d1 := d.setPort p.val { x with
        prbsBits := x.prbsBits + 2048, prbsErrs := x.prbsErrs + 1024, prbsRun := 0 }
      d1.setRegBit (offLinkStatus p.val) 3 true
    else d

/-- PORT_PRBS (R376): a port that is OFF, DOWN or DRAINING, or in FAR loopback, forbids the test. -/
def execPortPrbs (c : CmdCtx) (port : BitVec 16) (pat : PrbsPattern) (s : State) :
    Host.Outcome State Fault Refusal :=
  goto s <| s.d.runCmd (.portPrbs c port pat) c 0x0207 .operator fun d =>
    let p := port.toNat
    let x := d.port p
    if 512 ≤ p then answer d .badParam
    else if d.claimedElse c.src (.port p) then answer d .conflict
    else if d.loop p == 2 || x.st = .off || x.st = .down || x.st = .draining then answer d .conflict
    else match pat with
      | .none => answer (if x.st = .test then d.toDetect p else d) .ok
      | _ =>
        if x.st = .active then answer ((d.setPort p { x with prbs := pat }).startDrain p .prbs) .ok
        else answer (d.toTest p pat) .ok

/-! ### Restart and the enables that wait (R378, R425, R426) -/

/-- PORT_RESTART on a port that is not ACTIVE and not DRAINING: bring-up starts again; a port that is
OFF, in TEST, or DOWN for another reason than TRAIN_FAIL stays. -/
def Dev.restartIdle (d : Dev) (p : Nat) : Dev :=
  let x := d.port p
  let d1 := d.setPort p { x with trainFails := 0 }
  match x.st with
  | .off | .test | .active | .draining => d1
  | .down => if x.reason = 4 then d1.toDetect p else d1
  | _ => d1.toDetect p

/-- PORT_RESTART (R373). -/
def execPortRestart (c : CmdCtx) (port : BitVec 16) (immediate : Bool) (s : State) :
    Host.Outcome State Fault Refusal :=
  goto s <| s.d.runCmd (.portRestart c port immediate) c 0x0206 .operator fun d =>
    let l := port.toNat
    let p := d.physical l
    if 512 ≤ l then answer d .badParam
    else if d.claimedElse c.src (.port p) then answer d .conflict
    else match (d.port p).st with
      | .draining => d.hold c 0x0206 (.portRestart l)
      | .active =>
        if immediate then answer ((d.settleSwap p).exitToDetect p exitRestart true) .ok
        else (d.startDrain p .restart).hold c 0x0206 (.portRestart l)
      | _ => answer (d.restartIdle p) .ok

/-- ENABLE_DRAIN_END (R426): the drain of physical port `p` has ended; held restarts are applied, which
adds nothing where the drain has already led to DETECT (R377). -/
def execEnableDrainEnd (p : Port) (s : State) : Host.Outcome State Fault Refusal :=
  let d := s.d
  let l := d.logical p.val
  let x := d.port p.val
  goto s <|
    if !d.awake || x.st = .draining || !d.cmd.held.any (fun h => decide (h.what = .portRestart l)) then d
    else
      let d1 := if x.st.bringUp false then d.restartIdle p.val else d.setPort p.val { x with trainFails := 0 }
      d1.finishFor (.portRestart l) .ok .empty

/-- ENABLE_WAIT_TIMEOUT (R426): the enable that has waited longest for the port has waited 100 ms; one that began
later has its own 100 ms. -/
def execEnableWaitTimeout (p : Port) (s : State) : Host.Outcome State Fault Refusal :=
  let d := s.d
  goto s <|
    if d.awake && (d.port p.val).st = .draining then
      match d.cmd.held.find? fun h => h.what == .portRestart (d.logical p.val) with
      | some h => d.finishHeld h .timeout .empty
      | none => d
    else d

/-! ### Reads (R378) -/

/-- PLAN_READ (R378). -/
def execPlanRead (c : CmdCtx) (port : BitVec 16) (s : State) : Host.Outcome State Fault Refusal :=
  goto s <| s.d.runCmd (.planRead c port) c 0x0202 .observer fun d =>
    let e := d.planOf port.toNat
    if 512 ≤ port.toNat then answer d .badParam
    else answerOk d [e.valid.toNat, e.role.toNat, e.addr.toNat, e.port.toNat, e.serial.toNat, e.system.toNat,
      (d.autoRemap.getLsbD (port.toNat / 32)).toNat]

/-- PORT_MAP_READ: the physical port of each logical number of the engine (R378). -/
def execPortMapRead (c : CmdCtx) (engine : Byte) (s : State) : Host.Outcome State Fault Refusal :=
  goto s <| s.d.runCmd (.portMapRead c engine) c 0x0205 .observer fun d =>
    if 16 ≤ engine.toNat then answer d .badParam
    else answerOk d ((List.range 32).map fun i => d.physical (32 * engine.toNat + i))

/-- PORT_READ (R378). -/
def execPortRead (c : CmdCtx) (port : BitVec 16) (s : State) : Host.Outcome State Fault Refusal :=
  goto s <| s.d.runCmd (.portRead c port) c 0x0208 .observer fun d =>
    let p := d.physical port.toNat
    let x := d.port p
    if 512 ≤ port.toNat then answer d .badParam
    else answerOk d [d.portStateReg p, d.linkStatusReg p, x.partnerReg 0, x.partnerReg 1, x.partnerReg 2,
      x.partnerFeatReg, x.feat.toNat]

end Sys2Proof.Machine
end

