-- ==== Sys2Proof/Machine/Mailbox.lean ====
section
/-! DEFINITION. Mailboxes and their lock registers (R390 to R400). -/

namespace Sys2Proof.Machine

/-- Words that a queue holds. -/
def mboxDepth : Nat := 16

def Dev.mbox (d : Dev) (n : Nat) : Mbox := Tab.get d.mbx n {}
def Dev.setMbox (d : Dev) (n : Nat) (m : Mbox) : Dev := { d with mbx := Tab.set d.mbx n m {} }

/-- Offsets of MBX_STATUS, MBX_DB_STATUS and MBX_DB_MASK. -/
def offMbxStatus (n : Nat) : Nat := baseMbx n + 0x20
def offDbStatus : Nat := baseMbxShared
def offDbMask : Nat := baseMbxShared + 4

/-- A post meets a full queue: the OVF bit, and the count (R392). -/
def Dev.mbxOverflow (d : Dev) (n bit : Nat) : Dev :=
  (d.setRegBit (offMbxStatus n) bit true).bump (baseMbxShared + 0x100)

/-- MBX_H2D_POST (R392, R394): agents post, and each post interrupts device firmware. -/
def Dev.postH2d (d : Dev) (a : RegActor) (n : Nat) (w : Word) : Dev :=
  let m := d.mbox n
  if !RegActor.isHost a then d
  else if mboxDepth ≤ m.h2d.length then d.mbxOverflow n 16
  else ((d.setMbox n { m with h2d := m.h2d ++ [(BitVec.ofNat 8 (RegActor.num a), w)] }).setRegBit
    offDbStatus (16 + n) true).send (.fwInt n)

/-- MBX_D2H_POST (R392, R394): firmware posts, and an unmasked post sends the mailbox's vector. -/
def Dev.postD2h (d : Dev) (a : RegActor) (n : Nat) (w : Word) : Dev :=
  let m := d.mbox n
  if RegActor.isHost a then d
  else if mboxDepth ≤ m.d2h.length then d.mbxOverflow n 17
  else
    let d1 := (d.setMbox n { m with d2h := m.d2h ++ [(BitVec.ofNat 8 (RegActor.num a), w)] }).setRegBit
      offDbStatus n true
    if d1.regBit offDbMask n then d1 else d1.sendInt n

/-- The value of a POP read that takes a word (R399). -/
def popValue (x : Byte × Word) : Nat := 1 <<< 63 ||| x.1.toNat <<< 32 ||| x.2.toNat

/-- MBX_H2D_POP: firmware takes the oldest word (R393). -/
def Dev.popH2d (d : Dev) (a : RegActor) (n : Nat) : Dev × Nat :=
  match (if RegActor.isHost a then [] else (d.mbox n).h2d) with
  | [] => (d, 0)
  | x :: r => (d.setMbox n { d.mbox n with h2d := r }, popValue x)

/-- MBX_D2H_POP: an agent takes the oldest word (R393). -/
def Dev.popD2h (d : Dev) (a : RegActor) (n : Nat) : Dev × Nat :=
  match (if RegActor.isHost a then (d.mbox n).d2h else []) with
  | [] => (d, 0)
  | x :: r => (d.setMbox n { d.mbox n with d2h := r }, popValue x)

/-- Place of a party in the order of a lock's pointer (R396). -/
def partyNo : RegActor → Nat
  | .agent a => a.val
  | .sv n => 16 + n.val

/-- A read of MBX_LOCK (R395, R396): a free lock is taken, and the pointer moves past the winner. -/
def Dev.readLock (d : Dev) (a : RegActor) (n : Nat) : Dev × Nat :=
  let m := d.mbox n
  if m.lock = 0 then
    (d.setMbox n { m with lock := BitVec.ofNat 8 (RegActor.num a), ptr := (partyNo a + 1) % 20 }, 0)
  else (d, m.lock.toNat)

/-- A write of MBX_LOCK (R395). -/
def Dev.writeLock (d : Dev) (a : RegActor) (n : Nat) : Dev :=
  let m := d.mbox n
  if m.lock.toNat = RegActor.num a then d.setMbox n { m with lock := 0 }
  else d.bump (baseMbxShared + 0x108)

/-- Frees the held locks of the mailboxes that `sel` names, counts them and reports them (R397).
DEDUCED, log entry 78. -/
def Dev.breakLocks (d : Dev) (sel : Nat → Byte → Bool) : Dev :=
  let held := (List.range 16).filter fun n => (d.mbox n).lock != 0 && sel n (d.mbox n).lock
  if held.isEmpty then d
  else
    let owners := (List.range 16).map fun n => if held.contains n then (d.mbox n).lock else 0
    let mask := held.foldl (fun (m : Nat) (n : Nat) => m ||| 1 <<< n) 0
    let d1 := held.foldl (fun (d : Dev) (n : Nat) => d.setMbox n { d.mbox n with lock := 0 }) d
    (d1.bumpBy (baseMbxShared + 0x110) held.length).event (.lockBroken (BitVec.ofNat 16 mask) owners)

/-- MBX_STATUS. -/
def Dev.mbxStatusReg (d : Dev) (n : Nat) : Nat :=
  d.reg (offMbxStatus n) ||| (d.mbox n).d2h.length <<< 8 ||| (d.mbox n).h2d.length

/-- The low half of GLB_INT_STATUS and of GLB_INT_MASK (R533). -/
def Dev.intStatusReg (d : Dev) : Nat := d.intPend.toNat ||| d.regBits offDbStatus 15 0
def Dev.intMaskReg (d : Dev) : Nat := d.reg offIntMask ||| d.regBits offDbMask 15 0

/-- MBX_H2D_POST_WRITE (R392). -/
def execMbxH2dPostWrite (a : RegActor) (n : Fin 16) (w : Word) (s : State) : Host.Outcome State Fault Refusal :=
  goto s <| s.d.winWrite a (baseMbx n.val) fun d => d.postH2d a n.val w

/-- MBX_D2H_POST_WRITE (R392). -/
def execMbxD2hPostWrite (a : RegActor) (n : Fin 16) (w : Word) (s : State) : Host.Outcome State Fault Refusal :=
  goto s <| s.d.winWrite a (baseMbx n.val + 0x10) fun d => d.postD2h a n.val w

/-- MBX_H2D_POP_READ (R393). -/
def execMbxH2dPopRead (a : RegActor) (n : Fin 16) (s : State) : Host.Outcome State Fault Refusal :=
  goto s <| s.d.winRead a (baseMbx n.val + 8) fun d => d.popH2d a n.val

/-- MBX_D2H_POP_READ (R393). -/
def execMbxD2hPopRead (a : RegActor) (n : Fin 16) (s : State) : Host.Outcome State Fault Refusal :=
  goto s <| s.d.winRead a (baseMbx n.val + 0x18) fun d => d.popD2h a n.val

/-- MBX_LOCK_READ (R395). -/
def execMbxLockRead (a : RegActor) (n : Fin 16) (s : State) : Host.Outcome State Fault Refusal :=
  goto s <| s.d.winRead a (baseMbx n.val + 0x28) fun d => d.readLock a n.val

/-- MBX_LOCK_WRITE: the value written does not matter (R395). -/
def execMbxLockWrite (a : RegActor) (n : Fin 16) (_w : Word) (s : State) : Host.Outcome State Fault Refusal :=
  goto s <| s.d.winWrite a (baseMbx n.val + 0x28) fun d => d.writeLock a n.val

/-- MBX_LOCK_BREAK_WRITE (R397). -/
def execMbxLockBreakWrite (a : RegActor) (w : Word) (s : State) : Host.Outcome State Fault Refusal :=
  goto s <| s.d.winWrite a (baseMbxShared + 8) fun d => d.breakLocks fun n _ => w.getLsbD n

end Sys2Proof.Machine
end

