-- ==== Sys2Proof/Machine/Links.lean ====
section
/-! DEFINITION. The management links (R381 to R389) and Howlink's own events (R288, R289, R397, R424,
R533). -/

namespace Sys2Proof.Machine

/-! ### Management links: modes and stages (R381, R385) -/

/-- MGL_CTL.MODE; 3 is taken as OFF. -/
def Dev.mgMode (d : Dev) (m : Nat) : Nat :=
  let v := d.regBits (baseMgl m) 1 0
  if v = 3 then 0 else v

/-- The other destinations of a link's event. -/
def otherDests (m : Nat) : List Source := if m = 0 then [.howlink, .mg1] else [.howlink, .mg0]

/-- The source of link m. -/
def mgSource (m : Nat) : Source := if m = 0 then .mg0 else .mg1

/-- A link starts from DETECT in its mode, or is OFF: before SAFE_TALK, and in mode OFF. -/
def Dev.mgStart (d : Dev) (m : Nat) : Dev :=
  let x := d.mg m
  let off := d.mgMode m = 0 || d.boot.st = .powerOn || d.boot.st = .selfTest
  d.setMg m { x with st := if off then 0 else 1, sync := false, pairSeen := false, ackSeen := false, reasm := none }

/-- Bytes of a management packet's header (R383). -/
def mgHeader (typ seg : Byte) (len : BitVec 16) (rsvd : Word) : List Byte :=
  [typ, seg] ++ beBytes 2 len.toNat ++ beBytes 4 rsvd.toNat

/-- A GLM packet: the header, the payload, and the CRC-32 over both (R383). -/
def glmPacket (typ : Byte) (payload : List Byte) : List Byte :=
  let l := mgHeader typ 0 (BitVec.ofNat 16 payload.length) 0 ++ payload
  l ++ beBytes 4 (crc32 l).toNat

/-- The segments of a packet in 1000BASE-X: at most 1,492 bytes of the payload each, in index order, with the
segment's index and the count less 1 in SEG (R384). -/
def ethSegments (typ : Byte) (payload : List Byte) : List (List Byte) :=
  let n := max 1 ((payload.length + 1491) / 1492)
  (List.range n).map fun i =>
    mgHeader typ (BitVec.ofNat 8 (16 * i + (n - 1))) (BitVec.ofNat 16 payload.length) 0 ++ slice payload (1492 * i) 1492

/-- Sends a management packet and counts it: on the line, in GLM, the packet with its code groups between /S/ and
/T/ after an /I/ (R382, R383); in 1000BASE-X, its segments back to back from MGL_MAC (R384). -/
def Dev.mgSend (d : Dev) (m : Nat) (typ : Byte) (payload : List Byte) : Dev :=
  let d1 := (d.send (.mg m typ payload)).bump (ctrMgl m 0x108)
  if d1.mgMode m = 1 then
    let l := glmPacket typ payload
    let g := codeGroups (glmSymbols l) (d1.mg m).rd
    (d1.setMg m { d1.mg m with rd := g.2 }).send (.glm m l g.1)
  else if d1.mgMode m = 2 then
    (ethSegments typ payload).foldl (fun d x => d.send (.eth m (d.mg m).mac 0x88B5 x)) d1
  else d1

/-- The EXCH pair of a link: PORT 0x0400 + m and FEATURES 0 (R386). -/
def Dev.mgPair (d : Dev) (m : Nat) : List Byte :=
  let round := (d.mg m).round
  let id := d.exchId (0x400 + m) round
  let f : List Byte := [0x11, round, 1, 0, 0, 0, 0, 0]
  let feat := f ++ beBytes 4 (exchCheck id f).toNat
  LinkMsg.bytes (LinkMsg.ofBytes id) ++ LinkMsg.bytes (LinkMsg.ofBytes feat)

/-- Sends the pair. -/
def Dev.mgSendPair (d : Dev) (m : Nat) : Dev := d.mgSend m 3 (d.mgPair m)

/-- LAST_EXIT codes (R401). -/
def mgExitLos : Nat := 1
def mgExitSync : Nat := 2
def mgExitKeep : Nat := 3
def mgExitIdentity : Nat := 4
def mgExitAn : Nat := 5
def mgExitMode : Nat := 6

/-- The link's queued commands that have not started are discarded; a held one has started (R388). -/
def Dev.dropQueued (d : Dev) (s : Source) : Dev :=
  { d with cmd := { d.cmd with
    places := d.cmd.places.filter fun p => p.src != s ||
      d.cmd.held.any (fun h => h.c.src == s && h.c.seq == p.seq && h.opcode == p.opcode),
    behind := d.cmd.behind.filter fun i => Instr.source i != some s } }

/-- A link leaves ACTIVE (R388): for a failure, one link serves from then on and a DEGRADED record is
written (R483, R490). -/
def Dev.mgLeave (d : Dev) (m code : Nat) : Dev :=
  let s := mgSource m
  let x := d.mg m
  let d1 := d.setMg m { x with sessions := [], spdm := 0, lastExit := code }
  let d2 := (d1.dropQueued s).mgStart m
  let d3 := d2.setEvDest s { d2.evDest s with queue := [] }
  let d4 := (d3.abortOpen s 2 (otherDests m)).bump (ctrMgl m 0x130)
  let d5 := if d4.svRuns 1 then
    (otherDests m).foldl (fun d t => d.eventTo (.mgDown m code) t) d4 else d4
  if code = mgExitLos || code = mgExitSync || code = mgExitKeep then
    d5.faultRec 4 0x0C m 0 0 (if (d5.mg (1 - m)).st = 5 then 1 else 0) code
  else d5

/-- Enters ACTIVE (R386): the pair that admits the link has come over a line with signal and in sync (R385). -/
def Dev.mgEnter (d : Dev) (m : Nat) : Dev :=
  (d.setMg m { d.mg m with st := 5, los := false, sync := true }).event (.mgUp m (d.mg m).partnerId)

/-- MG_SIGNAL_DETECT (R385): the link passes DETECT, TRAIN or LOCK: a stage that is passed has the signal, and
from TRAIN on the sync, whatever was lost in it before. -/
def execMgSignalDetect (m : Fin 2) (s : State) : Host.Outcome State Fault Refusal :=
  let d := s.d
  let x := d.mg m.val
  goto s <|
    if !d.awake then d
    else if x.st = 1 then d.setMg m.val { x with st := 2, los := false }
    else if x.st = 2 then d.setMg m.val { x with st := 3, los := false, sync := true }
    else if x.st = 3 then
      (d.setMg m.val { x with
        st := 4, los := false, sync := true, round := x.round + 1, pairSeen := false, ackSeen := false }).mgSendPair m.val
    else d

/-- MG_STAGE_TIMEOUT (R385): TRAIN, LOCK or EXCHANGE has exceeded its limit. -/
def execMgStageTimeout (m : Fin 2) (s : State) : Host.Outcome State Fault Refusal :=
  let d := s.d
  let st := (d.mg m.val).st
  goto s <|
    if d.awake && (st = 2 || st = 3 || st = 4) then (d.bump (ctrMgl m.val 0x128)).mgStart m.val else d

/-! ### The exchange (R386, R387) -/

/-- A valid pair: it is stored and answered, and it admits the link, or ends an ACTIVE one whose partner
has changed.  DEDUCED, log entry 76. -/
def Dev.mgTakePair (d : Dev) (m : Nat) (id feat : LinkMsg) : Dev :=
  let x := d.mg m
  let d1 := d.setMg m { x with partnerId := id, partnerFeat := feat }
  let d2 := d1.mgSend m 3 (LinkMsg.bytes (LinkMsg.ofBytes [0x12, LinkMsg.byte id 1]))
  let same := LinkMsg.field feat 2 1 == 1
  if x.st = 5 then
    (if pairIdentity id feat = pairIdentity x.partnerId x.partnerFeat then d2 else d2.mgLeave m mgExitIdentity)
  else if !same then d2.setMg m { d2.mg m with st := 11 }
  else if x.st = 11 || x.ackSeen then d2.mgEnter m
  else d2.setMg m { d2.mg m with pairSeen := true }

/-- An EXCH packet in EXCHANGE, INCOMPATIBLE or ACTIVE. -/
def Dev.mgExch (d : Dev) (m : Nat) (payload : List Byte) : Dev :=
  let x := d.mg m
  let id := LinkMsg.ofBytes (payload.take 24)
  if payload.length = 48 then
    let feat := LinkMsg.ofBytes (payload.drop 24)
    if pairValid id feat then d.mgTakePair m id feat else d
  else if payload.length = 24 && LinkMsg.byte id 0 == 0x12 && LinkMsg.byte id 1 == x.round then
    (if x.st = 4 && x.pairSeen then (d.setMg m { x with ackSeen := true }).mgEnter m
     else d.setMg m { x with ackSeen := true })
  else d

/-- The link takes EXCH packets. -/
def MgLink.exchanges (x : MgLink) : Bool := x.st == 4 || x.st == 5 || x.st == 11

/-- MG_EXCH_PACKET: a packet of TYPE 0x03 that has passed its checks (R386).  DEDUCED, log entry 76. -/
def execMgExchPacket (m : Fin 2) (payload : List Byte) (s : State) : Host.Outcome State Fault Refusal :=
  let d := s.d
  goto s <|
    if !d.awake || (d.mg m.val).st = 0 then d
    else if (d.mg m.val).exchanges then (d.bump (ctrMgl m.val 0x100)).mgExch m.val payload
    else d.bump (ctrMgl m.val 0x138)

/-- MG_EXCH_REPEAT: every 10 µs in EXCHANGE until acknowledged, every 100 ms in ACTIVE and in
INCOMPATIBLE (R386). -/
def execMgExchRepeat (m : Fin 2) (s : State) : Host.Outcome State Fault Refusal :=
  let d := s.d
  let x := d.mg m.val
  goto s <|
    if d.awake && (x.st = 5 || x.st = 11 || (x.st = 4 && !x.ackSeen)) then d.mgSendPair m.val else d

/-! ### Packets (R383, R384) -/

/-- TYPE and LEN as R383 requires. -/
def mgTypeOk (typ : Byte) (len : Nat) : Bool :=
  decide (1 ≤ typ.toNat ∧ typ.toNat ≤ 4) && decide (len ≤ 4608)

/-- A checked packet: EXCH acts; what the other types carry arrives as commands, requests and PTP
measurements of their own. -/
def Dev.mgDeliver (d : Dev) (m : Nat) (typ : Byte) (payload : List Byte) : Dev :=
  let d1 := d.bump (ctrMgl m 0x100)
  if typ = 3 then d1.mgExch m payload else d1

def Dev.mgRxErr (d : Dev) (m : Nat) : Dev := d.bump (ctrMgl m 0x110)

/-- Drops a packet in reassembly. -/
def Dev.setReasm (d : Dev) (m : Nat) (r : Option Reasm) : Dev := d.setMg m { d.mg m with reasm := r }

/-- A segment continues, or ends, the packet `r` (R384); padding after the packet's end is left out. -/
def Dev.mgSegment (d : Dev) (m : Nat) (r : Reasm) (data : List Byte) : Dev :=
  let bytes := r.bytes ++ data.take (r.len - r.bytes.length)
  if r.next + 1 < r.count then d.setReasm m (some { r with next := r.next + 1, bytes := bytes })
  else
    let d1 := d.setReasm m none
    if bytes.length = r.len then d1.mgDeliver m r.typ bytes else d1.mgRxErr m

/-- A segment's header, and the length of its data, are as R383 and R384 require. -/
def mgSegmentOk (payload : List Byte) : Bool :=
  decide (8 ≤ payload.length ∧ payload.length ≤ 1500) && mgTypeOk (payload.getD 0 0) (ofBe (slice payload 2 2))

/-- The payload of a frame of EtherType 0x88B5. -/
def Dev.mgEthSegment (d : Dev) (m : Nat) (payload : List Byte) : Dev :=
  let typ := payload.getD 0 0
  let seg := (payload.getD 1 0).toNat
  let len := ofBe (slice payload 2 2)
  let data := payload.drop 8
  if !mgSegmentOk payload then (d.setReasm m none).mgRxErr m
  else
    match (d.mg m).reasm with
    | none =>
      if seg / 16 = 0 then
        d.mgSegment m { typ := typ, next := 0, count := seg % 16 + 1, len := len, bytes := [] } data
      else d.mgRxErr m
    | some r =>
      if seg / 16 = r.next && seg % 16 + 1 = r.count && typ = r.typ && len = r.len then d.mgSegment m r data
      else if seg / 16 = 0 then
        (d.mgRxErr m).mgSegment m { typ := typ, next := 0, count := seg % 16 + 1, len := len, bytes := [] } data
      else (d.setReasm m none).mgRxErr m

/-- A link received something outside the stages that take it. -/
def Dev.mgOutside (d : Dev) (m : Nat) (isExch : Bool) : Bool :=
  !((d.mg m).st == 5 || isExch && (d.mg m).exchanges)

/-- MG_PACKET_RECEIVED: a packet or frame in the link's own mode (R383). -/
def execMgPacketReceived (m : Fin 2) (r : MgRx) (s : State) : Host.Outcome State Fault Refusal :=
  let d := s.d
  let mv := m.val
  goto s <|
    if !d.awake || (d.mg mv).st = 0 then d
    else match r with
      | .glm typ seg len rsvd payload crc endOk =>
        let good := crc32 (mgHeader typ seg len rsvd ++ payload) == crc && mgTypeOk typ len.toNat && endOk &&
          payload.length == len.toNat
        if d.mgMode mv ≠ 1 then d
        else if d.mgOutside mv (good && typ == 3) then
          let d1 := d.bump (ctrMgl mv 0x138)
          if good then d1 else d1.mgRxErr mv
        else if good then d.mgDeliver mv typ payload
        else d.mgRxErr mv
      | .eth dst ethType tagged payload =>
        let mine := (dst = (d.mg mv).mac || dst = 0xFFFFFFFFFFFF#48) && !tagged
        let exch := mine && ethType == 0x88B5 && payload.getD 0 0 == 3
        if d.mgMode mv ≠ 2 then d
        else if d.mgOutside mv exch then
          let d1 := d.bump (ctrMgl mv 0x138)
          if mine && (ethType == 0x88F7 || ethType == 0x88B5 && mgSegmentOk payload) then d1 else d1.mgRxErr mv
        else if mine && ethType = 0x88B5 then d.mgEthSegment mv payload
        else if mine && ethType = 0x88F7 then d
        else d.mgRxErr mv

/-! ### Keeping and losing the link (R387) -/

/-- MG_KEEP_SEND (R387). -/
def execMgKeepSend (m : Fin 2) (s : State) : Host.Outcome State Fault Refusal :=
  goto s <| if s.d.awake && (s.d.mg m.val).st = 5 then s.d.mgSend m.val 4 [] else s.d

/-- MG_KEEP_TIMEOUT (R387). -/
def execMgKeepTimeout (m : Fin 2) (s : State) : Host.Outcome State Fault Refusal :=
  goto s <| if s.d.awake && (s.d.mg m.val).st = 5 then s.d.mgLeave m.val mgExitKeep else s.d

/-- MG_LOSS_OF_SIGNAL: a stage with a limit of its own ends by that limit; INCOMPATIBLE, which has none,
returns to DETECT (R387). -/
def execMgLossOfSignal (m : Fin 2) (s : State) : Host.Outcome State Fault Refusal :=
  let d := s.d
  let x := d.mg m.val
  let d1 := d.setMg m.val { x with los := true }
  goto s <|
    if !d.awake || x.los then d
    else if x.st = 5 then d1.mgLeave m.val mgExitLos
    else if x.st = 11 then d1.mgStart m.val
    else d1

/-- MG_SYNC_LOSS: four bad code groups in 64 (R387). -/
def execMgSyncLoss (m : Fin 2) (s : State) : Host.Outcome State Fault Refusal :=
  let d := s.d
  let x := d.mg m.val
  let d1 := ((d.bumpBy (ctrMgl m.val 0x118) 4).bump (ctrMgl m.val 0x120)).setMg m.val { x with sync := false }
  goto s <|
    if !d.awake || !x.sync then d
    else if x.st = 5 then d1.mgLeave m.val mgExitSync
    else if x.st = 11 then d1.mgStart m.val
    else d1

/-- MG_AN_RESTART, in 1000BASE-X (R387). -/
def execMgAnRestart (m : Fin 2) (s : State) : Host.Outcome State Fault Refusal :=
  let d := s.d
  goto s <| if d.awake && (d.mg m.val).st = 5 && d.mgMode m.val = 2 then d.mgLeave m.val mgExitAn else d

/-- Writes MGL_CTL: an ACTIVE link leaves ACTIVE; another starts again where MODE or AN_EN changes.
DEDUCED, log entry 75. -/
def Dev.writeMglCtl (d : Dev) (m : Nat) (v : Nat) : Dev :=
  match regAt (baseMgl m) with
  | none => d
  | some (r, off) =>
    let d1 := d.writeReg r off v
    if (d.mg m).st = 5 then d1.mgLeave m mgExitMode
    else if d1.mgMode m ≠ d.mgMode m || d1.regBit off 8 ≠ d.regBit off 8 then d1.mgStart m
    else d1

/-- MGL_CTL_WRITE (R387).  DEDUCED, log entry 75. -/
def execMglCtlWrite (a : RegActor) (m : Fin 2) (v : Word) (s : State) : Host.Outcome State Fault Refusal :=
  goto s <| s.d.winWrite a (baseMgl m.val) fun d => d.writeMglCtl m.val v.toNat

/-- MGL_STATUS. -/
def Dev.mglStatusReg (d : Dev) (m : Nat) : Nat :=
  let x := d.mg m
  x.round.toNat <<< 40 ||| x.sessions.length <<< 32 |||
  (d.cmd.places.filter fun p => p.src == mgSource m).length <<< 24 |||
  x.lastExit <<< 8 ||| x.sync.toNat <<< 5 ||| x.los.toNat <<< 4 ||| x.st

/-! ### Howlink -/

/-- The owner number is a Howlink agent's (R391). -/
def isAgentNo (b : Byte) : Bool := decide (0x10 ≤ b.toNat ∧ b.toNat < 0x20)

/-- Howlink goes down (R289, R397, R424): messages for the companion are discarded from here on, the
agents' locks are freed, Howlink's OPEN transaction is rolled back, and the companion discards its
cached lines (R292), so that no write waits for a snoop response.  DEDUCED, log entry 105. -/
def Dev.howlinkDown (d : Dev) : Dev :=
  let d1 := { d with hl := { d.hl with up := false }, cmd := { d.cmd with
    evHowlink := { d.cmd.evHowlink with queue := [] } } }
  let d2 := (d1.abortOpen .howlink 2 [.mg0, .mg1]).breakLocks fun _ o => isAgentNo o
  let d3 := { d2 with mem := { d2.mem with snoop := [], waits := [] }, faults := { d2.faults with intOwed := [] } }
  d2.mem.waits.foldl (fun d w => d.applyWrite w.addr w.data) d3

/-- HOWLINK_LINK_DOWN (R289). -/
def execHowlinkLinkDown (s : State) : Host.Outcome State Fault Refusal :=
  goto s <| if s.d.awake && s.d.hl.up then s.d.howlinkDown else s.d

/-- Sends the INT messages that Howlink's return calls for (R394, R533). -/
def Dev.intOnUp (d : Dev) : Dev :=
  let d1 := (List.range 16).foldl (fun (d : Dev) (n : Nat) =>
    if (d.mbox n).d2h.isEmpty || d.regBit offDbMask n then d else d.sendInt n) d
  (List.range 48).foldl (fun (d : Dev) (i : Nat) =>
    if d.intPend.getLsbD (16 + i) && !d.regBit offIntMask (16 + i) then d.sendInt (16 + i) else d) d1

/-- HOWLINK_LINK_UP: a link that training has left down for its version or its lanes stays down (R533). -/
def execHowlinkLinkUp (s : State) : Host.Outcome State Fault Refusal :=
  let d := s.d
  goto s <|
    if !d.awake || d.hl.up || !d.hl.trained || d.hl.verMismatch || d.hl.lanes = 0 then d
    else ({ d with hl := { d.hl with up := true } }).intOnUp

/-- One more lane fails (R288, R490): the spare, then x8 on the other half, then no link.
DEDUCED, log entry 77. -/
def Howlink.loseLane (h : Howlink) (lane : Nat) : Howlink :=
  if !h.carries lane then h
  else if !h.spareUsed then { h with spareUsed := true, failedLane := BitVec.ofNat 5 lane }
  else if h.lanes = 16 then { h with lanes := 8, upper := decide (h.place lane < 8) }
  else { h with lanes := 0 }

/-- HOWLINK_LANE_FAILURE: SV2 acts (R288). -/
def execHowlinkLaneFailure (lane : Fin 17) (s : State) : Host.Outcome State Fault Refusal :=
  let d := s.d
  let h := d.hl.loseLane lane.val
  let d1 := { d with hl := h }
  goto s <|
    if !d.awake || !d.svRuns 2 || !d.hl.trained || !d.hl.carries lane.val then d
    else if d.hl.lanes = h.lanes then d1.faultRec 3 8 lane.val 0 2 0 16
    else if h.lanes = 8 then (d1.event (.howlinkDegraded 8)).faultRec 4 8 lane.val 0 4 0 0
    else ((if d1.hl.up then d1.howlinkDown else d1).event (.serviceDegraded 8 lane.val 2 0)).faultRec
      4 8 lane.val 0 5 0 0

end Sys2Proof.Machine
end

