-- ==== Sys2Proof/Machine/Time.lean ====
section
/-! DEFINITION. The time base and what steers it (R431 to R440), the reference clock and the PLLs (R33,
R531), the pulse pins (R448), and the time commands (R450). -/

namespace Sys2Proof.Machine

/-! ### Registers -/

def offTimeCtl : Nat := baseTime
def offTimeStatus : Nat := baseTime + 0x08
def offPpsCtl : Nat := baseTime + 0x48

def Dev.lockNs (d : Dev) : Nat := atLeast1 (d.regBits offTimeCtl 47 32)
def Dev.jumpNs (d : Dev) : Nat := atLeast1 (d.regBits offTimeCtl 31 16)
/-- SLEW_PPM, 1 to 100. -/
def Dev.slewPpm (d : Dev) : Nat := min 100 (atLeast1 (d.regBits offTimeCtl 15 8))
/-- SERVO: 1 PTP, 2 HOST, anything else OFF. -/
def Dev.servo (d : Dev) : Nat := d.regBits offTimeCtl 1 0

/-- The time base runs from the start of BOOT (R435), also after an image was rejected. -/
def Dev.timeRuns (d : Dev) : Bool :=
  d.awake && match d.boot.st with
    | .powerOn | .selfTest => false
    | .safeTalk => d.boot.cause == 3
    | _ => true

def Dev.setTime (d : Dev) (t : TimeBase) : Dev := { d with time := t }

/-! ### Advancing (R431, R432) -/

/-- The nominal increment of a TIME edge, in 2^-32 ns. -/
def timeInc : Nat := 0x140000000

/-- ±200 ppm of the nominal increment, and as a rate in 2^-16 ppb. -/
def maxAdj : Int := 1073741
def maxRate : Int := 200000 * 65536

/-- A value within limits. -/
def clampInt (m x : Int) : Int := if m < x then m else if x < -m then -m else x

/-- What the rate adds to one edge, in 2^-32 ns times 65,536 × 10^9. -/
def rateAdd (rate : Int) : Int := (timeInc : Int) * rate

/-- Divisor of `rateAdd`. -/
def rateDiv : Int := 65536000000000

/-- What a slew takes from its rest in one edge, in 2^-32 ns. -/
def slewStep (ppm : Nat) (left : Int) : Int := clampInt (timeInc * ppm / 1000000 : Nat) left

/-- What of a slew step has been added where the rate took `base` and the increment grew by `adj` (R432, R437):
the rest stays to be applied. -/
def slewDone (slew base adj : Int) : Int :=
  if 0 ≤ slew then max 0 (min slew (adj - base)) else min 0 (max slew (adj - base))

/-- BOOT or later: before it TIME_PPS_OUT is driven low (R448, R545). -/
def Dev.pastBoot (d : Dev) : Bool := d.boot.st = .boot || d.serving

/-- The time base carries into seconds, and TIME_PPS_OUT rises while OUT_EN is set. -/
def Dev.carry (d : Dev) (ns frac : Nat) : Dev :=
  d.setTime { d.time with
    sec := d.time.sec + 1, ns := ns, frac := frac,
    ppsOut := d.time.ppsOut || (d.pastBoot && d.regBit offPpsCtl 31) }

/-- One TIME edge.  Where the rate does not come to whole units of the increment, a free bit rounds.
DEDUCED, log entry 108. -/
def Dev.timeEdge (d : Dev) : Dev :=
  if !d.timeRuns then d
  else
    let slew := slewStep d.slewPpm d.time.slewLeft
    let whole := (rateAdd d.time.rate).ediv rateDiv
    let r := if (rateAdd d.time.rate).emod rateDiv = 0 then (false, d) else d.drawBit
    let base := whole + (if r.1 then 1 else 0)
    let adj := clampInt maxAdj (base + slew)
    let units := d.time.frac + (timeInc + adj).toNat
    let ns := d.time.ns + units / 2 ^ 32
    let t := { r.2.time with frac := units % 2 ^ 32, slewLeft := d.time.slewLeft - slewDone slew base adj }
    if 1000000000 ≤ ns then (r.2.setTime t).carry (ns - 1000000000) (units % 2 ^ 32)
    else r.2.setTime { t with ns := ns }

/-- SECONDS_CARRY: the edge at which the nanoseconds reach 10^9 (R448). -/
def execSecondsCarry (s : State) : Host.Outcome State Fault Refusal :=
  goto s <| if s.d.timeRuns then s.d.carry 0 0 else s.d

/-- PPS_WIDTH_END (R448). -/
def execPpsWidthEnd (s : State) : Host.Outcome State Fault Refusal :=
  goto s <| s.d.setTime { s.d.time with ppsOut := false }

/-! ### States (R438) -/

/-- A change of state: TIME_LOCKED on entry to LOCKED, TIME_UNLOCKED on every other (R438).  A change to
which R451 gives no cause, marked by 0 here, carries a free one.  DEDUCED, log entry 109. -/
def Dev.timeState (d : Dev) (st : TimeState) (cause : Nat) : Dev :=
  let d1 := d.setTime { d.time with st := st, lockRun := if st = .acquiring then 0 else d.time.lockRun }
  if d.time.st = st then d1
  else if st = .locked then d1.event (.timeLocked d.time.selB)
  else if cause = 0 then
    let r := d1.draw
    r.2.event (.timeUnlocked st (r.1.toNat % 256))
  else d1.event (.timeUnlocked st cause)

/-- The time base leaves for HOLDOVER, from SELF_TEST on (R33, R438, R549).  DEDUCED, log entry 109. -/
def Dev.holdover (d : Dev) (cause : Nat) : Dev :=
  if d.awake && decide (d.boot.st ≠ .powerOn) then d.timeState .holdover cause else d

/-- Steps the time base (R437). -/
def Dev.stepTime (d : Dev) (sec : BitVec 48) (ns frac : Nat) (cause : Nat) : Dev :=
  let d1 := d.cutWindow
  let d2 := d1.setTime { d1.time with
    sec := sec, ns := ns, frac := frac, slewLeft := 0, stepped := true, hostFresh := true }
  d2.timeState .acquiring cause

/-- A refused correction of `offset` ns: flagged, counted and reported (R437, R440). `src` is the domain, or 2 for
a command. -/
def Dev.jumpRefused (d : Dev) (src : Nat) (offset : Int) : Dev :=
  ((d.setRegBit offTimeStatus 4 true).bump (ctrTime 0x118)).event (.timeJumpRefused src offset)

/-- A correction of the servo that is refused: at most one event per second (R437). -/
def Dev.servoRefused (d : Dev) (offset : Int) : Dev :=
  let due := match d.time.jumpEvtAt with
    | some t => decide (t + 1000 * clkMs ≤ d.now)
    | none => true
  if due then (d.setTime { d.time with jumpEvtAt := some d.now }).jumpRefused d.time.selB.toNat offset
  else (d.setRegBit offTimeStatus 4 true).bump (ctrTime 0x118)

/-- An offset in 2^-16 ns as the whole ns of an event (R451); a free bit rounds one that is not whole.
DEDUCED, log entry 159. -/
def Dev.toNs (d : Dev) (offset : Int) : Int × Dev :=
  if offset.emod 65536 = 0 then (offset.ediv 65536, d)
  else let r := d.drawBit; (offset.ediv 65536 + (if r.1 then 1 else 0), r.2)

/-- Magnitude of an offset in 2^-16 ns exceeds a number of ns. -/
def beyond (offset : Int) (ns : Nat) : Bool := decide (ns * 65536 < offset.natAbs)

/-! ### PTP (R439, R440) -/

def Dev.domain (d : Dev) (b : Bool) : Domain := if b then d.time.domB else d.time.domA
def Dev.setDomain (d : Dev) (b : Bool) (x : Domain) : Dev :=
  d.setTime (if b then { d.time with domB := x } else { d.time with domA := x })

def Dev.ptpMode (d : Dev) (m : Nat) : PtpMode := if m = 0 then d.time.mode0 else d.time.mode1
def Dev.ptpState (d : Dev) (m : Nat) : BitVec 2 := if m = 0 then d.time.ptp0 else d.time.ptp1
def Dev.setPtpState (d : Dev) (m : Nat) (v : BitVec 2) : Dev :=
  d.setTime (if m = 0 then { d.time with ptp0 := v } else { d.time with ptp1 := v })

/-- An offset in 2^-16 ns added to the time base: seconds, nanoseconds and fraction. -/
def TimeBase.plus (t : TimeBase) (offset : Int) : BitVec 48 × Nat × Nat :=
  let u : Int := ((t.sec.toNat * 1000000000 + t.ns : Nat) : Int) * 2 ^ 32 + (t.frac : Nat) + offset * 65536
  let v := u.toNat
  (BitVec.ofNat 48 (v / 2 ^ 32 / 1000000000), v / 2 ^ 32 % 1000000000, v % 2 ^ 32)

/-- A servo measurement of the selected domain (R437, R438): the servo sets a rate of its own, within
R432, which the spec does not give.  DEDUCED, log entry 108. -/
def Dev.servoMeasure (d : Dev) (offset : Int) : Dev :=
  let r := d.draw
  let rate := clampInt maxRate (signedOf 40 r.1.toNat)
  if !d.time.stepped then
    let p := d.time.plus offset
    d.stepTime p.1 p.2.1 p.2.2 0
  else if beyond offset d.jumpNs then
    let r := (d.setTime { d.time with lockRun := 0 }).toNs offset
    r.2.servoRefused r.1
  else
    let d1 := r.2.setTime { r.2.time with rate := rate, slewLeft := offset * 65536 }
    let d2 := if d1.time.st = .holdover || d1.time.st = .unset then d1.timeState .acquiring 0 else d1
    let run := if beyond offset d.lockNs then 0 else d2.time.lockRun + 1
    let d3 := d2.setTime { d2.time with lockRun := run }
    if 16 ≤ run && d3.time.st = .acquiring then d3.timeState .locked 0 else d3

/-- Both links' ports serve one boundary clock (R439). -/
def Dev.boundary (d : Dev) : Bool := d.time.mode0 = .boundary && d.time.mode1 = .boundary

/-- Link m's port is the slave; the other of a boundary clock is the master, and of an ordinary clock, which has
one link's port in use, passive (R439). -/
def Dev.slaveOn (d : Dev) (m : Nat) : Dev :=
  let d1 := d.setPtpState m 1
  if d1.ptpMode (1 - m) = .off then d1 else d1.setPtpState (1 - m) (if d1.boundary then 2 else 0)

/-- PTP_SYNC_RECEIVED (R437).  A correction in the core clock of a TIME_STEP is discarded (R449). -/
def execPtpSyncReceived (r : PtpMeas) (s : State) : Host.Outcome State Fault Refusal :=
  let d := s.d
  goto s <|
    if !d.awake || !d.svRuns 3 || (d.mg r.link.val).st ≠ 5 || d.ptpMode r.link.val = .off then d
    else if !r.supported then d.bump (ctrTime 0x110)
    else if r.domain ≠ d.time.domA.num && r.domain ≠ d.time.domB.num then d
    else
      let b := r.domain == d.time.domB.num
      let d2 := d.slaveOn r.link.val
      let d3 := d2.setDomain b { d2.domain b with st := if beyond r.offset d.lockNs then 1 else 2, offset := r.offset }
      if b == d.time.selB && d.servo == 1 && !d.clk.refLost && d.timeRuns && d.time.stepAt != some d.now then d3.servoMeasure r.offset else d3

/-- A switch to the other domain (R440), commanded or for a loss: refused where its offset is a jump. -/
def Dev.switchDomain (d : Dev) (commanded : Bool) : Dev × Bool :=
  let b := !d.time.selB
  let off := (d.domain b).offset
  let r := d.toNs off
  if beyond off d.jumpNs then
    ((r.2.setRegBit offTimeStatus 7 true).jumpRefused (if commanded then 2 else b.toNat) r.1, false)
  else
    let d1 := r.2.setTime { r.2.time with selB := b, lockRun := 0 }
    (d1.event (.timeDomainSwitch (!b) b r.1), true)

/-- The best master clock algorithm decides the states of the links in use: its outcome is free, but for what R439
says of it: a boundary clock has one slave and one master, and an ordinary clock one port in use, passive, slave
or master.  DEDUCED, log entry 111. -/
def Dev.bmca (d : Dev) : Dev :=
  let r := d.drawBit
  let u := r.2.draw
  let m := if d.ptpMode 0 = .off then 1 else if d.ptpMode 1 = .off then 0 else r.1.toNat
  if d.boundary then (u.2.setPtpState m 1).setPtpState (1 - m) 2
  else
    let st : BitVec 2 := if d.ptpMode m = .off then 0 else BitVec.ofNat 2 (u.1.toNat % 3)
    (u.2.setPtpState m st).setPtpState (1 - m) 0

/-- SYNC_TIMEOUT: no Sync of a domain for 3 s (R438).  DEDUCED, log entry 111. -/
def execSyncTimeout (b : Bool) (s : State) : Host.Outcome State Fault Refusal :=
  let d := s.d
  goto s <|
    if !d.awake || !d.svRuns 3 then d
    else
      let d1 := (d.setDomain b { d.domain b with st := 0 }).bmca
      if b != d.time.selB then d1
      else
        let d2 := d1.holdover 2
        if d2.regBit offTimeCtl 3 then (d2.switchDomain false).1 else d2

/-- PTP_SYNC_SEND: a link in the master state sends its Sync and Follow_Up (R439).  DEDUCED, log entry 112. -/
def execPtpSyncSend (m : Fin 2) (s : State) : Host.Outcome State Fault Refusal :=
  let d := s.d
  goto s <|
    if !d.awake || !d.svRuns 3 || (d.mg m.val).st ≠ 5 || d.ptpMode m.val = .off || d.ptpState m.val ≠ 2 then d
    else
      let seq := if m.val = 0 then d.time.ptpSeq0 else d.time.ptpSeq1
      let t := if m.val = 0 then { d.time with ptpSeq0 := seq + 1 } else { d.time with ptpSeq1 := seq + 1 }
      let d1 := (d.setTime t).send (.ptp m.val seq d.time.sec d.time.ns)
      if d.regBits (baseMgl m.val) 1 0 = 1 then d1.bumpBy (ctrMgl m.val 0x108) 2 else d1

/-! ### Reference and PLLs (R33, R531) -/

def offClkStatus : Nat := 0x20

/-- REFCLK_LOSS (R33). -/
def execRefclkLoss (s : State) : Host.Outcome State Fault Refusal :=
  let d := s.d
  goto s <|
    if d.clk.refLost then d
    else
      let d1 := { d with clk := { d.clk with refLost := true } }
      if !d.awake then d1
      else
        let d2 := ((d1.setRegBit offClkStatus 1 true).raiseInt 22).event .refclkLost
        if d2.svRuns 3 then d2.holdover 1 else d2

/-- REFCLK_RETURN (R531).  DEDUCED, log entry 112. -/
def execRefclkReturn (s : State) : Host.Outcome State Fault Refusal :=
  let d := s.d
  goto s <|
    if !d.clk.refLost then d
    else
      let d1 := { d with clk := { d.clk with refLost := false } }
      if d.awake then d1.faultRec 2 0x0E 0 0 0 0 0 else d1

/-- Place of a PLL's lock bit in GLB_CLK_STATUS.  DEDUCED, log entry 116. -/
def pllBit : Pll → Nat
  | .root => 16
  | .g7 => 18
  | .cxl e => 19 + e.val
  | .howlink => 23
  | .oe k => 32 + k.val

/-- PLL_LOCK_LOSS (R531). -/
def execPllLockLoss (p : Pll) (s : State) : Host.Outcome State Fault Refusal :=
  let d := s.d
  goto s <|
    if !d.awake || !d.clk.locks.getLsbD (pllBit p) then d
    else ({ d with clk := { d.clk with
      locks := d.clk.locks &&& ~~~(BitVec.ofNat 64 (1 <<< pllBit p)) } }).raiseInt 22

/-- GLB_CLK_STATUS as it reads. -/
def Dev.clkStatusReg (d : Dev) : Nat :=
  d.clk.locks.toNat ||| (d.reg offClkStatus &&& 2) ||| d.clk.refLost.toNat

/-! ### The pulse input (R448) -/

/-- PPS_IN_EDGE (R448); in POWER_ON nothing is stamped (R549). -/
def execPpsInEdge (s : State) : Host.Outcome State Fault Refusal :=
  let d := s.d
  goto s <|
    if !d.awake || d.boot.st = .powerOn then d
    else
      let d1 := (d.setTime { d.time with ppsInSec := d.time.sec, ppsInNs := d.time.ns }).bump (ctrTime 0x130)
      let due := match d.time.ppsEvtAt with
        | some t => decide (t + 100 * clkMs ≤ d.now)
        | none => true
      if d.regBit offTimeCtl 4 && due then
        (d1.setTime { d1.time with ppsEvtAt := some d.now }).event (.ppsIn d.time.sec d.time.ns)
      else d1

/-! ### Latched reads (R434) -/

/-- A party reads the nanoseconds: the seconds of the same instant are latched for it. -/
def Dev.readNow (d : Dev) (a : RegActor) : Dev × Nat :=
  (d.setTime { d.time with latchNow := Tab.put d.time.latchNow a.num d.time.sec }, d.time.ns)
def Dev.readPpsIn (d : Dev) (a : RegActor) : Dev × Nat :=
  (d.setTime { d.time with latchPps := Tab.put d.time.latchPps a.num d.time.ppsInSec }, d.time.ppsInNs)

/-- TIME_NOW_NS_READ (R434). -/
def execTimeNowNsRead (a : RegActor) (s : State) : Host.Outcome State Fault Refusal :=
  goto s <| s.d.winRead a (baseTime + 0x10) fun d => d.readNow a

/-- TIME_PPS_IN_NS_READ (R434). -/
def execTimePpsInNsRead (a : RegActor) (s : State) : Host.Outcome State Fault Refusal :=
  goto s <| s.d.winRead a (baseTime + 0x30) fun d => d.readPpsIn a

/-! ### Commands (R450) -/

/-- TIME_DOMA and TIME_DOMB. -/
def Domain.reg (x : Domain) : Nat := x.num.toNat <<< 56 ||| x.st.toNat <<< 54 ||| unsignedOf 48 x.offset

/-- TIME_STATUS as it reads. -/
def Dev.timeStatusReg (d : Dev) : Nat :=
  (d.reg offTimeStatus &&& 0x90) ||| d.time.stepped.toNat <<< 6 ||| d.clk.refLost.toNat <<< 5 |||
  d.time.selB.toNat <<< 3 ||| d.time.st.code

/-- TIME_READ (R450). -/
def execTimeRead (c : CmdCtx) (s : State) : Host.Outcome State Fault Refusal :=
  goto s <| s.d.runCmd (.timeRead c) c 0x0801 .observer fun d =>
    answerOk d [d.time.sec.toNat, d.time.ns, d.time.st.code, unsignedOf 40 d.time.rate, d.time.domA.num.toNat,
      d.time.domA.st.toNat, unsignedOf 48 d.time.domA.offset, d.time.domB.num.toNat, d.time.domB.st.toNat,
      unsignedOf 48 d.time.domB.offset, d.time.selB.toNat]

/-- TIME_STEP: owner class with FORCE (R437). -/
def execTimeStep (c : CmdCtx) (sec : BitVec 48) (ns : Word) (force : Bool) (s : State) :
    Host.Outcome State Fault Refusal :=
  goto s <| s.d.runCmd (.timeStep c sec ns force) c 0x0802 (if force then .owner else .operator) <| needs 3 fun d =>
    if 1000000000 ≤ ns.toNat then answer d .badParam
    else if d.time.stepped && !force then answer d .conflict
    else answer ((d.setTime { d.time with stepAt := some d.now }).stepTime sec ns.toNat 0 (if force then 4 else 0)) .ok

/-- TIME_ADJUST (R437). -/
def execTimeAdjust (c : CmdCtx) (offset : Dword) (s : State) : Host.Outcome State Fault Refusal :=
  goto s <| s.d.runCmd (.timeAdjust c offset) c 0x0803 .operator <| needs 3 fun d =>
    let o := offset.toInt
    if d.servo ≠ 2 then answer d .denied
    else if d.jumpNs < o.natAbs then answer (d.jumpRefused 2 o) .badParam
    else
      let d1 := d.setTime { d.time with slewLeft := o * 2 ^ 32, hostFresh := false }
      answer (if d.time.hostFresh then d1.timeState .locked 0 else d1) .ok

/-- TIME_RATE_SET (R436). -/
def execTimeRateSet (c : CmdCtx) (rate : BitVec 40) (s : State) : Host.Outcome State Fault Refusal :=
  goto s <| s.d.runCmd (.timeRateSet c rate) c 0x0804 .operator <| needs 3 fun d =>
    if d.servo ≠ 2 then answer d .denied
    else answer (d.setTime { d.time with rate := clampInt maxRate rate.toInt }) .ok

/-- A domain under the number that PTP_SET gives: a new number starts without a master. -/
def Domain.renumber (x : Domain) (n : Byte) : Domain := if x.num = n then x else { num := n }

/-- PTP_SET (R450). -/
def execPtpSet (c : CmdCtx) (l0 l1 : PtpMode) (domA domB : Byte) (autoSwitch : Bool) (s : State) :
    Host.Outcome State Fault Refusal :=
  goto s <| s.d.runCmd (.ptpSet c l0 l1 domA domB autoSwitch) c 0x0805 .operator <| needs 3 fun d =>
    if domA = domB then answer d .badParam
    else
      let d1 := d.setTime { d.time with
        mode0 := l0, mode1 := l1, domA := d.time.domA.renumber domA, domB := d.time.domB.renumber domB }
      answer ((d1.setRegBit offTimeCtl 3 autoSwitch).bmca) .ok

/-- PTP_DOMAIN_SELECT (R440). -/
def execPtpDomainSelect (c : CmdCtx) (b : Bool) (s : State) : Host.Outcome State Fault Refusal :=
  goto s <| s.d.runCmd (.ptpDomainSelect c b) c 0x0806 .operator <| needs 3 fun d =>
    if b = d.time.selB then answer d .ok
    else
      let r := d.switchDomain true
      answer r.1 (if r.2 then .ok else .conflict)

/-- LAUNCH_READ (R450). -/
def execLaunchRead (c : CmdCtx) (port : BitVec 16) (s : State) : Host.Outcome State Fault Refusal :=
  goto s <| s.d.runCmd (.launchRead c port) c 0x0807 .observer fun d =>
    if 512 ≤ port.toNat then answer d .badParam
    else
      let l := Tab.get d.store.launch port.toNat []
      answerOk d (l.length :: match l.head? with
        | some e => [e.t / 1000000000, e.t % 1000000000]
        | none => [])

end Sys2Proof.Machine
end

