-- ==== Sys2Proof/Machine/Glb.lean ====
section
/-! DEFINITION. Register writes: the GLB block (R530 to R534), the registers whose write does more than
set bits, and the write of any register of the window (R24, R527, R528). -/

namespace Sys2Proof.Machine

/-- A write that only sets and clears bits. -/
def Dev.plainWrite (d : Dev) (off v : Nat) : Dev :=
  match regAt off with
  | some (r, o) => d.writeReg r o v
  | none => d

/-! ### Interrupts (R533) -/

/-- Bits 63 to 16 of a 64-bit value. -/
def highVectors (v : Dword) : Dword := v &&& 0xFFFFFFFFFFFF0000#64

/-- GLB_INT_STATUS: bits written 1 are cleared, which re-arms their vectors. -/
def Dev.writeIntStatus (d : Dev) (v : Dword) : Dev := { d with intPend := d.intPend &&& ~~~(highVectors v) }

/-- GLB_INT_MASK: a vector that is pending and whose bit goes from 1 to 0 sends its message. -/
def Dev.writeIntMask (d : Dev) (v : Dword) : Dev :=
  let d1 := d.plainWrite offIntMask v.toNat
  (List.range 48).foldl (fun (x : Dev) (i : Nat) =>
    if d.regBit offIntMask (16 + i) && !d1.regBit offIntMask (16 + i) && d.intPend.getLsbD (16 + i) then
      x.sendInt (16 + i)
    else x) d1

/-- GLB_INT_TEST: each bit written 1 acts as its source. -/
def Dev.writeIntTest (d : Dev) (v : Dword) : Dev :=
  (List.range 48).foldl (fun (x : Dev) (i : Nat) =>
    if v.getLsbD (16 + i) then x.raiseInt (16 + i) else x) d

/-- GLB_INT_STATUS_WRITE (R533). -/
def execGlbIntStatusWrite (a : RegActor) (v : Dword) (s : State) : Host.Outcome State Fault Refusal :=
  goto s <| s.d.winWrite a 0x100 fun d => d.writeIntStatus v

/-- GLB_INT_MASK_WRITE (R533). -/
def execGlbIntMaskWrite (a : RegActor) (v : Dword) (s : State) : Host.Outcome State Fault Refusal :=
  goto s <| s.d.winWrite a offIntMask fun d => d.writeIntMask v

/-- GLB_INT_TEST_WRITE (R533). -/
def execGlbIntTestWrite (a : RegActor) (v : Dword) (s : State) : Host.Outcome State Fault Refusal :=
  goto s <| s.d.winWrite a 0x110 fun d => d.writeIntTest v

/-! ### Frame rings (R534) -/

/-- GLB_TXRn_CTL and GLB_RXR_CTL: while EN is 1, a write that would change LOG2_SIZE is dropped whole (R528, R534).
DEDUCED, log entry 80. -/
def Dev.writeRingCtl (d : Dev) (r v : Nat) : Dev :=
  let off := offRing r 8
  if d.regBit off 0 && bitsOf v 20 16 != d.regBits off 20 16 then d.bump ctrRegDrop
  else d.plainWrite off v

/-- GLB_TXRn_BASE and GLB_RXR_BASE: dropped while EN is 1. -/
def Dev.writeRingBase (d : Dev) (r v : Nat) : Dev :=
  if d.regBit (offRing r 8) 0 then d.bump ctrRegDrop else d.plainWrite (offRing r 0) v

/-- GLB_TXR_TAIL_WRITE (R534). -/
def execGlbTxrTailWrite (a : RegActor) (n : Fin 4) (v : Word) (s : State) : Host.Outcome State Fault Refusal :=
  goto s <| s.d.winWrite a (offRing n.val 0xC) fun d => d.plainWrite (offRing n.val 0xC) v.toNat

/-- GLB_RXR_TAIL_WRITE (R534). -/
def execGlbRxrTailWrite (a : RegActor) (v : Word) (s : State) : Host.Outcome State Fault Refusal :=
  goto s <| s.d.winWrite a (offRing 4 0xC) fun d => d.plainWrite (offRing 4 0xC) v.toNat

/-- GLB_RING_CTL_WRITE: transmit rings 0 to 3, and 4 for the receive ring (R534). -/
def execGlbRingCtlWrite (a : RegActor) (ring : Fin 5) (v : Word) (s : State) : Host.Outcome State Fault Refusal :=
  goto s <| s.d.winWrite a (offRing ring.val 8) fun d => d.writeRingCtl ring.val v.toNat

/-! ### Loopback (R523) -/

/-- PORT_LOOP_CTL: a change of LOOP takes the port out of ACTIVE as an immediate restart does, and
bring-up goes on by the new setting; before READY the value is held.  DEDUCED, log entry 79. -/
def Dev.writeLoop (d : Dev) (p v : Nat) : Dev :=
  let d1 := d.plainWrite (basePort p + 0x4C) v
  if d1.loop p = d.loop p || !d.serving then d1
  else match (d.port p).st with
    | .active => (d1.settleSwap p).exitToDetect p exitRestart true
    | .draining => d1.endDrain p (some exitRestart)
    | .off => d1
    | .down => if d1.loop p = 2 then d1.toDetect p else d1.restartIdle p
    | .test => if (d.port p).prbs != .none && d.loop p != 2 && d1.loop p != 2 then d1 else d1.toDetect p
    | _ => d1.toDetect p

/-- PORT_LOOP_CTL_WRITE (R523).  DEDUCED, log entry 79. -/
def execPortLoopCtlWrite (a : RegActor) (p : Port) (v : Word) (s : State) : Host.Outcome State Fault Refusal :=
  goto s <| s.d.winWrite a (basePort p.val + 0x4C) fun d => d.writeLoop p.val v.toNat

/-! ### The store's registers (R118, R120) -/

/-- The least shared pool that a configuration may leave.  DEDUCED, log entry 52. -/
def minShared : Nat := 1048576

/-- STORE_CLASS_CFGc: not applied where QMIN would leave too small a shared pool. -/
def Dev.writeClassCfg (d : Dev) (c v : Nat) : Dev :=
  let d1 := d.plainWrite (offClassCfg c) v
  if d1.sharedSize < minShared then d.setRegBit (baseStore + 8) 63 true else d1

/-- STORE_CLASS_CFG_WRITE (R118). -/
def execStoreClassCfgWrite (a : RegActor) (c : Fin 8) (v : Word) (s : State) : Host.Outcome State Fault Refusal :=
  goto s <| s.d.winWrite a (offClassCfg c.val) fun d => d.writeClassCfg c.val v.toNat

/-- LIMIT_NS in its range. -/
def clampLimit (v : Nat) : Nat := if v < 1000 then 1000 else if 0x3B9ACA00 < v then 0x3B9ACA00 else v

/-- STORE_RES_LIMIT: the limit changes at once, or when the live old bank retires. -/
def Dev.writeResLimit (d : Dev) (v : Nat) : Dev :=
  let d1 := d.plainWrite (baseStore + 4) v
  if d.fwd.oldLive then { d1 with store := { d1.store with limitPend := some (clampLimit v) } }
  else { d1 with store := { d1.store with limit := clampLimit v, limitPend := none } }

/-- STORE_RES_LIMIT_WRITE (R120). -/
def execStoreResLimitWrite (a : RegActor) (v : Word) (s : State) : Host.Outcome State Fault Refusal :=
  goto s <| s.d.winWrite a (baseStore + 4) fun d => d.writeResLimit v.toNat

/-- FWD_AGE_CTL_WRITE: PERIOD applies from the next pass, and EN at once (R84). -/
def execFwdAgeCtlWrite (a : RegActor) (v : Word) (s : State) : Host.Outcome State Fault Refusal :=
  goto s <| s.d.winWrite a (baseFwd 0 + 0x10) fun d => d.plainWrite (baseFwd 0 + 0x10) v.toNat

/-! ### Time (R436, R448) -/

/-- TIME_CTL: SERVO set to OFF starts HOLDOVER.  DEDUCED, log entry 80. -/
def Dev.writeTimeCtl (d : Dev) (v : Nat) : Dev :=
  let d1 := d.plainWrite offTimeCtl v
  let on := fun (x : Dev) => x.servo == 1 || x.servo == 2
  if on d && !on d1 then d1.holdover 3 else d1

/-- TIME_PPS_CTL: clearing OUT_EN ends a pulse. -/
def Dev.writePpsCtl (d : Dev) (v : Nat) : Dev :=
  let d1 := d.plainWrite offPpsCtl v
  d1.setTime { d1.time with ppsOut := d1.time.ppsOut && d1.regBit offPpsCtl 31 }

/-! ### Any register -/

/-- A write in GLB. -/
def Dev.writeGlb (d : Dev) (off : Nat) (v : Dword) : Dev :=
  let r := (off - 0x1000) / 0x40
  let o := (off - 0x1000) % 0x40
  if off = 0x100 then d.writeIntStatus v
  else if off = 0x108 then d.writeIntMask v
  else if off = 0x110 then d.writeIntTest v
  else if 0x1000 ≤ off && o = 0 then d.writeRingBase r v.toNat
  else if 0x1000 ≤ off && o = 8 then d.writeRingCtl r v.toNat
  else d.plainWrite off v.toNat

/-- A write in MBX. -/
def Dev.writeMbx (d : Dev) (a : RegActor) (off : Nat) (v : Dword) : Dev :=
  let n := (off - 0x100000) / 0x100
  let o := (off - 0x100000) % 0x100
  let w : Word := BitVec.ofNat 32 v.toNat
  if baseMbxShared ≤ off then
    (if off = baseMbxShared + 8 then d.breakLocks fun n _ => w.getLsbD n else d.plainWrite off v.toNat)
  else if o = 0 then d.postH2d a n w
  else if o = 0x10 then d.postD2h a n w
  else if o = 0x28 then d.writeLock a n
  else d.plainWrite off v.toNat

/-- A write in a block that is neither GLB nor MBX, to a register stored at `off`. -/
def Dev.writeOther (d : Dev) (off v : Nat) : Dev :=
  if off = offTimeCtl then d.writeTimeCtl v
  else if off = offPpsCtl then d.writePpsCtl v
  else if decide (basePort 0 ≤ off ∧ off < basePort 512) && (off - basePort 0) % 0x400 = 0x4C then
    d.writeLoop ((off - basePort 0) / 0x400) v
  else if off = baseStore + 4 then d.writeResLimit v
  else if decide (offClassCfg 0 ≤ off ∧ off < offClassCfg 8) then d.writeClassCfg ((off - offClassCfg 0) / 4) v
  else if off = baseCnt then d.writeBwCtl v
  else if decide (offPevSel 0 ≤ off ∧ off < offPevSel 64) then d.writePevSel ((off - offPevSel 0) / 8) v
  else if off = baseMgl 0 then d.writeMglCtl 0 v
  else if off = baseMgl 1 then d.writeMglCtl 1 v
  else d.plainWrite off v

/-- A write that the window has let in: dropped where no register of that width starts at the offset. -/
def Dev.writeWindow (d : Dev) (a : RegActor) (off width : Nat) (v : Dword) : Dev :=
  match regAt off with
  | none => d.bump ctrRegDrop
  | some (r, o) =>
    if r.width ≠ width then d.bump ctrRegDrop
    else if inGlb off then d.writeGlb off v
    else if inMbx off then d.writeMbx a off v
    else d.writeOther o v.toNat

/-- REGISTER_WRITE (R24). -/
def execRegisterWrite (a : RegActor) (off width : Nat) (val : Dword) (s : State) :
    Host.Outcome State Fault Refusal :=
  goto s <| s.d.winWrite a off fun d => d.writeWindow a off width val

end Sys2Proof.Machine
end

