-- ==== Sys2Proof/Machine/Hash.lean ====
section
/-! DEFINITION. SHA-256 and ECDSA P-256 verification, which the image checks name (R461, R463): the
spec gives the algorithms by name, and these are those of FIPS 180-4 and FIPS 186-4 (log entry 120). -/

namespace Sys2Proof

/-! ### SHA-256 -/

/-- The primes below a bound, rising. -/
def primesTo (bound : Nat) : List Nat :=
  (List.range bound).filter fun n =>
    decide (2 ≤ n) && (List.range n).all fun m => decide (m < 2) || n % m != 0

/-- The integer e-th root of `v`, where it lies from `r` to below `r + 2 ^ n`. -/
def rootFrom (e v : Nat) : Nat → Nat → Nat
  | 0, r => r
  | n + 1, r => rootFrom e v n (if (r + 2 ^ n) ^ e ≤ v then r + 2 ^ n else r)

/-- The first 32 bits of the fraction of the e-th root of a prime: the integer root of p × 2^(32 e). -/
def rootFraction (e p : Nat) : Word := BitVec.ofNat 32 (rootFrom e (p * 2 ^ (32 * e)) 36 0)

/-- The round constants: of the cube roots of the first sixty-four primes. -/
def shaRoundWords : List Word := (primesTo 312).map (rootFraction 3)

/-- The first chaining value: of the square roots of the first eight primes. -/
def shaStart : List Word := (primesTo 20).map (rootFraction 2)

/-- The exclusive or of a word rotated right by each of the amounts, and of `rest`. -/
def mixRot (x rest : Word) (amounts : List Nat) : Word :=
  amounts.foldl (fun acc n => acc ^^^ x.rotateRight n) rest

/-- The schedule of a block, newest word first: `n` further words before those given. -/
def shaExpand : Nat → List Word → List Word
  | 0, sched => sched
  | n + 1, sched =>
    let back := fun t => sched.getD (t - 1) 0
    let near := back 2
    let far := back 15
    let fresh := mixRot near (near >>> 10) [17, 19] + back 7 + mixRot far (far >>> 3) [7, 18] + back 16
    shaExpand n (fresh :: sched)

/-- A round on the eight chaining words; `kw` is the sum of its constant and its schedule word. -/
def shaStep (v : List Word) (kw : Word) : List Word :=
  match v with
  | [p, q, r, last, x, y, z, tail] =>
    let pick := z ^^^ (x &&& (y ^^^ z))
    let most := (p &&& (q ||| r)) ||| (q &&& r)
    let inject := tail + pick + kw + mixRot x 0 [6, 11, 25]
    [inject + most + mixRot p 0 [2, 13, 22], p, q, r, last + inject, x, y, z]
  | other => other

/-- The words that bytes spell, four bytes each; `n` words. -/
def wordsOf : Nat → List Byte → List Word
  | 0, _ => []
  | n + 1, l => BitVec.ofNat 32 (ofBe (l.take 4)) :: wordsOf n (l.drop 4)

/-- The chaining value after one block of sixteen words. -/
def shaAbsorb (v blk : List Word) : List Word :=
  let sched := (shaExpand 48 blk.reverse).reverse
  let out := (List.zipWith (· + ·) shaRoundWords sched).foldl shaStep v
  List.zipWith (· + ·) v out

/-- A message with the end mark, zeros, and its length in bits. -/
def shaPadded (l : List Byte) : List Byte :=
  l ++ (0x80#8 :: List.replicate ((119 - l.length % 64) % 64) 0) ++ beBytes 8 (8 * l.length)

/-- Absorbs `n` blocks of a padded message. -/
def shaOver : Nat → List Byte → List Word → List Word
  | 0, _, v => v
  | n + 1, m, v => shaOver n (m.drop 64) (shaAbsorb v (wordsOf 16 m))

/-- SHA-256. -/
def sha256 (l : List Byte) : BitVec 256 :=
  let m := shaPadded l
  (shaOver (m.length / 64) m shaStart).foldl (fun acc w => acc <<< 32 ||| w.zeroExtend 256) 0

/-- HMAC-SHA-256 with a 32-byte key, as FIPS 198-1 gives it (log entry 120). -/
def hmacSha256 (key : BitVec 256) (msg : List Byte) : BitVec 256 :=
  let k := beBytes 32 key.toNat ++ List.replicate 32 0
  let mask := fun (b : Byte) => k.map fun x => x ^^^ b
  sha256 (mask 0x5C ++ beBytes 32 (sha256 (mask 0x36 ++ msg)).toNat)

/-! ### ECDSA P-256 -/

def p256P : Nat := 0xffffffff00000001000000000000000000000000ffffffffffffffffffffffff
def p256N : Nat := 0xffffffff00000000ffffffffffffffffbce6faada7179e84f3b9cac2fc632551
def p256B : Nat := 0x5ac635d8aa3a93e7b3ebbd55769886bc651d06b0cc53b0f63bce3c3e27d2604b
def p256Gx : Nat := 0x6b17d1f2e12c4247f8bce6e563a440f277037d812deb33a0f4a13945d898c296
def p256Gy : Nat := 0x4fe342e2fe1a7f9b8ee7eb4a7c0f9e162bce33576b315ececbb6406837bf51f5

/-- A power modulo m: `n` bounds the bits of the exponent. -/
def powMod (m : Nat) : Nat → Nat → Nat → Nat
  | 0, _, _ => 1 % m
  | n + 1, a, e =>
    let r := powMod m n (a * a % m) (e / 2)
    if e % 2 = 1 then a * r % m else r

/-- The inverse modulo a prime. -/
def invMod (m a : Nat) : Nat := powMod m 256 (a % m) (m - 2)

/-- A point; none is the point at infinity. -/
abbrev P256Pt := Option (Nat × Nat)

/-- Addition of points. -/
def p256Add : P256Pt → P256Pt → P256Pt
  | none, q => q
  | p, none => p
  | some (x1, y1), some (x2, y2) =>
    if x1 = x2 && (y1 + y2) % p256P = 0 then none
    else
      let num := if x1 = x2 then 3 * x1 * x1 + (p256P - 3) else y2 + p256P - y1
      let den := if x1 = x2 then 2 * y1 else x2 + p256P - x1
      let k := num % p256P * invMod p256P den % p256P
      let x := (k * k + 2 * p256P - x1 - x2) % p256P
      some (x, (k * (x1 + p256P - x) + p256P - y1) % p256P)

/-- Multiplication of a point: `n` bounds the bits of the factor. -/
def p256Mul : Nat → Nat → P256Pt → P256Pt
  | 0, _, _ => none
  | n + 1, k, p =>
    let r := p256Mul n (k / 2) (p256Add p p)
    if k % 2 = 1 then p256Add p r else r

/-- A public key that is a point of the curve. -/
def p256OnCurve (x y : Nat) : Bool :=
  decide (x < p256P) && decide (y < p256P) &&
  decide (y * y % p256P = (x * x * x + (p256P - 3) * x + p256B) % p256P)

/-- ECDSA verification of the signature (r, s) over a hash with the key (x, y). -/
def ecdsaVerify (x y r s : Nat) (hash : BitVec 256) : Bool :=
  if !p256OnCurve x y || r = 0 || s = 0 || p256N ≤ r || p256N ≤ s then false
  else
    let w := invMod p256N s
    let g := p256Mul 256 (hash.toNat * w % p256N) (some (p256Gx, p256Gy))
    let q := p256Mul 256 (r * w % p256N) (some (x, y))
    match p256Add g q with
    | none => false
    | some (px, _) => decide (px % p256N = r)

end Sys2Proof
end

