-- ==== Sys2Proof/Machine/Light.lean ====
section
/-! DEFINITION. Light (chapter "Keeping the light: ring locking, laser health and spares") and the
immediate commands of group 0x03: rings and tones, laser readings, the spare swap on both sides, and
the band switch. -/

namespace Sys2Proof.Machine

/-! ### Rings and tones (R332 to R339) -/

/-- CHAN: the channel of R17, or G(8 + c). -/
def PortSt.chan (x : PortSt) (p : Nat) : Nat := if x.express then 8 + x.xch.toNat else p % 8

/-- Sets a ring to sweep again from its calibrated point; a modulator ring after a wrong lock sweeps
muted. -/
def Dev.resweep (d : Dev) (p : Nat) (r : Ring) (lock : RingLock) : Dev :=
  let x := d.ring p r
  d.setRing p r { x with
    lock := lock, heater := x.start (d.tempDelta (engOf p)), matches_ := 0, misses := 0, passed := 0,
    windows := 0 }

/-- Counts a lock failure of a ring; at the third the port goes down (R339). The answer says so. -/
def Dev.lockFail (d : Dev) (p : Nat) (r : Ring) (tx : Bool) : Dev × Bool :=
  let x := d.ring p r
  let n := if 3 ≤ x.fails then 3 else x.fails + 1
  let d1 := d.setRing p r { x with fails := n }
  if n = 3 then
    let d2 := (d1.abandonSwap p).goDown p 1 exitWrong tx
    (d2.setRing p r { d2.ring p r with lock := .unlocked }, true)
  else (d1, false)

/-- A wrong lock (R338). -/
def Dev.wrongLock (d : Dev) (p : Nat) (r : Ring) : Dev :=
  let d1 := d.bump (ctrLight p 0)
  let d2 := match r with
    | .tx => (d1.resweep p r .muted).setPort p { d1.port p with muted := true }
    | .rx => d1.resweep p r .sweep
  let tx := decide (r = .rx)
  let f := d2.lockFail p r tx
  if f.2 then f.1
  else match (f.1.port p).st with
    | .active => (f.1.settleSwap p).exitToDetect p exitWrong tx
    | .draining => f.1.endDrain p (some exitWrong)
    | _ => f.1

/-- Accepts a lock (R337): the modulator of a port past DETECT is unmuted, a port in DETECT whose other
conditions hold leaves it (R360), and a ring that had failed has returned to service (R480). -/
def Dev.acceptLock (d : Dev) (p : Nat) (r : Ring) : Dev :=
  let x := d.ring p r
  let d1 := d.setRing p r { x with lock := .locked, matches_ := 0, misses := 0, lockedAt := d.now }
  let y := d1.port p
  let sends := match y.st with
    | .off | .detect | .absent | .down => false
    | _ => true
  let shows := sends && decide (r = .tx)
  let lit := if shows then d1.setPort p { y with muted := d1.mustMute p } else d1
  let d2 := (if shows && y.muted then lit.sendPattern p else lit).leaveDetect p
  if x.fails = 0 then d2 else d2.faultRec 2 0x06 p 0 0 0 0

/-- A window matches channel `g` (R336): its tone stands 10 dB above every other tone, and 15 dB above the
noise floor. -/
def toneHits (w : ToneWindow) (g : Nat) : Bool :=
  let level := fun (i : Nat) => (w.tones.getD i 0).toInt
  ((List.range 16).all fun i => i == g || decide (level i + 2560 ≤ level g)) &&
  decide (w.floor.toInt + 3840 ≤ level g)

/-- Received power below the loss-of-signal level, −18.0 dBm (R338, R371). -/
def toneBelowLos (w : ToneWindow) : Bool := decide (w.power.toInt < -4608)

/-- The sweep moves the heater upward to its next resonance (R334), within the DAC's range. -/
def RingSt.climb (x : RingSt) (ring : Nat) : BitVec 14 :=
  BitVec.ofNat 14 (min 16383 (x.heater.toNat + Config.resonanceStep ring x.passed x.heater))

/-- A window of a sweeping ring (R334, R337): a dwell of two windows at a resonance; where they do not both
match, the resonance is passed over, and a sweep meets at most four. -/
def Dev.dwell (d : Dev) (p : Nat) (r : Ring) (hit : Bool) : Dev :=
  let x := d.ring p r
  let m := x.matches_ + hit.toNat
  let h := if x.windows = 0 then x.climb (ringNo p r) else x.heater
  if 4 ≤ x.passed then d
  else if x.windows = 0 then d.setRing p r { x with windows := 1, matches_ := m, heater := h }
  else if m = 2 then d.acceptLock p r
  else d.setRing p r { x with windows := 0, matches_ := 0, passed := x.passed + 1 }

/-- TONE_WINDOW (R336 to R338): the expected channel is the port's own, CHAN. -/
def execToneWindow (p : Port) (ring : Ring) (w : ToneWindow) (s : State) :
    Host.Outcome State Fault Refusal :=
  let d := s.d
  let x := d.ring p.val ring
  let hit := toneHits w ((d.port p.val).chan p.val)
  goto s <|
    if !d.awake then d
    else match x.lock with
      | .unlocked => d
      | .locked =>
        if hit || (toneBelowLos w && decide (ring = .rx)) then d.setRing p.val ring { x with misses := 0 }
        else if x.misses + 1 < 2 then d.setRing p.val ring { x with misses := x.misses + 1 }
        else d.wrongLock p.val ring
      | _ => d.dwell p.val ring hit

/-- HEATER_LOOP_UPDATE (R332). -/
def execHeaterLoopUpdate (p : Port) (ring : Ring) (monitor : BitVec 16) (s : State) :
    Host.Outcome State Fault Refusal :=
  let d := s.d
  let x := d.ring p.val ring
  goto s <|
    if !d.awake || x.lock = .unlocked then d
    else d.setRing p.val ring { x with heater := Config.heaterLoop x.heater monitor }

/-- SWEEP_END_NO_LOCK (R337): the sweep ends between two dwells. -/
def execSweepEndNoLock (p : Port) (ring : Ring) (s : State) : Host.Outcome State Fault Refusal :=
  let d := s.d
  let x := d.ring p.val ring
  goto s <|
    if d.awake && (x.lock = .sweep || x.lock = .muted) && x.windows = 0 then
      ((d.resweep p.val ring x.lock).lockFail p.val ring (decide (ring = .rx))).1
    else d

/-- LOCK_FAILURE_CLEAR_TIMER (R339): 10 s of accepted lock. -/
def execLockFailureClearTimer (p : Port) (ring : Ring) (s : State) : Host.Outcome State Fault Refusal :=
  let d := s.d
  let x := d.ring p.val ring
  goto s <| if d.awake && x.lock = .locked then d.setRing p.val ring { x with fails := 0 } else d

/-! ### Laser readings (R340 to R343) -/

def offLightCtl (e : Nat) : Nat := baseOpt e + 0x10
def offFadeCtl (e : Nat) : Nat := baseOpt e + 0x14

/-- A threshold of OPT_FADE_CTL in 1/256 dB: 1 WARN, 2 SWAP, 3 HALF, 4 DOWN. -/
def Dev.fadeAt (d : Dev) (e lvl : Nat) : Int :=
  -((d.regBits (offFadeCtl e) (8 * lvl - 1) (8 * lvl - 8) * 32 : Nat) : Int)

/-- The port whose own laser this is. -/
def laserHome (e ix : Nat) : Option Nat :=
  if ix < 32 then some (32 * e + ix)
  else if 37 ≤ ix && e == 0 then some (ix - 37)
  else if 37 ≤ ix && e == 15 then some (496 + (ix - 37))
  else none

/-- The port that a laser lights: its own, or the one that its spare serves; from SWAP_NOW on, a spare lights
the port that swaps (R343, R346). -/
def Dev.laserPort (d : Dev) (e ix : Nat) : Option Nat :=
  let lights := fun (p : Nat) => d.laserIx p == ix
  if ix < 32 || 37 ≤ ix then (laserHome e ix).filter lights
  else match (d.swapIn e).filter fun w => w.spare == ix - 32 && decide (w.step = .shuttered) with
    | some w => some w.port
    | none =>
      let y := d.spare e (ix - 32)
      if y.st = 2 then (some (32 * e + y.port)).filter lights else none

/-- Places from a rotating pointer to a port's place. -/
def pointerDist (ptr p : Nat) : Nat := (placeOf p + 32 - ptr % 32) % 32

/-- A laser reaches the SWAP level (R342).  While another fiber's swap runs, the swap waits for its turn; of
two ports of one fiber that reach the level in one core clock the fiber's pointer picks one (R354). -/
def Dev.reachSwap (d : Dev) (p : Nat) : Dev :=
  let e := engOf p
  let f := spareOf p (d.port p).mode
  let ix := d.laserIx p
  if (d.spare e f).st = 0 then
    (if d.canSwap p then d.fadeSwap p else d.setLaser e ix { d.laser e ix with swapOwed := true })
  else match d.swapIn e with
    | some w =>
      if w.faded && w.spare == f && w.at_ == d.now && decide (w.step = .tuning) &&
          decide (pointerDist w.was p < pointerDist w.was w.port) then
        let d1 := (d.putSwap e (some { w with port := p })).setSpare e f { st := 1, port := placeOf p }
        { d1 with opt := { d1.opt with ptr := Tab.set d1.opt.ptr (e * 5 + f) ((placeOf p + 1) % 32) 0 } }
      else d
    | none => d

/-- Half rate for a fade where the port may take it now; otherwise it is owed (R342, R351, R353, R354). -/
def Dev.reachHalf (d : Dev) (e ix p : Nat) : Dev :=
  let x := d.port p
  let owe := fun (b : Bool) => d.setLaser e ix { d.laser e ix with halfOwed := b }
  if !(x.st = .active) || (d.swapOfPort p).isSome then owe true
  else if x.feat.getLsbD 1 && !isHalf x.mode then (owe false).startDrain p .half
  else owe false

/-- The action of a level that a laser enters (R342). -/
def Dev.fadeAction (d : Dev) (e ix p lvl : Nat) (fade : Int) : Dev :=
  let x := d.port p
  let ctl := d.reg (offLightCtl e)
  match lvl with
  | 1 => d.event (.laserWarn e ix fade)
  | 2 => if bitOf ctl 0 && x.st != .off && x.st != .down && !d.onSpare p then d.reachSwap p else d
  | 3 => if bitOf ctl 2 && x.st != .off && x.st != .down then d.reachHalf e ix p else d
  | _ => (d.abandonSwap p).goDown p 2 exitLaser true

/-- Levels that have been confirmed, in order. -/
def Dev.fadeLevels (d : Dev) (e ix p : Nat) (fade : Int) : List (Nat × Nat) → Dev
  | [] => d
  | (lvl, n) :: r =>
    let y := d.laser e ix
    let need := atLeast1 (d.regBits (offLightCtl e) 15 8)
    let d1 := if need ≤ n && y.level < lvl then
        (d.setLaser e ix { y with level := lvl }).fadeAction e ix p lvl fade
      else d
    d1.fadeLevels e ix p fade r

/-- A reading of a laser that has no commissioning value: the first hundred make the first 100 ms reading,
which becomes the value (R341).  DEDUCED, log entry 153. -/
def Dev.firstReading (d : Dev) (e ix : Nat) (reading : BitVec 16) : Dev :=
  let y := d.laser e ix
  let sum := y.refSum + reading.toInt
  if y.refN + 1 < 100 then d.setLaser e ix { y with refN := y.refN + 1, refSum := sum }
  else
    let v := BitVec.ofInt 16 (sum / 100)
    (d.setLaser e ix { y with refN := 0, refSum := 0, hasRef := true, ref := v, fresh := true }).event
      (.laserRefFresh e ix v)

/-- Half rate that is owed is taken as soon as nothing stands against it (R342, R353). -/
def Dev.payHalf (d : Dev) (e ix p : Nat) : Dev :=
  if (d.laser e ix).halfOwed && d.regBit (offLightCtl e) 2 then d.reachHalf e ix p else d

/-- LASER_READING_1MS (R341, R342): `reading` is signed, in 1/256 dBm. -/
def Dev.reading1ms (d : Dev) (e ix : Nat) (reading : BitVec 16) : Dev :=
  let y := d.laser e ix
  let fade := reading.toInt - y.ref.toInt
  let up := fun (lvl n : Nat) => if fade ≤ d.fadeAt e lvl then n + 1 else 0
  let clear := if y.level = 1 && decide (d.fadeAt e 1 + 64 ≤ fade) then y.nClear + 1 else 0
  let back := decide (atLeast1 (d.regBits (offLightCtl e) 15 8) ≤ clear)
  let y1 := { y with
    fade := fade, nWarn := up 1 y.nWarn, nSwap := up 2 y.nSwap, nHalf := up 3 y.nHalf,
    nDown := up 4 y.nDown, nClear := if back then 0 else clear, level := if back then 0 else y.level }
  if !y.hasRef then d.firstReading e ix reading
  else
    let d1 := d.setLaser e ix y1
    match d1.laserPort e ix with
    | none => d1
    | some p =>
      (d1.fadeLevels e ix p fade [(1, y1.nWarn), (2, y1.nSwap), (3, y1.nHalf), (4, y1.nDown)]).payHalf e ix p

/-- A reading goes into a window of `k` of them: the window shows the mean of the last `k` that it has taken whole.
DEDUCED, log entry 153. -/
def WinAvg.add (w : WinAvg) (k : Nat) (v : Int) : WinAvg :=
  if w.n + 1 < k then { w with n := w.n + 1, sum := w.sum + v } else { n := 0, sum := 0, last := some ((w.sum + v) / k) }

/-- A 1 ms reading goes into the windows of 10 ms and 100 ms, and a 10 µs reading into that of 100 µs (R340). -/
def Laser.note1ms (y : Laser) (v : Int) : Laser := { y with w10ms := y.w10ms.add 10 v, w100ms := y.w100ms.add 100 v }
def Laser.note10us (y : Laser) (v : Int) : Laser := { y with w100us := y.w100us.add 10 v }

/-- LASER_READING_1MS (R342): the reading of every millisecond of a lit laser. -/
def execLaserReading1ms (e : Fin 16) (l : LaserIx) (reading : BitVec 16) (s : State) :
    Host.Outcome State Fault Refusal :=
  let d := s.d
  let y := d.laser e.val l.val
  goto s <|
    if d.awake && d.serving && y.lit then
      (d.setLaser e.val l.val (y.note1ms reading.toInt)).reading1ms e.val l.val reading
    else d

/-- A laser failure of the laser that lights port `p` (R350, R354): the port leaves at once, with no
message on the dead light, and takes the spare that is being prepared or is ready, or goes down.  A spare
that fails in its own pause leaves the port no laser that is ready. -/
def Dev.laserFails (d : Dev) (e ix p : Nat) : Dev :=
  let y := d.laser e ix
  let isSpare := decide (32 ≤ ix ∧ ix < 37)
  let d0 := d.setLaser e ix { y with lit := false, failed := true }
  let d1 := if isSpare then d0.setSpare e (ix - 32) { st := 3 } else d0
  let st := (d1.port p).st
  if st = .off || st = .down then d1
  else
    let leave := fun (d : Dev) =>
      let dark := d.setPort p { d.port p with muted := true }
      match st with
      | .active => (dark.exitCommon p exitLaser).toDetect p
      | .draining =>
        let d2 := dark.endDrain p (some exitLaser)
        if (d.port p).drain = some .mode then d2.resumeSwaps e else d2
      | _ => dark.toDetect p
    match d1.swapOfPort p with
    | some s =>
      if isSpare then (d1.dropSwap e s true .notFound).goDown p 3 exitLaser false
      else match s.step with
      | .paused | .shuttered => leave (d1.finishSwap e s none)
      | .tuning => leave (d1.putSwap e (some { s with dead := true }))
      | _ => leave (d1.finishSwap e { s with dead := true } none)
    | none =>
      if !isSpare && (d1.spare e (spareOf p (d1.port p).mode)).st = 0 then
        (if (d1.swapIn e).isNone then leave (d1.startSwap p true) else leave d1)
      else d1.goDown p 3 exitLaser false

/-- LASER_READING_10US (R343). -/
def execLaserReading10us (e : Fin 16) (l : LaserIx) (reading : BitVec 16) (driveFault : Bool)
    (s : State) : Host.Outcome State Fault Refusal :=
  let d := s.d
  let y := d.laser e.val l.val
  let fade := reading.toInt - y.ref.toInt
  let low := y.hasRef && decide (fade ≤ d.fadeAt e.val 4 - 512)
  let d1 := d.setLaser e.val l.val { y.note10us reading.toInt with fade10 := if y.hasRef then fade else y.fade10 }
  goto s <|
    if !(d.awake && d.serving && y.lit) then d
    else if !(low || driveFault) then d1
    else match d1.laserPort e.val l.val with
      | some p => d1.laserFails e.val l.val p
      | none => d1.setLaser e.val l.val { d1.laser e.val l.val with lit := false, failed := true }

/-! ### The spare swap: the device's own laser (R346 to R350) -/

/-- SWAP_REQ. -/
def Dev.sendSwapReq (d : Dev) (s : Swap) : Dev :=
  let both := isCampus (d.port s.port).mode
  d.sendLink s.port [0x40, s.token, if both then 1 else 0, 0, 0, 50]

/-- A swap by retrain (R349), where ALLOW_RETRAIN permits it: through DRAINING from ACTIVE, at once in
bring-up, or not at all where the port is OFF or DOWN. -/
def Dev.retrainSwap (d : Dev) (e : Nat) (s : Swap) : Dev :=
  match (d.port s.port).st with
  | .off | .down => d.dropSwap e s false .conflict
  | .active =>
    if s.dead || d.regBit (offLightCtl e) 1 then
      (d.putSwap e (some { s with step := .draining })).startDrain s.port .swap
    else d.dropSwap e s false .conflict
  | .draining =>
    if s.dead || d.regBit (offLightCtl e) 1 then d.putSwap e (some { s with step := .draining })
    else d.dropSwap e s false .conflict
  | _ =>
    if s.dead || d.regBit (offLightCtl e) 1 then (d.finishSwap e s none).toDetect s.port
    else d.dropSwap e s false .conflict

/-- SPARE_TUNED (R346): on a campus link, where the partner's swap pauses both directions, the own request
waits for its end (R354). -/
def execSpareTuned (e : Fin 16) (s : State) : Host.Outcome State Fault Refusal :=
  let d := s.d
  goto s <|
    match (if d.awake then d.swapIn e.val else none) with
    | none => d
    | some w =>
      if w.step != .tuning then d
      else
        let x := d.port w.port
        let waits := isCampus x.mode && x.holdsOff
        if x.st = .active && !w.dead && x.feat.getLsbD 0 then
          let w1 := { w with step := .requested (if waits then 0 else 1) }
          let d1 := d.putSwap e.val (some w1)
          if waits then d1 else d1.sendSwapReq w1
        else d.retrainSwap e.val w

/-- SPARE_TUNE_TIMEOUT (R353). A dead laser's port then has no laser left. -/
def execSpareTuneTimeout (e : Fin 16) (s : State) : Host.Outcome State Fault Refusal :=
  let d := s.d
  goto s <|
    match (if d.awake then d.swapIn e.val else none) with
    | none => d
    | some w =>
      if w.step != .tuning then d
      else
        let d1 := d.dropSwap e.val w true .notFound
        if w.dead then d1.goDown w.port 3 exitLaser false else d1

/-- SWAP_REQ_RESEND (R346): 20 µs without an answer; a request that waited for a partner's swap is sent when
no such swap stands any more. -/
def execSwapReqResend (e : Fin 16) (s : State) : Host.Outcome State Fault Refusal :=
  let d := s.d
  goto s <|
    match (if d.awake then d.swapIn e.val else none) with
    | none => d
    | some w =>
      match w.step with
      | .requested n =>
        if n = 0 && (d.port w.port).holdsOff then d
        else if n < 3 && (d.port w.port).st = .active then
          let w1 := { w with step := .requested (n + 1) }
          (d.putSwap e.val (some w1)).sendSwapReq w1
        else d.retrainSwap e.val w
      | _ => d

/-- The swap of port `p` that has sent a SWAP_REQ with this token. -/
def Dev.asked (d : Dev) (p : Nat) (token : Byte) : Option Swap :=
  match d.swapOfPort p with
  | some w => match w.step with
    | .requested n => if n != 0 && w.token == token then some w else none
    | _ => none
  | none => none

/-- SWAP_ACK_RECEIVED: the pause begins (R128, R346). -/
def execSwapAckReceived (p : Port) (token : Byte) (s : State) : Host.Outcome State Fault Refusal :=
  let d := s.d
  let d1 := d.countLink p.val 1
  let x := d1.port p.val
  goto s <|
    if !d.hears p.val then d.echo p.val [0x41, token]
    else match d1.asked p.val token with
      | some w =>
        if x.st = .active then
          (d1.setPort p.val { x with held := true }).putSwap (engOf p.val)
            (some { w with step := .paused, heldAt := d.now })
        else d1
      | none => d1

/-- SWAP_NOW: the last frame byte has left; the shutters change (R346). -/
def execSwapNow (e : Fin 16) (s : State) : Host.Outcome State Fault Refusal :=
  let d := s.d
  goto s <|
    match (if d.awake then d.swapIn e.val else none) with
    | none => d
    | some w =>
      if w.step = .paused && (d.sendingOn (d.logical w.port)).isEmpty then
        let d1 := d.sendLink w.port [0x43, w.token, if isCampus (d.port w.port).mode then 1 else 0, 0, 0, 50]
        let old := d1.laserIx w.port
        let d2 := d1.setLaser e.val old { d1.laser e.val old with lit := false }
        let sp := d2.laser e.val (32 + w.spare)
        (d2.setLaser e.val (32 + w.spare) { sp with lit := true }).putSwap e.val
          (some { w with step := .shuttered })
      else d

/-- SWAP_NAK_RECEIVED (R349). -/
def execSwapNakReceived (p : Port) (token : Byte) (s : State) : Host.Outcome State Fault Refusal :=
  let d := s.d
  let d1 := d.countLink p.val 1
  goto s <|
    if !d.hears p.val then d.echo p.val [0x42, token]
    else match d1.asked p.val token with
      | some w => d1.retrainSwap (engOf p.val) w
      | none => d1

/-- Answers a SWAP_REQ with SWAP_ACK and holds off the losses (R345). -/
def Dev.ackSwap (d : Dev) (p : Nat) (h : PartnerHold) : Dev :=
  let x := d.port p
  (d.setPort p { x with hold := some h, reqWait := none, held := x.held || h.both }).sendLink p
    [0x41, h.token, if h.both then 1 else 0, 0, 0, 50]

/-- SWAP_DONE_RECEIVED: the pause ends; a SWAP_REQ that came during it is answered (R354). -/
def execSwapDoneReceived (p : Port) (token : Byte) (s : State) : Host.Outcome State Fault Refusal :=
  let d := s.d
  let d1 := d.countLink p.val 1
  goto s <|
    if !d.hears p.val then d.echo p.val [0x44, token]
    else match d1.swapOfPort p.val with
      | none => d1
      | some w =>
        if w.step = .shuttered && w.token = token then
          let d2 := d1.finishSwap (engOf p.val) w (some (nsOfClk (d.now - w.heldAt)))
          let y := d2.port p.val
          if y.st = .draining && y.drain = some .mode && d2.drained p.val then d2.endDrain p.val none
          else match y.reqWait with
            | some h => d2.ackSwap p.val h
            | none => d2
        else d1

/-- Takes a port out of ACTIVE, or ends its drain and carries out the drain's purpose (R348, R373). -/
def Dev.leaveForLaser (d : Dev) (p : Nat) : Dev :=
  match (d.port p).st with
  | .draining => d.endDrain p (some exitLaser)
  | _ => d.exitToDetect p exitLaser true

/-- SWAP_PAUSE_TIMEOUT (R348): `spareOk` says that the spare delivers its reference power, `oldOk` that
the old laser can be used. -/
def execSwapPauseTimeout (e : Fin 16) (spareOk oldOk : Bool) (s : State) :
    Host.Outcome State Fault Refusal :=
  let d := s.d
  goto s <|
    match (if d.awake then d.swapIn e.val else none) with
    | none => d
    | some w =>
      if w.step != .paused && w.step != .shuttered then d
      else
        let p := w.port
        let old := d.laserIx p
        if spareOk then (d.finishSwap e.val w none).leaveForLaser p
        else
          let d1 := d.dropSwap e.val w true .notFound
          let low := decide ((d1.laser e.val old).fade ≤ d1.fadeAt e.val 3)
          let drains := decide ((d.port p).st = .draining)
          if !oldOk then
            let d2 := d1.setLaser e.val old { d1.laser e.val old with lit := false, failed := true }
            let d3 := if drains then d2.leaveForLaser p else d2
            if (d3.laser e.val (d3.laserIx p)).failed then d3.goDown p 3 exitLaser false else d3
          else
            let d2 := d1.setLaser e.val old { d1.laser e.val old with lit := true }
            if low && !drains && !isHalf (d2.port p).mode then
              (((d2.exitCommon p exitLaser).sendLinkDown p exitLaser).takeHalf p).toDetect p
            else d2.leaveForLaser p

/-! ### The partner's swap (R345, R354) -/

/-- SWAP_REQ_RECEIVED (R345): a port that is not ACTIVE or lacks FEC lock answers SWAP_NAK, unless its
transmitter is dark or muted. -/
def execSwapReqReceived (p : Port) (token : Byte) (both : Bool) (s : State) :
    Host.Outcome State Fault Refusal :=
  let d := s.d
  let x := d.port p.val
  let d1 := d.countLink p.val 1
  let h : PartnerHold := { token := token, both := both }
  let partnerSerial := LinkMsg.field x.partnerId 12 8
  goto s <|
    if !d.awake || d.loop p.val == 2 then d.echo p.val [0x40, token, if both then 1 else 0, 0, 0, 50]
    else if x.st != .active || !x.fecLock then
      (if x.st = .off || d.silent p.val then d1
       else d1.sendLink p.val [0x42, token, if both then 1 else 0, 0, 0, 50])
    else match d1.swapOfPort p.val with
      | some w =>
        match w.step with
        | .paused | .shuttered =>
          if isCampus x.mode then d1 else d1.setPort p.val { x with reqWait := some h }
        | .requested n =>
          if isCampus x.mode && n != 0 then
            (if d.fuses.serial.toNat < partnerSerial then d1
             else (d1.putSwap (engOf p.val) (some { w with step := .requested 0 })).ackSwap p.val h)
          else d1.ackSwap p.val h
        | _ => d1.ackSwap p.val h
      | none => d1.ackSwap p.val h

/-- SWAP_NOW_RECEIVED (R345). -/
def execSwapNowReceived (p : Port) (token : Byte) (s : State) : Host.Outcome State Fault Refusal :=
  let d := s.d
  let x := d.port p.val
  let d1 := d.countLink p.val 1
  goto s <|
    if !d.hears p.val then d.echo p.val [0x43, token]
    else match x.hold with
      | some h => if h.token = token then d1.setPort p.val { x with hold := some { h with nowSeen := true } } else d1
      | none => d1

/-- Ends the hold-off of losses: with BOTH, the own queues stay held until the first data block after
SWAP_NOW (R345); where no SWAP_NOW came, they are released with it.  An own request that waited goes out
(R354).  DEDUCED, log entry 155. -/
def Dev.endHold (d : Dev) (p : Nat) (h : PartnerHold) : Dev :=
  let x := d.port p
  let waits := h.both && h.nowSeen && !h.data
  let d1 := d.setPort p { x with
    hold := if waits then some { h with ended := true } else none,
    held := if h.both && !waits then d.ownPause p else x.held }
  match d1.swapOfPort p with
  | some w =>
    if w.step = .requested 0 then
      let w1 := { w with step := .requested 1 }
      if x.st = .active then (d1.putSwap (engOf p) (some w1)).sendSwapReq w1
      else d1.putSwap (engOf p) (some w1)
    else d1
  | none => d1

/-- SWAP_DONE: framing holds again after SWAP_NOW; sent three times (R345). -/
def execSwapDone (p : Port) (s : State) : Host.Outcome State Fault Refusal :=
  let d := s.d
  let x := d.port p.val
  goto s <|
    match x.hold with
    | some h =>
      if d.awake && h.nowSeen && !h.ended && x.fecLock && !x.hunting then
        let m : List Byte := [0x44, h.token, if h.both then 1 else 0, 0, 0, 50]
        (((d.sendLink p.val m).sendLink p.val m).sendLink p.val m).endHold p.val h
      else d
    | none => d

/-- PARTNER_SWAP_HOLD_EXPIRY: from here on a loss is declared again (R345). -/
def execPartnerSwapHoldExpiry (p : Port) (s : State) : Host.Outcome State Fault Refusal :=
  let d := s.d
  goto s <|
    match (d.port p.val).hold with
    | some h => if d.awake && !h.ended then d.endHold p.val h else d
    | none => d

/-- RATE_DOWN_RECEIVED (R351): the partner enters half rate, and this end follows it. -/
def execRateDownReceived (p : Port) (s : State) : Host.Outcome State Fault Refusal :=
  let d := s.d
  let x := d.port p.val
  let d1 := d.countLink p.val 1
  goto s <|
    if !d.hears p.val then d.echo p.val [0x45]
    else if x.st = .active && x.feat.getLsbD 1 && !isHalf x.mode then d1.startDrain p.val .rate
    else d1

/-! ### Register values (R330, R356) -/

/-- OPT_ENG_STATUS. -/
def Dev.engStatusReg (d : Dev) (e : Nat) : Nat :=
  let band := d.fuses.band.getLsbD e
  (decide (e = 0 ∨ e = 15)).toNat <<< 3 ||| (band == d.isLeaf).toNat <<< 2 |||
  (Tab.find d.opt.moving e).isSome.toNat <<< 1 ||| band.toNat

/-- OPT_PORT_CFGi. -/
def Dev.portCfgReg (d : Dev) (p : Nat) : Nat :=
  let x := d.port p
  x.cfreq.toNat <<< 16 ||| x.chan p <<< 8 ||| x.xch.toNat <<< 4 ||| x.express.toNat <<< 3 ||| x.mode.toNat

/-- OPT_LINE_STATUSi. -/
def Dev.lineStatusReg (d : Dev) (p : Nat) : Nat :=
  let x := d.port p
  (if x.mode = 0 then 0 else (Config.lineMeasure p d.now).toNat <<< 16) |||
  x.frameSync.toNat <<< 1 ||| x.fecLock.toNat

/-- OPT_SPARE_STATUS. -/
def Dev.spareStatusReg (d : Dev) (e : Nat) : Nat :=
  let one := fun (f : Nat) =>
    let x := d.spare e f
    (if x.st = 2 then x.port % 8 else 0) <<< 4 ||| x.st
  let c := d.spare e 4
  (if c.st = 2 then c.port % 16 else 0) <<< 36 ||| c.st <<< 32 |||
  one 3 <<< 24 ||| one 2 <<< 16 ||| one 1 <<< 8 ||| one 0

/-- Code of a ring's lock. -/
def RingLock.code : RingLock → Nat
  | .unlocked => 0 | .sweep => 1 | .locked => 2 | .muted => 3

/-- The fade over a longer window, in 1/256 dB: its reading less the commissioning value (R341, R356); 0 before
either. -/
def Laser.fadeOver (y : Laser) (w : WinAvg) : Int :=
  match w.last with
  | some v => if y.hasRef then v - y.ref.toInt else 0
  | none => 0

/-- OPT_LIGHT_STATUSi. -/
def Dev.lightStatusReg (d : Dev) (p : Nat) : Nat :=
  let e := engOf p
  let x := d.port p
  let ix := d.laserIx p
  let y := d.laser e ix
  let win := d.regBits (offLightCtl e) 7 5
  let fade := unsignedOf 16 (if win = 0 then y.fade10
    else if win = 1 then y.fadeOver y.w100us else if win = 3 then y.fadeOver y.w10ms
    else if win = 4 then y.fadeOver y.w100ms else y.fade)
  let t := d.ring p .tx
  let r := d.ring p .rx
  fade <<< 48 ||| (if x.reason ≤ 3 then x.reason else 0) <<< 36 ||| y.level <<< 33 ||| (d.onSpare p).toNat <<< 32 |||
  t.lock.code <<< 22 ||| r.lock.code <<< 20 ||| t.fails <<< 18 ||| r.fails <<< 16

/-- The laser that OPT_LASER_REF and its register name as `i`: a port's is the one of the port's mode.
DESIGN CHOICE, log entry 44. -/
def Dev.refIx (d : Dev) (e i : Nat) : Nat := if i < 32 then ownLaser (32 * e + i) (d.port (32 * e + i)).mode else i

/-- OPT_LASER_REFi. -/
def Dev.laserRefReg (d : Dev) (e i : Nat) : Nat :=
  let y := d.laser e (d.refIx e i)
  y.fresh.toNat <<< 31 ||| y.ref.toNat

/-! ### Commands (R329, R355) -/

/-- OPT_BAND_SET (R312, R327): held until the switch has settled. -/
def execOptBandSet (c : CmdCtx) (engine : Byte) (terminate : Bool) (s : State) :
    Host.Outcome State Fault Refusal :=
  goto s <| s.d.runCmd (.optBandSet c engine terminate) c 0x0302 .owner fun d =>
    let e := engine.toNat
    let express := (List.range 32).any fun i =>
      let x := d.port (32 * e + i)
      x.express && x.mode != 0 || x.modeSet.express && x.modeSet.mode != 0
    if 16 ≤ e then answer d .badParam
    else if (Tab.find d.opt.moving e).isSome || (!terminate && express) then answer d .conflict
    else ({ d with opt := { d.opt with moving := Tab.put d.opt.moving e terminate } }).holdReply c 0x0302
      (.band e)

/-- BAND_SWITCH_SETTLED (R329). -/
def execBandSwitchSettled (e : Fin 16) (s : State) : Host.Outcome State Fault Refusal :=
  let d := s.d
  goto s <|
    match Tab.find d.opt.moving e.val with
    | none => d
    | some t =>
      if !d.awake then d
      else
        let b := BitVec.ofNat 16 (withBit d.fuses.band.toNat e.val t)
        let d1 := { d with opt := { d.opt with moving := Tab.del d.opt.moving e.val },
                           fuses := { d.fuses with band := b } }
        d1.finishFor (.band e.val) .ok .empty

/-- OPT_READ (R329). -/
def execOptRead (c : CmdCtx) (engine : Byte) (s : State) : Host.Outcome State Fault Refusal :=
  goto s <| s.d.runCmd (.optRead c engine) c 0x0304 .observer fun d =>
    let e := engine.toNat
    if 16 ≤ e then answer d .badParam
    else answerOk d (d.engStatusReg e ::
      ((List.range 32).map fun i => d.portCfgReg (32 * e + i)) ++
      ((List.range 32).map fun i => d.lineStatusReg (32 * e + i)))

/-- OPT_LASER_REF: a value is written with operator class (R341). -/
def execOptLaserRef (c : CmdCtx) (engine laser : Byte) (value : Option (BitVec 16)) (s : State) :
    Host.Outcome State Fault Refusal :=
  goto s <| s.d.runCmd (.optLaserRef c engine laser value) c 0x0305
      (if value.isSome then .operator else .observer) fun d =>
    let e := engine.toNat
    let i := laser.toNat
    let ix := d.refIx e i
    if 16 ≤ e || 36 < i || (i = 36 && e != 0 && e != 15) then answer d .badParam
    else match value with
      | none => answerOk d [(d.laser e ix).ref.toNat, (d.laser e ix).fresh.toNat]
      | some v =>
        answerOk (d.setLaser e ix { d.laser e ix with ref := v, hasRef := true, fresh := false })
          [v.toNat, 0]

/-- OPT_SWAP: held until the swap ends (R346). -/
def execOptSwap (c : CmdCtx) (port : BitVec 16) (s : State) : Host.Outcome State Fault Refusal :=
  goto s <| s.d.runCmd (.optSwap c port) c 0x0306 .operator fun d =>
    let p := port.toNat
    let x := d.port p
    if 512 ≤ p then answer d .badParam
    else if d.claimedElse c.src (.port p) || (d.swapIn (engOf p)).isSome || x.st = .off || x.st = .down then
      answer d .conflict
    else if !d.canSwap p then answer d .notFound
    else (d.startSwap p false).holdReply c 0x0306 (.swap p)

/-- OPT_RELOCK (R339). -/
def execOptRelock (c : CmdCtx) (port : BitVec 16) (s : State) : Host.Outcome State Fault Refusal :=
  goto s <| s.d.runCmd (.optRelock c port) c 0x0307 .operator fun d =>
    let p := port.toNat
    let x := d.port p
    if 512 ≤ p || !(x.st = .down && x.reason = 1) then answer d .badParam
    else if d.claimedElse c.src (.port p) then answer d .conflict
    else
      let clear := fun (r : RingSt) => { r with
        fails := 0, lock := if r.lock = .locked then .locked else .unlocked }
      answer ((d.mapRings p clear).toDetect p) .ok

/-- OPT_LIGHT_READ (R355). -/
def execOptLightRead (c : CmdCtx) (engine : Byte) (s : State) : Host.Outcome State Fault Refusal :=
  goto s <| s.d.runCmd (.optLightRead c engine) c 0x0308 .observer fun d =>
    let e := engine.toNat
    let rings := (List.range 64).flatMap fun i =>
      let x := d.ring (32 * e + i / 2) (if i % 2 = 0 then .tx else .rx)
      [x.hcal.toNat, unsignedOf 32 x.slope]
    if 16 ≤ e then answer d .badParam
    else answerOk d (d.spareStatusReg e ::
      ((List.range 32).map fun i => d.lightStatusReg (32 * e + i)) ++
      ((List.range 37).map fun i => d.laserRefReg e i) ++ rings)

end Sys2Proof.Machine
end

