-- ==== Sys2Proof/Machine/StagedPort.lean ====
section
/-! DEFINITION. Staged changes of ports, the store and traffic management: parameter rules and effects
at the flip (R125, R134, R137 to R139, R155, R325 to R327, R329, R367 to R370, R378). -/

namespace Sys2Proof.Machine

/-- A parameter rule: the status where it fails. -/
def rule (ok : Bool) (st : Status) (rest : Option Status) : Option Status := if ok then rest else some st

/-! ### The plan (R367 to R370, R378) -/

def Dev.setPlan (d : Dev) (l : Nat) (e : PlanEntry) : Dev :=
  { d with plan := Tab.set d.plan l e { valid := false, role := 0, addr := 0, port := 0, serial := 0, system := 0 } }

def checkPlanSet (p : PlanSetP) : Option Status := rule (decide (p.port.toNat < 512)) .badParam none

def checkPlanGroup (p : PlanGroupP) : Option Status := rule (decide (p.engine.toNat < 16)) .badParam none

def Dev.setAutoRemap (d : Dev) (e : Nat) (on : Bool) : Dev :=
  let b := BitVec.ofNat 16 (1 <<< e)
  { d with autoRemap := if on then d.autoRemap ||| b else d.autoRemap &&& ~~~b }

/-- The 32 numbers are the engine's physical ports, each once. -/
def isPermutation (e : Nat) (l : List (BitVec 16)) : Bool :=
  l.length == 32 && (List.range 32).all fun i => l.any fun x => x.toNat == 32 * e + i

/-- A port whose queues keep their owner: ACTIVE or DRAINING. -/
def Dev.busyPort (d : Dev) (p : Nat) : Bool := (d.port p).st == .active || (d.port p).st == .draining

/-- The bindings that a map changes: logical number, former and new physical port. -/
def Dev.mapChanges (d : Dev) (e : Nat) (l : List (BitVec 16)) : List (Nat × Nat × Nat) :=
  ((List.range 32).map fun i => (32 * e + i, d.physical (32 * e + i), (l.getD i 0).toNat)).filter
    fun x => x.2.1 != x.2.2

/-- DEDUCED, log entry 58. -/
def Dev.checkPortMap (d : Dev) (p : PortMapSetP) : Option Status :=
  rule (decide (p.engine.toNat < 16) && isPermutation p.engine.toNat p.phys) .badParam
    (rule ((d.mapChanges p.engine.toNat p.phys).all fun x => !d.busyPort x.2.1 && !d.busyPort x.2.2) .conflict
      none)

/-- DEDUCED, log entry 58. -/
def Dev.setPortMap (d : Dev) (p : PortMapSetP) : Dev :=
  (d.mapChanges p.engine.toNat p.phys).foldl (fun d x => d.bindTo x.2.2 x.1) d

/-! ### Modes (R324 to R327) -/

/-- A port with campus fibers (R324). -/
def campusPort (p : Nat) : Bool := decide (p < 16) || decide (496 ≤ p ∧ p < 512)

/-- Another port of the same transmit fiber holds express index `c`. -/
def Dev.expressTaken (d : Dev) (p c : Nat) : Bool :=
  (List.range 8).any fun i =>
    let q := p / 8 * 8 + i
    let m := (d.port q).modeSet
    q != p && m.express && m.mode != 0 && m.xch.toNat == c

/-- DEDUCED, log entry 59. -/
def Dev.checkOptPortMode (d : Dev) (p : OptPortModeP) : Option Status :=
  let n := p.port.toNat
  let m := p.mode.toNat
  rule (decide (n < 512) && decide (m < 5) && decide (p.c.toNat < 8)) .badParam
    (rule (!(m == 3 || m == 4) || campusPort n) .badParam
      (rule (!p.express || ((m == 1 || m == 2) && d.isLeaf && isLeafUp (d.logical n) &&
          d.fuses.band.getLsbD (engOf n))) .badParam
        (rule (!(p.express && d.expressTaken n p.c.toNat) && (Tab.find d.opt.moving (engOf n)).isNone) .conflict
          none)))

def checkOptCampusFreq (p : OptCampusFreqP) : Option Status :=
  rule (campusPort p.port.toNat && decide (p.n.toNat ≤ 96)) .badParam none

/-- Gives a port a mode at the flip (R326): an ACTIVE port drains first, another starts bring-up from
DETECT in the new mode, and a port whose mode does not change stays, DOWN or not (R339); outside the campus modes the
frequency is kept for later.  Before READY every port is OFF, and a mode that an image's commands give waits for
READY (R456, R467). -/
def Dev.changeMode (d : Dev) (p : Nat) (m : NewMode) : Dev :=
  let x := d.port p
  if x.modeSet = m then d
  else if { x.modeSet with cfreq := m.cfreq } = m && !isCampus m.mode then
    d.setPort p { x with cfreq := m.cfreq, newMode := x.newMode.map fun n => { n with cfreq := m.cfreq } }
  else
    let d1 := d.giveUpSwap p
    let y := d1.port p
    match y.st with
    | .active => (d1.setPort p { y with newMode := some m }).startDrain p .mode
    | .draining => d1.setPort p { y with newMode := some m, drain := some .mode }
    | _ =>
      let d2 := d1.takeMode p m
      let gaveUp := if (d.swapOfPort p).isSome then some p else none
      if d2.serving then (d2.toDetect p).resumeSwapsBut (engOf p) gaveUp else d2

/-- Notes the mode that a staged command gives a port; the flip acts on what all of its commands give it (R326). -/
def Dev.noteMode (d : Dev) (p : Nat) (m : NewMode) : Dev := d.setPort p { d.port p with newMode := some m }

/-- In the band LOCAL the index c has no meaning, and the port keeps the one it held (R324).
DEDUCED, log entry 59. -/
def Dev.setOptPortMode (d : Dev) (p : OptPortModeP) : Dev :=
  let n := p.port.toNat
  let m := (d.port n).modeSet
  d.noteMode n {
    mode := BitVec.ofNat 3 p.mode.toNat, express := p.express,
    xch := if p.express then BitVec.ofNat 3 p.c.toNat else m.xch, cfreq := m.cfreq }

/-- A port outside the campus modes keeps the frequency for later. -/
def Dev.setCampusFreq (d : Dev) (p : OptCampusFreqP) : Dev :=
  let n := p.port.toNat
  d.noteMode n { (d.port n).modeSet with cfreq := BitVec.ofNat 7 p.n.toNat }

/-- The port to which a staged command gives a mode or frequency. -/
def Staged.modePort : Staged → Option Nat
  | .optPortMode p => some p.port.toNat
  | .optCampusFreq p => some p.port.toNat
  | _ => none

/-- The flip of the modes: each port that the commands name goes from what it held before them, `was`, to what they
leave it (R326). -/
def Dev.changeModes (was d : Dev) (ops : List Staged) : Dev :=
  ((ops.filterMap Staged.modePort).eraseDups).foldl (fun d p =>
    let m := (d.port p).modeSet
    (d.setPort p { d.port p with newMode := (was.port p).newMode }).changeMode p m) d

/-! ### Learn peers, mirrors and reserves (R89, R125, R134) -/

def checkLearnPeers (l : List (BitVec 24)) : Option Status :=
  rule (decide (l.length ≤ 16) && l.all fun a => addrKind a == 1) .badParam none

def Dev.setPeers (d : Dev) (l : List (BitVec 24)) : Dev := { d with fwd := { d.fwd with peers := l } }

/-- The port of a mirror source lies in range. -/
def mirrorSrcOk : MirrorSrc → Bool
  | .ingress p => decide (p.toNat < 512)
  | .egress p => decide (p.toNat < 512)
  | .flow .. => true

def checkMirror (p : MirrorSetP) : Option Status :=
  rule (decide (p.session.toNat < 16) && mirrorSrcOk p.source && decide (p.analysis.toNat < 512) &&
    decide (p.cls.toNat < 8)) .badParam none

def Dev.setMirror (d : Dev) (p : MirrorSetP) : Dev :=
  let m : MirrorSess := { source := p.source, analysis := p.analysis.toNat, cls := BitVec.ofNat 3 p.cls.toNat }
  { d with store := { d.store with
    mirrors := Tab.putOpt d.store.mirrors p.session.toNat (if p.enable then some m else none) } }

def Dev.setPartRes (d : Dev) (p : PartReserveP) : Dev :=
  let v : PartRes := { pmin := p.pmin.toNat, pmax := p.pmax.toNat }
  let t := Tab.set d.store.partRes p.part.toNat v { pmin := 0, pmax := 0xFFFFFFFF }
  { d with store := { d.store with partRes := t } }

/-- At COMMIT, the shared pool keeps 1,048,576 cells (R118).  DEDUCED, log entry 52. -/
def Dev.checkPartReserve (d : Dev) (commit : Bool) (p : PartReserveP) : Option Status :=
  rule (decide (p.part.toNat < 4096)) .badParam
    (rule (!commit || decide (1048576 ≤ (d.setPartRes p).sharedSize)) .noSpace none)

/-! ### Shapers and policers (R137 to R145, R155) -/

def checkShaper (p : ShaperSetP) : Option Status :=
  rule (decide (p.port.toNat < 512) && decide (p.cls.toNat < 8) && decide (p.level.toNat < 4)) .badParam none

/-- The values wait for the next refill (R139); the level applies with them. -/
def Dev.setShaperP (d : Dev) (p : ShaperSetP) : Dev :=
  let s := d.shaper p.port.toNat p.cls.toNat
  let v : BucketSet := { en := p.enable, rate := p.rate.toNat, burst := p.burst.toNat }
  d.setShaper p.port.toNat p.cls.toNat { s with b := { s.b with pend := some v }, levelPend := some p.level.toNat }

def checkGroupShaper (p : GroupShaperSetP) : Option Status := rule (decide (p.group.toNat < 64)) .badParam none

def Dev.setGroupShaper (d : Dev) (p : GroupShaperSetP) : Dev :=
  let g := Tab.get d.tm.groups p.group.toNat {}
  let v : BucketSet := { en := p.enable, rate := p.rate.toNat, burst := p.burst.toNat }
  let h : GroupShaper := { g with b := { g.b with pend := some v }, pend := some (p.ports, p.classes) }
  { d with tm := { d.tm with groups := Tab.put d.tm.groups p.group.toNat h } }

def checkPolicer (p : PolicerSetP) : Option Status := rule (decide (p.policer.toNat < 8192)) .badParam none

def Dev.setPolicer (d : Dev) (p : PolicerSetP) : Dev :=
  let x := Tab.get d.tm.policers p.policer.toNat {}
  let v : BucketSet := { en := p.enable, rate := p.rate.toNat, burst := p.burst.toNat }
  let y : Policer := { x with b := { x.b with pend := some v } }
  { d with tm := { d.tm with policers := Tab.put d.tm.policers p.policer.toNat y } }

/-- The key of a map lies in range. -/
def polKeyOk : PolMapKey → Bool
  | .portClass p c => decide (p.toNat < 512) && decide (c.toNat < 8)
  | .partition n => decide (n.toNat < 4096)

def checkPolicerMap (p : PolicerMapP) : Option Status :=
  rule (polKeyOk p.key && (decide (p.policer.toNat < 8192) || p.policer == 0xFFFF#16)) .badParam none

def Dev.setPolicerMap (d : Dev) (p : PolicerMapP) : Dev :=
  let v := if p.policer = 0xFFFF#16 then none else some p.policer.toNat
  match p.key with
  | .portClass l c => { d with tm := { d.tm with mapPort := Tab.putOpt d.tm.mapPort (l.toNat * 8 + c.toNat) v } }
  | .partition n => { d with tm := { d.tm with mapPart := Tab.putOpt d.tm.mapPart n.toNat v } }

/-- POLICER_READ: tokens in units of 1/4,096 byte, conforming bytes, dropped frames (R155). -/
def execPolicerRead (c : CmdCtx) (policer : BitVec 16) (s : State) : Host.Outcome State Fault Refusal :=
  goto s <| s.d.runCmd (.policerRead c policer) c 0x042B .observer fun d =>
    let x := Tab.get d.tm.policers policer.toNat {}
    if 8192 ≤ policer.toNat then answer d .badParam
    else answerOk d [(BitVec.ofInt 64 x.b.tokens).toNat, x.bytes % 2 ^ 64, x.dropped % 2 ^ 64]

end Sys2Proof.Machine
end

