-- ==== Sys2Proof/Machine/StagedRed.lean ====
section
/-! DEFINITION. Staged changes of contexts and sheaves: parameter rules and effects at the flip (R158,
R159, R191, R196, R197, R212, R213, R222, R226 to R228, R231, R525 row 19), and their reads. -/

namespace Sys2Proof.Machine

/-! ### Entries (R158, R159, R191, R196, R197) -/

/-- A power of two from 2 to 4,096. -/
def homeCountOk (n : Nat) : Bool := (List.range 12).any fun i => n == 2 ^ (i + 1)

/-- Operation, format, rotation and wide mode go together (R158, R159). -/
def opOk (op fmt : Nat) (tf wide : Bool) : Bool :=
  fmtDefined fmt &&
  (match op with
   | 0 | 1 | 2 => true
   | 3 | 4 | 7 => fmtIsFloat fmt
   | 5 | 6 => fmtIsInt fmt
   | _ => false) &&
  (!tf || fmtTransformable fmt) &&
  !(wide && (op == 1 || op == 2 || op == 5 || op == 6 || fmtIsInt fmt))

/-- CAP (R197). -/
def capOk (fmt cap : Nat) (tf : Bool) : Bool :=
  decide (1 ≤ cap ∧ cap ≤ fmtMaxElems fmt) && (!fmtIsMx fmt || cap % 32 == 0) && (!tf || cap % 16 == 0)

/-- Ports of a mask. -/
def portCount (m : PortMask) : Nat := (members m).length

/-- The rules on a context entry alone. -/
def ctxEntryOk (e : CtxEntry) : Bool :=
  e.level != 3 && opOk e.op.toNat e.fmt.toNat e.tf e.wide && capOk e.fmt.toNat e.cap.toNat e.tf &&
  (e.tiers == 2 || e.tiers == 3) && homeCountOk e.n2.toNat && (e.tiers == 2 || homeCountOk e.n3.toNat) &&
  decide (1 ≤ e.meanN.toNat ∧ e.meanN.toNat ≤ 1048576) &&
  (e.level == 0 || decide (1 ≤ e.window.toNat ∧ e.window.toNat ≤ 16384)) &&
  (e.level != 1 || decide (1 ≤ e.upCredits.toNat ∧ e.upCredits.toNat ≤ 16384)) &&
  (e.level != 0 || portCount e.members == 1)

/-- What CTX_SET may not change while a context is ACTIVE or SPILL (R227). -/
def sameFixed (a b : CtxEntry) : Bool :=
  a.level == b.level && a.part == b.part && a.job == b.job && a.fmt == b.fmt && a.cap == b.cap &&
  a.window == b.window && a.tiers == b.tiers && a.n2 == b.n2 && a.n3 == b.n3 && a.spillOk == b.spillOk &&
  a.width == b.width

/-- The reservation could never be granted (R228). -/
def Dev.tooLarge (d : Dev) (e : CtxEntry) : Bool :=
  let u := e.window.toNat * e.units
  decide (2048 < u) && (!e.spillOk || decide (d.spillUnits < u))

/-- CTX_SET: `live` is the device without the transaction's own changes, `d` with them.  A context that
the transaction itself has closed drains first, which forbids a new use (R425).  DEDUCED, log entry 53. -/
def Dev.checkCtxSet (d live : Dev) (commit : Bool) (p : CtxSetP) : Option Status :=
  let c := d.ctx? p.ctx.toNat
  let inUse := fun (s : CtxState) => match c with
    | some x => x.st == s
    | none => false
  let running := inUse .active || inUse .spill
  let fixed := match c with
    | some x => !running || sameFixed x.e p.e
    | none => true
  let livesOn := match live.ctx? p.ctx.toNat with
    | some x => x.st != .draining
    | none => true
  let fits := running || p.e.level == 0 ||
    (!d.tooLarge p.e && (inUse .pending || decide (d.pendingSetups.length < 4096)))
  rule (ctxEntryOk p.e && fixed) .badParam
    (rule (!(inUse .draining && livesOn)) .conflict (rule (!commit || fits) .noSpace none))

/-- The commands that name a context.  DEDUCED, log entry 53. -/
def Dev.checkCtxNamed (d : Dev) (c : BitVec 16) : Option Status := rule (d.ctx? c.toNat).isSome .notFound none

def meanOk (n : BitVec 32) : Bool := decide (1 ≤ n.toNat ∧ n.toNat ≤ 1048576)

def Dev.checkCtxReform (d : Dev) (p : CtxReformP) : Option Status :=
  match d.ctx? p.ctx.toNat with
  | none => some .notFound
  | some c =>
    rule (meanOk p.meanN && !(c.e.level == 0 && (c.e.members &&& ~~~p.remove) == 0)) .badParam none

/-- CTX_RESIZE: at COMMIT, B follows the highest SEQ accepted (R213). -/
def Dev.checkCtxResize (d : Dev) (commit : Bool) (p : CtxResizeP) : Option Status :=
  match d.ctx? p.ctx.toNat with
  | none => some .notFound
  | some c =>
    let after := match c.highest with
      | some h => decide (0 < seqDist p.boundary h)
      | none => true
    rule (meanOk p.meanNNext && !(c.e.level == 0 && portCount p.membersNext != 1)) .badParam
      (rule (!c.resizePend && (!commit || after)) .conflict none)

/-! ### Effects on contexts -/

/-- Puts a chunk into a list in SEQ order. -/
def insertSeq (x : Chunk) : List Chunk → List Chunk
  | [] => [x]
  | y :: r => if seqDist x.seq y.seq < 0 then x :: y :: r else y :: insertSeq x r

/-- Open chunks that wait for members and lack none complete, in ascending SEQ order (R199, R212).
DEDUCED, log entry 55. -/
def Dev.completeFull (d : Dev) (cid : Nat) : Dev :=
  match d.ctx? cid with
  | none => d
  | some c =>
    let full := c.chunks.filter fun x => decide (x.st = .gather) && x.bits == c.membership x.seq
    (full.foldl (fun l x => insertSeq x l) []).foldl (fun d x => d.complete cid x) d

/-- A context becomes ACTIVE or PENDING (R226, R228, R231). -/
def Dev.startCtx (d : Dev) (cid : Nat) (e : CtxEntry) (since : Nat) : Dev :=
  let d1 := { d with red := { d.red with last := Tab.del d.red.last cid } }
  if e.level = 0 then
    (d1.setCtx cid { e := e, st := .active }).event (.ctxReady (BitVec.ofNat 16 cid) false)
  else d1.setCtx cid { e := e, st := .pending, since := since }

/-- CTX_SET at the flip.  DEDUCED, log entry 55. -/
def Dev.setCtxEntry (d : Dev) (p : CtxSetP) : Dev :=
  let cid := p.ctx.toNat
  match d.ctx? cid with
  | some c => match c.st with
    | .active | .spill => (d.setCtx cid { c with e := p.e }).completeFull cid
    | .pending =>
      if p.e.level = 0 then d.startCtx cid p.e d.now
      else d.setCtx cid { c with e := p.e }
    | .draining => d
  | none => d.startCtx cid p.e d.now

/-- CTX_CLOSE at the flip: a PENDING context returns to FREE without a record (R231). -/
def Dev.closeCtx (d : Dev) (c : BitVec 16) : Dev :=
  let cid := c.toNat
  match d.ctx? cid with
  | some x => match x.st with
    | .pending => { d with red := { d.red with ctxs := Tab.del d.red.ctxs cid } }
    | .active | .spill => d.setCtx cid { x with st := .draining }
    | .draining => d
  | none => d

/-- CTX_REFORM at the flip (R212). -/
def Dev.reformCtx (d : Dev) (p : CtxReformP) : Dev :=
  let cid := p.ctx.toNat
  match d.ctx? cid with
  | none => d
  | some c =>
    let keep := ~~~p.remove
    let e := { c.e with
      members := c.e.members &&& keep, membersNext := c.e.membersNext &&& keep, meanN := BitVec.ofNat 21 p.meanN.toNat }
    (d.setCtx cid { c with
      e := e, chunks := c.chunks.map fun x => { x with bits := x.bits &&& keep } }).completeFull cid

/-- CTX_RESIZE at the flip (R213). -/
def Dev.resizeCtx (d : Dev) (p : CtxResizeP) : Dev :=
  d.modCtx p.ctx.toNat fun c => { c with
    resizePend := true,
    e := { c.e with membersNext := p.membersNext, meanNNext := BitVec.ofNat 21 p.meanNNext.toNat, boundary := p.boundary } }

/-- Every member port of a context or sheaf entry is enabled for its PART (R525 row 19). -/
def Bank.allEnabled (b : Bank) (part : BitVec 12) (m : PortMask) : Bool :=
  (members m).all fun l => b.enabled part.toNat l

/-! ### Sheaves (R216, R222) -/

def sheafEntryOk (e : SheafCfg) : Bool :=
  !e.valid ||
  ((e.level == 1 || e.level == 2) &&
   (e.level != 2 || decide (1 ≤ e.target.toNat ∧ e.target.toNat ≤ 1048576)) &&
   (e.level != 1 || (addrKind e.up == 1 && addrSvc e.up == 1 && addrTier e.up != 3)))

def checkSheafSet (p : SheafSetP) : Option Status :=
  rule (decide (p.n.toNat < 8192) && sheafEntryOk p.e) .badParam none

def Dev.checkSheafClose (d : Dev) (n : BitVec 16) : Option Status :=
  rule (decide (n.toNat < 8192)) .badParam (rule (d.sheaf? n.toNat).isSome .notFound none)

def Dev.closeSheaf (d : Dev) (n : BitVec 16) : Dev :=
  { d with red := { d.red with sheaves := Tab.del d.red.sheaves n.toNat } }

/-- A sheaf with its new entry: a changed PHASE starts afresh. -/
def Sheaf.withCfg (x : Sheaf) (e : SheafCfg) (now : Nat) : Sheaf :=
  if e.phase = x.cfg.phase then { x with cfg := e, arrived := x.arrived &&& e.members }
  else { x with
    cfg := e, count := 0, datum := 0, arrived := 0, got := false, sentUp := false, firstAt := some now,
    stuckSent := false }

/-- SHEAF_SET at the flip. -/
def Dev.setSheafEntry (d : Dev) (p : SheafSetP) : Dev :=
  let n := p.n.toNat
  if !p.e.valid then d.closeSheaf p.n
  else
    let x := match d.sheaf? n with
      | some x => x.withCfg p.e d.now
      | none => { cfg := p.e }
    (d.setSheaf n x).checkSheaf n

/-! ### Reads (R196, R210, R216, R222) -/

/-- The sixteen words of a mask, highest ports first. -/
def maskWords (m : PortMask) : List Nat :=
  (List.range 16).map fun i => bitsOf m.toNat (511 - 32 * i) (480 - 32 * i)

/-- The code of a context's state. -/
def CtxState.code : CtxState → Nat
  | .pending => 1 | .active => 2 | .spill => 3 | .draining => 4

/-- The 44 words of a context entry. -/
def Ctx.words (c : Ctx) : List Nat :=
  let e := c.e
  [1 <<< 31 ||| c.st.code <<< 28 ||| e.level.toNat <<< 26 ||| e.spillOk.toNat <<< 25 ||| e.prio.toNat <<< 23 |||
     c.resizePend.toNat <<< 22 ||| e.part.toNat <<< 8 ||| e.fmt.toNat,
   e.job.toNat <<< 16 ||| e.op.toNat <<< 12 ||| e.tf.toNat <<< 11 ||| e.wide.toNat <<< 10 ||| e.rnd.toNat <<< 9,
   e.seed.toNat, e.cseq.toNat, e.meanN.toNat, e.meanNNext.toNat,
   e.tiers.toNat <<< 30 ||| e.cap.toNat <<< 16 ||| e.window.toNat, e.upCredits.toNat <<< 16 ||| e.n2.toNat,
   e.n3.toNat <<< 16 ||| e.retryUs.toNat, e.abandonUs.toNat <<< 16 ||| e.lingerUs.toNat, e.report.toNat <<< 8,
   e.boundary.toNat] ++ maskWords e.members ++ maskWords e.membersNext

/-- Open chunks by state: GATHER, HOLD, SENT, and Thresh chunks that wait for the park region. -/
def Ctx.openCounts (c : Ctx) : List Nat :=
  let n := fun (s : ChunkState) => (c.chunks.filter fun x => decide (x.st = s)).length
  [n .gather, n .hold, n .sent, n .waitPark]

/-- CTX_READ: the entry, the open chunks by state, the highest SEQ accepted and the record.  Where no SEQ
was accepted the spec states no value, and a free one stands (R222).  DEDUCED, log entry 57. -/
def execCtxRead (c : CmdCtx) (ctx : BitVec 16) (s : State) : Host.Outcome State Fault Refusal :=
  goto s <| s.d.runCmd (.ctxRead c ctx) c 0x0505 .observer fun d =>
    let cid := ctx.toNat
    let r := d.draw
    let free := r.1.toNat % 2 ^ 32
    match d.ctx? cid with
    | some x => match x.highest with
      | some h => answerOk d (x.words ++ x.openCounts ++ [h.toNat] ++ completionRecord cid x)
      | none => answerOk r.2 (x.words ++ x.openCounts ++ [free] ++ completionRecord cid x)
    | none =>
      answerOk r.2 (List.replicate 44 0 ++ [0, 0, 0, 0] ++ [free] ++ Tab.get d.red.last cid (List.replicate 16 0))

/-- The 42 words of a sheaf entry. -/
def Sheaf.words (x : Sheaf) : List Nat :=
  let e := x.cfg
  [1 <<< 31 ||| e.level.toNat <<< 29 ||| e.actThresh.toNat <<< 28 ||| e.actMcast.toNat <<< 27 |||
     e.dop.toNat <<< 25 ||| e.part.toNat,
   e.job.toNat <<< 16 ||| e.releaseGroup.toNat, e.target.toNat, x.count, x.datum.toNat, e.phase.toNat,
   e.up.toNat <<< 8, e.retryUs.toNat <<< 16 ||| e.stuckMs.toNat, x.lastCount, x.lastDatum.toNat] ++
  maskWords e.members ++ maskWords x.arrived

/-- SHEAF_READ (R222).  DEDUCED, log entry 57. -/
def execSheafRead (c : CmdCtx) (n : BitVec 16) (s : State) : Host.Outcome State Fault Refusal :=
  goto s <| s.d.runCmd (.sheafRead c n) c 0x0511 .observer fun d =>
    if 8192 ≤ n.toNat then answer d .badParam
    else match d.sheaf? n.toNat with
      | some x => answerOk d x.words
      | none => answerOk d (List.replicate 42 0)

end Sys2Proof.Machine
end

