-- ==== Sys2Proof/Machine/StagedThr.lean ====
section
/-! DEFINITION. Staged changes of Thresh and of the near tier's regions: parameter rules and effects at
the flip (R248 to R252, R261, R262, R274, R279, R296 to R298). -/

namespace Sys2Proof.Machine

/-! ### Job entries (R249, R297) -/

/-- An FP32 value that is positive and finite. -/
def f32Positive (x : Word) : Bool := f32finite x && !x.getLsbD 31 && x != 0

/-- The rules on a job entry alone.  DEDUCED, log entry 56. -/
def jobEntryOk (e : ThrJobCfg) : Bool :=
  e.gate != 3 && f32Positive e.lossScale && (e.gate != 2 || f32Positive e.clipMax)

/-- Mirror logs that the region holds (R297). -/
def Dev.mlogJobs (d : Dev) : Nat := d.regionBytes .mlog / (4096 * 8232)

/-- An entry with VALID = 0 is closed, as THR_JOB_CLOSE closes it.  DESIGN CHOICE, log entry 147. -/
def Dev.checkJobSet (d : Dev) (p : ThrJobSetP) : Option Status :=
  let isNew := (d.job? p.j.toNat).isNone
  if !p.valid then rule (decide (p.j.toNat < 64)) .badParam (rule (d.shardsOf p.j.toNat).isEmpty .conflict none)
  else rule (decide (p.j.toNat < 64) && jobEntryOk p.e) .badParam
    (rule (decide (d.thr.jobs.length + (if isNew then 1 else 0) ≤ d.mlogJobs)) .noSpace none)

/-- A new job entry in the copy state that INIT gives (R274, R279). -/
def newJob (e : ThrJobCfg) (i : ThrInit) (now : Nat) : ThrJob :=
  let own := match i with
    | .inSync => CopyState.inSync
    | .solo => CopyState.solo
    | .rebuild => CopyState.rebuild
  { cfg := e, phase := e.phase, own := own, both := decide (own = .solo), lastRx := now, lastAckAdv := now }

/-- THR_JOB_SET at the flip: an entry that is valid takes the values from its next phase (R261); with
VALID = 0 it goes.  DEDUCED, log entries 98 and 147. -/
def Dev.setJobEntry (d : Dev) (p : ThrJobSetP) : Dev :=
  if !p.valid then { d with thr := { d.thr with jobs := Tab.del d.thr.jobs p.j.toNat } }
  else match d.job? p.j.toNat with
  | some x => d.setJob p.j.toNat { x with next := some p.e }
  | none => d.setJob p.j.toNat (newJob p.e p.init d.now)

def Dev.checkJobClose (d : Dev) (j : Byte) : Option Status :=
  rule (decide (j.toNat < 64)) .badParam
    (rule (d.job? j.toNat).isSome .notFound (rule (d.shardsOf j.toNat).isEmpty .conflict none))

def Dev.closeJob (d : Dev) (j : Byte) : Dev :=
  { d with thr := { d.thr with jobs := Tab.del d.thr.jobs j.toNat } }

/-! ### Parameter blocks (R250, R261) -/

/-- An FP32 value from 0 to 1 inclusive. -/
def f32Unit (x : Word) : Bool :=
  match f32v x with
  | .fin n m _ => (!n || m == 0) && !(f32v 0x3F800000#32).less (f32v x)
  | _ => false

/-- DEDUCED, log entry 56. -/
def paramOk (f : ThrParam) : Bool := decide (f.recipe.toNat < 4) && f32Unit f.beta1 && f32Unit f.beta2

/-- A valid shard names a block. -/
def Dev.paramUsed (d : Dev) (b : Nat) : Bool := d.thr.shards.any fun e => e.2.cfg.param.toNat == b

def Dev.checkParamSet (d : Dev) (p : ThrParamSetP) : Option Status :=
  let b := p.block.toNat
  let x := Tab.get d.thr.params b ThrParamSt.unset
  let keeps := !d.paramUsed b || (x.f.recipe == p.f.recipe && x.f.mtype == p.f.mtype)
  rule (decide (b < 1024) && paramOk p.f && keeps) .badParam none

/-- THR_PARAM_SET at the flip: a block that a valid shard names takes the values from the next phase; no
update of the phase in progress uses another.  DEDUCED, log entry 17. -/
def Dev.setParam (d : Dev) (p : ThrParamSetP) : Dev :=
  let b := p.block.toNat
  let old := Tab.get d.thr.params b ThrParamSt.unset
  let x := if d.paramUsed b then { old with next := some p.f } else { old with f := p.f, next := none }
  { d with thr := { d.thr with params := Tab.put d.thr.params b x } }

/-! ### Shards (R248, R251, R252, R297) -/

/-- The formats of weights (R251). -/
def wfmtOk (w cap : Nat) : Bool :=
  w == 2 || w == 4 || w == 5 || ((w == 6 || w == 7) && cap % 32 == 0)

/-- The contexts of the job's other shards have the same tree (R248). -/
def Dev.sameTree (d : Dev) (shard j : Nat) (e : CtxEntry) : Bool :=
  (d.shardsOf j).all fun s => s.1 == shard || match d.ctx? s.2.cfg.ctx.toNat with
    | some c => c.e.tiers == e.tiers && c.e.n2 == e.n2 && c.e.n3 == e.n3
    | none => true

/-- A range lies wholly in one region of a kind. -/
def Dev.inRegionKind (d : Dev) (k : RegionKind) (a n : Nat) : Bool :=
  match d.regionOf a n with
  | some (_, r) => decide (r.kind = k)
  | none => false

/-- A shard's map lies in a MAP region, and its slots in the granary (R297). -/
def Dev.shardMemOk (d : Dev) (p : ThrShardSetP) (e : CtxEntry) (f : ThrParam) : Bool :=
  let n := d.countSets e p.e.ctx.toNat p.e.cps.toNat
  d.inRegionKind .map p.e.mapBase.toNat (8 * p.e.cps.toNat) &&
  d.inGran p.e.stateBase.toNat ((n.1 + n.2) * slotBytes e f)

/-- A job's copies accept a shard (R279). -/
def ThrJob.takesShard (x : ThrJob) : Bool :=
  match x.own with
  | .inSync => true
  | .rebuild => !x.reqSent
  | _ => false

/-- An entry with VALID = 0 is closed, as THR_SHARD_CLOSE closes it.  DESIGN CHOICE, log entry 147. -/
def Dev.checkShardSet (d : Dev) (p : ThrShardSetP) : Option Status :=
  let n := p.shard.toNat
  let f := Tab.get d.thr.params p.e.param.toNat ThrParamSt.unset
  if !p.valid then rule (decide (n < 16384)) .badParam none
  else match d.ctx? p.e.ctx.toNat, d.job? p.e.jent.toNat with
  | some c, some x =>
    rule (decide (n < 16384) && c.e.op == 7 && c.e.level == 2 && c.e.part == x.cfg.part && c.e.job == x.cfg.job &&
        d.sameTree n p.e.jent.toNat c.e && wfmtOk p.e.wfmt.toNat c.e.cap.toNat &&
        decide (1 ≤ p.e.cps.toNat ∧ p.e.cps.toNat ≤ 2 ^ 27) && p.e.stateBase.toNat % 4096 == 0 &&
        p.e.mapBase.toNat % 8 == 0 && f.f.jent == p.e.jent && d.shardMemOk p c.e f.f) .badParam
      (rule x.takesShard .conflict none)
  | _, _ => some .badParam

/-- A shard begins to drain, and goes once its chunks have finished (R279). -/
def Dev.closeShard (d : Dev) (n : BitVec 16) : Dev :=
  (d.modShard n.toNat fun s => { s with draining := true }).dropShards

/-- THR_SHARD_SET at the flip: the map is to be built (R252). -/
def Dev.setShard (d : Dev) (p : ThrShardSetP) : Dev :=
  if !p.valid then d.closeShard p.shard else
  let b := p.e.param.toNat
  let n := match d.ctx? p.e.ctx.toNat with
    | some c => d.countSets c.e p.e.ctx.toNat p.e.cps.toNat
    | none => (0, 0)
  let x : ThrShard := { cfg := p.e, seqBase := p.e.seqBase, home := n.1, peer := n.2, cursor := n.1 + n.2 }
  { d with thr := { d.thr with
    shards := Tab.put d.thr.shards p.shard.toNat x,
    params := Tab.put d.thr.params b (Tab.get d.thr.params b ThrParamSt.unset) } }

def Dev.checkShardClose (d : Dev) (n : BitVec 16) : Option Status :=
  rule (decide (n.toNat < 16384)) .badParam (rule (Tab.find d.thr.shards n.toNat).isSome .notFound none)

/-! ### Copy states (R274) -/

def Dev.checkShardRole (d : Dev) (p : ThrShardRoleP) : Option Status :=
  match d.job? p.j.toNat with
  | none => some (if 64 ≤ p.j.toNat then .badParam else .notFound)
  | some x =>
    let ok := if p.solo then decide (x.own = .inSync ∨ x.own = .lost) else decide (x.own = .solo ∨ x.own = .lost)
    rule ok .badParam none

/-- THR_SHARD_ROLE at the flip; SOLO from LOST clears the LOST bits, unless the granary is closed (R303), and is an entry into SOLO like any other
(R258, R273). -/
def Dev.setShardRole (d : Dev) (p : ThrShardRoleP) : Dev :=
  let j := p.j.toNat
  match d.job? j with
  | none => d
  | some x =>
    if p.solo then
      match x.own with
      | .inSync => (d.enterSolo j).thrTidy
      | .lost =>
        let d1 := if d.mem.granClosed then d
          else (d.shardsOf j).foldl (fun d e => d.unloseSlots e.1 e.2) d
        (d1.enterSolo j).thrTidy
      | _ => d
    else if x.own = .solo || x.own = .lost then d.enterRebuild j
    else d

/-! ### Regions of the near tier (R296, R298) -/

/-- Multiples of 1 MiB within the near tier.  DEDUCED, log entry 60. -/
def Dev.checkRegionParam (d : Dev) (p : MemRegionSetP) : Bool :=
  decide (p.region.toNat < 16) && (p.kind.isNone ||
    (p.base.toNat % mib == 0 && p.size.toNat % mib == 0 && p.size.toNat != 0 && d.inNear p.base.toNat p.size.toNat &&
      !(p.kind == some .spill && decide (16 * gib < p.size.toNat))))

/-- Something stands in a region that may then neither move nor shrink. -/
def Dev.regionHeld (d : Dev) (r : Region) : Bool :=
  match r.kind with
  | .spill => d.red.ctxs.any fun e => e.2.spilled
  | .linger => !d.lingering.isEmpty
  | .park | .staging | .mlog => !d.thr.jobs.isEmpty
  | .map => d.thr.shards.any fun e =>
    decide (r.base ≤ e.2.cfg.mapBase.toNat ∧ e.2.cfg.mapBase.toNat < r.base + r.size)
  | .host => false

/-- A command moves or shrinks a region. -/
def Dev.regionMoves (d : Dev) (p : MemRegionSetP) : Bool :=
  match Tab.find d.mem.regions p.region.toNat with
  | none => false
  | some r =>
    d.regionHeld r && !(decide (p.kind = some r.kind) && p.base.toNat == r.base && decide (r.size ≤ p.size.toNat))

/-- MEM_REGION_SET: a region that is held fails the commit with CONFLICT.  DEDUCED, log entry 60. -/
def Dev.checkRegion (d : Dev) (commit : Bool) (p : MemRegionSetP) : Option Status :=
  rule (d.checkRegionParam p) .badParam (rule (!(commit && d.regionMoves p)) .conflict none)

def Dev.setRegion (d : Dev) (p : MemRegionSetP) : Dev :=
  let r := p.kind.map fun k => ({ kind := k, base := p.base.toNat, size := p.size.toNat } : Region)
  { d with mem := { d.mem with regions := Tab.putOpt d.mem.regions p.region.toNat r } }

/-- The region table after a transaction: no overlap, and no kind beyond its count (R296, R298). -/
def Dev.regionsOk (d : Dev) : Bool :=
  let l := d.mem.regions
  let apart := fun (a b : Nat × Region) =>
    a.1 == b.1 || decide (a.2.base + a.2.size ≤ b.2.base) || decide (b.2.base + b.2.size ≤ a.2.base)
  let single := fun (k : RegionKind) => decide ((l.filter fun e => decide (e.2.kind = k)).length ≤ 1)
  l.all (fun a => l.all fun b => apart a b) &&
  [RegionKind.spill, .linger, .park, .staging, .mlog].all single

end Sys2Proof.Machine
end

