-- ==== Sys2Proof/Machine/Learn.lean ====
section
/-! DEFINITION. Learning, ageing and reading of the forwarding tables (R79, R83 to R92), and the
notices and LEARN frames that a pipeline consumes (R90, R101, R150). -/

namespace Sys2Proof.Machine

/-! ### Frames consumed at lookup (R61, R101) -/

/-- The oldest frame of a service that pipeline `k` has taken, removed from its list. -/
def Dev.untake (d : Dev) (k svc : Nat) : Option (Taken × Dev) :=
  let l := Tab.get d.fwd.taken k []
  match l.find? (fun t => addrSvc t.hdr.dst == svc) with
  | none => none
  | some t => some (t, { d with fwd := { d.fwd with taken := Tab.set d.fwd.taken k (l.erase t) [] } })

/-- The end-to-end check of a taken frame.  DEDUCED, log entry 73. -/
def Taken.ok (t : Taken) : Bool := e2eCheck t.hdr t.payload == t.e2e

/-- The lowest-numbered up-port of a leaf whose link partner is a spine's device number (R150). -/
def Dev.upPortTo (d : Dev) (spine : Nat) : Option Nat :=
  if !d.isLeaf then none
  else ((List.range 256).map upPort).find? fun l =>
    let x := d.port (d.physical l)
    x.hasPair && x.partnerRole == 1 && addrDev x.partnerAddr == spine

/-- CONGESTION_NOTICE_RECEIVED (R150). -/
def execCongestionNoticeReceived (k : Fin 16) (s : State) : Host.Outcome State Fault Refusal :=
  let d := s.d
  goto s <|
    match (if d.awake then d.untake k.val 2 else none) with
    | none => d
    | some (t, d1) =>
      if !t.ok then d1.bump (ctrFwd k.val 0x168)
      else if !d1.regBit baseTm 1 then d1
      else
        let ksf := t.hdr.ksf.toNat
        match d1.upPortTo (bitsOf ksf 51 40) with
        | none => d1.bump (ctrTm 0x120)
        | some l =>
          let d2 := { d1 with tm := { d1.tm with
            levels := Tab.set d1.tm.levels (bitsOf ksf 63 52 * 512 + l) 3 0 } }
          d2.bump (ctrTm 0x118)

/-! ### Changes of both banks (R85, R88, R98) -/

/-- Applies a function to both banks. -/
def Dev.bothBanks (d : Dev) (f : Bank → Bank) : Dev :=
  { d with fwd := { d.fwd with cur := f d.fwd.cur, other := f d.fwd.other } }

/-- Forgets the hit bits of a key. -/
def Dev.forgetKey (d : Dev) (key : BitVec 48) : Dev :=
  { d with fwd := { d.fwd with
    hits := Tab.del d.fwd.hits key.toNat, idle := d.fwd.idle.filter (fun k => k != key) } }

/-- Removes a dynamic entry from a bank, where a condition on it holds. -/
def Bank.removeIf (b : Bank) (key : BitVec 48) (p : EmEntry → Bool) : Bank :=
  match b.emFind key with
  | some (_, e) => if !e.static && p e then b.emDelete key else b
  | none => b

/-- Inserts a dynamic entry into a bank, unless its key is static or nothing is free. -/
def Bank.learn (b : Bank) (e : EmEntry) : Bank :=
  match b.emFind e.key with
  | some (_, x) => if x.static then b else (b.emInsert e).getD b
  | none => (b.emInsert e).getD b

/-! ### LEARN frames (R89) -/

/-- Leaf whose leaf-route entry of the current bank is PORT on a logical port, as copy `k` reads it: the lowest of
several.  DESIGN CHOICE, log entry 163. -/
def Dev.leafOn (d : Dev) (k l : Nat) : Dev × Option Nat :=
  let on := fun (r : Route) => r.rtype == 0 && r.target.toNat % 512 == l
  match d.fwd.cur.route.find? fun e => on e.2 with
  | none => (d, none)
  | some (n, _) =>
    let r := d.routeLookup k d.fwd.cur n
    (r.1, if on r.2 then some n else none)

/-- VIA_LEAF: the own ID in leaf role, else the leaf of the arrival port; where no leaf-route entry
names that port the spec gives no value, and a free one is taken. -/
def Dev.viaLeaf (d : Dev) (k : Nat) (port : Option Nat) : Dev × Nat :=
  if d.isLeaf then (d, d.devNum)
  else
    let x := match port with
      | some l => d.leafOn k l
      | none => (d, none)
    match x.2 with
    | some n => (x.1, n)
    | none =>
      let r := x.1.draw
      (r.2, r.1.toNat % 4096)

/-- Sends a learn event or removal to every peer, from pipeline `k` (R89). -/
def Dev.tellPeers (d : Dev) (k : Nat) (key : BitVec 48) (event : Nat) (port : Option Nat) : Dev :=
  if !d.regBit (baseFwd 0 + 0x14) 1 || d.fwd.peers.isEmpty then d
  else
    let v := d.viaLeaf k port
    let ksf := bitsOf key.toNat 47 36 <<< 52 ||| event <<< 48 ||| bitsOf key.toNat 23 0 <<< 24 ||| v.2 <<< 12
    d.fwd.peers.foldl (fun d a =>
      let h := { Header.blank with
        kind := 5, tc := 7, dst := (a &&& 0xFFFFC0#24) ||| 3#24, src := d.ownAddr 3, seq := d.fwd.learnSeq,
        ksf := BitVec.ofNat 64 ksf }
      ({ d with fwd := { d.fwd with learnSeq := d.fwd.learnSeq + 1 } }).build k h []) v.1

/-! ### The learn ring (R79, R87, R88, R91) -/

/-- LEARN_QUEUE_DRAIN (R87): the oldest pending event of a pipeline enters the ring. -/
def execLearnQueueDrain (k : Fin 16) (s : State) : Host.Outcome State Fault Refusal :=
  let d := s.d
  goto s <|
    match Tab.get d.fwd.learnQ k.val [] with
    | [] => d
    | (e, p) :: r =>
      if !d.awake then d
      else
        let f1 := { d.fwd with
          learnQ := Tab.set d.fwd.learnQ k.val r [], ring := d.fwd.ring ++ [RingEv.learn k.val e p] }
        ({ d with fwd := f1 }).bump (ctrFwd k.val 0x130)

/-- A hardware learn finds nothing free: counted, with one EM_FULL a second at most (R79). -/
def Dev.learnFull (d : Dev) (k : Nat) (key : BitVec 48) : Dev :=
  let d1 := d.bump (ctrFwd k 0x140)
  let due := match d.fwd.emFullAt with
    | some t => decide (1000 * clkMs ≤ d.now - t)
    | none => true
  if due then ({ d1 with fwd := { d1.fwd with emFullAt := some d.now } }).event (.emFull k key) else d1

/-- A key that a commit between its validation and its flip changes (R91). -/
def Dev.committing (d : Dev) (key : BitVec 48) : Bool :=
  d.cmd.txns.any fun t => decide (t.st = .applying) && t.staged.any fun x => match x with
    | .emInsert p => p.key == key
    | .emDelete k => k == key
    | _ => false

/-- A learn of a key whose removal still stands on the ring: the removal will be discarded (R91). -/
def Dev.outrank (d : Dev) (key : BitVec 48) : Dev :=
  if d.fwd.ring.contains (.sweep key) then
    { d with fwd := { d.fwd with relearned := d.fwd.relearned ++ [key] } }
  else d

/-- A dynamic entry written by a learn of pipeline `k`, with its hit bit set (R88, R91). -/
def Dev.learnEntry (d : Dev) (k : Nat) (e : EmEntry) : Dev :=
  ((d.bothBanks (fun b => b.learn e)).hit k e.key).outrank e.key

/-- Applies a learn event to both banks of every copy (R79, R88, R91, R98).  Whether a learn fits is judged on the
current bank; where the other bank, under its own seed, has no room, the entry is not written there and nothing
counts it.  DESIGN CHOICE, log entry 161. -/
def Dev.applyLearn (d : Dev) (k : Nat) (e : LearnEv) : Dev :=
  if d.committing e.key then d.bump (ctrFwd k 0x148)
  else match e.kind with
  | .create rt tg =>
    let ent : EmEntry := { key := e.key, static := false, res := { rtype := rt, target := tg } }
    match d.fwd.cur.emFind e.key with
    | some (_, x) => if x.static then d.bump (ctrFwd k 0x148) else d.learnEntry k ent
    | none =>
      match d.fwd.cur.emInsert ent with
      | none => d.learnFull k e.key
      | some _ => d.learnEntry k ent
  | .remove rt tg =>
    let same := fun (x : EmEntry) => x.res.rtype == rt && x.res.target == tg
    match d.fwd.cur.emFind e.key with
    | some (_, x) =>
      if x.static then d.bump (ctrFwd k 0x148)
      else
        let d1 := d.bothBanks (fun b => b.removeIf e.key same)
        if same x then d1.forgetKey e.key else d1
    | none => d.bothBanks (fun b => b.removeIf e.key same)

/-- Applies a removal of the sweeper; a staged change that commits, and a learn that came while the removal
stood on the ring and whose hit bit is still set, stand (R91).  A lookup's hit does not hold it off (R84). -/
def Dev.applySweep (d : Dev) (key : BitVec 48) : Dev :=
  let stands := d.fwd.relearned.contains key && Tab.get d.fwd.hits key.toNat 0 != 0
  let d0 := { d with fwd := { d.fwd with relearned := d.fwd.relearned.filter (fun k => k != key) } }
  if d.committing key || stands then d0
  else match d.fwd.cur.emFind key with
  | none => d0.bothBanks (fun b => b.removeIf key (fun _ => true))
  | some (_, x) =>
    if x.static then d0
    else (d0.bothBanks (fun b => b.removeIf key (fun _ => true))).forgetKey key

/-- Port of the entry that a removal concerns. -/
def Dev.entryPort (d : Dev) (key : BitVec 48) : Option Nat :=
  match d.fwd.cur.emFind key with
  | some (_, x) => if x.res.rtype == 0 then some (x.res.target.toNat % 512) else none
  | none => none

/-- LEARN_RING_APPLY (R88, R89): the oldest entry of the ring reaches every copy, and the peers hear of it
whether or not it changed the tables.  The frames of a removal are built by pipeline 0.
DESIGN CHOICE, log entry 131. -/
def execLearnRingApply (s : State) : Host.Outcome State Fault Refusal :=
  let d := s.d
  goto s <|
    match d.fwd.ring with
    | [] => d
    | e :: r =>
      let d1 := { d with fwd := { d.fwd with ring := r } }
      if !d.awake then d
      else match e with
        | .learn k ev p =>
          let d2 := d1.applyLearn k ev
          if ev.peer then d2 else d2.tellPeers k ev.key 1 (some p)
        | .sweep key => (d1.applySweep key).tellPeers 0 key 2 (d1.entryPort key)

/-- LEARN_FRAME_RECEIVED (R90). -/
def execLearnFrameReceived (k : Fin 16) (s : State) : Host.Outcome State Fault Refusal :=
  let d := s.d
  goto s <|
    match (if d.awake then d.untake k.val 3 else none) with
    | none => d
    | some (t, d1) =>
      if !t.ok then d1.bump (ctrFwd k.val 0x168)
      else if !d1.regBit (baseFwd 0 + 0x14) 2 then d1
      else
        let ksf := t.hdr.ksf.toNat
        let key := keyEndpoint (BitVec.ofNat 12 (bitsOf ksf 63 52)) (BitVec.ofNat 24 (bitsOf ksf 47 24))
        let via := BitVec.ofNat 12 (bitsOf ksf 23 12)
        let static := match d1.fwd.cur.emFind key with
          | some (_, e) => e.static
          | none => false
        if static || (d1.isLeaf && via.toNat == d1.devNum) then d1
        else if bitsOf ksf 51 48 = 1 then
          d1.queueLearn k.val { key := key, kind := .create 1 via, peer := true } t.port
        else if bitsOf ksf 51 48 = 2 then
          d1.queueLearn k.val { key := key, kind := .remove 1 via, peer := true } t.port
        else d1

/-! ### The sweeper (R84, R85, R100) -/

/-- PERIOD in seconds. -/
def Dev.agePeriod (d : Dev) : Nat :=
  let p := d.regBits (baseFwd 0 + 0x10) 31 12
  if p = 0 then 1 else if 86400 < p then 86400 else p

/-- The visit of one position: the hit bits are read and cleared, and a dynamic entry found without a
hit at two visits in a row is removed.  Visits of an entry are followed by its key, across a REHASH that
moves it.  DESIGN CHOICE, log entry 132. -/
def Dev.visit (d : Dev) (e : EmEntry) : Dev :=
  let hit := Tab.get d.fwd.hits e.key.toNat 0 != 0
  let d1 := { d with fwd := { d.fwd with hits := Tab.del d.fwd.hits e.key.toNat } }
  if hit then { d1 with fwd := { d1.fwd with idle := d1.fwd.idle.filter (fun k => k != e.key) } }
  else if d.fwd.idle.contains e.key then
    (if e.static then d1 else { d1 with fwd := { d1.fwd with ring := d1.fwd.ring ++ [RingEv.sweep e.key] } })
  else { d1 with fwd := { d1.fwd with idle := d1.fwd.idle ++ [e.key] } }

/-- SWEEPER_VISIT (R84): the next position; a new PERIOD applies from the next pass. -/
def execSweeperVisit (s : State) : Host.Outcome State Fault Refusal :=
  let d := s.d
  goto s <|
    if !d.awake || !d.regBit (baseFwd 0 + 0x10) 0 then d
    else
      let d1 := match Tab.find d.fwd.cur.em d.fwd.sweepPos with
        | some e => d.visit e
        | none => d
      let p := (d.fwd.sweepPos + 1) % emPositions
      let per := if p = 0 then d.agePeriod else d.fwd.sweepPeriod
      { d1 with fwd := { d1.fwd with sweepPos := p, sweepPeriod := per } }

/-! ### Reading and flushing (R92) -/

/-- The 72-bit entry of R76. -/
def EmEntry.word (e : EmEntry) : Nat :=
  e.key.toNat <<< 24 ||| 1 <<< 23 ||| e.static.toNat <<< 22 ||| e.res.rtype.toNat <<< 19 |||
  e.res.target.toNat <<< 7

/-- Fields of a group, and of a partition entry, as the replies list them. -/
def Group.fields (g : Group) : List Nat :=
  [g.valid.toNat, g.part.toNat, g.upEn.toNat, g.upSet.toNat, g.ports.toNat]
def PartEntry.fields (e : PartEntry) : List Nat := [e.valid.toNat, e.learnEn.toNat, e.ports.toNat]

/-- The group and the partition entry that unlisted indexes hold (R81). -/
def Group.none : Group := { valid := false, part := 0, upEn := false, upSet := 0, ports := 0 }
def PartEntry.none : PartEntry := { valid := false, learnEn := false, ports := 0 }

/-- Reads a table of FP0's copy, current bank: the entry's fields. -/
def Dev.searchTable (d : Dev) (k : SearchKey) : Dev × Option (List Nat) :=
  let b := d.fwd.cur
  let em := fun (x : Option (Nat × EmEntry)) => match x with
    | Option.none => (d, Option.none)
    | some (p, e) =>
      let r := d.tableRead 0 b.num .em p
      (r.1, if r.2 then some [e.word, (Tab.get d.fwd.hits e.key.toNat 0).toNat] else Option.none)
  let other := fun (t : TableId) (i : Nat) (l : List Nat) =>
    let r := d.tableRead 0 b.num t i
    (r.1, if r.2 then some l else Option.none)
  match k with
  | .emKey key => em (b.emFind key)
  | .emIndex i => em ((Tab.find b.em i.toNat).map fun e => (i.toNat, e))
  | .route n => other .route n.toNat [(b.routeOf n.toNat).rtype.toNat, (b.routeOf n.toNat).target.toNat]
  | .group g => other .group g.toNat (Tab.get b.groups g.toNat Group.none).fields
  | .part p => other .part p.toNat (Tab.get b.parts p.toNat PartEntry.none).fields
  | .portset n => other .portset n.toNat [(Tab.get b.sets n.toNat 0).toNat]

/-- The index of a SEARCH lies in its table. -/
def SearchKey.inRange : SearchKey → Bool
  | .emKey _ => true
  | .emIndex i => decide (i.toNat < emPositions)
  | .route n => decide (n.toNat < 4096)
  | .group _ => true
  | .part p => decide (p.toNat < 4096)
  | .portset n => decide (n.toNat < 1024)

/-- SEARCH (R92). -/
def execSearch (c : CmdCtx) (k : SearchKey) (s : State) : Host.Outcome State Fault Refusal :=
  goto s <| s.d.runCmd (.search c k) c 0x0401 .observer fun d =>
    if !SearchKey.inRange k then answer d .badParam
    else match d.searchTable k with
      | (d1, some l) => answerOk d1 l
      | (d1, Option.none) => answer d1 .notFound

/-- What NEXT walks: index, partition for the filter, and fields, in position order.  An entry of the
tables that have one for each index is present when it differs from its reset value, and one that holds no
PART passes every filter.  DESIGN CHOICE, log entries 31 and 133. -/
def Bank.walk (b : Bank) (t : TableId) : List (Nat × Nat × List Nat) :=
  match t with
  | .em => b.em.map fun e => (e.1, bitsOf e.2.key.toNat 47 36, [e.2.word])
  | .route => b.route.map fun e => (e.1, 0xFFFF, [e.1, e.2.rtype.toNat, e.2.target.toNat])
  | .group => b.groups.map fun e => (e.1, e.2.part.toNat, e.1 :: e.2.fields)
  | .part => b.parts.map fun e => (e.1, e.1, e.1 :: e.2.fields)
  | .portset => b.sets.map fun e => (e.1, 0xFFFF, [e.1, e.2.toNat])

/-- Notes a cursor that NEXT gives; 0, the end, is none. -/
def Dev.noteCursor (d : Dev) (c : Nat) : Dev :=
  let w : Word := BitVec.ofNat 32 c
  if c = 0 || d.fwd.cursors.contains w then d
  else { d with fwd := { d.fwd with cursors := d.fwd.cursors ++ [w] } }

/-- NEXT (R92, R94): a cursor holds the epoch in its two highest bits and 1 plus the next index below them,
and holds good until the next flip; a count of 0 is BAD_PARAM.  Entries that FP0's copy does not read are
left out (R67).  DESIGN CHOICE, log entries 31 and 133. -/
def execNextWalk (c : CmdCtx) (t : TableId) (cursor : Word) (part count : BitVec 16) (s : State) :
    Host.Outcome State Fault Refusal :=
  goto s <| s.d.runCmd (.nextWalk c t cursor part count) c 0x0402 .observer fun d =>
    let cur := cursor.toNat
    if count = 0 || 64 < count.toNat || (cur != 0 && bitsOf cur 29 0 == 0) then answer d .badParam
    else if cur != 0 && (bitsOf cur 31 30 != d.fwd.epoch.toNat || !d.fwd.cursors.contains cursor) then
      answer d .conflict
    else
      let first := bitsOf cur 29 0 - 1
      let l := (d.fwd.cur.walk t).filter fun e =>
        decide (first ≤ e.1) && (part == 0xFFFF#16 || e.2.1 == part.toNat || e.2.1 == 0xFFFF)
      let page := l.take count.toNat
      let next := match (l.drop count.toNat).head? with
        | some e => d.fwd.epoch.toNat <<< 30 ||| (e.1 + 1)
        | Option.none => 0
      let r := d.tableReads 0 d.fwd.cur.num t (page.map Prod.fst)
      let seen := page.filter fun e => r.2.contains e.1
      answerOk (r.1.noteCursor next) (next :: seen.flatMap (fun e => e.2.2))

/-- FLUSH_BY_PORT: dynamic PORT entries that name the port leave both banks (R92). -/
def execFlushByPort (c : CmdCtx) (port part : BitVec 16) (s : State) :
    Host.Outcome State Fault Refusal :=
  goto s <| s.d.runCmd (.flushByPort c port part) c 0x0403 .operator fun d =>
    if 512 ≤ port.toNat || (part != 0xFFFF#16 && 4096 ≤ part.toNat) then answer d .badParam
    else
      let gone := fun (e : EmEntry) => !e.static && e.res.rtype == 0 &&
        e.res.target.toNat % 512 == port.toNat &&
        (part == 0xFFFF#16 || bitsOf e.key.toNat 47 36 == part.toNat)
      let keys := (d.fwd.cur.em.filter fun e => gone e.2).map fun e => e.2.key
      let d1 := d.bothBanks fun b => { b with em := b.em.filter fun e => !gone e.2 }
      answerOk (keys.foldl (fun d k => d.forgetKey k) d1) [keys.length]

end Sys2Proof.Machine
end

