-- ==== Sys2Proof/Machine/TableTxn.lean ====
section
/-! DEFINITION. Staged changes of the forwarding tables: their parameter rules (R70, R75, R92), what
they write (R76, R79 to R82), REHASH (R80), the retirement of the old bank and the replay (R97). -/

namespace Sys2Proof

/-- A change of a table of R66, which waits for the epoch and advances it (R419). -/
def Staged.isTable : Staged → Bool
  | .emInsert _ | .emDelete _ | .rehash _ | .routeSet _ | .groupSet _ | .partSet _ | .portsetSet _ => true
  | _ => false

/-- The seed of a REHASH. -/
def Staged.seed? : Staged → Option Word
  | .rehash s => some s
  | _ => none

/-- The exact-match key that a command writes. -/
def Staged.emKey? : Staged → Option (BitVec 48)
  | .emInsert p => some p.key
  | .emDelete k => some k
  | _ => none

namespace Machine

/-! ### Parameter rules -/

/-- A result names a target in its range (R70, R76).  DEDUCED, log entry 62. -/
def routeOk (rt : BitVec 3) (tg : BitVec 12) : Bool :=
  match rt.toNat with
  | 0 => decide (tg.toNat < 512)
  | 2 => decide (tg.toNat < 1024)
  | _ => true

/-- A key of R75. -/
def keyOk (k : BitVec 48) : Bool :=
  let kt := bitsOf k.toNat 35 32
  let a := BitVec.ofNat 24 (bitsOf k.toNat 23 0)
  bitsOf k.toNat 31 24 == 0 &&
  ((kt == 0 && addrKind a == 0) ||
   (kt == 1 && addrKind a == 1 && bitsOf k.toNat 47 36 == 0 && addrSvc a == 0))

/-- A LOCAL entry stands nowhere but at the own leaf ID of a leaf's leaf-route table, and a LEAF entry
not there; the reserved types 0x5 to 0x7 are entries that drop (R70). -/
def Dev.leafRouteOk (d : Dev) (p : RouteSetP) : Bool :=
  decide (p.leaf.toNat < 4096) && routeOk p.rtype p.target &&
  p.rtype != 1 && (p.rtype != 4 || (d.isLeaf && p.leaf.toNat == d.devNum))

/-- The parameter rules of the exact-match table (R70, R75).  DEDUCED, log entry 62. -/
def emInsertOk (p : EmInsertP) : Bool :=
  keyOk p.key && p.rtype != 4 && routeOk p.rtype p.target

/-- A result as an entry holds it: TARGET bits that its type does not use are zero (R76). -/
def routeEntry (rt : BitVec 3) (tg : BitVec 12) : Route :=
  { rtype := rt, target := match rt.toNat with
      | 0 => BitVec.ofNat 12 (tg.toNat % 512)
      | 1 => tg
      | 2 => BitVec.ofNat 12 (tg.toNat % 1024)
      | _ => 0 }

/-! ### Changes of a bank -/

/-- The entry that EM_INSERT writes. -/
def emEntryOf (p : EmInsertP) : EmEntry :=
  { key := p.key, static := p.static, res := routeEntry p.rtype p.target }

/-- Writes the entries of the tables that have one entry for an index. -/
def Bank.plainOp (b : Bank) : Staged → Bank
  | .routeSet p =>
    { b with route := Tab.set b.route p.leaf.toNat (routeEntry p.rtype p.target) { rtype := 3, target := 0 } }
  | .groupSet p =>
    let e : Group := { valid := p.valid, part := p.part, upEn := p.upEn, upSet := p.upSet, ports := p.ports }
    { b with groups := Tab.set b.groups p.group.toNat e Group.none }
  | .partSet p =>
    let e : PartEntry := { valid := p.valid, learnEn := p.learnEn, ports := p.ports }
    { b with parts := Tab.set b.parts p.part.toNat e PartEntry.none }
  | .portsetSet p => { b with sets := Tab.set b.sets p.set.toNat p.ports 0 }
  | _ => b

/-- One staged change; none where an inserted key finds no place (R79). -/
def Bank.applyOp (b : Bank) : Staged → Option Bank
  | .emInsert p => b.emInsert (emEntryOf p)
  | .emDelete k => some (b.emDelete k)
  | x => some (b.plainOp x)

/-- Staged changes in their order, without a REHASH. -/
def Bank.applyOps (b : Bank) (ops : List Staged) : Option Bank :=
  ops.foldl (fun r x => r.bind fun b => b.applyOp x) (some b)

/-- What the staged changes leave of a key: untouched, absent, or an entry. -/
def lastOf (ops : List Staged) (key : BitVec 48) : Option (Option EmEntry) :=
  ops.foldl (fun r x => match x with
    | .emInsert p => if p.key = key then some (some (emEntryOf p)) else r
    | .emDelete k => if k = key then some none else r
    | _ => r) none

/-- A key is in a bank once the staged changes are applied. -/
def Bank.holds (b : Bank) (ops : List Staged) (key : BitVec 48) : Bool :=
  match lastOf ops key with
  | some r => r.isSome
  | none => (b.emFind key).isSome

/-- Keys that the changes insert, in the order of the first EM_INSERT of each. -/
def insertedKeys (ops : List Staged) : List (BitVec 48) :=
  ops.foldl (fun l x => match x with
    | .emInsert p => if l.contains p.key then l else l ++ [p.key]
    | _ => l) []

/-- The content of a bank once the changes are applied, in the order of a rebuild (R80). -/
def Bank.content (b : Bank) (ops : List Staged) : List EmEntry :=
  let kept := b.em.filterMap fun e => match lastOf ops e.2.key with
    | some r => r
    | none => some e.2
  let added := (insertedKeys ops).filterMap fun k =>
    if (b.emFind k).isSome then none else (lastOf ops k).join
  kept ++ added

/-- The rebuild under a new seed. -/
def Bank.rebuild (b : Bank) (ops : List Staged) (seed : Word) : Option Bank :=
  let b1 := ops.foldl Bank.plainOp b
  let empty : Bank := { b1 with seed := seed, em := [] }
  (b.content ops).foldl (fun r e => r.bind fun b => b.emInsert e) (some empty)

/-- The seed of the last REHASH among staged changes. -/
def seedOf (ops : List Staged) : Option Word :=
  ops.foldl (fun r x => match x.seed? with
    | some s => some s
    | none => r) none

/-- What a transaction's changes make of a bank; none where an entry finds no place.  DEDUCED, log entry 54. -/
def Bank.applyTxn (b : Bank) (ops : List Staged) : Option Bank :=
  match seedOf ops with
  | some s => b.rebuild ops s
  | none => b.applyOps ops

/-- The same content, whatever the positions and the number (R95). -/
def Bank.same (a b : Bank) : Bool :=
  decide (a.seed = b.seed) && decide (a.route = b.route) && decide (a.groups = b.groups) &&
  decide (a.parts = b.parts) && decide (a.sets = b.sets) && a.em.length == b.em.length &&
  a.em.all fun e => match b.emFind e.2.key with
    | some (_, x) => decide (x = e.2)
    | none => false

/-- The shadow bank as a commit finds it, equal in content to the live bank (R95); the fit of a key and
the order of a rebuild are judged against the live bank (R80, R93).  DESIGN CHOICE, log entry 51. -/
def Dev.shadow (d : Dev) : Bank := { d.fwd.cur with num := d.fwd.other.num }

/-- The flip (R95): the shadow bank becomes current, the former current bank becomes old, and the
drain interval of R97 starts.  Hit bits of the keys written start at 0.
DESIGN CHOICE, log entry 51; DEDUCED, log entry 54. -/
def Dev.flipTables (d : Dev) (ops : List Staged) : Dev :=
  let f := d.fwd
  let d1 := { d with fwd := { f with
    cur := f.other, other := f.cur, epoch := f.epoch + 1, shadowSel := !f.shadowSel, oldLive := true,
    replayOps := ops, cursors := [], drainEnd := d.now + clkOfNs d.store.limit + 50 * clkUs } }
  (ops.filterMap Staged.emKey?).foldl (fun d k => d.forgetKey k) d1

/-- EPOCH_DRAIN_END (R97, R120): the old bank retires, the replay starts, and a residence limit that
waited takes effect. -/
def execEpochDrainEnd (s : State) : Host.Outcome State Fault Refusal :=
  let d := s.d
  goto s <|
    if d.awake && d.fwd.oldLive then
      { d with
        fwd := { d.fwd with oldLive := false, replay := true },
        store := { d.store with limit := d.store.limitPend.getD d.store.limit, limitPend := none } }
    else d

/-- REPLAY_END (R97): the committed changes stand in the retired bank, which is the shadow bank from
now on, equal in content to the current bank. -/
def execReplayEnd (s : State) : Host.Outcome State Fault Refusal :=
  let d := s.d
  goto s <|
    if d.awake && d.fwd.replay then
      let b := match d.fwd.other.applyTxn d.fwd.replayOps with
        | some b => if b.same d.fwd.cur then b else d.shadow
        | none => d.shadow
      { d with fwd := { d.fwd with other := b, replay := false, replayOps := [] } }
    else d

end Machine
end Sys2Proof
end

