-- ==== Sys2Proof/Machine/Txn.lean ====
section
/-! DEFINITION. Transactions (R413 to R426): the checks and the effect of a staged command, staging with
scope and claims, BEGIN, COMMIT, ROLLBACK and TXN_STATUS, the wait, validation of a batch, the flip,
and the limits. -/

namespace Sys2Proof.Machine

/-! ### One staged command -/

/-- A group's PART where it is VALID. -/
def Bank.groupPart (b : Bank) (g : Nat) : List (BitVec 12) :=
  let x := Tab.get b.groups g Group.none
  if x.valid then [x.part] else []

/-- A context's PART where it is VALID. -/
def Dev.ctxPart (d : Dev) (c : Nat) : List (BitVec 12) := ((d.ctx? c).map fun x => x.e.part).toList

/-- A sheaf's PART where it is VALID. -/
def Dev.sheafPart (d : Dev) (n : Nat) : List (BitVec 12) := ((d.sheaf? n).map fun x => x.cfg.part).toList

/-- A job entry's PART where it is VALID. -/
def Dev.jobPart (d : Dev) (j : Nat) : List (BitVec 12) := ((d.job? j).map fun x => x.cfg.part).toList

/-- The PART of a block's job entry, and of a shard's. -/
def Dev.blockPart (d : Dev) (b : Nat) : List (BitVec 12) :=
  match Tab.find d.thr.params b with
  | some x => d.jobPart x.f.jent.toNat
  | none => []
def Dev.shardPart (d : Dev) (n : Nat) : List (BitVec 12) :=
  match Tab.find d.thr.shards n with
  | some x => d.jobPart x.cfg.jent.toNat
  | none => []

/-- The partitions to which the objects of a staged command belong (R416); none for an object of device
scope only.  `d` stands as the transaction's earlier commands leave it.  DEDUCED, log entry 48. -/
def Dev.partsOf (d : Dev) : Staged → List (BitVec 12)
  | .emInsert p => if bitsOf p.key.toNat 35 32 = 0 then [BitVec.ofNat 12 (bitsOf p.key.toNat 47 36)] else []
  | .emDelete k => if bitsOf k.toNat 35 32 = 0 then [BitVec.ofNat 12 (bitsOf k.toNat 47 36)] else []
  | .groupSet p => p.part :: d.fwd.other.groupPart p.group.toNat
  | .partSet p => [BitVec.ofNat 12 p.part.toNat]
  | .partReserve p => [BitVec.ofNat 12 p.part.toNat]
  | .policerMap p => match p.key with
    | .partition n => [BitVec.ofNat 12 n.toNat]
    | .portClass .. => []
  | .ctxSet p => p.e.part :: d.ctxPart p.ctx.toNat
  | .ctxClose c => d.ctxPart c.toNat
  | .ctxReform p => d.ctxPart p.ctx.toNat
  | .ctxResize p => d.ctxPart p.ctx.toNat
  | .sheafSet p => p.e.part :: d.sheafPart p.n.toNat
  | .sheafClose n => d.sheafPart n.toNat
  | .thrJobSet p => p.e.part :: d.jobPart p.j.toNat
  | .thrJobClose j => d.jobPart j.toNat
  | .thrParamSet p => d.jobPart p.f.jent.toNat ++ d.blockPart p.block.toNat
  | .thrShardSet p => d.jobPart p.e.jent.toNat ++ d.shardPart p.shard.toNat
  | .thrShardClose n => d.shardPart n.toNat
  | .thrShardRole p => d.jobPart p.j.toNat
  | _ => []

/-- A transaction's scope lets it stage the command (R416).  DEDUCED, log entry 48. -/
def Dev.inScope (d : Dev) (scope : BitVec 12) (x : Staged) : Bool :=
  scope == 0 || (!(d.partsOf x).isEmpty && (d.partsOf x).all fun p => p == scope)

/-- The key of an EM_INSERT fits: judged with the commands before it, and against a rebuild where one of
them is a REHASH (R80, R93). -/
def emFits (base now : Bank) (before : List Staged) (x : Staged) : Bool :=
  if (seedOf (before ++ [x])).isSome then (base.applyTxn (before ++ [x])).isSome else (now.applyOp x).isSome

/-- The parameter rules of a staged command (R415, R419): `live` is the device without the transaction's
changes, `d` with those of the commands before it, both with the bank that the commit writes in
`fwd.other`; `commit` is true at validation, where the fit of a REHASH is judged once for all. -/
def Dev.checkStaged (live d : Dev) (before : List Staged) (commit : Bool) (x : Staged) : Option Status :=
  let rehashed := (seedOf before).isSome
  match x with
  | .planSet p => checkPlanSet p
  | .planGroup p => checkPlanGroup p
  | .portMapSet p => d.checkPortMap p
  | .optPortMode p => d.checkOptPortMode p
  | .optCampusFreq p => checkOptCampusFreq p
  | .emInsert p => rule (emInsertOk p) .badParam
      (rule ((commit && rehashed) || emFits live.fwd.other d.fwd.other before x) .rehashNeeded none)
  | .emDelete k => rule (live.fwd.other.holds before k) .notFound none
  | .rehash _ => rule (!rehashed) .conflict
      (rule (commit || emFits live.fwd.other d.fwd.other before x) .rehashNeeded none)
  | .routeSet p => rule (d.leafRouteOk p) .badParam none
  | .groupSet _ => none
  | .partSet p => rule (decide (p.part.toNat < 4096)) .badParam none
  | .portsetSet p => rule (decide (p.set.toNat < 1024) && decide (portCount p.ports ≤ 256)) .badParam none
  | .learnPeers l => checkLearnPeers l
  | .mirrorSet p => checkMirror p
  | .partReserve p => d.checkPartReserve commit p
  | .shaperSet p => checkShaper p
  | .groupShaperSet p => checkGroupShaper p
  | .policerSet p => checkPolicer p
  | .policerMap p => checkPolicerMap p
  | .ctxSet p => d.checkCtxSet live commit p
  | .ctxClose c => d.checkCtxNamed c
  | .ctxReform p => d.checkCtxReform p
  | .ctxResize p => d.checkCtxResize commit p
  | .sheafSet p => checkSheafSet p
  | .sheafClose n => d.checkSheafClose n
  | .thrJobSet p => d.checkJobSet p
  | .thrJobClose j => d.checkJobClose j
  | .thrParamSet p => d.checkParamSet p
  | .thrShardSet p => d.checkShardSet p
  | .thrShardClose n => d.checkShardClose n
  | .thrShardRole p => d.checkShardRole p
  | .memRegionSet p => d.checkRegion commit p

/-- The effect of a staged command; a table command writes the bank in `fwd.other`. -/
def Dev.applyStaged (d : Dev) (x : Staged) : Dev :=
  match x with
  | .planSet p => d.setPlan p.port.toNat p.e
  | .planGroup p => d.setAutoRemap p.engine.toNat p.autoRemap
  | .portMapSet p => d.setPortMap p
  | .optPortMode p => d.setOptPortMode p
  | .optCampusFreq p => d.setCampusFreq p
  | .emInsert _ | .emDelete _ | .rehash _ | .routeSet _ | .groupSet _ | .partSet _ | .portsetSet _ =>
    { d with fwd := { d.fwd with other := (d.fwd.other.applyOp x).getD d.fwd.other } }
  | .learnPeers l => d.setPeers l
  | .mirrorSet p => d.setMirror p
  | .partReserve p => d.setPartRes p
  | .shaperSet p => d.setShaperP p
  | .groupShaperSet p => d.setGroupShaper p
  | .policerSet p => d.setPolicer p
  | .policerMap p => d.setPolicerMap p
  | .ctxSet p => d.setCtxEntry p
  | .ctxClose c => d.closeCtx c
  | .ctxReform p => d.reformCtx p
  | .ctxResize p => d.resizeCtx p
  | .sheafSet p => d.setSheafEntry p
  | .sheafClose n => d.closeSheaf n
  | .thrJobSet p => d.setJobEntry p
  | .thrJobClose j => d.closeJob j
  | .thrParamSet p => d.setParam p
  | .thrShardSet p => d.setShard p
  | .thrShardClose n => d.closeShard n
  | .thrShardRole p => d.setShardRole p
  | .memRegionSet p => d.setRegion p

/-- The device with the shadow bank in `fwd.other`: where a transaction's changes are tried. -/
def Dev.trial (d : Dev) : Dev := { d with fwd := { d.fwd with other := d.shadow } }

/-! ### Staging (R414 to R417) -/

/-- Another transaction names the object. -/
def Dev.namedElse (d : Dev) (t : Txn) (o : Obj) : Bool :=
  d.cmd.txns.any fun u => !(u.src == t.src && u.id == t.id) && (u.nameNo o).isSome

/-- Replaces a transaction. -/
def Dev.setTxn (d : Dev) (t : Txn) : Dev :=
  { d with cmd := { d.cmd with
    txns := d.cmd.txns.map fun u => if u.src == t.src && u.id == t.id then t else u } }

/-- The most commands that a transaction holds. -/
def maxStaged : Nat := 65536

/-- Adds a command to a transaction, which then names its objects. -/
def Dev.addStaged (d : Dev) (t : Txn) (x : Staged) : Dev :=
  let names := (Staged.objs x).foldl (fun l o =>
    if l.any (fun e => e.1 == o) then l else l ++ [(o, d.cmd.stageNo)]) t.names
  let d1 := d.setTxn { t with staged := t.staged ++ [x], names := names }
  { d1 with cmd := { d1.cmd with stageNo := d1.cmd.stageNo + 1 } }

/-- Stages a command in the source's OPEN transaction, or says why not. -/
def Dev.stage (d : Dev) (c : CmdCtx) (x : Staged) : Dev × Option (Status × Res) :=
  match d.openTxn c.src with
  | none => answer d .notFound
  | some t =>
    if t.id ≠ c.txn then answer d .notFound
    else if maxStaged ≤ t.staged.length then answer d .noSpace
    else
      let live := d.trial
      let now := t.staged.foldl (fun d y => d.applyStaged y) live
      if !now.inScope t.scope x then answer d .denied
      else match live.checkStaged now t.staged false x with
        | some st => answer d st
        | none => (d.addStaged t x, some (.ok, .claimed ((Staged.objs x).any fun o => d.namedElse t o)))

/-- A command that is staged only (R414). -/
def Dev.stagedOnly (d : Dev) (i : Instr) (c : CmdCtx) (x : Staged) : Dev :=
  d.runCmd i c (Staged.opcode x) .operator fun d => if c.txn = 0 then answer d .denied else d.stage c x

/-- A command that is staged inside a transaction and immediate outside (R155, R414, R418).
DEDUCED, log entry 61. -/
def Dev.stagedOrNow (d : Dev) (i : Instr) (c : CmdCtx) (x : Staged) : Dev :=
  d.runCmd i c (Staged.opcode x) .operator fun d =>
    if c.txn ≠ 0 then d.stage c x
    else match d.checkStaged d [] true x with
      | some st => answer d st
      | none =>
        if (Staged.objs x).any fun o => d.claimedElse c.src o then answer d .conflict
        else answer (d.applyStaged x) .ok

/-! ### BEGIN, ROLLBACK and TXN_STATUS (R413, R414) -/

/-- The next transaction ID of a source. -/
def Dev.nextTxnId (d : Dev) : Source → BitVec 16
  | .howlink => d.cmd.nextId0
  | .mg0 => d.cmd.nextId1
  | .mg1 => d.cmd.nextId2

/-- Sets the next transaction ID of a source. -/
def Dev.setNextTxnId (d : Dev) (s : Source) (v : BitVec 16) : Dev :=
  match s with
  | .howlink => { d with cmd := { d.cmd with nextId0 := v } }
  | .mg0 => { d with cmd := { d.cmd with nextId1 := v } }
  | .mg1 => { d with cmd := { d.cmd with nextId2 := v } }

/-- The ID after an ID: up by 1, skipping 0.  DESIGN CHOICE, log entry 11. -/
def idAfter (v : BitVec 16) : BitVec 16 := if v + 1 = 0 then 1 else v + 1

/-- BEGIN (R413). -/
def execBegin (c : CmdCtx) (scope idleS drainMs : BitVec 16) (s : State) : Host.Outcome State Fault Refusal :=
  goto s <| s.d.runCmd (.begin_ c scope idleS drainMs) c 0x0A01 .operator fun d =>
    if 0xFFF < scope.toNat || 3600 < idleS.toNat || 60000 < drainMs.toNat then answer d .badParam
    else if (d.openTxn c.src).isSome then answer d .conflict
    else
      let id := d.nextTxnId c.src
      let t : Txn := {
        src := c.src, id := id, session := c.session, scope := BitVec.ofNat 12 scope.toNat,
        idleS := if idleS = 0 then 60 else idleS.toNat, drainMs := if drainMs = 0 then 100 else drainMs.toNat,
        touched := d.now }
      let d1 := d.setNextTxnId c.src (idAfter id)
      answerOk { d1 with cmd := { d1.cmd with txns := d1.cmd.txns ++ [t] } } [id.toNat]

/-- ROLLBACK (R413). -/
def execRollback (c : CmdCtx) (s : State) : Host.Outcome State Fault Refusal :=
  goto s <| s.d.runCmd (.rollback c) c 0x0A03 .operator fun d =>
    match d.openTxn c.src with
    | some t => if t.id = c.txn then answer (d.dropTxn c.src t.id) .ok else answer d .notFound
    | none => answer d .notFound

/-- Codes of a transaction's state; NONE is 0.  DEDUCED, log entry 49. -/
def TxnState.code : TxnState → Nat
  | .isOpen => 1 | .waiting => 2 | .applying => 3

/-- The transaction that is shown for a source: the OPEN one, else the latest that commits. -/
def Dev.shownTxn (d : Dev) (s : Source) : Option Txn :=
  match d.openTxn s with
  | some t => some t
  | none => (d.cmd.txns.filter fun t => t.src == s).getLast?

/-- Objects that a transaction claims and another also names. -/
def Dev.sharedCount (d : Dev) (t : Txn) : Nat :=
  (t.names.filter fun e => d.namedElse t e.1 && match d.claimer e.1 with
    | some u => u.src == t.src && u.id == t.id
    | none => false).length

/-- TXN_STATUS: ID, scope, state, staged count, and count of shared claims (R413).  DEDUCED, log entry 49. -/
def execTxnStatus (c : CmdCtx) (who : Option Source) (s : State) : Host.Outcome State Fault Refusal :=
  goto s <| s.d.runCmd (.txnStatus c who) c 0x0A04 .observer fun d =>
    match d.shownTxn (who.getD c.src) with
    | some t => answerOk d [t.id.toNat, t.scope.toNat, t.st.code, t.staged.length, d.sharedCount t]
    | none => answerOk d [0, 0, 0, 0, 0]

/-! ### The wait (R419, R425) -/

/-- The object of an enable still drains (R425). -/
def Dev.enableDrains (d : Dev) : Staged → Bool
  | .ctxSet p => match d.ctx? p.ctx.toNat with
    | some x => x.st == .draining
    | none => false
  | .thrShardSet p => match Tab.find d.thr.shards p.shard.toNat with
    | some x => x.draining
    | none => false
  | .optPortMode p => (d.port p.port.toNat).st == .draining
  | .optCampusFreq p => (d.port p.port.toNat).st == .draining
  | _ => false

/-- An enable of the transaction waits for a drain. -/
def Dev.drainWait (d : Dev) (t : Txn) : Bool := t.staged.any fun x => d.enableDrains x

/-- The transaction waits for the epoch. -/
def Dev.epochWait (d : Dev) (t : Txn) : Bool := t.staged.any Staged.isTable && (d.fwd.oldLive || d.fwd.replay)

/-- A commit must wait. -/
def Dev.mustWait (d : Dev) (t : Txn) : Bool := d.drainWait t || d.epochWait t

/-- COMMIT: its reply is held, or DEFERRED where it must wait under NO_WAIT (R423). -/
def execCommit (c : CmdCtx) (s : State) : Host.Outcome State Fault Refusal :=
  goto s <| s.d.runCmd (.commit c) c 0x0A02 .operator fun d =>
    match d.openTxn c.src with
    | none => answer d .notFound
    | some t =>
      if t.id ≠ c.txn then answer d .notFound
      else
        let waits := d.mustWait t
        let later := c.noWait && waits
        let t1 : Txn := { t with
          st := .waiting, commit := some c, commitAt := d.now, order := d.cmd.commitOrder,
          readyAt := if waits then none else some d.now }
        let h : HeldReply := { c := c, opcode := 0x0A02, what := .commit t.id, at_ := d.now, deferred := later }
        let d1 := d.setTxn t1
        let d2 := { d1 with cmd := { d1.cmd with
          commitOrder := d1.cmd.commitOrder + 1, held := d1.cmd.held ++ [h] } }
        if later then (d2, some (.deferred, .empty)) else (d2, none)

/-- Ends a commit: the held reply, or TXN_DONE after DEFERRED or where the source is lost (R423, R424). -/
def Dev.finishCommit (d : Dev) (t : Txn) (st : Status) (ns : Nat) (r : Res) : Dev :=
  let d1 := d.dropTxn t.src t.id
  match d1.cmd.held.find? (fun h => h.c.src == t.src && h.what == .commit t.id) with
  | none => d1
  | some h =>
    let d2 := { d1 with cmd := { d1.cmd with held := d1.cmd.held.erase h } }
    let e := Ev.txnDone t.src h.c.seq t.id st ns r
    if h.deferred then d2.event e
    else if d2.pathUp h.c then d2.reply h.c h.opcode st r
    else (d2.reply h.c h.opcode st r).event e

/-! ### Validation (R417, R420, R421) -/

/-- The index and status of the first staged command that fails, or the state after all of them. -/
inductive Validated where
  | pass (d : Dev)
  | fail (index : Nat) (opcode : Nat) (st : Status)

/-- The staged command conflicts with a claim or a commit of another (R417). -/
def Dev.conflicts (d : Dev) (t : Txn) (x : Staged) : Bool :=
  (Staged.objs x).any fun o => t.spoiled.contains o || match d.claimer o with
    | some u => !(u.src == t.src && u.id == t.id)
    | none => false

/-- The parameter rules at validation.  Where the transaction holds a REHASH, wherever it stands in it, the fit
of a key is that of the rebuild, which `validateEnd` judges with every staged change (R80, R93). -/
def Dev.checkCommitted (live : Dev) (t : Txn) (d : Dev) (before : List Staged) (x : Staged) : Option Status :=
  match x with
  | .emInsert p =>
    if (seedOf t.staged).isSome then rule (emInsertOk p) .badParam none else live.checkStaged d before true x
  | _ => live.checkStaged d before true x

/-- Validates the commands from index `i`: `real` holds the claims, `live` the state before the
transaction, `d` the state after the commands `before`. -/
def Dev.validateFrom (real live : Dev) (t : Txn) (d : Dev) (before : List Staged) : List Staged → Validated
  | [] => .pass d
  | x :: r =>
    let bad := if real.conflicts t x then some Status.conflict else live.checkCommitted t d before x
    match bad with
    | some st => .fail before.length (Staged.opcode x) st
    | none => real.validateFrom live t (d.applyStaged x) (before ++ [x]) r

/-- A rule on the state after a transaction, for the commands that `sel` picks: the first of them that
breaks it. -/
def firstBad (l : List Staged) (sel : Staged → Bool) : Option (Nat × Nat) :=
  (l.findIdx? sel).map fun i => (i, ((l[i]?).map Staged.opcode).getD 0)

/-- A CTX_SET or SHEAF_SET whose member ports are not all enabled for its PART after the transaction
(R525 row 19). -/
def Dev.unfenced (d : Dev) : Staged → Bool
  | .ctxSet p =>
    let next := match d.ctx? p.ctx.toNat with
      | some c => if c.resizePend then c.e.membersNext else 0
      | none => 0
    !d.fwd.other.allEnabled p.e.part (p.e.members ||| next)
  | .sheafSet p => p.e.valid && !d.fwd.other.allEnabled p.e.part p.e.members
  | _ => false

/-- The last MEM_REGION_SET. -/
def lastRegion (l : List Staged) : Option (Nat × Nat) :=
  (l.reverse.findIdx? fun x => Staged.opcode x == 0x0701).map fun i => (l.length - 1 - i, 0x0701)

/-- The checks on the state after all the commands of a transaction. -/
def Dev.validateEnd (live : Dev) (l : List Staged) (d : Dev) : Validated :=
  let rebuilt := if (seedOf l).isSome then live.fwd.other.applyTxn l else some d.fwd.other
  match rebuilt with
  | none => .fail ((l.findIdx? fun x => x.seed?.isSome).getD 0) 0x0412 .rehashNeeded
  | some b =>
    let d1 := { d with fwd := { d.fwd with other := b } }
    match firstBad l (fun x => d1.unfenced x) with
    | some (i, op) => .fail i op .badParam
    | none =>
      match lastRegion l with
      | some (i, op) => if d1.regionsOk then .pass d1 else .fail i op .badParam
      | none => .pass d1

/-- Validates a transaction against the state that the batch's earlier members leave. -/
def Dev.validate (real d : Dev) (t : Txn) : Validated :=
  match real.validateFrom d t d [] t.staged with
  | .fail i op st => .fail i op st
  | .pass d1 => d.validateEnd t.staged d1

/-- A transaction that passes changes its objects for the transactions of other sources (R417, R420). -/
def Dev.spoil (d : Dev) (t : Txn) : Dev :=
  let objs := t.names.map Prod.fst
  { d with cmd := { d.cmd with txns := d.cmd.txns.map fun u =>
    if u.src == t.src then u
    else { u with spoiled := u.spoiled ++ (objs.filter fun o => (u.nameNo o).isSome) } } }

/-- Transactions in the order of their COMMITs. -/
def byOrder (l : List Txn) : List Txn :=
  l.foldl (fun r t => (r.filter fun u => u.order < t.order) ++ [t] ++ r.filter fun u => t.order < u.order) []

/-- The core clock in which a commit that is ready became so; this one where no clock has passed since its wait
ended. -/
def Txn.readyClk (t : Txn) (now : Nat) : Nat := t.readyAt.getD now

/-- The commits that enter validation together, in the order of their COMMITs: those that became ready in
the earliest clock (R420).  DEDUCED, log entry 50. -/
def Dev.batch (d : Dev) : List Txn :=
  let ready := d.cmd.txns.filter fun t => decide (t.st = .waiting) && !d.mustWait t
  let first := ready.foldl (fun m t => min m (t.readyClk d.now)) d.now
  byOrder (ready.filter fun t => t.readyClk d.now == first)

/-- One member of a batch: the real device and the trial device after it. -/
def Dev.admitMember (a : Dev × Dev) (t0 : Txn) : Dev × Dev :=
  match a.1.cmd.txns.find? (fun u => u.src == t0.src && u.id == t0.id && u.order == t0.order) with
  | none => a
  | some t =>
    match a.1.validate a.2 t with
    | .fail i op st => (a.1.finishCommit t st 0 (.failed i op), a.2)
    | .pass d1 => ((a.1.setTxn { t with st := .applying }).spoil t, d1)

/-- COMMIT_READY (R419, R420): validation of one batch; the members that pass write their shadows.
DEDUCED, log entry 50. -/
def execCommitReady (s : State) : Host.Outcome State Fault Refusal :=
  let d := s.d
  goto s <|
    if !d.awake || !d.svRuns 1 || d.flipping then d
    else
      let r := (d.batch).foldl Dev.admitMember (d, d.trial)
      let tables := r.1.cmd.txns.any fun t => decide (t.st = .applying) && t.staged.any Staged.isTable
      if tables then { r.1 with fwd := { r.1.fwd with other := r.2.fwd.other } } else r.1

/-! ### The flip (R419, R423) -/

/-- A staged command whose flip makes waiting ports evaluate again (R368). -/
def stagedIsPlan : Staged → Bool
  | .planSet _ | .portMapSet _ => true
  | _ => false

/-- A staged command that can end a member port's use by a partition (R525 row 19). -/
def stagedIsFence : Staged → Bool
  | .partSet _ => true
  | _ => false

/-- A commit that waits for the epoch is not ready any longer. -/
def Dev.unready (d : Dev) : Dev :=
  let l := d.cmd.txns.map fun t => if d.mustWait t then { t with readyAt := none } else t
  { d with cmd := { d.cmd with txns := l } }

/-- Every change of the batch takes effect.  DEDUCED, log entry 123. -/
def Dev.flip (d : Dev) (ops : List Staged) : Dev :=
  let tabs := ops.filter Staged.isTable
  let d1 := if tabs.isEmpty then d else d.flipTables tabs
  let d0 := (ops.filter fun x => !Staged.isTable x).foldl (fun d x => d.applyStaged x) d1
  let d2 := Dev.changeModes d1 d0 ops
  let d3 := if ops.any stagedIsFence then d2.fenceLeft (fun part l => d.memberUp part l) else d2
  if ops.any stagedIsPlan then d3.replan d.planOf else d3

/-- The transactions of the batch, in the order of their COMMITs. -/
def Dev.applyingTxns (d : Dev) : List Txn :=
  byOrder (d.cmd.txns.filter fun t => decide (t.st = .applying))

/-- COMMIT_FLIP (R419). -/
def execCommitFlip (s : State) : Host.Outcome State Fault Refusal :=
  let d := s.d
  let l := d.applyingTxns
  goto s <|
    if !d.awake || !d.svRuns 1 || l.isEmpty then d
    else
      let d1 := d.flip ((l.map fun t => t.staged).flatten)
      let r := Res.flip d1.fwd.epoch d1.time.sec (BitVec.ofNat 16 (d1.time.ns / 65536))
      (l.foldl (fun d t => d.finishCommit t .ok d1.time.ns r) d1).unready

/-! ### Limits (R422, R424) -/

/-- No command has borne the TXN of the source's OPEN transaction for IDLE_S: a command restarts the time, one
of this clock too (R424, R430). -/
def Dev.idleOver (d : Dev) (src : Source) : Bool :=
  match d.openTxn src with
  | some t => decide (t.touched + t.idleS * 1000 * clkMs ≤ d.now)
  | none => false

/-- TRANSACTION_IDLE_EXPIRY: no command bore the TXN for IDLE_S (R424). -/
def execTransactionIdleExpiry (src : Source) (s : State) : Host.Outcome State Fault Refusal :=
  let d := s.d
  goto s <|
    if d.awake && d.svRuns 1 && d.idleOver src then d.abortOpen src 1 [.howlink, .mg0, .mg1] else d

/-- DRAIN_WAIT_TIMEOUT: the drain that a commit waits for has not ended within DRAIN_MS (R422). -/
def execDrainWaitTimeout (src : Source) (txn : BitVec 16) (s : State) : Host.Outcome State Fault Refusal :=
  let d := s.d
  goto s <|
    if !d.awake || !d.svRuns 1 then d
    else match d.cmd.txns.find? (fun t => t.src == src && t.id == txn && decide (t.st = .waiting)) with
      | some t => if d.drainWait t then d.finishCommit t .timeout 0 .empty else d
      | none => d

/-! ### The staged commands -/

/-- PLAN_SET (R367). -/
def execPlanSet (c : CmdCtx) (p : PlanSetP) (s : State) : Host.Outcome State Fault Refusal :=
  goto s <| s.d.stagedOnly (.planSet c p) c (.planSet p)

/-- PLAN_GROUP (R369). -/
def execPlanGroup (c : CmdCtx) (p : PlanGroupP) (s : State) : Host.Outcome State Fault Refusal :=
  goto s <| s.d.stagedOnly (.planGroup c p) c (.planGroup p)

/-- PORT_MAP_SET (R369). -/
def execPortMapSet (c : CmdCtx) (p : PortMapSetP) (s : State) : Host.Outcome State Fault Refusal :=
  goto s <| s.d.stagedOnly (.portMapSet c p) c (.portMapSet p)

/-- OPT_PORT_MODE (R326). -/
def execOptPortMode (c : CmdCtx) (p : OptPortModeP) (s : State) : Host.Outcome State Fault Refusal :=
  goto s <| s.d.stagedOnly (.optPortMode c p) c (.optPortMode p)

/-- OPT_CAMPUS_FREQ (R325). -/
def execOptCampusFreq (c : CmdCtx) (p : OptCampusFreqP) (s : State) : Host.Outcome State Fault Refusal :=
  goto s <| s.d.stagedOnly (.optCampusFreq c p) c (.optCampusFreq p)

/-- EM_INSERT (R76, R79, R93). -/
def execEmInsert (c : CmdCtx) (p : EmInsertP) (s : State) : Host.Outcome State Fault Refusal :=
  goto s <| s.d.stagedOnly (.emInsert c p) c (.emInsert p)

/-- EM_DELETE (R92). -/
def execEmDelete (c : CmdCtx) (key : BitVec 48) (s : State) : Host.Outcome State Fault Refusal :=
  goto s <| s.d.stagedOnly (.emDelete c key) c (.emDelete key)

/-- REHASH (R80). -/
def execRehash (c : CmdCtx) (seed : Word) (s : State) : Host.Outcome State Fault Refusal :=
  goto s <| s.d.stagedOnly (.rehash c seed) c (.rehash seed)

/-- ROUTE_SET (R70). -/
def execRouteSet (c : CmdCtx) (p : RouteSetP) (s : State) : Host.Outcome State Fault Refusal :=
  goto s <| s.d.stagedOnly (.routeSet c p) c (.routeSet p)

/-- GROUP_SET (R82). -/
def execGroupSet (c : CmdCtx) (p : GroupSetP) (s : State) : Host.Outcome State Fault Refusal :=
  goto s <| s.d.stagedOnly (.groupSet c p) c (.groupSet p)

/-- PART_SET (R81). -/
def execPartSet (c : CmdCtx) (p : PartSetP) (s : State) : Host.Outcome State Fault Refusal :=
  goto s <| s.d.stagedOnly (.partSet c p) c (.partSet p)

/-- PORTSET_SET (R92). -/
def execPortsetSet (c : CmdCtx) (p : PortsetSetP) (s : State) : Host.Outcome State Fault Refusal :=
  goto s <| s.d.stagedOnly (.portsetSet c p) c (.portsetSet p)

/-- LEARN_PEERS (R89). -/
def execLearnPeers (c : CmdCtx) (peers : List (BitVec 24)) (s : State) : Host.Outcome State Fault Refusal :=
  goto s <| s.d.stagedOnly (.learnPeers c peers) c (.learnPeers peers)

/-- MIRROR_SET (R125). -/
def execMirrorSet (c : CmdCtx) (p : MirrorSetP) (s : State) : Host.Outcome State Fault Refusal :=
  goto s <| s.d.stagedOnly (.mirrorSet c p) c (.mirrorSet p)

/-- PART_RESERVE (R134). -/
def execPartReserve (c : CmdCtx) (p : PartReserveP) (s : State) : Host.Outcome State Fault Refusal :=
  goto s <| s.d.stagedOnly (.partReserve c p) c (.partReserve p)

/-- SHAPER_SET (R140). -/
def execShaperSet (c : CmdCtx) (p : ShaperSetP) (s : State) : Host.Outcome State Fault Refusal :=
  goto s <| s.d.stagedOrNow (.shaperSet c p) c (.shaperSet p)

/-- GROUP_SHAPER_SET (R140). -/
def execGroupShaperSet (c : CmdCtx) (p : GroupShaperSetP) (s : State) : Host.Outcome State Fault Refusal :=
  goto s <| s.d.stagedOrNow (.groupShaperSet c p) c (.groupShaperSet p)

/-- POLICER_SET (R145). -/
def execPolicerSet (c : CmdCtx) (p : PolicerSetP) (s : State) : Host.Outcome State Fault Refusal :=
  goto s <| s.d.stagedOrNow (.policerSet c p) c (.policerSet p)

/-- POLICER_MAP (R155). -/
def execPolicerMap (c : CmdCtx) (p : PolicerMapP) (s : State) : Host.Outcome State Fault Refusal :=
  goto s <| s.d.stagedOrNow (.policerMap c p) c (.policerMap p)

/-- CTX_SET (R196, R226). -/
def execCtxSet (c : CmdCtx) (p : CtxSetP) (s : State) : Host.Outcome State Fault Refusal :=
  goto s <| s.d.stagedOnly (.ctxSet c p) c (.ctxSet p)

/-- CTX_CLOSE (R222). -/
def execCtxClose (c : CmdCtx) (ctx : BitVec 16) (s : State) : Host.Outcome State Fault Refusal :=
  goto s <| s.d.stagedOnly (.ctxClose c ctx) c (.ctxClose ctx)

/-- CTX_REFORM (R212). -/
def execCtxReform (c : CmdCtx) (p : CtxReformP) (s : State) : Host.Outcome State Fault Refusal :=
  goto s <| s.d.stagedOnly (.ctxReform c p) c (.ctxReform p)

/-- CTX_RESIZE (R213). -/
def execCtxResize (c : CmdCtx) (p : CtxResizeP) (s : State) : Host.Outcome State Fault Refusal :=
  goto s <| s.d.stagedOnly (.ctxResize c p) c (.ctxResize p)

/-- SHEAF_SET (R216). -/
def execSheafSet (c : CmdCtx) (p : SheafSetP) (s : State) : Host.Outcome State Fault Refusal :=
  goto s <| s.d.stagedOnly (.sheafSet c p) c (.sheafSet p)

/-- SHEAF_CLOSE (R222). -/
def execSheafClose (c : CmdCtx) (n : BitVec 16) (s : State) : Host.Outcome State Fault Refusal :=
  goto s <| s.d.stagedOnly (.sheafClose c n) c (.sheafClose n)

/-- THR_JOB_SET (R249). -/
def execThrJobSet (c : CmdCtx) (p : ThrJobSetP) (s : State) : Host.Outcome State Fault Refusal :=
  goto s <| s.d.stagedOnly (.thrJobSet c p) c (.thrJobSet p)

/-- THR_JOB_CLOSE (R279). -/
def execThrJobClose (c : CmdCtx) (j : Byte) (s : State) : Host.Outcome State Fault Refusal :=
  goto s <| s.d.stagedOnly (.thrJobClose c j) c (.thrJobClose j)

/-- THR_PARAM_SET (R250). -/
def execThrParamSet (c : CmdCtx) (p : ThrParamSetP) (s : State) : Host.Outcome State Fault Refusal :=
  goto s <| s.d.stagedOnly (.thrParamSet c p) c (.thrParamSet p)

/-- THR_SHARD_SET (R251). -/
def execThrShardSet (c : CmdCtx) (p : ThrShardSetP) (s : State) : Host.Outcome State Fault Refusal :=
  goto s <| s.d.stagedOnly (.thrShardSet c p) c (.thrShardSet p)

/-- THR_SHARD_CLOSE (R279). -/
def execThrShardClose (c : CmdCtx) (s : BitVec 16) (st : State) : Host.Outcome State Fault Refusal :=
  goto st <| st.d.stagedOnly (.thrShardClose c s) c (.thrShardClose s)

/-- THR_SHARD_ROLE (R274). -/
def execThrShardRole (c : CmdCtx) (p : ThrShardRoleP) (s : State) : Host.Outcome State Fault Refusal :=
  goto s <| s.d.stagedOnly (.thrShardRole c p) c (.thrShardRole p)

/-- MEM_REGION_SET (R296, R298). -/
def execMemRegionSet (c : CmdCtx) (p : MemRegionSetP) (s : State) : Host.Outcome State Fault Refusal :=
  goto s <| s.d.stagedOnly (.memRegionSet c p) c (.memRegionSet p)

end Sys2Proof.Machine
end

