-- ==== Sys2Proof/Machine/Reset.lean ====
section
/-! DEFINITION. Whole-chip reset (R470 to R472), the supply (R474), POWER_ON, Howlink's training and
self-test (R454 to R459), and the entry to SAFE_TALK (R455). -/

namespace Sys2Proof.Machine

/-! ### Whole-chip reset -/

/-- The copy on the wire of a logical port ends with a tail mark (R471); only the wire sees it.
DEDUCED, log entry 113. -/
def Dev.tailMark (d : Dev) (l : Nat) : Dev :=
  match d.sendingOn l with
  | [] => d
  | x :: r =>
    let e := d.finishCopy (d.physical l) l { x with tailMark := true } r
    { d with out := e.out, free := e.free }

/-- Band switches after reset: one that moves ends in either state (R312). -/
def Dev.settledBands (d : Dev) : Dev :=
  d.opt.moving.foldl (fun d e =>
    let r := d.drawBit
    let b := BitVec.ofNat 16 (1 <<< e.1)
    let band := if r.1 then d.fuses.band ||| b else d.fuses.band &&& ~~~b
    { r.2 with fuses := { r.2.fuses with band := band } }) d

/-- An owner slot by number. -/
def Fuses.owner (f : Fuses) (n : Nat) : BitVec 2 × BitVec 256 :=
  match n with
  | 0 => f.owner0 | 1 => f.owner1 | 2 => f.owner2 | _ => f.owner3

/-- Sets an owner slot. -/
def Fuses.setOwner (f : Fuses) (n : Nat) (x : BitVec 2 × BitVec 256) : Fuses :=
  match n with
  | 0 => { f with owner0 := x } | 1 => { f with owner1 := x } | 2 => { f with owner2 := x }
  | _ => { f with owner3 := x }

/-- The anti-rollback fuse that is being blown is either blown or not (R476). -/
def Dev.settledRollback (d : Dev) : Dev :=
  if d.fuses.rollback < d.boot.rollTarget then
    let r := d.drawBit
    { r.2 with fuses := { r.2.fuses with rollback := d.fuses.rollback + (if r.1 then 1 else 0) } }
  else d

/-- The programming of an owner slot that reset meets: its VALID fuse is blown, or the slot shows FAILED with hash
fuses that are free values (R464, R476).  DEDUCED, log entry 119. -/
def Dev.settledOwner (d : Dev) : Dev :=
  match d.boot.enrolling with
  | none => d
  | some n =>
    let r := d.drawBit
    if r.1 || (d.fuses.owner n).1 != 1 then r.2
    else
      let h := r.2.draw
      { h.2 with fuses := h.2.fuses.setOwner n (3, h.1.setWidth 256) }

/-- The fuse that is being blown is either blown or not (R476). -/
def Dev.settledFuses (d : Dev) : Dev := d.settledRollback.settledOwner

/-! What reset keeps of the maps of spares (R472): the spares that stand in a unit's place.
DEDUCED, log entry 114. -/

/-- Positions whose spare core serves, and those spares. -/
def FaultSt.keptCores (s : FaultSt) : FaultSt :=
  { cores := (s.cores.filter fun e => e.2.spare != 0 && decide (e.2.st ≠ .empty)).map fun e =>
      (e.1, { st := .filled, spare := e.2.spare }),
    spareCores := s.spareCores.filter fun e => e.2 == 1 }

/-- Bank positions whose number is allocated in a spare bank. -/
def Store.keptBanks (s : Store) : Store :=
  { swapped := s.swapped, spare0 := s.spare0, spare1 := s.spare1, slots := { bankOf := s.slots.bankOf } }

/-- Ports that a spare laser lights. -/
def Opt.keptLasers (o : Opt) : Opt := { spares := o.spares.filter fun e => e.2.st == 2 }

/-- Enters whole-chip reset: what R472 names stays, everything else is lost.
DEDUCED, log entries 113 and 114. -/
def Dev.enterReset (d : Dev) : Dev :=
  let d1 := (List.range 512).foldl (fun (d : Dev) (l : Nat) => d.tailMark l) d
  let d2 := d1.settledBands.settledFuses
  { boot := { inReset := true, resetN := d.boot.resetN },
    fuses := d2.fuses,
    clk := { refLost := d.clk.refLost, temps := d.clk.temps, thermLow := d.clk.thermLow,
             tap := d.clk.tap, tapIr := d.clk.tapIr, tapDr := d.clk.tapDr, tdo := d.clk.tdo,
             lands := d.clk.lands },
    mem := { cells := d.mem.cells.filter fun c => decide (granBase ≤ c.1),
             badLines := d.mem.badLines.filter fun x => decide (lineOf granBase ≤ x),
             retiredPages := d.mem.retiredPages, poolUsed := d.mem.poolUsed },
    faults := d.faults.keptCores,
    store := d.store.keptBanks,
    opt := d.opt.keptLasers,
    out := d2.out,
    free := d2.free }

/-- Leaves reset into POWER_ON. -/
def Dev.leaveReset (d : Dev) : Dev := { d with now := 0, boot := { d.boot with inReset := false } }

/-- RESET_N_ASSERT (R470). -/
def execResetNAssert (s : State) : Host.Outcome State Fault Refusal :=
  let d := { s.d with boot := { s.d.boot with resetN := false } }
  goto s <| if s.d.boot.inReset then d else d.enterReset

/-- RESET_N_RELEASE (R454). -/
def execResetNRelease (s : State) : Host.Outcome State Fault Refusal :=
  let d := { s.d with boot := { s.d.boot with resetN := true } }
  goto s <| if s.d.boot.resetN then s.d else d.leaveReset

/-- HOWLINK_RESET_MESSAGE: the link logic acts without device firmware (R470). -/
def execHowlinkResetMessage (s : State) : Host.Outcome State Fault Refusal :=
  goto s <| if s.d.awake && s.d.hl.up && s.d.hl.trained then s.d.enterReset else s.d

/-- DEV_RESET_DELAY_EXPIRY (R470). -/
def execDevResetDelayExpiry (s : State) : Host.Outcome State Fault Refusal :=
  goto s <| if s.d.awake && s.d.boot.resetAt.isSome then s.d.enterReset else s.d

/-- INTERNAL_RESET_RELEASE: RESET_N held low keeps the device in reset (R470). -/
def execInternalResetRelease (s : State) : Host.Outcome State Fault Refusal :=
  goto s <| if s.d.boot.inReset && s.d.boot.resetN then s.d.leaveReset else s.d

/-- RAIL_OUT_OF_REGULATION (R474): undefined with RESET_N high; in reset nothing happens. -/
def execRailOutOfRegulation (s : State) : Host.Outcome State Fault Refusal :=
  if s.d.boot.resetN then .fault .railUndefined else .next s

/-! ### POWER_ON and Howlink's training -/

/-- Sets lock bits of GLB_CLK_STATUS.  DEDUCED, log entry 116. -/
def Dev.lockPlls (d : Dev) (mask : Nat) : Dev :=
  { d with clk := { d.clk with locks := d.clk.locks ||| BitVec.ofNat 64 mask } }

/-- POWER_ON_COMPLETE: without REFCLK the root PLL does not lock (R549). -/
def execPowerOnComplete (bootSrc : BitVec 2) (s : State) : Host.Outcome State Fault Refusal :=
  let d := s.d
  goto s <|
    if d.awake && d.boot.st = .powerOn && !d.clk.refLost then
      ({ d with boot := { d.boot with st := .selfTest, bootSrc := bootSrc } }).lockPlls 0x10000
    else d

/-- Howlink after training: the spare takes the lowest failing lane; then x8 on a good half of the
remapped set, or no link.  DEDUCED, log entry 115. -/
def trainedLink (r : HlTraining) : Howlink :=
  let bad := (List.range 16).filter fun n => r.failedLanes.any fun x => x.val == n
  let spareBad := r.failedLanes.any fun x => x.val == 16
  let left := if spareBad then bad else bad.drop 1
  let base : Howlink := {
    trained := true, spareUsed := spareBad || !bad.isEmpty,
    failedLane := if spareBad then 16 else match bad with
      | a :: _ => BitVec.ofNat 5 a
      | [] => 0x1F }
  if r.majorDiffers then { base with up := false, verMismatch := true, lanes := 0 }
  else if left.isEmpty then base
  else if left.all fun n => 8 ≤ n then { base with lanes := 8 }
  else if left.all fun n => n < 8 then { base with lanes := 8, upper := true }
  else { base with up := false, lanes := 0 }

/-- Result of item 7.  DEDUCED, log entry 115. -/
def howlinkItem (r : HlTraining) : ItemRes :=
  let h := trainedLink r
  let units := r.failedLanes.map fun x => x.val
  if units.isEmpty then {}
  else if h.lanes == 16 && h.failedLane != 16 then { repaired := 1, units := units }
  else { degraded := 1, units := units }

/-- HOWLINK_TRAINING_COMPLETE (R457). -/
def execHowlinkTrainingComplete (r : HlTraining) (s : State) : Host.Outcome State Fault Refusal :=
  let d := s.d
  goto s <|
    if d.awake && d.boot.st = .selfTest && !d.hl.trained then
      let h := trainedLink r
      let d1 := { d with
        hl := h, boot := { d.boot with items := Tab.set d.boot.items 7 (howlinkItem r) {} } }
      let d2 := if h.lanes = 0 then d1 else d1.lockPlls 0x800000
      if h.lanes = 8 then d2.event (.howlinkDegraded 8) else d2
    else d

/-! ### Self-test -/

/-- Sets the result of an item. -/
def Dev.setItem (d : Dev) (i : Nat) (r : ItemRes) : Dev :=
  { d with boot := { d.boot with items := Tab.set d.boot.items i r {} } }

/-- Adds one failed unit to an item's result. -/
def ItemRes.add (r : ItemRes) (repaired : Bool) (u : Nat) : ItemRes :=
  if repaired then { r with repaired := r.repaired + 1, units := r.units ++ [u] }
  else { r with degraded := r.degraded + 1, units := r.units ++ [u] }

/-- Adds a failed unit to item `i`. -/
def Dev.addItem (d : Dev) (i : Nat) (repaired : Bool) (u : Nat) : Dev :=
  d.setItem i ((Tab.get d.boot.items i {}).add repaired u)

/-- The bank that serves a position fails: a spare of its die takes its place, or the position is closed. -/
def Dev.repairBank (d : Dev) (b : Nat) : Dev :=
  if d.bankSpares (dieOf b) = 0 then
    ({ d with store := { d.store with closed := d.store.closed ++ [b] } }).addItem 1 false b
  else
    (d.mapSpare b).addItem 1 true b

/-- A failing spare bank is not available; a position that it serves needs another. -/
def Dev.testSpareBank (d : Dev) (i : Nat) : Dev :=
  let serves := d.store.slots.bankOf.find? fun e => e.2.head? == some (1024 + i)
  let taken := d.store.slots.bankOf.any fun e => e.2.contains (1024 + i)
  let d1 := if taken then d else d.takeBankSpare (i / 16)
  let d2 := ({ d1 with store := { d1.store with slots := { d1.store.slots with
    badSpares := d1.store.slots.badSpares ++ [i] } } }).addItem 1 false (1024 + i)
  match serves with
  | some e => d2.repairBank e.1
  | none => d2

/-- A failing bank takes a spare of its die, or is closed; one whose spare serves already is repaired. -/
def Dev.testBank (d : Dev) (b : Nat) : Dev :=
  if d.store.slots.bankAt b != b then d.addItem 1 true b else d.repairBank b

/-- A failing spare core: a position that it serves is empty. -/
def Dev.testSpareCore (d : Dev) (s : Nat) : Dev :=
  let d1 := (d.setSpareCore s 2).addItem 3 false (64 + s)
  match d.faults.cores.find? fun e => e.2.spare == s + 1 with
  | some e => (d1.setCorePos e.1 { st := .empty }).addItem 3 false e.1
  | none => d1

/-- A failing core takes the spare wired to its cluster, or its position is empty; one whose spare serves already is
repaired. -/
def Dev.testCore (d : Dev) (n : Nat) : Dev :=
  let sp := spareOfPos n
  if (d.corePos n).spare != 0 then d.addItem 3 true n
  else if d.spareCore sp = 0 then
    ((d.setCorePos n { st := .filled, spare := sp + 1 }).setSpareCore sp 1).addItem 3 true n
  else (d.setCorePos n { st := .empty }).addItem 3 false n

/-- A failing half of a port's die-to-die lanes. -/
def Dev.testLane (d : Dev) (x : Port × Bool) : Dev :=
  let p := x.1.val
  let y := d.port p
  (d.setPort p { y with badHalf := y.badHalf ||| (if x.2 then 2 else 1) }).addItem 4 false p

/-- A failing spare laser. -/
def Dev.testSpareLaser (d : Dev) (e ix : Nat) : Dev :=
  let d1 := d.setLaser e ix { d.laser e ix with failed := true }
  (d1.setSpare e (ix - 32) { st := if (d1.spare e (ix - 32)).st = 4 then 4 else 3 }).addItem 5 false (e * 64 + ix)

/-- A failing port laser takes the spare of its fiber, or of its bank's campus ports, directly. -/
def Dev.testLaser (d : Dev) (e ix : Nat) : Dev :=
  let place := if ix < 32 then ix else if e = 0 then ix - 37 else ix - 21
  let f := if ix < 32 then ix / 8 else 4
  let d1 := d.setLaser e ix { d.laser e ix with failed := true }
  let y := d1.spare e f
  if y.st = 2 && y.port == place then d1.addItem 5 true (e * 64 + ix)
  else if y.st = 0 then
    (d1.setSpare e f { st := 2, port := place }).addItem 5 true (e * 64 + ix)
  else d1.addItem 5 false (e * 64 + ix)

/-- A port's optics fail: the port runs at half rate, or not at all (R352, R457). -/
def Dev.testOptics (d : Dev) (x : Port × Bool) : Dev :=
  let p := x.1.val
  (d.setPort p { d.port p with optTest := if x.2 then 1 else 2 }).addItem 5 false (engOf p * 64 + placeOf p)

/-- The pages that self-test moves, each once, within the near tier (R295). -/
def selfTestPages (r : SelfTestResult) : List Nat :=
  ((r.g7Pages.map fun a => pageOf a.toNat).eraseDups).filter fun p =>
    decide (nearBase ≤ p ∧ p < nearBase + nearSizeOf r.g7Density)

/-- Density and rate are those of R293, and the spare pages suffice. -/
def g7Ok (r : SelfTestResult) : Bool :=
  !r.g7Fatal && r.g7Failed.isEmpty && (r.g7Density == 16 || r.g7Density == 24 || r.g7Density == 32) &&
  (r.g7Rate == 28 || r.g7Rate == 32 || r.g7Rate == 36) && decide ((selfTestPages r).length ≤ sparePagesOf r.g7Density)

/-- Numbers of a list in rising order, each once, below a bound. -/
def sortedBelow (bound : Nat) (l : List Nat) : List Nat := (List.range bound).filter fun n => l.contains n

/-- The results of items 0 to 6 and their repairs.  DEDUCED, log entry 114. -/
def Dev.selfTest (d : Dev) (r : SelfTestResult) : Dev :=
  let banks := r.banks.map fun x => x.val
  let cores := r.cores.map fun x => x.val
  let lasers := (r.lasers.filter fun x => laserExists x.1.val x.2.val).map fun x => x.1.val * 53 + x.2.val
  let isSpare := fun (n : Nat) => decide (32 ≤ n % 53 ∧ n % 53 < 37)
  let d0 := if r.svFail = 0 then d else d.setItem 0 { fatal := popCount r.svFail, units := members r.svFail }
  let d1 := (sortedBelow 1056 banks).foldl (fun (d : Dev) (n : Nat) =>
    if n < 1024 then d else d.testSpareBank (n - 1024)) d0
  let d2 := (sortedBelow 1024 banks).foldl Dev.testBank d1
  let d3 := if r.rowsRepaired = 0 && r.rowsFatal = 0 then d2
    else d2.setItem 2 {
      repaired := r.rowsRepaired, fatal := r.rowsFatal, units := r.rows.map fun x => x.1 * 16777216 + x.2 }
  let d4 := (sortedBelow 68 cores).foldl (fun (d : Dev) (n : Nat) =>
    if n < 64 then d else d.testSpareCore (n - 64)) d3
  let d5 := (sortedBelow 64 cores).foldl Dev.testCore d4
  let d6 := r.lanes.foldl Dev.testLane d5
  let d7 := ((sortedBelow 848 lasers).filter isSpare).foldl (fun (d : Dev) (n : Nat) =>
    d.testSpareLaser (n / 53) (n % 53)) d6
  let d8 := ((sortedBelow 848 lasers).filter fun n => !isSpare n).foldl (fun (d : Dev) (n : Nat) =>
    d.testLaser (n / 53) (n % 53)) d7
  let d8a := r.optics.foldl Dev.testOptics d8
  let d9 := r.rings.foldl (fun (d : Dev) (c : RingCal) =>
    d.setRing c.port.val c.ring { d.ring c.port.val c.ring with hcal := c.hcal, slope := c.slope }) d8a
  let devs := r.g7Failed.map fun n => n.val
  let pages := selfTestPages r
  let moved := d9.mem.retiredPages ++ pages.filter fun p => !d9.mem.retiredPages.contains p
  let d10 := if !g7Ok r then d9.setItem 6 { fatal := max 1 devs.length, units := devs }
    else if pages.isEmpty then d9 else d9.setItem 6 { repaired := pages.length, units := pages }
  let near : Region := { kind := .host, base := nearBase, size := nearSizeOf r.g7Density }
  { d10 with
    opt := { d10.opt with tCal := r.tCal },
    mem := { d10.mem with
      density := r.g7Density, rate := r.g7Rate, nearOk := g7Ok r, failedDevs := devs,
      retiredPages := moved, poolUsed := d9.mem.poolUsed + (moved.length - d9.mem.retiredPages.length),
      regions := if near.size = 0 then [] else [(0, near)] },
    boot := { d10.boot with svFail := r.svFail, testDone := true } }

/-- The numbers of the VALID owner slots. -/
def Fuses.validOwners (f : Fuses) : List Nat := [0, 1, 2, 3].filter fun n => (f.owner n).1 == 1

/-- SAFE_TALK causes of R455. -/
def causeFatal : BitVec 4 := 1
def causeNoImage : BitVec 4 := 2
def causeRejected : BitVec 4 := 3
def causeNoOwner : BitVec 4 := 4
def causeHold : BitVec 4 := 5

/-- BOOT_RESULT. -/
def Dev.bootResult (d : Dev) : Dev :=
  d.event (.bootResult d.boot.st d.boot.cause d.boot.reject d.boot.imgSlot d.boot.svn)

/-- Enters SAFE_TALK with a cause: the management links run in their set modes, and where the device waits for the
boot flash it reads it (R460, R546). -/
def Dev.enterSafeTalk (d : Dev) (cause : BitVec 4) : Dev :=
  let d1 := { d with
    boot := { d.boot with st := .safeTalk, cause := cause },
    clk := { d.clk with flCsN := !(decide (cause = 0) && decide (d.boot.bootSrc = 0)) } }
  ((d1.mgStart 0).mgStart 1).bootResult

/-- The cause with which a boot source waits for its image (R460).  DEDUCED, log entry 119. -/
def waitCause (bootSrc : BitVec 2) : BitVec 4 :=
  if bootSrc = 0 then 0 else if bootSrc = 3 then causeHold else causeNoImage

/-- The cause at the end of self-test. -/
def Dev.testCause (d : Dev) : BitVec 4 :=
  if d.boot.items.any fun e => e.2.fatal != 0 then causeFatal
  else if d.fuses.validOwners.isEmpty then causeNoOwner
  else waitCause d.boot.bootSrc

/-- SELF_TEST_COMPLETE: with a failed supervisor core the device stays in SELF_TEST (R458). -/
def execSelfTestComplete (r : SelfTestResult) (s : State) : Host.Outcome State Fault Refusal :=
  let d := s.d
  goto s <|
    if d.awake && d.boot.st = .selfTest && d.hl.trained && !d.boot.testDone then
      let d1 := (d.selfTest r).lockPlls 0xFFFF00040000
      if r.svFail = 0 then d1.enterSafeTalk d1.testCause else d1
    else d

/-! ### Registers that show it (R479, R530, R531) -/

/-- The worst result of an item. -/
def ItemRes.worst (r : ItemRes) : Nat :=
  if r.fatal ≠ 0 then 3 else if r.degraded ≠ 0 then 2 else if r.repaired ≠ 0 then 1 else 0

/-- GLB_SELFTEST. -/
def Dev.selfTestReg (d : Dev) : Nat :=
  sumNat ((List.range 8).map fun i => (Tab.get d.boot.items i {}).worst <<< (2 * i)) |||
  d.boot.testDone.toNat <<< 27 ||| d.boot.svFail.toNat <<< 28

/-- GLB_CFG. -/
def Dev.cfgReg (d : Dev) : Nat :=
  d.boot.hlOwner.toNat <<< 7 ||| d.boot.cfgValid.toNat <<< 2 ||| d.boot.role.toNat

/-- GLB_DEV_STATUS. -/
def Dev.devStatusReg (d : Dev) : Nat :=
  d.boot.fwMajor.toNat <<< 24 ||| d.boot.fwMinor.toNat <<< 16 ||| d.boot.st.code

/-- SEC_BOOT_STATUS. -/
def Dev.bootStatusReg (d : Dev) : Nat :=
  let b := d.boot
  b.svn.toNat <<< 24 ||| b.reject.toNat <<< 20 ||| b.cause.toNat <<< 16 ||| b.bootSrc.toNat <<< 14 |||
  b.imgSlot.toNat <<< 13 ||| b.imgOk.toNat <<< 12

/-- SEC_ROLLBACK and SEC_OWNER_STATE. -/
def Dev.rollbackReg (d : Dev) : Nat := d.fuses.rollback
def Dev.ownerStateReg (d : Dev) : Nat :=
  sumNat ([0, 1, 2, 3].map fun n => (d.fuses.owner n).1.toNat <<< (4 * n))

end Sys2Proof.Machine
end

