-- ==== Sys2Proof/Machine/Image.lean ====
section
/-! DEFINITION. The image: its sources, layout and checks (R460 to R463), BOOT and its configuration
(R466, R467), and IMAGE_LOAD. -/

namespace Sys2Proof.Machine

/-! ### The image buffer (R461, R462) -/

/-- Puts bytes into the image buffer. -/
def putImage : Tab Byte → Nat → List Byte → Tab Byte
  | t, _, [] => t
  | t, o, b :: r => putImage (Tab.put t o b) (o + 1) r

/-- Bytes of the buffer from an offset; unloaded ones read 0. -/
def imageSlice (t : Tab Byte) (o n : Nat) : List Byte := (List.range n).map fun i => Tab.get t (o + i) 0

/-- A number in the buffer. -/
def imageNum (t : Tab Byte) (o n : Nat) : Nat := ofBe (imageSlice t o n)

/-- FW_LEN and CFG_LEN. -/
def imageFwLen (t : Tab Byte) : Nat := imageNum t 8 4
def imageCfgLen (t : Tab Byte) : Nat := imageNum t 176 4

/-- 16 MiB and 8 MiB. -/
def imageMax : Nat := 0x1000000
def firmwareMax : Nat := 0x800000

/-- Every byte up to a bound has been loaded. -/
def loadedTo (t : Tab Byte) (n : Nat) : Bool := (t.filter fun e => decide (e.1 < n)).length == n

/-- Every byte that the header's lengths name has been loaded (R462). -/
def imageLoaded (t : Tab Byte) : Bool := loadedTo t (512 + imageFwLen t + imageCfgLen t)

/-- The lengths lie within R461 and the image is complete. -/
def imageComplete (t : Tab Byte) : Bool :=
  decide (imageFwLen t ≤ firmwareMax) && decide (imageCfgLen t + 512 + imageFwLen t ≤ imageMax) && imageLoaded t

/-! ### The checks (R463) -/

/-- A P-256 signature in the buffer verifies with a key in the buffer over a range from 0.
PRESUMED, log entry 120. -/
def imageSigned (t : Tab Byte) (key sig n : Nat) : Bool :=
  ecdsaVerify (imageNum t key 32) (imageNum t (key + 32) 32) (imageNum t sig 32) (imageNum t (sig + 32) 32)
    (sha256 (imageSlice t 0 n))

/-- SHA-256 of a range of the buffer. -/
def imageHash (t : Tab Byte) (o n : Nat) : BitVec 256 := sha256 (imageSlice t o n)

/-- A hash that the header holds. -/
def imageField (t : Tab Byte) (o : Nat) : BitVec 256 := BitVec.ofNat 256 (imageNum t o 32)

/-- The slot in state VALID that holds a key hash. -/
def Fuses.ownerOf (f : Fuses) (h : BitVec 256) : Option Nat :=
  f.validOwners.find? fun n => (f.owner n).2 == h

/-- Checks 1 to 9 of R463, in their order, each with its code.  DEDUCED, log entry 124. -/
def imageChecks (f : Fuses) (t : Tab Byte) : List (Nat × Bool) :=
  let fw := imageFwLen t
  [ (1, imageNum t 0 4 == 0x5646494D && imageNum t 4 2 == 1),
    (2, imageComplete t),
    (3, imageHash t 48 64 == Config.vendorRootHash),
    (4, imageSigned t 48 112 48),
    (5, imageField t 12 == imageHash t 512 fw),
    (6, decide (f.rollback ≤ imageNum t 6 1) && decide (imageNum t 6 1 ≤ 64)),
    (7, (f.ownerOf (imageHash t 216 64)).isSome),
    (8, imageSigned t 216 280 216),
    (9, imageField t 180 == imageHash t (512 + fw) (imageCfgLen t)) ]

/-- The first check that fails; 0 for none. -/
def firstFail (l : List (Nat × Bool)) : Nat :=
  match l.find? fun x => !x.2 with
  | some x => x.1
  | none => 0

/-! ### The configuration (R466) -/

/-- The role in force for an image: the one given by DEV_ROLE in SAFE_TALK comes first (R412). -/
def Dev.roleFor (d : Dev) (c : BootCfg) : BitVec 2 := d.boot.roleOverride.getD c.role

/-- A port mode of the image lies in its range. -/
def portModeOk (leaf : Bool) (x : PortModeCfg) : Bool :=
  decide (x.mode.toNat < 5) && decide (x.cfreq.toNat ≤ 96) &&
  (!isCampus x.mode || campusPort x.port.val) &&
  (!x.express || ((x.mode == 1 || x.mode == 2) && leaf && isLeafUp x.port.val))

/-- The value lies in the ranges that the register's fields state without a rule that takes the others as something
else: SLEW_PPM, WIDTH_US and OBJ (R308, R452).  DEDUCED, log entry 124. -/
def regValueOk (off v : Nat) : Bool :=
  if off = offTimeCtl then decide (1 ≤ bitsOf v 15 8 ∧ bitsOf v 15 8 ≤ 100)
  else if off = baseTime + 0x48 then decide (bitsOf v 19 0 ≤ 500000)
  else if off = baseMem + 0x80 then decide (bitsOf v 63 60 ≤ 3)
  else true

/-- A register value of the image names a register by its width, with bits that software sets, and lies in range. -/
def imageRegOk (x : Nat × Nat × Dword) : Bool :=
  match regAt x.1 with
  | some (r, _) => r.width == x.2.1 && r.rw != 0 && regValueOk x.1 x.2.2.toNat
  | none => false

/-- The staged commands of an image break no parameter rule, one after the other. -/
def Dev.imageStagedOk (live : Dev) : Dev → List Staged → List Staged → Bool
  | _, _, [] => true
  | d, before, x :: r =>
    live.checkStaged d before false x != some .badParam && live.imageStagedOk (d.applyStaged x) (before ++ [x]) r

/-- An expander as R299 supports it: 64 or 32 GT/s, 16 or 8 lanes; or none. -/
def expanderOk (x : ExpCfg) : Bool :=
  x.role == 0 || (decide (x.role.toNat ≤ 2) && (x.rate == 64 || x.rate == 32) && (x.width == 16 || x.width == 8))

/-- Every value of a configuration lies in its range (check 10). -/
def Dev.cfgOk (d : Dev) (c : BootCfg) : Bool :=
  let role := d.roleFor c
  let t := ({ d with boot := { d.boot with role := role, addr := c.addr } }).trial
  c.role != 3 && addrKind c.addr == 1 &&
  (c.g7Density == 16 || c.g7Density == 24 || c.g7Density == 32) &&
  (c.g7Rate == 28 || c.g7Rate == 32 || c.g7Rate == 36) &&
  decide (c.expanders.length ≤ 4) && (c.expanders.all expanderOk) &&
  decide ((c.expanders.filter fun x => x.role == 2).length ≤ 1) &&
  (c.portModes.all fun x => portModeOk (role == 0) x) && decide (c.requesters.length ≤ 16) &&
  c.mgMode0 != 3 && c.mgMode1 != 3 && c.regs.all imageRegOk &&
  (c.laserRefs.all fun x => laserExists x.1.val x.2.1.val) && t.imageStagedOk t [] c.staged

/-! ### Entering and leaving BOOT -/

/-- Sets MGL_CTL.MODE; the write ends the link's sessions and its open transaction (R388, R456). -/
def Dev.setMglMode (d : Dev) (m v : Nat) : Dev := d.writeMglCtl m (withBits (d.reg (baseMgl m)) 1 0 v)

/-- An image is present: BOOT begins with both management links OFF.  DEDUCED, log entry 117. -/
def Dev.enterBoot (d : Dev) : Dev :=
  let d1 := { d with boot := { d.boot with
    st := .boot, cause := 0, reject := 0, imgLast := true, imgOk := false, cfg := none } }
  (d1.setMglMode 0 0).setMglMode 1 0

/-- Back to SAFE_TALK: the management links return to their reset mode, and TIME_PPS_OUT is low (R448). -/
def Dev.backToSafeTalk (d : Dev) (cause : BitVec 4) : Dev :=
  let d1 := { d with
    boot := { d.boot with image := [], imgLast := false, imgSource := none, cfg := none }
    time := { d.time with ppsOut := false } }
  (({ d1 with boot := { d1.boot with st := .safeTalk } }).setMglMode 0 1).setMglMode 1 1 |>.enterSafeTalk cause

/-- A check rejects the image: under FLASH slot B is tried after slot A (R463). -/
def Dev.rejectImage (d : Dev) (code : Nat) : Dev :=
  let d1 := { d with boot := { d.boot with reject := BitVec.ofNat 4 code } }
  if d1.boot.bootSrc = 0 && !d1.boot.imgSlot then
    { d1 with boot := { d1.boot with imgSlot := true, image := [], imgLast := false }, clk := { d1.clk with flCsN := false } }
  else d1.backToSafeTalk causeRejected

/-- FLASH_IMAGE_READ_COMPLETE: slot A in SAFE_TALK, slot B in BOOT after slot A was rejected (R460).
DEDUCED, log entry 117. -/
def execFlashImageReadComplete (bytes : List Byte) (s : State) : Host.Outcome State Fault Refusal :=
  let d := s.d
  let img := putImage [] 0 (bytes.take imageMax)
  let d1 := { d with boot := { d.boot with image := img, imgLast := true }, clk := { d.clk with flCsN := true } }
  goto s <|
    if !d.awake || !d.svRuns 0 || d.boot.bootSrc ≠ 0 then d
    else if d.boot.st = .safeTalk && d.boot.cause = 0 then
      ({ d1 with boot := { d1.boot with imgSlot := false } }).enterBoot
    else if d.boot.st = .boot && d.boot.imgSlot && !d.boot.imgLast then d1
    else d

/-- The identity key: the same at every boot (R469). -/
def Fuses.identityKey (f : Fuses) : BitVec 256 := hmacSha256 f.secret Config.identityLabel

/-- The alias key for firmware with this SHA-256 (R469). -/
def Fuses.aliasKey (f : Fuses) (fwHash : BitVec 256) : BitVec 256 :=
  hmacSha256 f.secret (Config.aliasLabel ++ beBytes 32 fwHash.toNat)

/-- IMAGE_CHECK_COMPLETE: `cfg` is the configuration as SV0 parses it; none where it does not parse (R463). -/
def execImageCheckComplete (cfg : Option BootCfg) (s : State) : Host.Outcome State Fault Refusal :=
  let d := s.d
  let t := d.boot.image
  goto s <|
    if !d.awake || !d.svRuns 0 || d.boot.st ≠ .boot || !d.boot.imgLast || d.boot.imgOk then d
    else if d.fuses.validOwners.isEmpty then d.backToSafeTalk causeNoOwner
    else match firstFail (imageChecks d.fuses t), cfg with
      | 0, some c =>
        if d.cfgOk c then
          { d with boot := { d.boot with
            cfg := some c, imgOk := true, svn := BitVec.ofNat 8 (imageNum t 6 1), fwHash := imageField t 12,
            cfgHash := imageField t 180, ownerKeyHash := imageHash t 216 64,
            aliasKey := d.fuses.aliasKey (imageField t 12) } }
        else d.rejectImage 10
      | 0, none => d.rejectImage 10
      | n + 1, _ => d.rejectImage (n + 1)

/-! ### Applying the configuration, in the order of R466 -/

/-- Step 1: the role, and the identity that the exchange sends (R364). -/
def Dev.applyRole (d : Dev) (c : BootCfg) : Dev :=
  { d with boot := { d.boot with
    role := d.roleFor c, cfgValid := true, fwMajor := c.fwMajor, fwMinor := c.fwMinor, system := c.system,
    chassis := c.chassis, slot := c.slot, addr := c.addr } }

/-- Density and rate: at most what self-test found. -/
def Dev.applyG7 (d : Dev) (c : BootCfg) : Dev :=
  let n := min c.g7Density d.mem.density
  let near : Region := { kind := .host, base := nearBase, size := nearSizeOf n }
  { d with mem := { d.mem with density := n, rate := min c.g7Rate d.mem.rate, regions := [(0, near)] } }

/-- One expander as enumeration finds it (R300); where CX_PRSNT_N is high it is absent (R549). -/
def expanderOf (x : ExpCfg) : Expander :=
  if x.prsntN then {}
  else { role := x.role, capGib := if 1024 < x.capGib.toNat then 1024 else x.capGib, rate := x.rate, width := x.width }

/-- Step 2: density and rate, expander roles and enumeration.  DEDUCED, log entry 106. -/
def Dev.applyMemory (d : Dev) (c : BootCfg) : Dev :=
  let d1 := d.applyG7 c
  let e := fun (n : Nat) => ((c.expanders[n]?).map expanderOf).getD {}
  let d2 := [0, 1, 2, 3].foldl (fun (d : Dev) (n : Nat) => d.setExpander n (e n)) d1
  let active := [0, 1, 2, 3].filter fun n => (d2.expander n).role == 1
  let fitted := [0, 1, 2, 3].filter fun n => (d2.expander n).role != 0
  let bits := fitted.foldl (fun (m : Nat) (n : Nat) => m ||| 1 <<< n) 0
  let prsntN := BitVec.ofNat 4 (sumNat ([0, 1, 2, 3].map fun n =>
    match c.expanders[n]? with
    | some x => x.prsntN.toNat <<< n
    | none => 1 <<< n))
  let d3 := { d2 with
    mem := { d2.mem with stripes := active, granCap := d2.expanderCap },
    clk := { d2.clk with cxPerst := BitVec.ofNat 4 bits, cxPrsntN := prsntN } }
  d3.lockPlls (bits <<< 19)

/-- An image's port mode. -/
def Dev.applyMode (d : Dev) (x : PortModeCfg) : Dev :=
  let p := x.port.val
  d.setPort p { d.port p with mode := x.mode, express := x.express, xch := x.c, cfreq := x.cfreq }

/-- An image's laser reference. -/
def Dev.applyRef (d : Dev) (x : Fin 16 × LaserIx × BitVec 16) : Dev :=
  if !laserExists x.1.val x.2.1.val then d
  else d.setLaser x.1.val x.2.1.val { d.laser x.1.val x.2.1.val with hasRef := true, ref := x.2.2 }

/-- The band check (R315): TERMINATE is expected of a leaf, ROUTE of the others. -/
def Dev.checkBands (d : Dev) : Dev :=
  (List.range 16).foldl (fun (d : Dev) (e : Nat) =>
    let term := d.fuses.band.getLsbD e
    if term = d.isLeaf then d else d.event (.bandMismatch e term)) d

/-- Step 3: port modes, laser references, and the band check. -/
def Dev.applyOptics (d : Dev) (c : BootCfg) : Dev :=
  (c.laserRefs.foldl Dev.applyRef (c.portModes.foldl Dev.applyMode d)).checkBands

/-- Partition 0x000: every port, without learning (R81). -/
def partZero : PartEntry := { valid := true, learnEn := false, ports := BitVec.allOnes 512 }

/-- Step 4: trust (R51), learn ports (R86) and partition 0x000. -/
def Dev.applyFabric (d : Dev) : Dev :=
  let trusted := fun (l : Nat) => !d.isLeaf || isLeafUp l
  let d1 := (List.range 512).foldl (fun (d : Dev) (p : Nat) => d.setRegBit (offFrameCtl p) 0 (trusted p)) d
  let learn := if d.isLeaf then 0x0000FFFF else 0xFFFFFFFF
  let d2 := (List.range 16).foldl (fun (d : Dev) (k : Nat) => d.setReg (baseFwd k + 0x18) learn) d1
  let put := fun (b : Bank) => { b with parts := Tab.set b.parts 0 partZero PartEntry.none }
  { d2 with fwd := { d2.fwd with cur := put d2.fwd.cur, other := put d2.fwd.other } }

/-- Step 5: plan entries and AUTO_REMAP. -/
def Dev.applyPlan (d : Dev) (c : BootCfg) : Dev :=
  let d1 := c.plan.foldl (fun (d : Dev) (x : Port × PlanEntry) => d.setPlan x.1.val x.2) d
  { d1 with autoRemap := c.autoRemap }

/-- Step 6: requesters, the Howlink grant, and MGL_MAC; the link modes are set on entry to READY. -/
def Dev.applyAccess (d : Dev) (c : BootCfg) : Dev :=
  let d1 := { d with boot := { d.boot with requesters := c.requesters, hlOwner := c.hlOwner } }
  { d1 with mg0 := { d1.mg0 with mac := c.mgMac0 }, mg1 := { d1.mg1 with mac := c.mgMac1 } }

/-- The staged commands of an image as one device-scope transaction; one that fails has no effect.
DEDUCED, log entry 123. -/
def Dev.applyStagedAll (d : Dev) (l : List Staged) : Dev :=
  let t : Txn := {
    src := .howlink, id := 0, session := 0, st := .applying, scope := 0, idleS := 0, drainMs := 0, touched := 0,
    staged := l }
  if l.isEmpty then d
  else match d.validate d.trial t with
    | .fail .. => d
    | .pass d1 => ({ d with fwd := { d.fwd with other := d1.fwd.other } }).flip l

/-- Step 7: register values and staged commands. -/
def Dev.applyRest (d : Dev) (c : BootCfg) : Dev :=
  let d1 := c.regs.foldl (fun (d : Dev) (x : Nat × Nat × Dword) => d.writeWindow (.sv 0) x.1 x.2.1 x.2.2) d
  d1.applyStagedAll c.staged

/-- A port whose laser, with no spare for it, or whose optics failed self-test (R352, R457). -/
def Dev.opticsDown (d : Dev) (p : Nat) : Bool :=
  (d.laser (engOf p) (d.laserIx p)).failed || (d.port p).optTest = 2

/-- Entry to READY (R456, R467): the links take the image's modes and bring-up starts on every port
whose mode is not OFF; the image buffer is free.  DEDUCED, log entry 45. -/
def Dev.enterReady (d : Dev) (c : BootCfg) : Dev :=
  let d1 := { d with boot := { d.boot with
    st := .ready, cause := 0, image := [], imgLast := false, imgSource := none } }
  let d2 := (d1.setMglMode 0 c.mgMode0.toNat).setMglMode 1 c.mgMode1.toNat
  let d3 := d2.bootResult
  (List.range 512).foldl (fun (d : Dev) (p : Nat) =>
    if (d.port p).mode = 0 then d
    else if d.opticsDown p then d.setDown p 3
    else d.toDetect p) d3

/-- A port that will be at half rate or down by what self-test found (R18, R352). -/
def Dev.bootBad (d : Dev) (p : Nat) : Bool :=
  let x := d.port p
  x.mode != 0 && (d.opticsDown p || x.badHalf = 3 || x.onLanes.forcedHalf)

/-- The first port of each transmit fiber, and of each campus bank, with enough such ports to cross the floor, with
the value of R491. -/
def Dev.bootFibers (d : Dev) : List (Nat × Nat) :=
  let crossed := fun (l : List Nat) (e f most : Nat) =>
    let n := (l.filter d.bootBad).length
    if most < n then [(l.headD 0, e * 65536 + f * 256 + n)] else []
  (List.range 64).flatMap (fun i => crossed (fiberPorts (i / 4) (i % 4)) (i / 4) (i % 4) 2) ++
  [0, 15].flatMap fun e => crossed ((bankPorts e).filter fun q => isCampus (d.port q).mode) e 4 4

/-- Floors that are crossed after self-test are reported in BOOT (R491).  DEDUCED, log entry 124. -/
def Dev.checkFloors (d : Dev) : Dev :=
  let d1 := (d.checkCores 0).checkStore 0
  match d.bootFibers.head? with
  | some x => d1.crossFloor 3 x.2 7 x.1
  | none => d1

/-- BOOT_APPLY_COMPLETE (R466). -/
def execBootApplyComplete (s : State) : Host.Outcome State Fault Refusal :=
  let d := s.d
  goto s <|
    match d.boot.cfg with
    | none => d
    | some c =>
      if !d.awake || !d.svRuns 0 || d.boot.st ≠ .boot || !d.boot.imgOk then d
      else
        let d1 := (((((d.applyRole c).applyMemory c).applyOptics c).checkFloors).applyFabric.applyPlan c).applyAccess c
        (d1.applyRest c).enterReady c

/-! ### IMAGE_LOAD (R460, R462, R477) -/

/-- The source is the path that BOOT_SRC names. -/
def imagePath (bootSrc : BitVec 2) (src : Source) : Bool :=
  match bootSrc.toNat with
  | 1 => src == .howlink
  | 2 => src != .howlink
  | 3 => true
  | _ => false

/-- An image may leave SAFE_TALK: no FATAL result stands, and an owner slot is VALID (R454, R463). -/
def Dev.bootable (d : Dev) : Bool := d.boot.cause != causeFatal && !d.fuses.validOwners.isEmpty

/-- Loads bytes; a complete image with LAST = 1 is present from then on.  DEDUCED, log entry 118. -/
def Dev.loadImage (d : Dev) (src : Source) (o : Nat) (last : Bool) (bytes : List Byte) : Dev :=
  let t := putImage d.boot.image o bytes
  let holder := if o = 0 && d.boot.imgSource.isNone then some src else d.boot.imgSource
  { d with boot := { d.boot with
    image := t, imgSource := holder, imgLast := last && imageLoaded t && d.bootable } }

/-- IMAGE_LOAD: BOOT begins after the reply (R462).  DEDUCED, log entry 118. -/
def execImageLoad (c : CmdCtx) (offset : Word) (last : Bool) (bytes : List Byte) (s : State) :
    Host.Outcome State Fault Refusal :=
  let cls : PrivClass := if c.src = .howlink then .operator else .owner
  let d := s.d.runCmd (.imageLoad c offset last bytes) c 0x0B02 cls <| needs 0 fun d =>
    let other := match d.boot.imgSource with
      | some x => x != c.src
      | none => false
    if d.boot.st ≠ .safeTalk || !imagePath d.boot.bootSrc c.src then answer d .denied
    else if 4080 < bytes.length || imageMax < offset.toNat + bytes.length then answer d .badParam
    else if other then answer d .conflict
    else answer (d.loadImage c.src offset.toNat last bytes) .ok
  goto s <| if d.boot.st = .safeTalk && d.boot.imgLast then d.enterBoot else d

end Sys2Proof.Machine
end

