-- ==== Sys2Proof/Machine/Sec.lean ====
section
/-! DEFINITION. The arrival of command packets (R402 to R405), the device commands (R412), group 0x0B
(R464, R465, R477), the fuses, the heartbeat and the progress watch (R473, R489), the sensors (R544)
and the boundary-scan controller (R545). -/

namespace Sys2Proof.Machine

/-! ### Arrival (R402 to R405) -/

/-- The opcodes that the chapters define (R411), by group and low byte. -/
def opcodeDefined (op : Nat) : Bool :=
  let lo := op % 256
  let upTo := fun (n : Nat) => decide (1 ≤ lo ∧ lo ≤ n)
  match op / 256 with
  | 0x01 => upTo 7
  | 0x02 => upTo 8
  | 0x03 => upTo 8
  | 0x04 => upTo 3 || decide (0x10 ≤ lo ∧ lo ≤ 0x12) || decide (0x20 ≤ lo ∧ lo ≤ 0x2B)
  | 0x05 => upTo 5 || decide (0x10 ≤ lo ∧ lo ≤ 0x12)
  | 0x06 => upTo 8
  | 0x07 => upTo 7
  | 0x08 => upTo 7
  | 0x09 => upTo 6
  | 0x0A => upTo 4
  | 0x0B => upTo 6
  | 0x0C => upTo 6
  | _ => false

/-- Places of a source's queue (R405). -/
def queuePlaces : Nat := 64

/-- Places of a source that are held. -/
def Dev.placesHeld (d : Dev) (s : Source) : Nat := (d.cmd.places.filter fun p => p.src == s).length

/-- Answers an arriving packet at once; SV1 answers. -/
def Dev.rawAnswer (d : Dev) (a : Arrival) (st : Status) : Dev :=
  if !d.svRuns 1 || d.boot.svFail != 0 then d
  else
    let d1 := d.send (.rawReply a st)
    match a.src with
    | .howlink => d1.raiseInt 16
    | .mg0 => d1.bump (ctrMgl 0 0x108)
    | .mg1 => d1.bump (ctrMgl 1 0x108)

/-- Counts MGL_RX_ERR for the link of a source. -/
def Dev.mgSourceErr (d : Dev) : Source → Dev
  | .howlink => d
  | .mg0 => d.mgRxErr 0
  | .mg1 => d.mgRxErr 1

/-- A packet reaches the device: its path is up, and on MG0 and MG1 its session is open.
DEDUCED, log entry 46. -/
def Dev.arrives (d : Dev) (a : Arrival) : Bool :=
  d.awake && d.destUp a.src && (a.src == .howlink || (d.mgOf a.src).sessions.any fun x => x.id == a.session)

/-- COMMAND_ARRIVAL (R405).  DEDUCED, log entry 46. -/
def execCommandArrival (a : Arrival) (s : State) : Host.Outcome State Fault Refusal :=
  let d := s.d
  goto s <|
    if d.awake && d.destUp a.src && a.src != .howlink && !a.secured then d.mgSourceErr a.src
    else if !d.arrives a || a.typ ≠ 1 then d
    else if queuePlaces ≤ d.placesHeld a.src then d.rawAnswer a .busy
    else if 4096 < a.len.toNat || a.len.toNat ≠ a.bytes then d.rawAnswer a .badParam
    else if !opcodeDefined a.opcode.toNat then d.rawAnswer a .incompatible
    else
      let p : Place := { src := a.src, seq := a.seq, opcode := a.opcode.toNat, session := a.session }
      { d with cmd := { d.cmd with places := d.cmd.places ++ [p] } }

/-! ### Device commands (R412) -/

/-- The ordering code VF5120-B0 (R1), as PART and STEP of GLB_ID.  DEDUCED, log entry 122. -/
def orderingCode : Nat := 0x5120B0

/-- DEV_INFO (R412).  DEDUCED, log entry 122. -/
def execDevInfo (c : CmdCtx) (s : State) : Host.Outcome State Fault Refusal :=
  goto s <| s.d.runCmd (.devInfo c) c 0x0101 .observer fun d =>
    let b := d.boot
    answerOk d [orderingCode, d.fuses.serial.toNat, b.role.toNat, b.fwMajor.toNat, b.fwMinor.toNat,
      b.system.toNat, b.chassis.toNat, b.slot.toNat]

/-- A source's transaction ID and state. -/
def Dev.txnFields (d : Dev) (s : Source) : List Nat :=
  match d.shownTxn s with
  | some t => [t.id.toNat, t.st.code]
  | none => [0, 0]

/-- DEV_STATE (R412). -/
def execDevState (c : CmdCtx) (s : State) : Host.Outcome State Fault Refusal :=
  goto s <| s.d.runCmd (.devState c) c 0x0102 .observer fun d =>
    answerOk d ([d.boot.st.code, d.boot.cause.toNat, d.boot.heartbeat.toNat] ++
      [Source.howlink, .mg0, .mg1].flatMap d.txnFields)

/-- DEV_RESET: the reply comes before the reset (R412). -/
def execDevReset (c : CmdCtx) (delayUs : Word) (s : State) : Host.Outcome State Fault Refusal :=
  let d := s.d.runCmd (.devReset c delayUs) c 0x0103 .owner fun d =>
    if 1000000 < delayUs.toNat then answer d .badParam
    else answer { d with boot := { d.boot with resetAt := some (d.now + delayUs.toNat * clkUs) } } .ok
  let runs := decide (s.d.gate c 0x0103 .owner = .run) && s.d.mayBegin c (.devReset c delayUs)
  goto s <| if runs && delayUs = 0 then d.enterReset else d

/-- DEV_ROLE: without a value it reads (R412). -/
def execDevRole (c : CmdCtx) (role : Option (BitVec 2)) (s : State) : Host.Outcome State Fault Refusal :=
  let cls : PrivClass := if role.isSome then .owner else .observer
  goto s <| s.d.runCmd (.devRole c role) c 0x0104 cls fun d =>
    match role with
    | none => answerOk d [(d.boot.roleOverride.getD d.boot.role).toNat]
    | some r =>
      if r = 3 then answer d .badParam
      else if d.boot.st = .safeTalk then
        answerOk { d with boot := { d.boot with roleOverride := some r } } [r.toNat]
      else if r = d.boot.role then answerOk d [r.toNat]
      else answer d .denied

/-- DEV_ADMIT: READY to RUN (R467). -/
def execDevAdmit (c : CmdCtx) (s : State) : Host.Outcome State Fault Refusal :=
  goto s <| s.d.runCmd (.devAdmit c) c 0x0105 .operator fun d =>
    if d.boot.st = .ready then answer { d with boot := { d.boot with st := .run } } .ok
    else answer d .denied

/-- The destination of DEV_EVENT_MASK, by the SOURCE codes of R402. -/
def destOf (b : Byte) : Option Source :=
  match b.toNat with
  | 1 => some .howlink
  | 2 => some .mg0
  | 3 => some .mg1
  | _ => none

/-- DEV_EVENT_MASK (R412). -/
def execDevEventMask (c : CmdCtx) (dest : Byte) (mask : BitVec 16) (s : State) :
    Host.Outcome State Fault Refusal :=
  goto s <| s.d.runCmd (.devEventMask c dest mask) c 0x0106 .operator fun d =>
    match destOf dest with
    | some x => answer (d.setEvDest x { d.evDest x with mask := mask }) .ok
    | none => answer d .badParam

/-- DEV_NOP (R412). -/
def execDevNop (c : CmdCtx) (bytes : List Byte) (s : State) : Host.Outcome State Fault Refusal :=
  goto s <| s.d.runCmd (.devNop c bytes) c 0x0107 .observer fun d =>
    if 4096 < bytes.length then answer d .badParam else (d, some (.ok, .bytes bytes))

/-! ### Security (R464, R465, R477) -/

/-- SEC_READ: SEC_BOOT_STATUS, slot hashes and states, the counter, the image's SVN and hashes (R477). -/
def execSecRead (c : CmdCtx) (s : State) : Host.Outcome State Fault Refusal :=
  goto s <| s.d.runCmd (.secRead c) c 0x0B01 .observer fun d =>
    let slots := [0, 1, 2, 3].flatMap fun n => [(d.fuses.owner n).2.toNat, (d.fuses.owner n).1.toNat]
    answerOk d ([d.bootStatusReg] ++ slots ++
      [d.fuses.rollback, d.boot.svn.toNat, d.boot.fwHash.toNat, d.boot.cfgHash.toNat])

/-- SEC_OWNER_ENROLL: Howlink may enrol while the cause is NO_OWNER; the image comes after.  The slot's fuses are
blown, its VALID fuse last, until the next clock (R464).  The owners' keys and their fuses are SV0's (R23).
DEDUCED, log entries 119 and 142. -/
def execSecOwnerEnroll (c : CmdCtx) (hash : BitVec 256) (s : State) : Host.Outcome State Fault Refusal :=
  let noOwner := s.d.boot.st = .safeTalk && s.d.boot.cause = causeNoOwner
  let cls : PrivClass := if c.src = .howlink && noOwner then .operator else .owner
  goto s <| s.d.runCmd (.secOwnerEnroll c hash) c 0x0B03 cls <| needs 0 fun d =>
    match [0, 1, 2, 3].find? fun n => (d.fuses.owner n).1 == 0 with
    | none => answer d .noSpace
    | some n =>
      let cause := if noOwner then waitCause d.boot.bootSrc else d.boot.cause
      let d1 := { d with
        fuses := d.fuses.setOwner n (1, hash), boot := { d.boot with cause := cause, enrolling := some n } }
      answerOk (d1.event (.ownerChanged n 1)) [n]

/-- SEC_OWNER_REVOKE (R464). -/
def execSecOwnerRevoke (c : CmdCtx) (slot : Byte) (s : State) : Host.Outcome State Fault Refusal :=
  goto s <| s.d.runCmd (.secOwnerRevoke c slot) c 0x0B04 .owner <| needs 0 fun d =>
    let n := slot.toNat
    let x := d.fuses.owner n
    if 4 ≤ n || x.1 ≠ 1 then answer d .notFound
    else if d.fuses.validOwners.length = 1 || (d.boot.imgOk && x.2 == d.boot.ownerKeyHash) then answer d .conflict
    else answer (({ d with fuses := d.fuses.setOwner n (2, x.2) }).event (.ownerChanged n 2)) .ok

/-- SEC_ROLLBACK_SET: the reply waits for the last fuse (R465). -/
def execSecRollbackSet (c : CmdCtx) (value : Byte) (s : State) : Host.Outcome State Fault Refusal :=
  goto s <| s.d.runCmd (.secRollbackSet c value) c 0x0B05 .owner <| needs 0 fun d =>
    let v := value.toNat
    if d.boot.st ≠ .run then answer d .denied
    else if 64 < v || d.boot.svn.toNat < v then answer d .badParam
    else if v ≤ d.fuses.rollback then answer d .ok
    else Dev.holdReply { d with boot := { d.boot with rollTarget := max v d.boot.rollTarget } } c 0x0B05 .fuses

/-- FUSE_BLOW_TICK: one more fuse is blown; after the last one the command ends (R465). -/
def execFuseBlowTick (s : State) : Host.Outcome State Fault Refusal :=
  let d := s.d
  let n := d.fuses.rollback + 1
  let d1 := { d with fuses := { d.fuses with rollback := n } }
  goto s <|
    if !d.awake || !d.svRuns 0 || d.boot.rollTarget ≤ d.fuses.rollback then d
    else if n = d.boot.rollTarget then (d1.finishFor .fuses .ok .empty).event (.rollbackAdvanced n)
    else d1

/-- A byte of the identity certificate, or of the alias certificate, which each BOOT signs anew with the identity key
(R469); and their lengths. -/
def Dev.certByte (d : Dev) (alias_ : Bool) (i : Nat) : Byte :=
  Config.certByte alias_ d.fuses.identityKey (if alias_ then d.boot.aliasKey else 0) i
def Dev.certLen (d : Dev) (alias_ : Bool) : Nat :=
  Config.certLen alias_ d.fuses.identityKey (if alias_ then d.boot.aliasKey else 0)

/-- SEC_CERT_READ: the bytes from an offset that the certificate has (R477). -/
def execSecCertRead (c : CmdCtx) (alias_ : Bool) (offset count : BitVec 16) (s : State) :
    Host.Outcome State Fault Refusal :=
  goto s <| s.d.runCmd (.secCertRead c alias_ offset count) c 0x0B06 .observer fun d =>
    let n := min count.toNat (d.certLen alias_ - offset.toNat)
    if 4096 < count.toNat then answer d .badParam
    else (d, some (.ok, .bytes ((List.range n).map fun i => d.certByte alias_ (offset.toNat + i))))

/-! ### Firmware's progress (R473, R489) -/

/-- HEARTBEAT_TICK (R473). -/
def execHeartbeatTick (s : State) : Host.Outcome State Fault Refusal :=
  let d := s.d
  let on := match d.boot.st with
    | .powerOn | .selfTest => false
    | _ => true
  goto s <|
    if d.awake && on && d.boot.svStopped = 0 then { d with boot := { d.boot with heartbeat := d.boot.heartbeat + 1 } }
    else d

/-- PROGRESS_WATCH_TIMEOUT: SV1 watches the others and records a stop; of its own stop no record is left (R489). -/
def execProgressWatchTimeout (sv : Fin 4) (s : State) : Host.Outcome State Fault Refusal :=
  let d := s.d
  let d1 := { d with boot := { d.boot with svStopped := d.boot.svStopped ||| BitVec.ofNat 4 (1 <<< sv.val) } }
  goto s <|
    if !d.awake || !d.svRuns sv.val then d
    else if sv.val ≠ 1 && !d.svRuns 1 then d
    else if sv.val = 1 then d1
    else d1.recordFault 6 0x0D sv.val 0 0 0 0

/-! ### Sensors and boundary scan (R544, R545) -/

/-- THERMAL_SENSOR_SCAN, in every state (R544).  DESIGN CHOICE, log entry 43. -/
def execThermalSensorScan (temps : List Int) (s : State) : Host.Outcome State Fault Refusal :=
  let d := s.d
  let hot := temps.any fun t => 110 ≤ t
  let cool := temps.all fun t => t < 105
  let low := if hot then true else if cool then false else d.clk.thermLow
  goto s { d with clk := { d.clk with temps := temps, thermLow := low } }

/-- The next state of the IEEE 1149.1 controller by TMS, with the states numbered 0 Test-Logic-Reset,
1 Run-Test/Idle, 2 to 8 the seven of the data column and 9 to 15 those of the instruction column.
PRESUMED, log entry 9. -/
def tapNext (st : Nat) (tms : Bool) : Nat :=
  match st with
  | 0 => if tms then 0 else 1
  | 1 => if tms then 2 else 1
  | 2 => if tms then 9 else 3
  | 3 => if tms then 5 else 4
  | 4 => if tms then 5 else 4
  | 5 => if tms then 8 else 6
  | 6 => if tms then 7 else 6
  | 7 => if tms then 8 else 4
  | 8 => if tms then 2 else 1
  | 9 => if tms then 0 else 10
  | 10 => if tms then 12 else 11
  | 11 => if tms then 12 else 11
  | 12 => if tms then 15 else 13
  | 13 => if tms then 14 else 13
  | 14 => if tms then 15 else 11
  | _ => if tms then 2 else 1

/-- The instruction that test reset selects: all ones, the bypass register.  PRESUMED, log entry 9. -/
def tapBypass : Byte := 0xFF#8

/-- A rising edge of TCK: capture or shift, then the next state. -/
def Clk.tapRise (k : Clk) (now : Nat) (tms tdi : Bool) : Clk :=
  let boundary := k.tapIr != tapBypass && Config.scanSelects k.tapIr
  let inBit : Nat := tdi.toNat
  let dr : Dword := match k.tap.toNat with
    | 3 => if boundary then Config.scanCapture now else 0
    | 4 => if boundary then (k.tapDr >>> 1) ||| BitVec.ofNat 64 (inBit <<< 63) else BitVec.ofNat 64 inBit
    | 10 => 1
    | 11 => BitVec.ofNat 64 (k.tapDr.toNat % 256 / 2 + inBit * 128)
    | _ => k.tapDr
  { k with tapDr := dr, tap := BitVec.ofNat 4 (tapNext k.tap.toNat tms) }

/-- A falling edge of TCK: TDO moves in the shift states, the instruction is updated, and an instruction that drives
the lands does so with what the boundary register was last updated to (R545).  PRESUMED, log entry 9. -/
def Clk.tapFall (k : Clk) : Clk :=
  let out := if k.tap = 4 || k.tap = 11 then k.tapDr.getLsbD 0 else k.tdo
  let ir := if k.tap = 15 then BitVec.ofNat 8 k.tapDr.toNat else if k.tap = 0 then tapBypass else k.tapIr
  let drives := ir != tapBypass && Config.scanSelects ir && Config.scanDrives ir
  let lands := if !drives then none else if k.tap = 8 then some k.tapDr else k.lands
  { k with tdo := out, tapIr := ir, lands := lands }

/-- TCK_EDGE: TRST_N low holds the controller in Test-Logic-Reset (R545). -/
def execTckEdge (trstN rising tms tdi : Bool) (s : State) : Host.Outcome State Fault Refusal :=
  let d := s.d
  let k := if !trstN then { d.clk with tap := 0, tapIr := tapBypass, lands := none }
    else if rising then d.clk.tapRise d.now tms tdi
    else d.clk.tapFall
  goto s { d with clk := k }

end Sys2Proof.Machine
end

