-- ==== Sys2Proof/Machine/Spdm.lean ====
section
/-! DEFINITION. The SPDM 1.2 responder of MG0 and MG1 (R410, R468, R469).  The spec names the protocol and
its parts; the codes of responses and errors are those of DMTF DSP0274 1.2 (log entry 121).  Signatures,
exchange data and digests of certificates are free values. -/

namespace Sys2Proof.Machine

/-! ### Responses -/

/-- Error codes of DSP0274.  PRESUMED, log entry 121. -/
def spdmInvalid : Nat := 0x01
def spdmUnexpected : Nat := 0x04
def spdmDecrypt : Nat := 0x06
def spdmUnsupported : Nat := 0x07
def spdmSessionLimit : Nat := 0x0A

/-- Sends a response on a link.  PRESUMED, log entry 121. -/
def Dev.spdmSend (d : Dev) (m code : Nat) (fields : List Nat) : Dev :=
  (d.send (.spdm m code fields)).bump (ctrMgl m 0x108)

/-- Sends the ERROR response. -/
def Dev.spdmError (d : Dev) (m err : Nat) : Dev := d.spdmSend m 0x7F [err]

/-- A session of the link that carries a request: 0 is outside any session. -/
def MgLink.session? (x : MgLink) (id : Byte) : Option Session := x.sessions.find? fun s => s.id == id

/-- A request reaches the responder: SV0 runs, the link is ACTIVE, and a session that it names is open. -/
def Dev.spdmOpen (d : Dev) (s : SpdmCtx) : Bool :=
  d.awake && d.svRuns 0 && d.boot.svFail == 0 && (d.mg s.link.val).st == 5 &&
  (s.session == 0 || ((d.mg s.link.val).session? s.session).isSome)

/-- Runs a request once the negotiation has gone `need` steps; a request outside the twelve is not supported (R468). -/
def Dev.spdmRun (d : Dev) (s : SpdmCtx) (need : Nat) (f : Dev → Dev) : Dev :=
  if !d.spdmOpen s then d
  else if s.other.isSome then d.spdmError s.link.val spdmUnsupported
  else if (d.mg s.link.val).spdm < need then d.spdmError s.link.val spdmUnexpected
  else f d

/-- Sets how far the negotiation has gone. -/
def Dev.spdmStep (d : Dev) (m n : Nat) : Dev := d.setMg m { d.mg m with spdm := n }

/-! ### Negotiation -/

/-- GET_VERSION: 1.2 only; the negotiation starts (R468). -/
def execGetVersion (s : SpdmCtx) (st : State) : Host.Outcome State Fault Refusal :=
  goto st <| st.d.spdmRun s 0 fun d => (d.spdmStep s.link.val 1).spdmSend s.link.val 0x04 [0x12]

/-- GET_CAPABILITIES (R468). -/
def execGetCapabilities (s : SpdmCtx) (st : State) : Host.Outcome State Fault Refusal :=
  goto st <| st.d.spdmRun s 1 fun d => (d.spdmStep s.link.val 2).spdmSend s.link.val 0x61 []

/-- NEGOTIATE_ALGORITHMS: the four algorithms of R468, or UnsupportedRequest. -/
def execNegotiateAlgorithms (s : SpdmCtx) (p256 sha256 ecdhe aesGcm : Bool) (st : State) :
    Host.Outcome State Fault Refusal :=
  goto st <| st.d.spdmRun s 2 fun d =>
    if p256 && sha256 && ecdhe && aesGcm then (d.spdmStep s.link.val 3).spdmSend s.link.val 0x63 []
    else d.spdmError s.link.val spdmUnsupported

/-! ### Certificates and measurements (R469) -/

/-- A response that ends in one free value: a digest, a signature, or exchange data. -/
def Dev.spdmFree (d : Dev) (m code : Nat) (fields : List Nat) : Dev :=
  let r := d.draw
  r.2.spdmSend m code (fields ++ [r.1.toNat])

/-- GET_DIGESTS: slot 0 only (R468). -/
def execGetDigests (s : SpdmCtx) (st : State) : Host.Outcome State Fault Refusal :=
  goto st <| st.d.spdmRun s 3 fun d => d.spdmFree s.link.val 0x01 [1]

/-- The certificates below the vendor root: identity, then alias. -/
def Dev.chainByte (d : Dev) (i : Nat) : Byte :=
  let n := d.certLen false
  if i < n then d.certByte false i else d.certByte true (i - n)

/-- Their length. -/
def Dev.chainLen (d : Dev) : Nat := d.certLen false + d.certLen true

/-- GET_CERTIFICATE: slot 0 only; the reply gives the portion, what remains, and the bytes (R468). -/
def execGetCertificate (s : SpdmCtx) (slot : Byte) (offset len : BitVec 16) (st : State) :
    Host.Outcome State Fault Refusal :=
  goto st <| st.d.spdmRun s 3 fun d =>
    let o := offset.toNat
    let n := min len.toNat (d.chainLen - o)
    if slot ≠ 0 then d.spdmError s.link.val spdmUnsupported
    else d.spdmSend s.link.val 0x02
      ([0, n, d.chainLen - o - n] ++ (List.range n).map fun i => (d.chainByte (o + i)).toNat)

/-- CHALLENGE: slot 0 only (R468). -/
def execChallenge (s : SpdmCtx) (slot : Byte) (nonce : BitVec 256) (st : State) :
    Host.Outcome State Fault Refusal :=
  goto st <| st.d.spdmRun s 3 fun d =>
    if slot ≠ 0 then d.spdmError s.link.val spdmUnsupported else d.spdmFree s.link.val 0x03 [0, nonce.toNat]

/-- A measurement block by index. -/
def Dev.measurement (d : Dev) (i : Nat) : List Nat :=
  match i with
  | 1 => [Config.bootRomHash.toNat]
  | 2 => [d.boot.fwHash.toNat]
  | 3 => [d.boot.cfgHash.toNat]
  | 4 => [d.boot.svn.toNat, d.fuses.rollback]
  | 5 => [0, 1, 2, 3].flatMap fun n => [(d.fuses.owner n).2.toNat, (d.fuses.owner n).1.toNat]
  | 6 => (List.range 8).flatMap fun n =>
    let x := Tab.get d.boot.items n {}
    [x.repaired, x.degraded, x.fatal]
  | _ => []

/-- The blocks that an index names: 0 asks for their count, 0xFF for all. -/
def Dev.measurements (d : Dev) (i : Nat) : Option (List Nat) :=
  if i = 0 then some [6]
  else if i = 0xFF then some ([1, 2, 3, 4, 5, 6].flatMap fun n => n :: d.measurement n)
  else if i ≤ 6 then some (i :: d.measurement i)
  else none

/-- GET_MEASUREMENTS (R469). -/
def execGetMeasurements (s : SpdmCtx) (index : Byte) (signed : Bool) (nonce : BitVec 256) (st : State) :
    Host.Outcome State Fault Refusal :=
  goto st <| st.d.spdmRun s 3 fun d =>
    match d.measurements index.toNat with
    | none => d.spdmError s.link.val spdmInvalid
    | some l => if signed && s.slot != 0 then d.spdmError s.link.val spdmUnsupported
      else if signed then d.spdmFree s.link.val 0x60 (l ++ [nonce.toNat]) else d.spdmSend s.link.val 0x60 l

/-! ### Sessions (R410, R468) -/

/-- Sessions that a link holds at most. -/
def maxSessions : Nat := 4

/-- A command of an earlier session of the link still stands under this number: its reply is to be discarded,
so that no new session may take the number (R388). -/
def Dev.idStands (d : Dev) (m : Nat) (n : Byte) : Bool :=
  (d.cmd.held.any fun h => h.c.src == mgSource m && h.c.session == n) ||
  (d.cmd.places.any fun p => p.src == mgSource m && p.session == n) ||
  d.cmd.behind.any fun i => match Instr.ctx? i with
    | some c => c.src == mgSource m && c.session == n
    | none => false

/-- The lowest session number that is not in use and under which no earlier command stands. -/
def Dev.freeId (d : Dev) (m : Nat) : Byte :=
  match (List.range 255).find? fun i =>
    ((d.mg m).session? (BitVec.ofNat 8 (i + 1))).isNone && !d.idStands m (BitVec.ofNat 8 (i + 1)) with
  | some i => BitVec.ofNat 8 (i + 1)
  | none => 0

/-- KEY_EXCHANGE: slot 0 only, and a fifth session is answered SessionLimitExceeded (R468). -/
def execKeyExchange (s : SpdmCtx) (random : BitVec 256) (point : BitVec 512) (st : State) :
    Host.Outcome State Fault Refusal :=
  goto st <| st.d.spdmRun s 3 fun d =>
    let x := d.mg s.link.val
    if s.slot != 0 then d.spdmError s.link.val spdmUnsupported
    else if maxSessions ≤ x.sessions.length then d.spdmError s.link.val spdmSessionLimit
    else
      let id := d.freeId s.link.val
      let d1 := d.setMg s.link.val { x with sessions := x.sessions ++ [{ id := id }] }
      d1.spdmFree s.link.val 0x64 [id.toNat, random.toNat, point.toNat]

/-- The class of a requester by its public key: an owner slot, then from READY the image's table. -/
def Dev.requesterClass (d : Dev) (key : BitVec 512) : Option PrivClass :=
  let h := sha256 (beBytes 64 key.toNat)
  if (d.fuses.ownerOf h).isSome then some .owner
  else if d.serving then (d.boot.requesters.find? fun r => r.1 == h).map Prod.snd
  else none

/-- Ends a session: its queued commands are discarded. -/
def Dev.endSession (d : Dev) (m : Nat) (id : Byte) : Dev :=
  let x := d.mg m
  let src := mgSource m
  let d1 := d.setMg m { x with sessions := x.sessions.filter fun s => s.id != id }
  { d1 with cmd := { d1.cmd with
    places := d1.cmd.places.filter fun p => !(p.src == src && p.session == id) ||
      d1.cmd.held.any (fun h => h.c.src == src && h.c.seq == p.seq && h.opcode == p.opcode) } }

/-- FINISH: the class is fixed; an unverified or unknown requester is refused (R468). -/
def execFinish (s : SpdmCtx) (key : BitVec 512) (verified : Bool) (st : State) :
    Host.Outcome State Fault Refusal :=
  goto st <| st.d.spdmRun s 3 fun d =>
    let m := s.link.val
    let x := d.mg m
    match x.session? s.session with
    | none => d.spdmError m spdmUnexpected
    | some y =>
      if y.cls.isSome then d.spdmError m spdmUnexpected
      else if !verified then (d.endSession m s.session).spdmError m spdmDecrypt
      else match d.requesterClass key with
        | none => (d.endSession m s.session).spdmError m spdmInvalid
        | some k =>
          let l := x.sessions.map fun z => if z.id == s.session then { z with cls := some k } else z
          (d.setMg m { x with sessions := l }).spdmSend m 0x65 []

/-- Runs a request that needs an established session. -/
def Dev.inSession (d : Dev) (s : SpdmCtx) (f : Dev → Dev) : Dev :=
  d.spdmRun s 3 fun d =>
    match (d.mg s.link.val).session? s.session with
    | some y => if y.cls.isSome then f d else d.spdmError s.link.val spdmUnexpected
    | none => d.spdmError s.link.val spdmUnexpected

/-- HEARTBEAT (R468). -/
def execHeartbeat (s : SpdmCtx) (st : State) : Host.Outcome State Fault Refusal :=
  goto st <| st.d.inSession s fun d => d.spdmSend s.link.val 0x68 []

/-- KEY_UPDATE: 1 and 2 take new keys, 3 verifies them (R468). -/
def execKeyUpdate (s : SpdmCtx) (op : Byte) (st : State) : Host.Outcome State Fault Refusal :=
  goto st <| st.d.inSession s fun d =>
    let m := s.link.val
    let x := d.mg m
    let l := x.sessions.map fun z => if z.id == s.session then { z with keyGen := z.keyGen + 1 } else z
    if op = 1 || op = 2 then (d.setMg m { x with sessions := l }).spdmSend m 0x69 [op.toNat]
    else if op = 3 then d.spdmSend m 0x69 [3]
    else d.spdmError m spdmInvalid

/-- END_SESSION (R468). -/
def execEndSession (s : SpdmCtx) (st : State) : Host.Outcome State Fault Refusal :=
  goto st <| st.d.inSession s fun d => (d.spdmSend s.link.val 0x6C []).endSession s.link.val s.session

end Sys2Proof.Machine
end

