-- ==== Sys2Proof/Machine/Dispatch.lean ====
section
/-! DEFINITION. The dispatch: one arm per command. -/

namespace Sys2Proof.Machine

def exec (i : Instr) (s : State) : Host.Outcome State Fault Refusal :=
  match i with
  | .resetNAssert => Sys2Proof.Machine.execResetNAssert s
  | .resetNRelease => Sys2Proof.Machine.execResetNRelease s
  | .howlinkResetMessage => Sys2Proof.Machine.execHowlinkResetMessage s
  | .devResetDelayExpiry => Sys2Proof.Machine.execDevResetDelayExpiry s
  | .internalResetRelease => Sys2Proof.Machine.execInternalResetRelease s
  | .railOutOfRegulation => Sys2Proof.Machine.execRailOutOfRegulation s
  | .powerOnComplete bootSrc => Sys2Proof.Machine.execPowerOnComplete bootSrc s
  | .howlinkTrainingComplete r => Sys2Proof.Machine.execHowlinkTrainingComplete r s
  | .selfTestComplete r => Sys2Proof.Machine.execSelfTestComplete r s
  | .flashImageReadComplete bytes => Sys2Proof.Machine.execFlashImageReadComplete bytes s
  | .imageCheckComplete cfg => Sys2Proof.Machine.execImageCheckComplete cfg s
  | .bootApplyComplete => Sys2Proof.Machine.execBootApplyComplete s
  | .refclkLoss => Sys2Proof.Machine.execRefclkLoss s
  | .pllLockLoss p => Sys2Proof.Machine.execPllLockLoss p s
  | .thermalSensorScan temps => Sys2Proof.Machine.execThermalSensorScan temps s
  | .ppsInEdge => Sys2Proof.Machine.execPpsInEdge s
  | .secondsCarry => Sys2Proof.Machine.execSecondsCarry s
  | .ppsWidthEnd => Sys2Proof.Machine.execPpsWidthEnd s
  | .fuseBlowTick => Sys2Proof.Machine.execFuseBlowTick s
  | .commandArrival a => Sys2Proof.Machine.execCommandArrival a s
  | .devInfo c => Sys2Proof.Machine.execDevInfo c s
  | .devState c => Sys2Proof.Machine.execDevState c s
  | .devReset c delayUs => Sys2Proof.Machine.execDevReset c delayUs s
  | .devRole c role => Sys2Proof.Machine.execDevRole c role s
  | .devAdmit c => Sys2Proof.Machine.execDevAdmit c s
  | .devEventMask c dest mask => Sys2Proof.Machine.execDevEventMask c dest mask s
  | .devNop c bytes => Sys2Proof.Machine.execDevNop c bytes s
  | .begin_ c scope idleS drainMs => Sys2Proof.Machine.execBegin c scope idleS drainMs s
  | .commit c => Sys2Proof.Machine.execCommit c s
  | .rollback c => Sys2Proof.Machine.execRollback c s
  | .txnStatus c who => Sys2Proof.Machine.execTxnStatus c who s
  | .commitReady => Sys2Proof.Machine.execCommitReady s
  | .commitFlip => Sys2Proof.Machine.execCommitFlip s
  | .transactionIdleExpiry src => Sys2Proof.Machine.execTransactionIdleExpiry src s
  | .drainWaitTimeout src txn => Sys2Proof.Machine.execDrainWaitTimeout src txn s
  | .enableDrainEnd p => Sys2Proof.Machine.execEnableDrainEnd p s
  | .enableWaitTimeout p => Sys2Proof.Machine.execEnableWaitTimeout p s
  | .planSet c p => Sys2Proof.Machine.execPlanSet c p s
  | .planRead c port => Sys2Proof.Machine.execPlanRead c port s
  | .planGroup c p => Sys2Proof.Machine.execPlanGroup c p s
  | .portMapSet c p => Sys2Proof.Machine.execPortMapSet c p s
  | .portMapRead c engine => Sys2Proof.Machine.execPortMapRead c engine s
  | .portRestart c port immediate => Sys2Proof.Machine.execPortRestart c port immediate s
  | .portPrbs c port pat => Sys2Proof.Machine.execPortPrbs c port pat s
  | .portRead c port => Sys2Proof.Machine.execPortRead c port s
  | .optPortMode c p => Sys2Proof.Machine.execOptPortMode c p s
  | .optBandSet c engine terminate => Sys2Proof.Machine.execOptBandSet c engine terminate s
  | .bandSwitchSettled e => Sys2Proof.Machine.execBandSwitchSettled e s
  | .optCampusFreq c p => Sys2Proof.Machine.execOptCampusFreq c p s
  | .optRead c engine => Sys2Proof.Machine.execOptRead c engine s
  | .optLaserRef c engine laser value => Sys2Proof.Machine.execOptLaserRef c engine laser value s
  | .optSwap c port => Sys2Proof.Machine.execOptSwap c port s
  | .optRelock c port => Sys2Proof.Machine.execOptRelock c port s
  | .optLightRead c engine => Sys2Proof.Machine.execOptLightRead c engine s
  | .search c k => Sys2Proof.Machine.execSearch c k s
  | .nextWalk c table cursor part count => Sys2Proof.Machine.execNextWalk c table cursor part count s
  | .flushByPort c port part => Sys2Proof.Machine.execFlushByPort c port part s
  | .emInsert c p => Sys2Proof.Machine.execEmInsert c p s
  | .emDelete c key => Sys2Proof.Machine.execEmDelete c key s
  | .rehash c seed => Sys2Proof.Machine.execRehash c seed s
  | .routeSet c p => Sys2Proof.Machine.execRouteSet c p s
  | .groupSet c p => Sys2Proof.Machine.execGroupSet c p s
  | .partSet c p => Sys2Proof.Machine.execPartSet c p s
  | .portsetSet c p => Sys2Proof.Machine.execPortsetSet c p s
  | .learnPeers c peers => Sys2Proof.Machine.execLearnPeers c peers s
  | .mirrorSet c p => Sys2Proof.Machine.execMirrorSet c p s
  | .partReserve c p => Sys2Proof.Machine.execPartReserve c p s
  | .shaperSet c p => Sys2Proof.Machine.execShaperSet c p s
  | .groupShaperSet c p => Sys2Proof.Machine.execGroupShaperSet c p s
  | .policerSet c p => Sys2Proof.Machine.execPolicerSet c p s
  | .policerMap c p => Sys2Proof.Machine.execPolicerMap c p s
  | .policerRead c policer => Sys2Proof.Machine.execPolicerRead c policer s
  | .ctxSet c p => Sys2Proof.Machine.execCtxSet c p s
  | .ctxClose c ctx => Sys2Proof.Machine.execCtxClose c ctx s
  | .ctxReform c p => Sys2Proof.Machine.execCtxReform c p s
  | .ctxResize c p => Sys2Proof.Machine.execCtxResize c p s
  | .ctxRead c ctx => Sys2Proof.Machine.execCtxRead c ctx s
  | .sheafSet c p => Sys2Proof.Machine.execSheafSet c p s
  | .sheafRead c n => Sys2Proof.Machine.execSheafRead c n s
  | .sheafClose c n => Sys2Proof.Machine.execSheafClose c n s
  | .thrJobSet c p => Sys2Proof.Machine.execThrJobSet c p s
  | .thrJobClose c j => Sys2Proof.Machine.execThrJobClose c j s
  | .thrParamSet c p => Sys2Proof.Machine.execThrParamSet c p s
  | .thrShardSet c p => Sys2Proof.Machine.execThrShardSet c p s
  | .thrShardClose c x => Sys2Proof.Machine.execThrShardClose c x s
  | .thrShardRole c p => Sys2Proof.Machine.execThrShardRole c p s
  | .thrRead c isShard ix => Sys2Proof.Machine.execThrRead c isShard ix s
  | .thrMapRead c shard first count => Sys2Proof.Machine.execThrMapRead c shard first count s
  | .memRegionSet c p => Sys2Proof.Machine.execMemRegionSet c p s
  | .memRegionRead c => Sys2Proof.Machine.execMemRegionRead c s
  | .memPageRetire c addr => Sys2Proof.Machine.execMemPageRetire c addr s
  | .memPageList c first count => Sys2Proof.Machine.execMemPageList c first count s
  | .memExpSwap c port => Sys2Proof.Machine.execMemExpSwap c port s
  | .memSlotRestored c shard j phase => Sys2Proof.Machine.execMemSlotRestored c shard j phase s
  | .memStatus c => Sys2Proof.Machine.execMemStatus c s
  | .timeRead c => Sys2Proof.Machine.execTimeRead c s
  | .timeStep c sec ns force => Sys2Proof.Machine.execTimeStep c sec ns force s
  | .timeAdjust c offset => Sys2Proof.Machine.execTimeAdjust c offset s
  | .timeRateSet c rate => Sys2Proof.Machine.execTimeRateSet c rate s
  | .ptpSet c l0 l1 domA domB autoSwitch => Sys2Proof.Machine.execPtpSet c l0 l1 domA domB autoSwitch s
  | .ptpDomainSelect c b => Sys2Proof.Machine.execPtpDomainSelect c b s
  | .launchRead c port => Sys2Proof.Machine.execLaunchRead c port s
  | .cntQueueRead c q => Sys2Proof.Machine.execCntQueueRead c q s
  | .cntPartRead c part => Sys2Proof.Machine.execCntPartRead c part s
  | .gleanSet c ctl filt => Sys2Proof.Machine.execGleanSet c ctl filt s
  | .gleanArm c arm => Sys2Proof.Machine.execGleanArm c arm s
  | .gleanRead c first count => Sys2Proof.Machine.execGleanRead c first count s
  | .cntPevSet c n level event index => Sys2Proof.Machine.execCntPevSet c n level event index s
  | .secRead c => Sys2Proof.Machine.execSecRead c s
  | .imageLoad c offset last bytes => Sys2Proof.Machine.execImageLoad c offset last bytes s
  | .secOwnerEnroll c hash => Sys2Proof.Machine.execSecOwnerEnroll c hash s
  | .secOwnerRevoke c slot => Sys2Proof.Machine.execSecOwnerRevoke c slot s
  | .secRollbackSet c value => Sys2Proof.Machine.execSecRollbackSet c value s
  | .secCertRead c alias_ offset count => Sys2Proof.Machine.execSecCertRead c alias_ offset count s
  | .diagFaultRead c first count => Sys2Proof.Machine.execDiagFaultRead c first count s
  | .diagSpareRead c => Sys2Proof.Machine.execDiagSpareRead c s
  | .diagSelftestRead c item => Sys2Proof.Machine.execDiagSelftestRead c item s
  | .diagEolRead c => Sys2Proof.Machine.execDiagEolRead c s
  | .diagSpareForce c isBank ix => Sys2Proof.Machine.execDiagSpareForce c isBank ix s
  | .diagInject c array index word two => Sys2Proof.Machine.execDiagInject c array index word two s
  | .getVersion x => Sys2Proof.Machine.execGetVersion x s
  | .getCapabilities x => Sys2Proof.Machine.execGetCapabilities x s
  | .negotiateAlgorithms x p256 sha256 ecdhe aesGcm => Sys2Proof.Machine.execNegotiateAlgorithms x p256 sha256 ecdhe aesGcm s
  | .getDigests x => Sys2Proof.Machine.execGetDigests x s
  | .getCertificate x slot offset len => Sys2Proof.Machine.execGetCertificate x slot offset len s
  | .challenge x slot nonce => Sys2Proof.Machine.execChallenge x slot nonce s
  | .getMeasurements x index signed nonce => Sys2Proof.Machine.execGetMeasurements x index signed nonce s
  | .keyExchange x random point => Sys2Proof.Machine.execKeyExchange x random point s
  | .finish x key verified => Sys2Proof.Machine.execFinish x key verified s
  | .heartbeat x => Sys2Proof.Machine.execHeartbeat x s
  | .keyUpdate x op => Sys2Proof.Machine.execKeyUpdate x op s
  | .endSession x => Sys2Proof.Machine.execEndSession x s
  | .registerWrite a off width val => Sys2Proof.Machine.execRegisterWrite a off width val s
  | .mbxH2dPostWrite a n w => Sys2Proof.Machine.execMbxH2dPostWrite a n w s
  | .mbxD2hPostWrite a n w => Sys2Proof.Machine.execMbxD2hPostWrite a n w s
  | .mbxH2dPopRead a n => Sys2Proof.Machine.execMbxH2dPopRead a n s
  | .mbxD2hPopRead a n => Sys2Proof.Machine.execMbxD2hPopRead a n s
  | .mbxLockRead a n => Sys2Proof.Machine.execMbxLockRead a n s
  | .mbxLockWrite a n w => Sys2Proof.Machine.execMbxLockWrite a n w s
  | .mbxLockBreakWrite a w => Sys2Proof.Machine.execMbxLockBreakWrite a w s
  | .timeNowNsRead a => Sys2Proof.Machine.execTimeNowNsRead a s
  | .timePpsInNsRead a => Sys2Proof.Machine.execTimePpsInNsRead a s
  | .glbIntStatusWrite a v => Sys2Proof.Machine.execGlbIntStatusWrite a v s
  | .glbIntMaskWrite a v => Sys2Proof.Machine.execGlbIntMaskWrite a v s
  | .glbIntTestWrite a v => Sys2Proof.Machine.execGlbIntTestWrite a v s
  | .glbTxrTailWrite a n v => Sys2Proof.Machine.execGlbTxrTailWrite a n v s
  | .glbRxrTailWrite a v => Sys2Proof.Machine.execGlbRxrTailWrite a v s
  | .glbRingCtlWrite a ring v => Sys2Proof.Machine.execGlbRingCtlWrite a ring v s
  | .portLoopCtlWrite a p v => Sys2Proof.Machine.execPortLoopCtlWrite a p v s
  | .cntPevSelWrite a n v => Sys2Proof.Machine.execCntPevSelWrite a n v s
  | .cntBwCtlWrite a v => Sys2Proof.Machine.execCntBwCtlWrite a v s
  | .portBwPeakRead a p tx => Sys2Proof.Machine.execPortBwPeakRead a p tx s
  | .mglCtlWrite a m v => Sys2Proof.Machine.execMglCtlWrite a m v s
  | .storeClassCfgWrite a c v => Sys2Proof.Machine.execStoreClassCfgWrite a c v s
  | .storeResLimitWrite a v => Sys2Proof.Machine.execStoreResLimitWrite a v s
  | .fwdAgeCtlWrite a v => Sys2Proof.Machine.execFwdAgeCtlWrite a v s
  | .frameHeaderTaken p h => Sys2Proof.Machine.execFrameHeaderTaken p h s
  | .ingressOverrun p => Sys2Proof.Machine.execIngressOverrun p s
  | .tableEntryRewrite k t index => Sys2Proof.Machine.execTableEntryRewrite k t index s
  | .frameTailReceived p payload e2e link => Sys2Proof.Machine.execFrameTailReceived p payload e2e link s
  | .copySelected p => Sys2Proof.Machine.execCopySelected p s
  | .copySent p => Sys2Proof.Machine.execCopySent p s
  | .headScan => Sys2Proof.Machine.execHeadScan s
  | .tokenRefill => Sys2Proof.Machine.execTokenRefill s
  | .decayTick => Sys2Proof.Machine.execDecayTick s
  | .congestionNoticeReceived k => Sys2Proof.Machine.execCongestionNoticeReceived k s
  | .learnQueueDrain k => Sys2Proof.Machine.execLearnQueueDrain k s
  | .learnRingApply => Sys2Proof.Machine.execLearnRingApply s
  | .learnFrameReceived k => Sys2Proof.Machine.execLearnFrameReceived k s
  | .sweeperVisit => Sys2Proof.Machine.execSweeperVisit s
  | .epochDrainEnd => Sys2Proof.Machine.execEpochDrainEnd s
  | .replayEnd => Sys2Proof.Machine.execReplayEnd s
  | .bankReplacementStart b cause => Sys2Proof.Machine.execBankReplacementStart b cause s
  | .bankRetire => Sys2Proof.Machine.execBankRetire s
  | .contributionServed k tc => Sys2Proof.Machine.execContributionServed k tc s
  | .resultNackReceived k tc => Sys2Proof.Machine.execResultNackReceived k tc s
  | .nackReceived k tc => Sys2Proof.Machine.execNackReceived k tc s
  | .resultNotice k => Sys2Proof.Machine.execResultNotice k s
  | .weightReqReceived k tc => Sys2Proof.Machine.execWeightReqReceived k tc s
  | .gatherTimerExpiry ctx seq => Sys2Proof.Machine.execGatherTimerExpiry ctx seq s
  | .retryTimerExpiry ctx seq => Sys2Proof.Machine.execRetryTimerExpiry ctx seq s
  | .creditReturn ctx seq => Sys2Proof.Machine.execCreditReturn ctx seq s
  | .partnerCreditFree ctx seq => Sys2Proof.Machine.execPartnerCreditFree ctx seq s
  | .lingerExpiry ctx seq => Sys2Proof.Machine.execLingerExpiry ctx seq s
  | .setupHeadServed => Sys2Proof.Machine.execSetupHeadServed s
  | .setupStall => Sys2Proof.Machine.execSetupStall s
  | .resizeBoundaryReached ctx => Sys2Proof.Machine.execResizeBoundaryReached ctx s
  | .contextDrainEnd ctx => Sys2Proof.Machine.execContextDrainEnd ctx s
  | .sheafArrival k tc => Sys2Proof.Machine.execSheafArrival k tc s
  | .sheafReleasePassing k => Sys2Proof.Machine.execSheafReleasePassing k s
  | .sheafRetryExpiry n => Sys2Proof.Machine.execSheafRetryExpiry n s
  | .sheafStuck n => Sys2Proof.Machine.execSheafStuck n s
  | .coreCheckFailure k q work replayOk => Sys2Proof.Machine.execCoreCheckFailure k q work replayOk s
  | .coreRetestComplete k q pass => Sys2Proof.Machine.execCoreRetestComplete k q pass s
  | .spareIdleTest x pass => Sys2Proof.Machine.execSpareIdleTest x pass s
  | .chunkMapBuilt shard => Sys2Proof.Machine.execChunkMapBuilt shard s
  | .threshArrivalRepeat j => Sys2Proof.Machine.execThreshArrivalRepeat j s
  | .threshReleasePosted => Sys2Proof.Machine.execThreshReleasePosted s
  | .stagingReady k => Sys2Proof.Machine.execStagingReady k s
  | .parkSpaceFreed ctx seq => Sys2Proof.Machine.execParkSpaceFreed ctx seq s
  | .mirrorStateReceived k tc => Sys2Proof.Machine.execMirrorStateReceived k tc s
  | .mirrorAckReceived k tc => Sys2Proof.Machine.execMirrorAckReceived k tc s
  | .mirrorCommitReceived k tc => Sys2Proof.Machine.execMirrorCommitReceived k tc s
  | .mirrorNoteReceived k tc => Sys2Proof.Machine.execMirrorNoteReceived k tc s
  | .mirrorRebuildReqReceived k tc => Sys2Proof.Machine.execMirrorRebuildReqReceived k tc s
  | .mirrorRebuildEndReceived k tc => Sys2Proof.Machine.execMirrorRebuildEndReceived k tc s
  | .mirrorOutOfOrder k tc => Sys2Proof.Machine.execMirrorOutOfOrder k tc s
  | .mirrorRtoExpiry j => Sys2Proof.Machine.execMirrorRtoExpiry j s
  | .mirrorAckInterval j => Sys2Proof.Machine.execMirrorAckInterval j s
  | .mirrorDeadExpiry j => Sys2Proof.Machine.execMirrorDeadExpiry j s
  | .bulkCopySlot j => Sys2Proof.Machine.execBulkCopySlot j s
  | .howlinkMemAccess m => Sys2Proof.Machine.execHowlinkMemAccess m s
  | .howlinkLinkDown => Sys2Proof.Machine.execHowlinkLinkDown s
  | .howlinkLinkUp => Sys2Proof.Machine.execHowlinkLinkUp s
  | .howlinkLaneFailure lane => Sys2Proof.Machine.execHowlinkLaneFailure lane s
  | .nearTierUncorrectableRead addr => Sys2Proof.Machine.execNearTierUncorrectableRead addr s
  | .pageCopyComplete => Sys2Proof.Machine.execPageCopyComplete s
  | .expanderCorrLimit e => Sys2Proof.Machine.execExpanderCorrLimit e s
  | .expanderCopyComplete => Sys2Proof.Machine.execExpanderCopyComplete s
  | .expanderLoss e => Sys2Proof.Machine.execExpanderLoss e s
  | .txDescriptorTaken n desc bytes => Sys2Proof.Machine.execTxDescriptorTaken n desc bytes s
  | .agentFrameDelivery tc desc => Sys2Proof.Machine.execAgentFrameDelivery tc desc s
  | .launchRelease p => Sys2Proof.Machine.execLaunchRelease p s
  | .heaterLoopUpdate p ring monitor => Sys2Proof.Machine.execHeaterLoopUpdate p ring monitor s
  | .toneWindow p ring w => Sys2Proof.Machine.execToneWindow p ring w s
  | .sweepEndNoLock p ring => Sys2Proof.Machine.execSweepEndNoLock p ring s
  | .lockFailureClearTimer p ring => Sys2Proof.Machine.execLockFailureClearTimer p ring s
  | .laserReading1ms e l reading => Sys2Proof.Machine.execLaserReading1ms e l reading s
  | .laserReading10us e l reading driveFault => Sys2Proof.Machine.execLaserReading10us e l reading driveFault s
  | .spareTuned e => Sys2Proof.Machine.execSpareTuned e s
  | .spareTuneTimeout e => Sys2Proof.Machine.execSpareTuneTimeout e s
  | .swapReqResend e => Sys2Proof.Machine.execSwapReqResend e s
  | .swapReqReceived p token both => Sys2Proof.Machine.execSwapReqReceived p token both s
  | .swapAckReceived p token => Sys2Proof.Machine.execSwapAckReceived p token s
  | .swapNow e => Sys2Proof.Machine.execSwapNow e s
  | .swapNowReceived p token => Sys2Proof.Machine.execSwapNowReceived p token s
  | .swapNakReceived p token => Sys2Proof.Machine.execSwapNakReceived p token s
  | .swapDone p => Sys2Proof.Machine.execSwapDone p s
  | .swapDoneReceived p token => Sys2Proof.Machine.execSwapDoneReceived p token s
  | .swapPauseTimeout e spareOk oldOk => Sys2Proof.Machine.execSwapPauseTimeout e spareOk oldOk s
  | .partnerSwapHoldExpiry p => Sys2Proof.Machine.execPartnerSwapHoldExpiry p s
  | .rateDownReceived p => Sys2Proof.Machine.execRateDownReceived p s
  | .lightDetected p => Sys2Proof.Machine.execLightDetected p s
  | .absentTimeout p => Sys2Proof.Machine.execAbsentTimeout p s
  | .trainingFrameReceived p c0 more bits errs => Sys2Proof.Machine.execTrainingFrameReceived p c0 more bits errs s
  | .trainTimeout p => Sys2Proof.Machine.execTrainTimeout p s
  | .lockAchieved p => Sys2Proof.Machine.execLockAchieved p s
  | .lockTimeout p => Sys2Proof.Machine.execLockTimeout p s
  | .exchPairReceived p id feat => Sys2Proof.Machine.execExchPairReceived p id feat s
  | .exchAckReceived p round => Sys2Proof.Machine.execExchAckReceived p round s
  | .exchRepeatTimer p => Sys2Proof.Machine.execExchRepeatTimer p s
  | .exchangeTimeout p => Sys2Proof.Machine.execExchangeTimeout p s
  | .linkDownReceived p => Sys2Proof.Machine.execLinkDownReceived p s
  | .lossOfSignal p => Sys2Proof.Machine.execLossOfSignal p s
  | .lossOfLock p => Sys2Proof.Machine.execLossOfLock p s
  | .uncorrectableCodeword p => Sys2Proof.Machine.execUncorrectableCodeword p s
  | .portQueuesEmpty p => Sys2Proof.Machine.execPortQueuesEmpty p s
  | .drainTimeLimit p => Sys2Proof.Machine.execDrainTimeLimit p s
  | .prbsRelock p => Sys2Proof.Machine.execPrbsRelock p s
  | .mgSignalDetect m => Sys2Proof.Machine.execMgSignalDetect m s
  | .mgStageTimeout m => Sys2Proof.Machine.execMgStageTimeout m s
  | .mgExchPacket m payload => Sys2Proof.Machine.execMgExchPacket m payload s
  | .mgPacketReceived m r => Sys2Proof.Machine.execMgPacketReceived m r s
  | .mgKeepSend m => Sys2Proof.Machine.execMgKeepSend m s
  | .mgKeepTimeout m => Sys2Proof.Machine.execMgKeepTimeout m s
  | .mgLossOfSignal m => Sys2Proof.Machine.execMgLossOfSignal m s
  | .mgSyncLoss m => Sys2Proof.Machine.execMgSyncLoss m s
  | .mgAnRestart m => Sys2Proof.Machine.execMgAnRestart m s
  | .ptpSyncReceived r => Sys2Proof.Machine.execPtpSyncReceived r s
  | .syncTimeout b => Sys2Proof.Machine.execSyncTimeout b s
  | .ptpEventFrameEgress p => Sys2Proof.Machine.execPtpEventFrameEgress p s
  | .bwWindowEnd => Sys2Proof.Machine.execBwWindowEnd s
  | .heartbeatTick => Sys2Proof.Machine.execHeartbeatTick s
  | .progressWatchTimeout sv => Sys2Proof.Machine.execProgressWatchTimeout sv s
  | .syncBlockReceived b => Sys2Proof.Machine.execSyncBlockReceived b s
  | .refclkReturn => Sys2Proof.Machine.execRefclkReturn s
  | .pageCorrLimit addr => Sys2Proof.Machine.execPageCorrLimit addr s
  | .spareExpanderLoss => Sys2Proof.Machine.execSpareExpanderLoss s
  | .ptpSyncSend m => Sys2Proof.Machine.execPtpSyncSend m s
  | .trainingFrameSent p => Sys2Proof.Machine.execTrainingFrameSent p s
  | .mgExchRepeat m => Sys2Proof.Machine.execMgExchRepeat m s
  | .snoopResponse line => Sys2Proof.Machine.execSnoopResponse line s
  | .tckEdge trstN rising tms tdi => Sys2Proof.Machine.execTckEdge trstN rising tms tdi s

end Sys2Proof.Machine
end

