-- ==== Sys2Proof/Machine/Sched.lean ====
section
/-! DEFINITION. The central scheduler (R20, R36, R104, R106 to R109, R111): what one core clock's read,
reduction and write slots move, and what the lines take from the transmit buffers.  A command or event that
needs a frame's cells before a clock has moved them finds them moved (log entry 134). -/

namespace Sys2Proof.Machine

/-! ### Rotating pointers and rounds (R106) -/

/-- Requesters in pointer order: from the one after the last granted. -/
def pointerOrder (last : Nat) (l : List Nat) : List Nat :=
  l.filter (fun k => decide (last < k)) ++ l.filter (fun k => decide (k ≤ last))

/-- What a requester does with a slot that comes to it. -/
inductive SlotTry where
  /-- It wants none. -/
  | idle
  /-- A busy bank is its only bar. -/
  | barred
  /-- The slot moves cells of these banks. -/
  | moved (d : Dev) (banks : List Nat)

/-- A clock's grants of one kind so far: slots left, the last requester granted, the banks that are busy
or have moved a cell in this clock, and the requesters that a bank has barred. -/
structure Grants where
  d : Dev
  left : Nat
  last : Nat
  used : List Nat
  barred : List Nat := []

/-- One slot is offered to a requester. -/
def Grants.offer (try_ : Dev → List Nat → Nat → SlotTry) (g : Grants) (k : Nat) : Grants :=
  if g.left = 0 then g
  else match try_ g.d g.used k with
    | .idle => g
    | .barred => { g with barred := g.barred ++ [k] }
    | .moved d banks => { g with d := d, left := g.left - 1, last := k, used := g.used ++ banks }

/-- `n` rounds over the requesters: `n` is the most slots that one of them gets in a clock.  Those that a
bank barred in the last clock come first, ahead of the pointer, in the first round (R107). -/
def Grants.rounds (try_ : Dev → List Nat → Nat → SlotTry) (who : List Nat) : Nat → List Nat → Grants → Grants
  | 0, _, g => g
  | n + 1, first, g =>
    let order := pointerOrder g.last who
    let early := order.filter fun k => first.contains k
    let late := order.filter fun k => !first.contains k
    Grants.rounds try_ who n [] ((early ++ late).foldl (Grants.offer try_) g)

/-! ### Read slots: the egress side of the ports, and the agent queue -/

/-- The copy of a logical port whose cells are being read: the oldest with cells left. -/
def Dev.reading (d : Dev) (l : Nat) : Option Sending := (d.sendingOn l).find? fun x => x.unread != 0

/-- Cells that one slot would move for a frame from cell `i`: two at most, of those written (R20, R111). -/
def Slots.pair (s : Slots) (fid i : Nat) : List Nat := ((s.cellsFor fid).drop i).take 2

/-- A slot is barred where one of its banks is busy. -/
def anyBusy (used cells : List Nat) : Bool := cells.any fun c => used.contains (cellBank c)

/-- Replaces the first copy that has cells left to read. -/
def putReading (y : Sending) : List Sending → List Sending
  | [] => []
  | x :: r => if x.unread != 0 then y :: r else x :: putReading y r

/-- A read slot for a port: its buffer has 512 bytes free, and the next cells of the copy are written; an odd
cell moves alone only as a frame's last (R104, R108, R111).  A selected copy starts with its first slot. -/
def Dev.tryRead (d : Dev) (used : List Nat) (l : Nat) : SlotTry :=
  match d.reading l with
  | none => .idle
  | some x =>
    let cells := d.store.slots.pair x.copy.fid x.read
    if d.txFree l < 512 || cells.length < min 2 x.unread then .idle
    else if anyBusy used cells then .barred
    else if !x.begun then .moved (d.beginCopy l x).1 (cells.map cellBank)
    else
      let y := d.readOn x cells.length
      .moved (y.1.setSending l (putReading y.2 (d.sendingOn l))) (cells.map cellBank)

/-- The head that a cluster or the agent reads next: of its classes, TC7 first, the first queue with a whole
frame at its head.  DESIGN CHOICE, log entry 134. -/
def Dev.nextServed (d : Dev) (t : Dest) : Option Copy :=
  ([7, 6, 5, 4, 3, 2, 1, 0].filterMap fun c => (d.queue t c).head?).find? d.wholeCopy

/-- How many cells of a queue's head have been read. -/
def Slots.done (s : Slots) (t : Dest) (fid : Nat) : Nat :=
  match Tab.find s.fetched t.num with
  | some (g, n) => if g = fid then n else 0
  | none => 0

/-- A read or reduction slot for the frame at the head of a queue (R109). -/
def Dev.tryFetch (d : Dev) (used : List Nat) (t : Dest) : SlotTry :=
  match d.nextServed t with
  | none => .idle
  | some c =>
    let i := d.store.slots.done t c.fid
    let cells := d.store.slots.pair c.fid i
    if cells.isEmpty || cells.length < min 2 (c.cells - i) then .idle
    else if anyBusy used cells then .barred
    else
      let r := d.readCells c.fid i cells.length
      let s := r.1.store.slots
      let bad := if i = 0 then s.fetchBad.filter fun n => n != t.num else s.fetchBad
      .moved { r.1 with store := { r.1.store with slots := { s with
        fetched := Tab.put s.fetched t.num (c.fid, i + cells.length),
        fetchBad := if r.2 then bad else t.num :: bad } } } (cells.map cellBank)

/-- The read requesters: logical ports as their own number, the agent queue as 512. -/
def Dev.tryReader (d : Dev) (used : List Nat) (k : Nat) : SlotTry :=
  if k = 512 then d.tryFetch used .agent else d.tryRead used k

/-- The clusters, which read their own queues. -/
def Dev.tryCluster (d : Dev) (used : List Nat) (k : Nat) : SlotTry := d.tryFetch used (.cluster k)

/-! ### Write slots: the pipelines, and the clusters -/

/-- The oldest frame of a writer that has cells to write.  A frame asks for its write slots from the clock after its
header was taken or built, whether or not its payload has arrived.  DESIGN CHOICE, log entry 166. -/
def Dev.writing (d : Dev) (k : Nat) : Option Nat :=
  (d.store.frames.find? fun e => e.2.writer == k && d.store.unwritten e.1 != 0).map Prod.fst

/-- A write slot: two cells of the frame, each to the first idle bank after the bank pointer (R104, R107). -/
def Dev.tryWrite (d : Dev) (used : List Nat) (k : Nat) : SlotTry :=
  match d.writing k with
  | none => .idle
  | some fid =>
    let x := Store.writeCells (used ++ d.failing) fid (min 2 (d.store.unwritten fid)) d.store
    if x.2.isEmpty then .idle else .moved { d with store := x.1 } x.2

/-! ### The clock -/

/-- Bits that may have left a copy: those of its header and of the cells read, or all of it. -/
def Sending.ready (x : Sending) : Nat :=
  if !x.begun then 0
  else if x.unread = 0 then 8 * (40 + x.hdr.len.toNat) else 8 * (32 + 256 * x.read)

/-- The line takes a clock's bits of the copy on the wire. -/
def Dev.drainLine (d : Dev) (l : Nat) : Dev :=
  match d.sendingOn l with
  | [] => d
  | x :: r =>
    let bits := min (x.bits + (d.port (d.physical l)).lineBits) x.ready
    d.setSending l ({ x with bits := bits } :: r)

/-- The scheduler's core clock: read slots, then reduction slots, then write slots (R106, R107). -/
def Dev.schedule (d0 : Dev) : Dev :=
  let d := d0.store.sending.keys.foldl Dev.drainLine d0
  let s := d.store.slots
  let readers := d.store.sending.keys ++ [512]
  let r := Grants.rounds Dev.tryReader readers 1 s.barredR { d := d, left := 80 - s.lost, last := s.rPtr, used := s.busy }
  let c := Grants.rounds Dev.tryCluster (List.range 8) 16 s.barredC
    { d := r.d, left := 32, last := s.cPtr, used := r.used }
  let w := Grants.rounds Dev.tryWrite (List.range 24) 8 []
    { d := c.d, left := 80, last := s.wPtr, used := c.used }
  let e := w.d.store
  { w.d with store := { e with slots := { e.slots with
    rPtr := r.last, cPtr := c.last, wPtr := w.last, busy := w.used.drop s.busy.length,
    barredR := r.barred, barredC := c.barred, lost := 0 } } }

end Sys2Proof.Machine
end

