-- ==== Sys2Proof/Machine/Tick.lean ====
section
/-! DEFINITION. One idle core clock (log entry 110): what the clock alone moves.  The central scheduler grants
its slots (R106), the glean buffer takes samples (R514), SV2 serves failures that wait (R29), the Thresh
sequencer ends what has finished (R259, R278, R279), a command that was held
behind another begins once that one has ended (R406, R420), the time base advances on every second
clock (R431), the programmable counters see the clock (R520), a setup that is still pending when its
settle time has passed is counted (R245), and one event packet leaves for each destination (R427). -/

namespace Sys2Proof.Machine

/-- The sources in the order in which the pointer asks them: from the one after the last (R406). -/
def Dev.sourceOrder (d : Dev) : List Source :=
  if d.cmd.ptr = 1 then [.mg0, .mg1, .howlink] else if d.cmd.ptr = 2 then [.mg1, .howlink, .mg0]
  else [.howlink, .mg0, .mg1]

/-- The waiting command whose turn it is, of the first source that has one that waits no more (R406): the
device without it, and the command. -/
def Dev.nextBehind (d : Dev) : Option (Dev × Instr) :=
  if d.flipping then none
  else d.sourceOrder.findSome? fun s => match d.firstReady [] (d.behindOf s) with
    | some (seen, i, r) => some ({ d with cmd := { d.cmd with
        behind := (d.cmd.behind.filter fun j => Instr.source j != some s) ++ seen ++ r, turn := true } }, i)
    | none => none

/-- The turn is over. -/
def Dev.endTurn (d : Dev) : Dev := { d with cmd := { d.cmd with turn := false } }

/-- The commits whose wait has ended by this clock became ready in it (R420). -/
def Dev.markReady (d : Dev) : Dev :=
  let ready := fun (t : Txn) => decide (t.st = .waiting) && t.readyAt.isNone && !d.mustWait t
  let txns := d.cmd.txns.map fun t => if ready t then { t with readyAt := some d.now } else t
  { d with cmd := { d.cmd with txns := txns } }

/-- Sends the oldest event packet of a destination that can receive; one for the companion raises
vector 16, one on a management link counts as a packet. -/
def Dev.deliverEvent (d : Dev) (s : Source) : Dev :=
  let q := d.evDest s
  match q.queue with
  | [] => d
  | e :: r =>
    if d.svRuns 1 && d.destUp s then
      let d1 := (d.setEvDest s { q with queue := r }).send (.event e)
      match s with
      | .howlink => (d1.raiseInt 16).faultSent e.ev
      | .mg0 => d1.bump (ctrMgl 0 0x108)
      | .mg1 => d1.bump (ctrMgl 1 0x108)
    else d

/-- Counts RED_SETUP_WAIT for a setup that is pending past its settle time.  DEDUCED, log entry 88. -/
def Dev.countWait (d : Dev) (cid : Nat) (c : Ctx) : Dev :=
  if decide (c.st = .pending) && !c.waitSeen && decide (c.since + d.settleClk < d.now) then
    (d.setCtx cid { c with waitSeen := true }).bump (ctrRed (clusterOf cid) 0xC10)
  else d

/-- What the receivers of the lines, GDDR7 and Howlink correct in a core clock (R309, R331), and the invalid code
groups of the management links (R401): the fibers, devices and lanes decide it, so each amount is a free value.  DESIGN CHOICE, log entry 143. -/
def Dev.countCorrected (d : Dev) : Dev :=
  let locked := d.ports.filter fun e => e.2.fecLock
  let d1 := locked.foldl (fun d e => d.bumpBy (ctrLine e.1 0) (Config.lineCorrected e.1 d.now)) d
  let d2 := if d1.boot.testDone then d1.bumpBy (ctrMem 0x100) (Config.nearCorrected d1.now) else d1
  let d3 := if d2.hl.trained && d2.hl.up then
      (d2.bumpBy (ctrMem 0x118) (Config.flitsCorrected d2.now)).bumpBy (ctrMem 0x120) (Config.flitReplays d2.now)
    else d2
  [0, 1].foldl (fun d m => if (d.mg m).sync && Config.badGroup m d.now then d.bump (ctrMgl m 0x118) else d) d3

/-- A clock of the checkers of the ports in TEST (R376). -/
def Dev.checkPatterns (d : Dev) : Dev :=
  (d.ports.filter fun e => decide (e.2.st = .test)).foldl (fun d e => d.checkPattern e.1) d

/-- The clock's own effects. -/
def Dev.clock (d : Dev) : Dev :=
  let d0 := { d.markReady with now := d.now + 1, boot := { d.boot with enrolling := none } }
  if !d0.awake then d0
  else
    let d1 := if d0.now % 2 = 0 then d0.timeEdge else d0
    let d2 := d1.red.ctxs.foldl (fun d e => d.countWait e.1 e.2) d1
    let d3 := d2.schedule.gleanDrain.serveFailures.countCorrected.checkPatterns
    ((d3.thrTidy.pevTick.deliverEvent .howlink).deliverEvent .mg0).deliverEvent .mg1

/-- The command whose turn it is, if one has waited (R406, R420). -/
def turnStep (s : State) : Host.Outcome State Fault Refusal :=
  match s.d.nextBehind with
  | some (d, i) =>
    match exec i { s with d := d } with
    | .next t => .next { t with d := t.d.endTurn }
    | .fault f => .fault f
    | .refused r => .refused r
  | none => .next s

/-- The oldest of what the ports in loopback NEAR and OPTICAL have sent returns, as its event (R522). -/
def loopStep (s : State) : Host.Outcome State Fault Refusal :=
  match s.d.loopQ with
  | i :: r => exec i { s with d := { s.d with loopQ := r } }
  | [] => .next s

/-- One core clock passes.  DESIGN CHOICE, log entry 110. -/
def execTick (s : State) : Host.Outcome State Fault Refusal :=
  match turnStep s with
  | .next t => match loopStep t with
    | .next u => .next { u with d := u.d.clock }
    | .fault f => .fault f
    | .refused r => .refused r
  | .fault f => .fault f
  | .refused r => .refused r

end Sys2Proof.Machine
end

