-- ==== Sys2Proof/Machine/Step.lean ====
section
/-! DEFINITION. One step of the block: the command at the front of the queue runs; with an empty
queue one core clock passes. -/

namespace Sys2Proof.Machine

/-- The command at the front of `pending` runs on the state that holds the queue's rest; an empty
queue is one idle core clock (`execTick`). -/
def step (s : State) : Host.Outcome State Fault Refusal :=
  match s.pending with
  | [] => execTick s
  | c :: rest => exec c { s with pending := rest }

/-- The state with the command that the word spells put at the front of the queue. -/
def State.withFetchWord (s : State) (nbits w : Nat) : State :=
  match decodeTableWord nbits w with
  | none => s
  | some c => { s with pending := c :: s.pending }

end Sys2Proof.Machine
end

