-- ==== Sys2Proof/Machine/ReadRegs.lean ====
section
/-! DEFINITION. Reads of the register window: the value of every register of R527 as it reads, RO and RW fields
with their values, reserved and WO fields as zero (R9, R10), and a read access of any width, with what the RC,
POP, lock and latched reads change (R393, R395, R434, R519, R528).  The rows of the opcode table for the reads
that change state are the cases of this one; a plain read changes nothing but its drop count. -/

namespace Sys2Proof.Machine

/-! ### Status registers that no stored word holds -/

/-- FWD_EPOCH_CTL (R100). -/
def Dev.epochCtlReg (d : Dev) : Nat :=
  (d.reg (baseFwd 0) &&& 0x300) ||| d.fwd.replay.toNat <<< 7 ||| d.fwd.oldLive.toNat <<< 6 |||
  d.fwd.shadowSel.toNat <<< 2 ||| d.fwd.epoch.toNat

/-- FWD_EPOCH_DRAIN: what is left of the old bank's time, in ns, rounded up (R100).  DESIGN CHOICE, log entry 156. -/
def Dev.epochDrainReg (d : Dev) : Nat :=
  if d.fwd.oldLive then ((d.fwd.drainEnd - d.now) * 5 + 7) / 8 else 0

/-- FWD_LEARN_CTL (R100). -/
def Dev.learnCtlReg (d : Dev) : Nat := (d.reg (baseFwd 0 + 0x14) &&& 7) ||| d.fwd.peers.length <<< 8

/-- FWD_EM_STATUS (R100). -/
def Dev.emStatusReg (d : Dev) : Nat :=
  let b := d.fwd.cur
  let main := (b.em.filter fun e => decide (e.1 < emMain)).length
  b.seed.toNat <<< 32 ||| (b.em.length - main) <<< 20 ||| main

/-- STORE_CTL (R135). -/
def Dev.storeCtlReg (d : Dev) : Nat := (d.reg baseStore &&& 2) ||| d.inputCopy.toNat <<< 2

/-- STORE_POOL_STATUS (R135). -/
def Dev.poolStatusReg (d : Dev) : Nat :=
  (d.regBit (baseStore + 8) 63).toNat <<< 63 ||| d.sharedUse <<< 23 ||| d.sharedSize

/-- STORE_DESC_STATUS: a retired row counts as used (R135, R488).  DEDUCED, log entry 136. -/
def Dev.descStatusReg (d : Dev) : Nat :=
  (d.store.entries + d.store.entriesOut) <<< 21 ||| (d.store.frames.length + d.store.rowsOut)

/-- STORE_BANK_STATUS (R135). -/
def Dev.bankStatusReg (d : Dev) : Nat :=
  d.store.replacing.isSome.toNat <<< 31 ||| d.activeBanks <<< 16 ||| d.store.spare1 <<< 8 ||| d.store.spare0

/-- PORT_STORE_CTL (R112, R128). -/
def Dev.portStoreReg (d : Dev) (p : Nat) : Nat := (d.reg (basePort p + 0x44) &&& 1) ||| (d.port p).held.toNat <<< 1

/-- PORT_LAUNCH_STATUS: the launch queue of the logical port that is bound to the port (R452). -/
def Dev.launchStatusReg (d : Dev) (p : Nat) : Nat := (Tab.get d.store.launch (d.logical p) []).length

/-- PORT_BW_RX, PORT_BW_TX, and the peaks as they read before they are cleared (R519). -/
def Dev.bwReg (d : Dev) (p : Nat) (tx : Bool) : Nat :=
  let w := Tab.get d.cnt.bw p {}
  d.cnt.lastShort.toNat <<< 63 ||| d.cnt.wseq.toNat <<< 48 ||| (if tx then w.txLast else w.rxLast) % 2 ^ 48

/-- RED_MEM_STATUS of a cluster (R245). -/
def Dev.redMemReg (d : Dev) (k : Nat) : Nat :=
  (d.red.ctxs.filter fun e => clusterOf e.1 == k).length <<< 32 ||| d.freeRecords k <<< 16 ||| d.freeUnits k

/-- RED_SPILL_STATUS (R245). -/
def Dev.redSpillReg (d : Dev) : Nat := d.spillUnits <<< 32 ||| d.freeSpill

/-- RED_SETUP_STATUS (R245). -/
def Dev.redSetupReg (d : Dev) : Nat :=
  match d.setupHead with
  | some (cid, _) => cid <<< 16 ||| 1 <<< 15 ||| d.pendingSetups.length
  | none => 0

/-- A bulk copy of a job is sent or received here (R275, R280). -/
def ThrJob.rebuilding (x : ThrJob) : Bool :=
  x.bulk.isSome || x.endSeq.isSome || (x.own == .rebuild && x.reqSent)

/-- THR_STATUS (R280). -/
def Dev.thrStatusReg (d : Dev) : Nat :=
  let jobs := d.thr.jobs.map Prod.snd
  d.thr.shards.length <<< 17 ||| jobs.length <<< 10 |||
  (jobs.any fun x => x.own == .solo || x.own == .lost).toNat <<< 1 ||| (jobs.any ThrJob.rebuilding).toNat

/-- CNT_GLEAN_CTL and CNT_GLEAN_STATUS (R519). -/
def Dev.gleanCtlReg (d : Dev) : Nat := (d.reg offGleanCtl &&& gleanCtlBits) ||| d.cnt.armed.toNat
def Dev.gleanStatusReg (d : Dev) : Nat := d.cnt.nextGseq.toNat <<< 32 ||| d.cnt.glean.length

/-! ### Every register (R527), by block; `o` is the offset in the block -/

/-- A counter, or a stored register. -/
def Dev.stored (d : Dev) (off : Nat) : Nat :=
  match Tab.find d.ctrs off with
  | some v => v.toNat
  | none => d.reg off

def Dev.readGlb (d : Dev) (o : Nat) : Nat :=
  if o = 0x08 then d.fuses.serial.toNat
  else if o = 0x10 then d.cfgReg
  else if o = 0x14 then d.devStatusReg
  else if o = 0x18 then d.selfTestReg
  else if o = 0x1C then d.boot.heartbeat.toNat
  else if o = 0x20 then d.clkStatusReg
  else if o = 0x100 then d.intStatusReg
  else if o = 0x108 then d.intMaskReg
  else if o = 0x110 then 0
  else if 0x1000 ≤ o && (o - 0x1000) % 0x40 = 0x10 then (Tab.get d.heads ((o - 0x1000) / 0x40) 0).toNat
  else d.stored o

/-- MBX: the POST and LOCK_BREAK registers read as zero, a POP or lock shows what its read would answer. -/
def Dev.readMbx (d : Dev) (a : RegActor) (off : Nat) : Nat :=
  let n := (off - 0x100000) / 0x100
  let o := (off - 0x100000) % 0x100
  if baseMbxShared ≤ off then (if off = baseMbxShared + 8 then 0 else d.stored off)
  else if o = 0 || o = 0x10 then 0
  else if o = 8 then (d.popH2d a n).2
  else if o = 0x18 then (d.popD2h a n).2
  else if o = 0x20 then d.mbxStatusReg n
  else (d.readLock a n).2

def Dev.readSec (d : Dev) (o : Nat) : Nat :=
  if o = 0 then d.bootStatusReg else if o = 8 then d.rollbackReg else d.ownerStateReg

/-- TIME: the seconds are those latched for the reading party (R434). -/
def Dev.readTime (d : Dev) (a : RegActor) (o : Nat) : Nat :=
  if o = 0x08 then d.timeStatusReg
  else if o = 0x10 then d.time.ns
  else if o = 0x18 then (Tab.get d.time.latchNow a.num 0).toNat
  else if o = 0x20 then unsignedOf 40 d.time.rate
  else if o = 0x28 then d.time.domA.reg
  else if o = 0x30 then d.time.ppsInNs
  else if o = 0x38 then (Tab.get d.time.latchPps a.num 0).toNat
  else if o = 0x40 then d.time.domB.reg
  else d.stored (baseTime + o)

def Dev.readPort (d : Dev) (p o : Nat) : Nat :=
  if o = 0 then d.portStateReg p
  else if o = 8 then d.linkStatusReg p
  else if 0x10 ≤ o && o ≤ 0x20 then (d.port p).partnerReg ((o - 0x10) / 8)
  else if o = 0x28 then (d.port p).partnerFeatReg
  else if o = 0x44 then d.portStoreReg p
  else if o = 0x48 then d.launchStatusReg p
  else if o = 0x160 then (d.port p).prbsBits.toNat
  else if o = 0x168 then (d.port p).prbsErrs.toNat
  else if o = 0x300 then d.bwReg p false
  else if o = 0x308 then d.bwReg p true
  else if o = 0x310 then (d.readPeak p false).2
  else if o = 0x318 then (d.readPeak p true).2
  else d.stored (basePort p + o)

def Dev.readOpt (d : Dev) (e o : Nat) : Nat :=
  if o = 0 then d.engStatusReg e
  else if o = 0x18 then d.spareStatusReg e
  else if 0x100 ≤ o && o < 0x200 then d.portCfgReg (32 * e + (o - 0x100) / 4)
  else if 0x200 ≤ o && o < 0x400 then d.lineStatusReg (32 * e + (o - 0x200) / 8)
  else if 0x400 ≤ o && o < 0x600 then d.lightStatusReg (32 * e + (o - 0x400) / 8)
  else if 0x600 ≤ o && o < 0x1000 then d.laserRefReg e ((o - 0x600) / 4)
  else d.stored (baseOpt e + o)

/-- FWD: `k` is the pipeline, whose own words are FWD_LEARN_PORTS and the counters. -/
def Dev.readFwd (d : Dev) (k o : Nat) : Nat :=
  if o = 0 then d.epochCtlReg
  else if o = 4 then d.epochDrainReg
  else if o = 0x10 then d.reg (baseFwd 0 + 0x10)
  else if o = 0x14 then d.learnCtlReg
  else if o = 0x20 then d.emStatusReg
  else d.stored (baseFwd k + o)

def Dev.readStore (d : Dev) (o : Nat) : Nat :=
  if o = 0 then d.storeCtlReg
  else if o = 0x08 then d.poolStatusReg
  else if o = 0x10 then d.descStatusReg
  else if o = 0x18 then d.bankStatusReg
  else d.stored (baseStore + o)

def Dev.readRed (d : Dev) (k o : Nat) : Nat :=
  if o = 0xB00 then d.redMemReg k
  else if o = 0xB08 then d.redSpillReg
  else if o = 0xB10 then d.redSetupReg
  else if o = 0xB14 || o = 0xB18 then d.reg (baseRed 0 + o)
  else d.stored (baseRed k + o)

def Dev.readThrReg (d : Dev) (o : Nat) : Nat := if o = 4 then d.thrStatusReg else d.stored (baseThr + o)

def Dev.readMemReg (d : Dev) (o : Nat) : Nat :=
  if o = 0 then d.g7StatusReg
  else if o = 0x10 then d.hlStatusReg
  else if 0x20 ≤ o && o < 0x40 then d.cxlStatusReg ((o - 0x20) / 8)
  else d.stored (baseMem + o)

def Dev.readCnt (d : Dev) (o : Nat) : Nat :=
  if o = 0x08 then d.gleanCtlReg
  else if o = 0x18 then d.gleanStatusReg
  else if 0x400 ≤ o then (Tab.get d.cnt.pev ((o - 0x400) / 8) 0).toNat
  else d.stored (baseCnt + o)

def Dev.readMgl (d : Dev) (m o : Nat) : Nat :=
  if o = 0x08 then d.mglStatusReg m
  else if o = 0x10 then (d.mg m).mac.toNat
  else if 0x20 ≤ o && o < 0x100 then (d.mg m).partnerId.field (o - 0x20) 8
  else d.stored (baseMgl m + o)

/-- The value of the register that starts at an offset of the window, as this party reads it. -/
def Dev.readReg (d : Dev) (a : RegActor) (off : Nat) : Nat :=
  if off < 0x100000 then d.readGlb off
  else if off < 0x200000 then d.readMbx a off
  else if off < baseTime then d.readSec (off - 0x200000)
  else if off < basePort 0 then d.readTime a (off - baseTime)
  else if off < baseOpt 0 then d.readPort ((off - basePort 0) / 0x400) ((off - basePort 0) % 0x400)
  else if off < baseFwd 0 then d.readOpt ((off - baseOpt 0) / 0x10000) ((off - baseOpt 0) % 0x10000)
  else if off < baseStore then d.readFwd ((off - baseFwd 0) / 0x40000) ((off - baseFwd 0) % 0x40000)
  else if off < baseTm then d.readStore (off - baseStore)
  else if off < baseRed 0 then d.stored off
  else if off < baseThr then d.readRed ((off - baseRed 0) / 0x40000) ((off - baseRed 0) % 0x40000)
  else if off < baseMem then d.readThrReg (off - baseThr)
  else if off < baseCnt then d.readMemReg (off - baseMem)
  else if off < baseMgl 0 then d.readCnt (off - baseCnt)
  else d.readMgl ((off - baseMgl 0) / 0x1000) ((off - baseMgl 0) % 0x1000)

/-- What a read of the register at an offset changes: a POP takes its word, a lock read may take the lock, a
read of the nanoseconds latches the seconds, and a read of a peak clears it. -/
def Dev.afterRead (d : Dev) (a : RegActor) (off : Nat) : Dev :=
  if inMbx off && decide (off < baseMbxShared) then
    let n := (off - 0x100000) / 0x100
    let o := (off - 0x100000) % 0x100
    if o = 8 then (d.popH2d a n).1
    else if o = 0x18 then (d.popD2h a n).1
    else if o = 0x28 then (d.readLock a n).1
    else d
  else if off = baseTime + 0x10 then (d.readNow a).1
  else if off = baseTime + 0x30 then (d.readPpsIn a).1
  else if decide (basePort 0 ≤ off ∧ off < basePort 512) then
    let p := (off - basePort 0) / 0x400
    let o := (off - basePort 0) % 0x400
    if o = 0x310 then (d.readPeak p false).1
    else if o = 0x318 then (d.readPeak p true).1
    else d
  else d

/-- A read access of a width in bits: where no register of that width starts, it is dropped, counted, and
returns zero (R528). -/
def Dev.readWindow (d : Dev) (a : RegActor) (off width : Nat) : Dev × Nat :=
  match regAt off with
  | none => (d.bump ctrRegDrop, 0)
  | some (r, _) => if r.width ≠ width then (d.bump ctrRegDrop, 0) else (d.afterRead a off, d.readReg a off)

/-- A read of the window through its gate (R529). -/
def Dev.registerRead (d : Dev) (a : RegActor) (off width : Nat) : Dev :=
  d.winRead a off fun d => d.readWindow a off width

end Sys2Proof.Machine
end

