-- ==== Sys2Proof/Safety.lean ====
section
/-! DEFINITION. What counts as a safe step, and the words in which the statements speak of a command:
that it is let in, that the window serves an access, and what a whole-chip reset leaves. -/

namespace Sys2Proof

/-- The step from `s` answers a next state: the block neither faults nor refuses. -/
def Safe (s : Machine.State) : Prop := ∃ t, Machine.step s = .next t

/-- The command, with its header, that asks for a staged change. -/
def Staged.instr (c : CmdCtx) : Staged → Instr
  | .planSet p => .planSet c p
  | .planGroup p => .planGroup c p
  | .portMapSet p => .portMapSet c p
  | .optPortMode p => .optPortMode c p
  | .optCampusFreq p => .optCampusFreq c p
  | .emInsert p => .emInsert c p
  | .emDelete k => .emDelete c k
  | .rehash v => .rehash c v
  | .routeSet p => .routeSet c p
  | .groupSet p => .groupSet c p
  | .partSet p => .partSet c p
  | .portsetSet p => .portsetSet c p
  | .learnPeers l => .learnPeers c l
  | .mirrorSet p => .mirrorSet c p
  | .partReserve p => .partReserve c p
  | .shaperSet p => .shaperSet c p
  | .groupShaperSet p => .groupShaperSet c p
  | .policerSet p => .policerSet c p
  | .policerMap p => .policerMap c p
  | .ctxSet p => .ctxSet c p
  | .ctxClose n => .ctxClose c n
  | .ctxReform p => .ctxReform c p
  | .ctxResize p => .ctxResize c p
  | .sheafSet p => .sheafSet c p
  | .sheafClose n => .sheafClose c n
  | .thrJobSet p => .thrJobSet c p
  | .thrJobClose j => .thrJobClose c j
  | .thrParamSet p => .thrParamSet c p
  | .thrShardSet p => .thrShardSet c p
  | .thrShardClose n => .thrShardClose c n
  | .thrShardRole p => .thrShardRole c p
  | .memRegionSet p => .memRegionSet c p

namespace Machine

/-- The state with another device. -/
def State.put (s : State) (d : Dev) : State := { s with d := d }

/-- Command `i` with header `c` is let in: the gate of R408 and R410 lets its opcode and class run, no
batch stands before its flip (R420), and it waits behind no held command (R406). -/
def Dev.Runs (d : Dev) (i : Instr) (c : CmdCtx) (op : Nat) (cls : PrivClass) : Prop :=
  d.gate c op cls = .run ∧ d.flipping = false ∧ d.isBehind c i = false

/-- A register that a write only sets bit by bit: outside GLB and MBX, and none of the ones whose write has an
effect of its own: TIME_CTL, TIME_PPS_CTL, PORT_LOOP_CTL, STORE_RES_LIMIT, STORE_CLASS_CFG, CNT_BW_CTL, CNT_PEV_SEL
and MGL_CTL (R118, R120, R385, R437, R448, R510, R520, R523). -/
def plainOffset (off : Nat) : Bool :=
  decide (0x200000 ≤ off) && off != baseTime && off != baseTime + 0x48 &&
    !(decide (basePort 0 ≤ off ∧ off < basePort 512) && (off - basePort 0) % 0x400 == 0x4C) &&
    off != baseStore + 4 && !decide (baseStore + 0x20 ≤ off ∧ off < baseStore + 0x40) && off != baseCnt &&
    !decide (baseCnt + 0x200 ≤ off ∧ off < baseCnt + 0x400) && off != baseMgl 0 && off != baseMgl 1

/-- The window serves this access of a party (R528, R529). -/
def Dev.Serves (d : Dev) (a : RegActor) (off : Nat) (write : Bool) : Prop :=
  d.window a off write = .serve

/-- Frame `f`, whole and good, stands at the head of the queue of class `tc` of cluster `k`, and nothing
keeps the cluster from it (R61, R109, R119, R130). -/
structure Dev.AtHead (d : Dev) (k tc : Nat) (f : Frame) : Prop where
  awake : d.awake = true
  head : ∃ c r, d.queue (.cluster k) tc = c :: r ∧ d.frame? c.fid = some f ∧ d.expired c = false
  whole : f.whole = true
  good : f.bad = false ∧ e2eCheck f.hdr f.payload = f.e2e
  noInject : d.faults.injects = []
  noBad : d.store.slots.fetchBad = []

/-- What whole-chip reset leaves (R470 to R472, R476): the fuses but for one that was being blown, the band switches
but for those that moved (R312), the sensors and the boundary-scan controller, the granary's bytes and bad lines and
nothing of the near tier's, and the spares in use (log entry 114); everything else at its reset value. -/
structure InReset (d t : Dev) : Prop where
  boot : t.boot = { inReset := true, resetN := d.boot.resetN }
  fuses : t.fuses.serial = d.fuses.serial ∧ t.fuses.secret = d.fuses.secret
  owners : ∀ n, n < 4 → t.fuses.owner n = d.fuses.owner n ∨
    (d.boot.enrolling.isSome = true ∧ (d.fuses.owner n).1 = 1 ∧ (t.fuses.owner n).1 = 3)
  rollback : t.fuses.rollback = d.fuses.rollback ∨
    (d.fuses.rollback < d.boot.rollTarget ∧ t.fuses.rollback = d.fuses.rollback + 1)
  band : ∀ k, k < 16 → (∀ e ∈ d.opt.moving, e.1 ≠ k) → t.fuses.band.getLsbD k = d.fuses.band.getLsbD k
  clk : t.clk = {
    refLost := d.clk.refLost, temps := d.clk.temps, thermLow := d.clk.thermLow, tap := d.clk.tap,
    tapIr := d.clk.tapIr, tapDr := d.clk.tapDr, tdo := d.clk.tdo, lands := d.clk.lands }
  mem : t.mem = {
    cells := d.mem.cells.filter fun c => decide (granBase ≤ c.1),
    badLines := d.mem.badLines.filter fun x => decide (lineOf granBase ≤ x),
    retiredPages := d.mem.retiredPages, poolUsed := d.mem.poolUsed }
  store : t.store = {
    swapped := d.store.swapped, spare0 := d.store.spare0, spare1 := d.store.spare1,
    slots := { bankOf := d.store.slots.bankOf } }
  cores : t.faults = { cores := t.faults.cores, spareCores := d.faults.spareCores.filter fun e => e.2 == 1 } ∧
    t.faults.cores.map Prod.fst =
      (d.faults.cores.filter fun e => e.2.spare != 0 && decide (e.2.st ≠ .empty)).map Prod.fst
  lasers : t.opt = { spares := d.opt.spares.filter fun e => e.2.st == 2 }
  tables : t.fwd = {} ∧ t.tm = {} ∧ t.red = {} ∧ t.thr = {}
  links : t.hl = {} ∧ t.mg0 = {} ∧ t.mg1 = {} ∧ t.mbx = [] ∧ t.cmd = {} ∧ t.time = {}
  ports : t.ports = [] ∧ t.plan = [] ∧ t.autoRemap = 0 ∧ t.loopQ = []
  logs : t.cnt = {} ∧ t.regs = [] ∧ t.ctrs = [] ∧ t.intPend = 0 ∧ t.heads = [] ∧ t.now = 0

end Machine

end Sys2Proof
end

