-- ==== Sys2Proof/Certificates/Slice0/Obligations.lean ====
section
/-! DEFINITION. The statements for the provers. Each says, for every state that meets its hypotheses, what a
command answers and what the state after it holds; what a command leaves unchanged is said beside it. A
clause that rests on a choice of the model names the log entry. -/

open Sys2Proof Sys2Proof.Machine

/-! ### The queue and the step -/

/-- One step runs the command at the front of the queue on the state that holds the queue's rest. -/
def Obligations.StepRunsFrontCommand : Prop :=
  ∀ (c : Instr) (rest : List Instr) (s : State),
    step { s with pending := c :: rest } = exec c { s with pending := rest }

/-- An empty queue: with no command held behind another and nothing that returns on a port in loopback, the
block idles for one core clock (the model's choice, log entry 110); what returns runs as its event in that
clock (log entry 174), and so does a waiting command whose turn it is (R406, R420). -/
def Obligations.EmptyQueueIdlesOneClock : Prop :=
  (∀ s : State, s.pending = [] → s.d.nextBehind = none → s.d.loopQ = [] →
    ∃ t, step s = .next t ∧ t.pending = [] ∧ t.d.now = s.d.now + 1) ∧
  (∀ (s t : State) (i : Instr) (r : List Instr), s.pending = [] → s.d.nextBehind = none → s.d.loopQ = i :: r →
    exec i (s.put { s.d with loopQ := r }) = .next t →
    ∃ u, step s = .next u ∧ u.pending = t.pending ∧ u.d.now = t.d.now + 1) ∧
  (∀ (s t : State) (d : Dev) (i : Instr), s.pending = [] → s.d.nextBehind = some (d, i) →
    exec i (s.put d) = .next t → t.d.loopQ = [] →
    ∃ u, step s = .next u ∧ u.pending = t.pending ∧ u.d.now = t.d.now + 1)

/-- No command touches the queue of waiting commands. Every command but RAIL_OUT_OF_REGULATION answers a next
state in every state, and that one answers the fault exactly while RESET_N is high (R474). -/
def Obligations.CommandsAnswer : Prop :=
  (∀ (i : Instr) (s t : State), exec i s = .next t → t.pending = s.pending) ∧
  (∀ (i : Instr) (s : State), i ≠ .railOutOfRegulation → ∃ t, exec i s = .next t) ∧
  (∀ s : State, s.d.boot.resetN = true → exec .railOutOfRegulation s = .fault .railUndefined) ∧
  (∀ s : State, s.d.boot.resetN = false → exec .railOutOfRegulation s = .next s)

/-! ### What every step keeps -/

/-- Board memory keeps its one canonical form, addresses strictly rising and no listed byte equal to what an
unlisted one reads as, through every step of the machine, whatever command or idle clock it runs (log entry 3
gives what an unlisted byte reads as) (R283, R290, R295, R472). -/
def Obligations.MemoryStaysCanonical : Prop :=
  ∀ s t : State, memWf s.d.mem.cells = true → step s = .next t → memWf t.d.mem.cells = true

/-- No step of the machine takes a fuse back: the anti-rollback counter never decreases, an owner slot only
moves forward through EMPTY, VALID and REVOKED, its hash stays once it is programmed, a REVOKED or FAILED slot
stays what it is, and the serial number and the device secret stay. A slot whose programming a reset
interrupts becomes FAILED; the model shows it as VALID in the core clock of its programming, so it goes from
there (log entry 119) (R464, R465, R469, R472, R476). -/
def Obligations.FusesOnlyMoveForward : Prop :=
  ∀ s t : State, step s = .next t →
    t.d.fuses.serial = s.d.fuses.serial ∧ t.d.fuses.secret = s.d.fuses.secret ∧
    s.d.fuses.rollback ≤ t.d.fuses.rollback ∧
    ∀ n, n < 4 →
      let x := s.d.fuses.owner n
      let y := t.d.fuses.owner n
      (x.1 = 0 → y.1 = 0 ∨ y.1 = 1) ∧ (x.1 = 2 → y.1 = 2) ∧ (x.1 = 3 → y.1 = 3) ∧
      (x.1 = 1 → y.1 = 1 ∨ y.1 = 2 ∨ (y.1 = 3 ∧ s.d.boot.enrolling.isSome = true)) ∧
      (x.1 ≠ 0 → y.2 = x.2 ∨ (y.1 = 3 ∧ s.d.boot.enrolling.isSome = true))

/-! ### Reset and boot -/

/-- What the machine holds right after reset, by the reset values of the spec: no session, transaction,
context, shard, frame, mailbox word or fault record is there, the time base is UNSET, every stored register of
the window holds its table's reset value and every counter 0 (R84, R288, R438, R454, R472, R528, R530). -/
def Obligations.ResetValues : Prop :=
  State.reset.pending = [] ∧ State.reset.d.boot.st = .powerOn ∧ State.reset.d.fuses.band = 0xFFFF#16 ∧
  State.reset.d.fwd.epoch = 0 ∧ State.reset.d.fwd.shadowSel = true ∧ State.reset.d.fwd.sweepPeriod = 60 ∧
  State.reset.d.store.limit = 2000000 ∧ State.reset.d.store.spare0 = 16 ∧ State.reset.d.store.spare1 = 16 ∧
  State.reset.d.hl.lanes = 16 ∧ State.reset.d.hl.failedLane = 0x1F#5 ∧ State.reset.d.clk.cxPerst = 0 ∧
  State.reset.d.cnt.wseq = 0 ∧ State.reset.d.faults.fseq = 0 ∧ memWf State.reset.d.mem.cells = true ∧
  (∀ p, (State.reset.d.port p).st = .off) ∧ (∀ l, (State.reset.d.fwd.cur.routeOf l).rtype = 3) ∧
  State.reset.d.reg (basePort 0 + 0x40) = 0x350 ∧ State.reset.d.reg (baseFwd 0 + 0x10) = 0x3C001 ∧
  State.reset.d.reg (baseStore + 4) = 0x1E8480 ∧ State.reset.d.reg (baseThr) = 0x03E86432 ∧
  State.reset.d.ctr (ctrPort 0 0x100) = 0 ∧
  (∀ off, State.reset.d.ctr off = 0) ∧
  (∀ off r o, regAt off = some (r, o) → State.reset.d.reg off = r.reset) ∧
  State.reset.d.boot.cause = 0 ∧ State.reset.d.boot.reject = 0 ∧ State.reset.d.boot.image = [] ∧
  State.reset.d.intPend = 0 ∧ State.reset.d.time.st = .unset ∧ State.reset.d.time.stepped = false ∧
  State.reset.d.time.sec = 0 ∧ State.reset.d.time.ns = 0 ∧ State.reset.d.time.ppsOut = false ∧
  State.reset.d.cmd.txns = [] ∧ State.reset.d.cmd.held = [] ∧ State.reset.d.cmd.behind = [] ∧
  (∀ m, (State.reset.d.mg m).sessions = []) ∧ State.reset.d.red.ctxs = [] ∧
  State.reset.d.thr.jobs = [] ∧ State.reset.d.thr.shards = [] ∧ State.reset.d.faults.log = [] ∧
  State.reset.d.store.frames = [] ∧ State.reset.d.store.queues = [] ∧ State.reset.d.cnt.armed = false ∧
  (∀ n, (State.reset.d.mbox n).h2d = [] ∧ (State.reset.d.mbox n).d2h = [] ∧ (State.reset.d.mbox n).lock = 0)

/-- The four ways into whole-chip reset, RESET_N, a Howlink RESET message, DEV_RESET after its delay and
DEV_RESET with a delay of 0, complete and leave what R472 names and nothing else: the fuses but for one that
was being blown, the band switches but for one that moved, the granary and the spares in use; the clocks' and
pins' own state is that of signals from outside. In every other state each of the three events completes with
no more than its own effect (log entries 113, 114 and 119) (R312, R470, R472, R476). -/
def Obligations.WholeChipResetClears : Prop :=
  (∀ s : State, s.d.boot.inReset = false →
    ∃ t, exec .resetNAssert s = .next t ∧ t.pending = s.pending ∧
      InReset { s.d with boot := { s.d.boot with resetN := false } } t.d) ∧
  (∀ s : State, s.d.boot.inReset = true →
    exec .resetNAssert s = .next (s.put { s.d with boot := { s.d.boot with resetN := false } })) ∧
  (∀ s : State, s.d.awake = true → s.d.hl.up = true → s.d.hl.trained = true →
    ∃ t, exec .howlinkResetMessage s = .next t ∧ t.pending = s.pending ∧ InReset s.d t.d) ∧
  (∀ s : State, (s.d.awake = false ∨ s.d.hl.up = false ∨ s.d.hl.trained = false) →
    exec .howlinkResetMessage s = .next s) ∧
  (∀ s : State, s.d.awake = true → s.d.boot.resetAt.isSome = true →
    ∃ t, exec .devResetDelayExpiry s = .next t ∧ t.pending = s.pending ∧ InReset s.d t.d) ∧
  (∀ s : State, (s.d.awake = false ∨ s.d.boot.resetAt = none) → exec .devResetDelayExpiry s = .next s) ∧
  (∀ (s : State) (c : CmdCtx), s.d.Runs (.devReset c 0) c 0x0103 .owner →
    ∃ t, exec (.devReset c 0) s = .next t ∧ t.pending = s.pending ∧ InReset s.d t.d)

/-- Reset holds the device until the pin rises; the end of POWER_ON leads to SELF_TEST (R454). Howlink's
training: the spare covers one failed lane; lanes failing in one half leave x8 on the other, and lanes failing
in both halves leave it down; a partner of another major version leaves the link down (R285, R288); which lane
the spare takes where two or more fail is log entry 115's reading. Self-test ends in SAFE_TALK with the cause
of R455, or, with a failed supervisor core, stays in SELF_TEST (R458). -/
def Obligations.BootStages : Prop :=
  (∀ s : State, s.d.boot.inReset = true → s.d.boot.resetN = true →
    exec .internalResetRelease s = .next (s.put { s.d with now := 0, boot := { s.d.boot with inReset := false } })) ∧
  (∀ s : State, s.d.boot.resetN = false →
    exec .internalResetRelease s = .next s ∧
    exec .resetNRelease s = .next (s.put { s.d with
      now := 0, boot := { s.d.boot with inReset := false, resetN := true } })) ∧
  (∀ (s : State) (b : BitVec 2), s.d.awake = true → s.d.boot.st = .powerOn → s.d.clk.refLost = false →
    ∃ t, exec (.powerOnComplete b) s = .next t ∧ t.d.boot = { s.d.boot with st := .selfTest, bootSrc := b } ∧
      t.d.clk.locks = s.d.clk.locks ||| 0x10000#64) ∧
  ((∀ (s : State) (r : HlTraining), s.d.awake = true → s.d.boot.st = .selfTest → s.d.hl.trained = false →
    ∃ t, exec (.howlinkTrainingComplete r) s = .next t ∧ t.d.hl = trainedLink r ∧ t.d.boot.st = .selfTest) ∧
  (∀ r : HlTraining, r.majorDiffers = true →
    (trainedLink r).up = false ∧ (trainedLink r).verMismatch = true ∧ (trainedLink r).lanes = 0) ∧
  trainedLink { majorDiffers := false, failedLanes := [] } = { trained := true } ∧
  (∀ l : Fin 16, let h := trainedLink { majorDiffers := false, failedLanes := [⟨l.val, by omega⟩] }
    h.up = true ∧ h.lanes = 16 ∧ h.spareUsed = true ∧ h.failedLane = BitVec.ofNat 5 l.val) ∧
  (∀ l : Fin 16, (trainedLink { majorDiffers := false, failedLanes := [16, ⟨l.val, by omega⟩] }).lanes = 8) ∧
  (∀ l : Fin 16, (trainedLink { majorDiffers := false, failedLanes := [16, ⟨l.val, by omega⟩] }).upper = decide (l.val < 8)) ∧
  (∀ a b : Fin 16, a < b →
    let h := trainedLink { majorDiffers := false, failedLanes := [⟨b.val, by omega⟩, ⟨a.val, by omega⟩] }
    h.up = true ∧ h.lanes = 8 ∧ h.upper = decide (b.val < 8) ∧ h.spareUsed = true ∧ h.failedLane = BitVec.ofNat 5 a.val) ∧
  (∀ a b : Fin 16, a.val < 8 → 8 ≤ b.val →
    let h := trainedLink { majorDiffers := false, failedLanes := [16, ⟨a.val, by omega⟩, ⟨b.val, by omega⟩] }
    h.up = false ∧ h.lanes = 0)) ∧
  (∀ (s : State) (r : SelfTestResult), s.d.awake = true → s.d.boot.st = .selfTest → s.d.hl.trained = true →
    s.d.boot.testDone = false → r.svFail = 0 →
    ∃ t, exec (.selfTestComplete r) s = .next t ∧ t.d.boot.st = .safeTalk ∧ t.d.boot.testDone = true ∧
      t.d.boot.cause = (s.d.selfTest r).testCause) ∧
  (∀ (s : State) (r : SelfTestResult), s.d.awake = true → s.d.boot.st = .selfTest → s.d.hl.trained = true →
    s.d.boot.testDone = false → r.svFail ≠ 0 →
    ∃ t, exec (.selfTestComplete r) s = .next t ∧ t.d.boot.st = .selfTest ∧ t.d.boot.svFail = r.svFail) ∧
  (∀ d : Dev, (d.boot.items.any fun e => e.2.fatal != 0) = true → d.testCause = 1) ∧
  (∀ d : Dev, (d.boot.items.any fun e => e.2.fatal != 0) = false → d.fuses.validOwners = [] → d.testCause = 4) ∧
  (∀ d : Dev, (d.boot.items.any fun e => e.2.fatal != 0) = false → d.fuses.validOwners ≠ [] →
    d.testCause = if d.boot.bootSrc = 0 then 0 else if d.boot.bootSrc = 3 then 5 else 2)

/-- Boot: the image of slot A starts BOOT, a passed check stores what the image sends, a failed one sends
FLASH to slot B and every other source back to SAFE_TALK with its code, the applied configuration leads to
READY, and IMAGE_LOAD fills the buffer and starts BOOT with its last byte; FL_CS_N is low while slot B is read
(R460 to R463, R466, R467, R469, R546). -/
def Obligations.ImageToReady : Prop :=
  (∀ (s : State) (b : List Byte), s.d.awake = true → s.d.svRuns 0 = true → s.d.boot.bootSrc = 0 →
    s.d.boot.st = .safeTalk → s.d.boot.cause = 0 →
    ∃ t, exec (.flashImageReadComplete b) s = .next t ∧ t.d.boot.st = .boot ∧ t.d.boot.imgSlot = false ∧
      t.d.boot.imgLast = true ∧ t.d.boot.reject = 0 ∧ t.d.boot.image = putImage [] 0 (b.take 0x1000000) ∧
      t.d.clk.flCsN = true ∧ t.d.fuses = s.d.fuses ∧ t.d.fwd = s.d.fwd ∧ t.d.mem = s.d.mem) ∧
  (∀ (s : State) (b : List Byte), s.d.awake = true → s.d.svRuns 0 = true → s.d.boot.bootSrc = 0 →
    s.d.boot.st = .boot → s.d.boot.imgSlot = true → s.d.boot.imgLast = false →
    exec (.flashImageReadComplete b) s = .next (s.put { s.d with
      boot := { s.d.boot with image := putImage [] 0 (b.take 0x1000000), imgLast := true },
      clk := { s.d.clk with flCsN := true } })) ∧
  (∀ (s : State) (c : BootCfg), s.d.awake = true → s.d.svRuns 0 = true → s.d.boot.st = .boot →
    s.d.boot.imgLast = true → s.d.boot.imgOk = false → s.d.fuses.validOwners ≠ [] →
    let n := firstFail (imageChecks s.d.fuses s.d.boot.image)
    ∃ t, exec (.imageCheckComplete (some c)) s = .next t ∧ t.d.fuses = s.d.fuses ∧ t.d.fwd = s.d.fwd ∧
      (n = 0 → s.d.cfgOk c = true → t.d.boot.imgOk = true ∧ t.d.boot.cfg = some c ∧ t.d.boot.st = .boot ∧
        t.d.boot.svn.toNat = imageNum s.d.boot.image 6 1 ∧ t.d.boot.fwHash = imageField s.d.boot.image 12 ∧
        t.d.boot.cfgHash = imageField s.d.boot.image 180 ∧
        t.d.boot.aliasKey = s.d.fuses.aliasKey (imageField s.d.boot.image 12)) ∧
      (n ≠ 0 → s.d.boot.bootSrc = 0 → s.d.boot.imgSlot = false →
        t.d.boot.st = .boot ∧ t.d.boot.imgSlot = true ∧ t.d.clk.flCsN = false ∧ t.d.boot.reject.toNat = n ∧ t.d.boot.image = []) ∧
      (n ≠ 0 → (s.d.boot.bootSrc ≠ 0 ∨ s.d.boot.imgSlot = true) →
        t.d.boot.st = .safeTalk ∧ t.d.boot.cause = 3 ∧ t.d.boot.reject.toNat = n ∧ t.d.boot.image = [])) ∧
  (∀ (s : State) (c : BootCfg), s.d.awake = true → s.d.svRuns 0 = true → s.d.boot.st = .boot →
    s.d.boot.imgOk = true → s.d.boot.cfg = some c →
    ∃ t, exec .bootApplyComplete s = .next t ∧ t.d.boot.st = .ready ∧ t.d.boot.cause = 0 ∧ t.d.boot.image = []) ∧
  (∀ (s : State) (c : BootCfg), s.d.awake = true → s.d.svRuns 0 = true → s.d.boot.st = .boot →
    s.d.boot.imgOk = true → s.d.boot.cfg = some c → c.regs = [] → c.staged = [] →
    ∃ t, exec .bootApplyComplete s = .next t ∧ t.d.boot.role = s.d.boot.roleOverride.getD c.role ∧
      t.d.boot.system = c.system ∧ t.d.boot.chassis = c.chassis ∧ t.d.boot.slot = c.slot ∧ t.d.boot.addr = c.addr ∧
      t.d.boot.requesters = c.requesters ∧ t.d.autoRemap = c.autoRemap ∧
      (Tab.get t.d.fwd.cur.parts 0 PartEntry.none).valid = true ∧
      (Tab.get t.d.fwd.cur.parts 0 PartEntry.none).learnEn = false) ∧
  (∀ (s : State) (c : CmdCtx) (o : Word) (b : List Byte),
    s.d.Runs (.imageLoad c o false b) c 0x0B02 (if c.src = .howlink then .operator else .owner) →
    s.d.svRuns 0 = true → s.d.boot.st = .safeTalk → imagePath s.d.boot.bootSrc c.src = true → b.length ≤ 4080 →
    o.toNat + b.length ≤ 0x1000000 → (s.d.boot.imgSource = none ∨ s.d.boot.imgSource = some c.src) →
    ∃ t, exec (.imageLoad c o false b) s = .next t ∧ t.d.boot.image = putImage s.d.boot.image o.toNat b ∧
      t.d.boot.st = .safeTalk ∧ t.d.boot.imgLast = false ∧ t.d.fuses = s.d.fuses ∧ t.d.fwd = s.d.fwd) ∧
  (∀ (s : State) (c : CmdCtx) (o : Word) (b : List Byte),
    s.d.Runs (.imageLoad c o true b) c 0x0B02 (if c.src = .howlink then .operator else .owner) →
    s.d.svRuns 0 = true → s.d.boot.st = .safeTalk → imagePath s.d.boot.bootSrc c.src = true → b.length ≤ 4080 →
    o.toNat + b.length ≤ 0x1000000 → (s.d.boot.imgSource = none ∨ s.d.boot.imgSource = some c.src) →
    imageLoaded (putImage s.d.boot.image o.toNat b) = true → s.d.bootable = true →
    ∃ t, exec (.imageLoad c o true b) s = .next t ∧ t.d.boot.st = .boot ∧
      t.d.boot.image = putImage s.d.boot.image o.toNat b ∧ t.d.fuses = s.d.fuses)

/-! ### Clocks, time and pins -/

/-- The reference clock: its loss is flagged, raises vector 22 and from SELF_TEST on takes the time base to
HOLDOVER; its return clears the flag (R33, R531). The pulse pins: a carry into seconds raises TIME_PPS_OUT
while OUT_EN is 1, but not in a state before BOOT, the width's end lowers it, and an edge of TIME_PPS_IN is
stamped and counted, but not in POWER_ON (R431, R448, R549). The boundary-scan controller: TRST_N resets it,
and each rising edge of TCK takes it to the state that TMS selects (the controller's states are IEEE 1149.1's,
log entry 9) (R545). -/
def Obligations.ClocksAndPins : Prop :=
  (∀ s : State, s.d.clk.refLost = false → s.d.awake = true →
    ∃ t, exec .refclkLoss s = .next t ∧ t.d.clk.refLost = true ∧ t.d.regBit 0x20 1 = true ∧
      t.d.intPend.getLsbD 22 = true ∧
      (s.d.boot.st ≠ .powerOn → s.d.svRuns 3 = true → t.d.time.st = .holdover) ∧
      (s.d.svRuns 3 = false → t.d.time = s.d.time) ∧ t.d.fwd = s.d.fwd ∧ t.d.store = s.d.store ∧ t.d.ports = s.d.ports ∧ t.d.red = s.d.red) ∧
  (∀ s : State, s.d.clk.refLost = true →
    ∃ t, exec .refclkReturn s = .next t ∧ t.d.clk = { s.d.clk with refLost := false } ∧ t.d.time = s.d.time) ∧
  (∀ (s : State) (p : Pll), s.d.awake = true → s.d.clk.locks.getLsbD (pllBit p) = true →
    ∃ t, exec (.pllLockLoss p) s = .next t ∧
      t.d.clk.locks = s.d.clk.locks &&& ~~~(BitVec.ofNat 64 (1 <<< pllBit p)) ∧ t.d.intPend.getLsbD 22 = true) ∧
  (∀ s : State, s.d.timeRuns = true →
    exec .secondsCarry s = .next (s.put { s.d with time := { s.d.time with
      sec := s.d.time.sec + 1, ns := 0, frac := 0, ppsOut := s.d.time.ppsOut ||
        ((s.d.boot.st = .boot || s.d.boot.st = .ready || s.d.boot.st = .run) && s.d.regBit (baseTime + 0x48) 31) } })) ∧
  (∀ s : State, exec .ppsWidthEnd s = .next (s.put { s.d with time := { s.d.time with ppsOut := false } })) ∧
  (∀ s : State, s.d.boot.st = .powerOn → exec .ppsInEdge s = .next s) ∧
  (∀ s : State, s.d.awake = true → s.d.boot.st ≠ .powerOn →
    ∃ t, exec .ppsInEdge s = .next t ∧ t.d.time.ppsInSec = s.d.time.sec ∧ t.d.time.ppsInNs = s.d.time.ns ∧
      t.d.ctr (ctrTime 0x130) = (s.d.ctr (ctrTime 0x130) + 1) % 2 ^ 64 ∧ t.d.time.sec = s.d.time.sec ∧
      t.d.time.rate = s.d.time.rate ∧ t.d.fwd = s.d.fwd ∧ t.d.ports = s.d.ports) ∧
  (∀ (s : State) (r tms tdi : Bool),
    ∃ t, exec (.tckEdge false r tms tdi) s = .next t ∧ t.d.clk.tap = 0 ∧ t = s.put { s.d with clk := t.d.clk }) ∧
  (∀ (s : State) (tms tdi : Bool),
    ∃ t, exec (.tckEdge true true tms tdi) s = .next t ∧
      t.d.clk.tap = BitVec.ofNat 4 (tapNext s.d.clk.tap.toNat tms) ∧ t.d.clk.tdo = s.d.clk.tdo ∧
      t = s.put { s.d with clk := t.d.clk })

/-- Each of the events of the clocks, the pulse pins and the boundary-scan port completes in every state, with
its own effect where the spec gives it one then, and with none where it gives none: a reference clock already
lost, or not lost, stays as it is; a PLL whose lock bit is clear loses nothing; a time base that does not run
carries nothing; a pin's edge in POWER_ON or in reset is not stamped (R33, R448, R531, R545, R549). -/
def Obligations.ClockAndPinEventsComplete : Prop :=
  (∀ s : State, ∃ t, exec .refclkLoss s = .next t ∧ t.d.clk = { s.d.clk with refLost := true } ∧
    (s.d.clk.refLost = true → t = s) ∧
    (s.d.clk.refLost = false → s.d.awake = true → t.d.regBit 0x20 1 = true ∧ t.d.intPend.getLsbD 22 = true) ∧
    t.d.fwd = s.d.fwd ∧ t.d.store = s.d.store ∧ t.d.ports = s.d.ports ∧ t.d.red = s.d.red ∧ t.pending = s.pending) ∧
  (∀ s : State, ∃ t, exec .refclkReturn s = .next t ∧ t.d.clk = { s.d.clk with refLost := false } ∧
    (s.d.clk.refLost = false → t = s) ∧ t.d.time = s.d.time ∧ t.d.fwd = s.d.fwd ∧ t.d.store = s.d.store ∧
    t.d.ports = s.d.ports ∧ t.d.red = s.d.red ∧ t.pending = s.pending) ∧
  (∀ (s : State) (p : Pll), ∃ t, exec (.pllLockLoss p) s = .next t ∧
    (s.d.awake = true → t.d.clk.locks.getLsbD (pllBit p) = false) ∧
    (∀ n, n ≠ pllBit p → t.d.clk.locks.getLsbD n = s.d.clk.locks.getLsbD n) ∧
    (s.d.awake = false ∨ s.d.clk.locks.getLsbD (pllBit p) = false → t = s) ∧
    (s.d.awake = true → s.d.clk.locks.getLsbD (pllBit p) = true → t.d.intPend.getLsbD 22 = true) ∧
    t.d.time = s.d.time ∧ t.d.fwd = s.d.fwd ∧ t.d.store = s.d.store ∧ t.d.ports = s.d.ports ∧ t.d.red = s.d.red) ∧
  (∀ s : State, ∃ t, exec .secondsCarry s = .next t ∧ (s.d.timeRuns = false → t = s) ∧
    (s.d.timeRuns = true → t.d.time.sec = s.d.time.sec + 1 ∧ t.d.time.ns = 0 ∧
      t.d.time.ppsOut = (s.d.time.ppsOut || (s.d.pastBoot && s.d.regBit (baseTime + 0x48) 31))) ∧
    t = s.put { s.d with time := t.d.time }) ∧
  (∀ s : State, ∃ t, exec .ppsWidthEnd s = .next t ∧ t.d.time = { s.d.time with ppsOut := false } ∧
    t = s.put { s.d with time := t.d.time }) ∧
  (∀ s : State, ∃ t, exec .ppsInEdge s = .next t ∧ (s.d.awake = false ∨ s.d.boot.st = .powerOn → t = s) ∧
    (s.d.awake = true → s.d.boot.st ≠ .powerOn → t.d.time.ppsInSec = s.d.time.sec ∧ t.d.time.ppsInNs = s.d.time.ns ∧
      t.d.ctr (ctrTime 0x130) = (s.d.ctr (ctrTime 0x130) + 1) % 2 ^ 64) ∧
    t.d.time.sec = s.d.time.sec ∧ t.d.time.ns = s.d.time.ns ∧ t.d.time.rate = s.d.time.rate ∧
    t.d.time.st = s.d.time.st ∧ t.d.fwd = s.d.fwd ∧ t.d.ports = s.d.ports) ∧
  (∀ (s : State) (trstN rising tms tdi : Bool), ∃ t, exec (.tckEdge trstN rising tms tdi) s = .next t ∧
    t.d.clk.tap.toNat = (if trstN = false then 0 else if rising = true then tapNext s.d.clk.tap.toNat tms
      else s.d.clk.tap.toNat) ∧
    (rising = true → t.d.clk.tdo = s.d.clk.tdo) ∧ t.d.clk.refLost = s.d.clk.refLost ∧
    t.d.clk.locks = s.d.clk.locks ∧ t.d.clk.temps = s.d.clk.temps ∧ t = s.put { s.d with clk := t.d.clk })

/-- The sensors: THERM_N is pulled low while a sensor reads 110 °C or more, released once every sensor reads
below 105 °C, kept between, and nothing else of the device changes (R544). -/
def Obligations.ThermalSensors : Prop :=
  ∀ (s : State) (l : List Int),
    ∃ t, exec (.thermalSensorScan l) s = .next t ∧ t.d.clk = { s.d.clk with temps := l, thermLow := t.d.clk.thermLow } ∧
      ((∃ x ∈ l, 110 ≤ x) → t.d.clk.thermLow = true) ∧
      ((∀ x ∈ l, x < 105) → t.d.clk.thermLow = false) ∧
      ((∀ x ∈ l, x < 110) → (∃ x ∈ l, 105 ≤ x) → t.d.clk.thermLow = s.d.clk.thermLow) ∧
      t = s.put { s.d with clk := t.d.clk }

/-- Host steering of the time base: a first step is taken as it stands, a second without FORCE is refused and
one with FORCE taken, an adjustment within JUMP_NS slews and the first after a step locks, one beyond it is
refused and counted, a rate is limited to 200 ppm, and with SV3 stopped none of them acts (R23, R437, R438,
R450, R489). -/
def Obligations.HostSteersTime : Prop :=
  (∀ (s : State) (c : CmdCtx) (sec : BitVec 48) (ns : Word), s.d.Runs (.timeStep c sec ns false) c 0x0802 .operator →
    s.d.svRuns 3 = true → ns.toNat < 1000000000 → s.d.time.stepped = false →
    ∃ t, exec (.timeStep c sec ns false) s = .next t ∧ t.d.time.sec = sec ∧ t.d.time.ns = ns.toNat ∧
      t.d.time.frac = 0 ∧ t.d.time.slewLeft = 0 ∧ t.d.time.stepped = true ∧ t.d.time.st = .acquiring ∧
      t.d.cnt.curShort = true) ∧
  (∀ (s : State) (c : CmdCtx) (sec : BitVec 48) (ns : Word), s.d.Runs (.timeStep c sec ns false) c 0x0802 .operator →
    s.d.svRuns 3 = true → ns.toNat < 1000000000 → s.d.time.stepped = true →
    exec (.timeStep c sec ns false) s = .next (s.put ((s.d.touch c).reply c 0x0802 .conflict .empty))) ∧
  (∀ (s : State) (c : CmdCtx) (o : Dword), s.d.Runs (.timeAdjust c o) c 0x0803 .operator →
    s.d.svRuns 3 = true → s.d.servo = 2 → o.toInt.natAbs ≤ s.d.jumpNs →
    ∃ t, exec (.timeAdjust c o) s = .next t ∧ t.d.time.slewLeft = o.toInt * 2 ^ 32 ∧ t.d.time.hostFresh = false ∧
      t.d.time.sec = s.d.time.sec ∧ t.d.time.ns = s.d.time.ns ∧
      (s.d.time.hostFresh = true → t.d.time.st = .locked)) ∧
  (∀ (s : State) (c : CmdCtx) (o : Dword), s.d.Runs (.timeAdjust c o) c 0x0803 .operator →
    s.d.svRuns 3 = true → s.d.servo = 2 → s.d.jumpNs < o.toInt.natAbs →
    ∃ t, exec (.timeAdjust c o) s = .next t ∧ t.d.time = s.d.time ∧ t.d.regBit (baseTime + 8) 4 = true ∧
      t.d.ctr (ctrTime 0x118) = (s.d.ctr (ctrTime 0x118) + 1) % 2 ^ 64) ∧
  (∀ (s : State) (c : CmdCtx) (o : Dword), s.d.Runs (.timeAdjust c o) c 0x0803 .operator → s.d.svRuns 3 = false →
    ∃ t, exec (.timeAdjust c o) s = .next t ∧ t.d.time = s.d.time ∧ t.d.faults.fseq = s.d.faults.fseq + 1) ∧
  (∀ (s : State) (c : CmdCtx) (r : BitVec 40), s.d.Runs (.timeRateSet c r) c 0x0804 .operator →
    s.d.svRuns 3 = true → s.d.servo = 2 →
    exec (.timeRateSet c r) s = .next (s.put
      (({ s.d.touch c with time := { s.d.time with rate := clampInt maxRate r.toInt } }).reply c 0x0804 .ok .empty)) ∧
    -(200000 * 65536) ≤ clampInt maxRate r.toInt ∧ clampInt maxRate r.toInt ≤ 200000 * 65536) ∧
  (∀ (s : State) (c : CmdCtx) (sec : BitVec 48) (ns : Word) (f : Bool),
    s.d.Runs (.timeStep c sec ns f) c 0x0802 (if f then .owner else .operator) → s.d.svRuns 3 = false →
    ∃ t, exec (.timeStep c sec ns f) s = .next t ∧ t.d.time = s.d.time ∧ t.d.faults.fseq = s.d.faults.fseq + 1) ∧
  (∀ (s : State) (c : CmdCtx) (r : BitVec 40), s.d.Runs (.timeRateSet c r) c 0x0804 .operator → s.d.svRuns 3 = false →
    ∃ t, exec (.timeRateSet c r) s = .next t ∧ t.d.time = s.d.time ∧ t.d.faults.fseq = s.d.faults.fseq + 1) ∧
  (∀ (s : State) (c : CmdCtx) (sec : BitVec 48) (ns : Word), s.d.Runs (.timeStep c sec ns true) c 0x0802 .owner →
    s.d.svRuns 3 = true → ns.toNat < 1000000000 →
    ∃ t, exec (.timeStep c sec ns true) s = .next t ∧ t.d.time.sec = sec ∧ t.d.time.ns = ns.toNat ∧
      t.d.time.stepped = true ∧ t.d.time.st = .acquiring)

/-- PTP: a Sync of the selected domain that is the first steps the time base, an unsupported message is only
counted, with AUTO_SWITCH off 3 s without a Sync of the steering domain lead to HOLDOVER, a master sends its
Sync with the next sequence, PTP_SET sets the links' modes, the two domains and AUTO_SWITCH, and a domain is
switched within JUMP_NS; beyond it the switch is refused, flagged and counted (R437 to R440, R449, R450). -/
def Obligations.PtpSteersTime : Prop :=
  (∀ (s : State) (r : PtpMeas), s.d.awake = true → s.d.svRuns 3 = true → (s.d.mg r.link.val).st = 5 →
    s.d.ptpMode r.link.val ≠ .off → r.supported = true → r.domain = s.d.time.domA.num →
    s.d.time.domA.num ≠ s.d.time.domB.num → s.d.time.selB = false → s.d.servo = 1 → s.d.clk.refLost = false →
    s.d.timeRuns = true → s.d.time.stepped = false → s.d.time.stepAt ≠ some s.d.now →
    ∃ t, exec (.ptpSyncReceived r) s = .next t ∧ t.d.time.stepped = true ∧ t.d.time.st = .acquiring ∧
      t.d.time.domA.offset = r.offset ∧ t.d.ptpState r.link.val = 1 ∧
      (t.d.time.sec, t.d.time.ns, t.d.time.frac) = s.d.time.plus r.offset) ∧
  (∀ (s : State) (r : PtpMeas), s.d.awake = true → s.d.svRuns 3 = true → (s.d.mg r.link.val).st = 5 →
    s.d.ptpMode r.link.val ≠ .off → r.supported = false →
    exec (.ptpSyncReceived r) s = .next (s.put (s.d.bump (ctrTime 0x110)))) ∧
  (∀ (s : State) (b : Bool), s.d.awake = true → s.d.svRuns 3 = true → b = s.d.time.selB →
    s.d.regBit (baseTime) 3 = false → s.d.boot.st ≠ .powerOn →
    ∃ t, exec (.syncTimeout b) s = .next t ∧ t.d.time.st = .holdover ∧ (t.d.domain b).st = 0) ∧
  (∀ (s : State) (m : Fin 2), s.d.awake = true → s.d.svRuns 3 = true → (s.d.mg m.val).st = 5 →
    s.d.ptpMode m.val ≠ .off → s.d.ptpState m.val = 2 →
    ∃ t, exec (.ptpSyncSend m) s = .next t ∧
      .ptp m.val (if m.val = 0 then s.d.time.ptpSeq0 else s.d.time.ptpSeq1) s.d.time.sec s.d.time.ns ∈ t.d.out ∧
      (if m.val = 0 then t.d.time.ptpSeq0 = s.d.time.ptpSeq0 + 1 else t.d.time.ptpSeq1 = s.d.time.ptpSeq1 + 1)) ∧
  (∀ (s : State) (c : CmdCtx) (l0 l1 : PtpMode) (a b : Byte) (w : Bool),
    s.d.Runs (.ptpSet c l0 l1 a b w) c 0x0805 .operator → s.d.svRuns 3 = true → a ≠ b →
    ∃ t, exec (.ptpSet c l0 l1 a b w) s = .next t ∧ t.d.time.mode0 = l0 ∧ t.d.time.mode1 = l1 ∧
      t.d.time.domA.num = a ∧ t.d.time.domB.num = b ∧ t.d.regBit baseTime 3 = w) ∧
  (∀ (s : State) (c : CmdCtx) (b : Bool), s.d.Runs (.ptpDomainSelect c b) c 0x0806 .operator →
    s.d.svRuns 3 = true → b ≠ s.d.time.selB → beyond (s.d.domain b).offset s.d.jumpNs = false →
    ∃ t, exec (.ptpDomainSelect c b) s = .next t ∧ t.d.time.selB = b) ∧
  (∀ (s : State) (c : CmdCtx) (b : Bool), s.d.Runs (.ptpDomainSelect c b) c 0x0806 .operator →
    s.d.svRuns 3 = true → b ≠ s.d.time.selB → beyond (s.d.domain b).offset s.d.jumpNs = true →
    ∃ t, exec (.ptpDomainSelect c b) s = .next t ∧ t.d.time = s.d.time ∧ t.d.regBit (baseTime + 8) 7 = true ∧
      t.d.regBit (baseTime + 8) 4 = true ∧ t.d.ctr (ctrTime 0x118) = (s.d.ctr (ctrTime 0x118) + 1) % 2 ^ 64)

/-! ### The register window, interrupts and mailboxes -/

/-- Interrupts: bits of GLB_INT_STATUS written 1 are cleared, and a bit of GLB_INT_TEST raises its vector
(R533). A write outside every register, or of the wrong width, is dropped and counted in GLB_REG_DROP; a write
of a register outside GLB and MBX whose write has no effect of its own takes its RW bits, clears the RW1C bits
written 1, keeps the others and does nothing else; a register of the whole device is one register in every
block (R9, R10, R100, R245, R528). -/
def Obligations.RegisterAndInterruptWrites : Prop :=
  (∀ (s : State) (a : RegActor) (v : Dword), s.d.Serves a 0x100 true →
    exec (.glbIntStatusWrite a v) s =
      .next (s.put { s.d with intPend := s.d.intPend &&& ~~~(v &&& 0xFFFFFFFFFFFF0000#64) })) ∧
  (∀ (s : State) (a : RegActor) (v : Dword), s.d.Serves a 0x110 true →
    ∃ t, exec (.glbIntTestWrite a v) s = .next t ∧ t.d.intPend = s.d.intPend ||| (v &&& 0xFFFFFFFFFFFF0000#64) ∧
      t.d.regs = s.d.regs) ∧
  (∀ (s : State) (a : RegActor) (v : Dword), s.d.Serves a 0x108 true →
    ∃ t, exec (.glbIntMaskWrite a v) s = .next t ∧ t.d.intPend = s.d.intPend ∧
      ∀ i, 16 ≤ i → i < 64 → t.d.regBit 0x108 i = v.getLsbD i) ∧
  (∀ (s : State) (a : RegActor) (off w : Nat) (v : Dword), s.d.Serves a off true → regAt off = none →
    exec (.registerWrite a off w v) s = .next (s.put (s.d.bump 0x800))) ∧
  (∀ (s : State) (a : RegActor) (off w : Nat) (v : Dword) (r : RegDef) (o : Nat), s.d.Serves a off true →
    regAt off = some (r, o) → r.width ≠ w → exec (.registerWrite a off w v) s = .next (s.put (s.d.bump 0x800))) ∧
  (∀ (s : State) (a : RegActor) (off w : Nat) (v : Dword), s.d.window a off true = .drop →
    exec (.registerWrite a off w v) s = .next (s.put (s.d.bump 0x800))) ∧
  (∀ (s : State) (a : RegActor) (p : Port) (v : Dword), s.d.Serves a (basePort p.val + 0x40) true →
    ∃ t, exec (.registerWrite a (basePort p.val + 0x40) 32 v) s = .next t ∧
      (∀ i, i < 32 → t.d.regBit (basePort p.val + 0x40) i =
        if (0xFF1 : Nat).testBit i then v.getLsbD i else s.d.regBit (basePort p.val + 0x40) i) ∧
      t.d.ports = s.d.ports ∧ t.d.ctrs = s.d.ctrs) ∧
  (∀ (s : State) (a : RegActor) (off w : Nat) (v : Dword) (r : RegDef) (o : Nat), s.d.Serves a off true →
    regAt off = some (r, o) → r.width = w → plainOffset off = true → plainOffset o = true →
    exec (.registerWrite a off w v) s = .next (s.put (s.d.plainWrite o v.toNat))) ∧
  (∀ (d : Dev) (off v i : Nat) (r : RegDef), regAt off = some (r, off) → i < 64 →
    (d.plainWrite off v).regBit off i =
      (if r.w1c.testBit i && v.testBit i then false else if r.rw.testBit i then v.testBit i else d.regBit off i)) ∧
  (∀ (d : Dev) (off v o : Nat), o ≠ off → (∀ r p, regAt off = some (r, p) → p = off) →
    (d.plainWrite off v).reg o = d.reg o) ∧
  (∀ (d : Dev) (off v : Nat), d.plainWrite off v = { d with regs := (d.plainWrite off v).regs }) ∧
  (∀ (off o : Nat) (r : RegDef), regAt off = some (r, o) → regAt o = some (r, o))

/-- Posts to a mailbox: a word of the right party joins the queue behind the others, an agent's post
interrupts device firmware, and at a full queue a post is dropped with its count (R392, R394). A POP read
takes the oldest word and returns it with its poster and VALID, and 0 from an empty queue (R393, R399). -/
def Obligations.MailboxQueues : Prop :=
  (∀ (s : State) (a : Fin 16) (n : Fin 16) (w : Word), s.d.Serves (.agent a) (baseMbx n.val) true →
    (s.d.mbox n.val).h2d.length < 16 →
    ∃ t, exec (.mbxH2dPostWrite (.agent a) n w) s = .next t ∧
      (t.d.mbox n.val).h2d = (s.d.mbox n.val).h2d ++ [(BitVec.ofNat 8 (0x10 + a.val), w)] ∧
      (t.d.mbox n.val).d2h = (s.d.mbox n.val).d2h ∧ t.d.regBit 0x101000 (16 + n.val) = true ∧
      t.d.out = .fwInt n.val :: s.d.out) ∧
  (∀ (s : State) (a : Fin 16) (n : Fin 16) (w : Word), s.d.Serves (.agent a) (baseMbx n.val) true →
    16 ≤ (s.d.mbox n.val).h2d.length →
    ∃ t, exec (.mbxH2dPostWrite (.agent a) n w) s = .next t ∧ t.d.mbox n.val = s.d.mbox n.val ∧
      t.d.ctr 0x101100 = (s.d.ctr 0x101100 + 1) % 2 ^ 64 ∧ t.d.regBit (baseMbx n.val + 0x20) 16 = true) ∧
  (∀ (s : State) (v : Fin 4) (n : Fin 16) (w : Word), s.d.Serves (.sv v) (baseMbx n.val + 0x10) true →
    (s.d.mbox n.val).d2h.length < 16 →
    ∃ t, exec (.mbxD2hPostWrite (.sv v) n w) s = .next t ∧
      (t.d.mbox n.val).d2h = (s.d.mbox n.val).d2h ++ [(BitVec.ofNat 8 (0x20 + v.val), w)] ∧
      (t.d.mbox n.val).h2d = (s.d.mbox n.val).h2d ∧ t.d.regBit 0x101000 n.val = true) ∧
  (∀ (s : State) (v : Fin 4) (n : Fin 16) (x : Byte × Word) (r : List (Byte × Word)),
    s.d.Serves (.sv v) (baseMbx n.val + 8) false → (s.d.mbox n.val).h2d = x :: r →
    ∃ t, exec (.mbxH2dPopRead (.sv v) n) s = .next t ∧ (t.d.mbox n.val).h2d = r ∧
      (t.d.mbox n.val).d2h = (s.d.mbox n.val).d2h ∧
      t.d.out = .regValue (BitVec.ofNat 64 (2 ^ 63 + x.1.toNat * 2 ^ 32 + x.2.toNat)) :: s.d.out) ∧
  (∀ (s : State) (a : Fin 16) (n : Fin 16) (x : Byte × Word) (r : List (Byte × Word)),
    s.d.Serves (.agent a) (baseMbx n.val + 0x18) false → (s.d.mbox n.val).d2h = x :: r →
    ∃ t, exec (.mbxD2hPopRead (.agent a) n) s = .next t ∧ (t.d.mbox n.val).d2h = r ∧
      (t.d.mbox n.val).h2d = (s.d.mbox n.val).h2d ∧
      t.d.out = .regValue (BitVec.ofNat 64 (2 ^ 63 + x.1.toNat * 2 ^ 32 + x.2.toNat)) :: s.d.out) ∧
  (∀ (s : State) (a : Fin 16) (n : Fin 16), s.d.Serves (.agent a) (baseMbx n.val + 0x18) false →
    (s.d.mbox n.val).d2h = [] →
    exec (.mbxD2hPopRead (.agent a) n) s = .next (s.put (s.d.send (.regValue 0))))

/-- The lock register: a read of a free lock returns 0 and takes it, a read of a held one returns the owner,
the owner's write frees it, another party's is counted, and a break frees it (R395 to R397). -/
def Obligations.MailboxLock : Prop :=
  (∀ (s : State) (a : RegActor) (n : Fin 16), s.d.Serves a (baseMbx n.val + 0x28) false → (s.d.mbox n.val).lock = 0 →
    ∃ t, exec (.mbxLockRead a n) s = .next t ∧ (t.d.mbox n.val).lock = BitVec.ofNat 8 (RegActor.num a) ∧
      t.d.out = .regValue 0 :: s.d.out) ∧
  (∀ (s : State) (a : RegActor) (n : Fin 16), s.d.Serves a (baseMbx n.val + 0x28) false → (s.d.mbox n.val).lock ≠ 0 →
    exec (.mbxLockRead a n) s =
      .next (s.put (s.d.send (.regValue (BitVec.ofNat 64 (s.d.mbox n.val).lock.toNat))))) ∧
  (∀ (s : State) (a : RegActor) (n : Fin 16) (w : Word), s.d.Serves a (baseMbx n.val + 0x28) true →
    (s.d.mbox n.val).lock.toNat = RegActor.num a →
    ∃ t, exec (.mbxLockWrite a n w) s = .next t ∧ (t.d.mbox n.val).lock = 0 ∧
      (t.d.mbox n.val).h2d = (s.d.mbox n.val).h2d ∧ (t.d.mbox n.val).d2h = (s.d.mbox n.val).d2h) ∧
  (∀ (s : State) (a : RegActor) (n : Fin 16) (w : Word), s.d.Serves a (baseMbx n.val + 0x28) true →
    (s.d.mbox n.val).lock.toNat ≠ RegActor.num a →
    exec (.mbxLockWrite a n w) s = .next (s.put (s.d.bump 0x101108))) ∧
  (∀ (s : State) (a : RegActor) (w : Word), s.d.Serves a 0x101008 true →
    ∃ t, exec (.mbxLockBreakWrite a w) s = .next t ∧
      (∀ n, n < 16 → w.getLsbD n = true → (t.d.mbox n).lock = 0) ∧
      (∀ n, n < 16 → w.getLsbD n = false → t.d.mbox n = s.d.mbox n))

/-- Reading TIME_NOW_NS or TIME_PPS_IN_NS returns nanoseconds and latches the seconds for that party, and the
read of a bandwidth peak returns and clears it (R434, R448, R510). Register writes with an effect of their
own: ring tails, ring control, loopback before READY, the store limits, the sweeper's control, and the
programmable counters' selection (R118, R120, R520, R523, R534). Every register of the window can be read:
where none starts, or for another width, zero is returned and the drop counted; the rows for the reads that
change state are cases of it; WO registers read as zero, RO and RW fields as they stand, reserved ones as
zero; and the values of the status registers at reset (R9, R10, R100, R135, R245, R308, R528, R533). -/
def Obligations.RegisterEffects : Prop :=
  (∀ (s : State) (a : RegActor), s.d.Serves a (baseTime + 0x10) false →
    ∃ t, exec (.timeNowNsRead a) s = .next t ∧ t.d.out = .regValue (BitVec.ofNat 64 s.d.time.ns) :: s.d.out ∧
      Tab.find t.d.time.latchNow (RegActor.num a) = some s.d.time.sec ∧ t.d.time.sec = s.d.time.sec) ∧
  (∀ (s : State) (a : RegActor), s.d.Serves a (baseTime + 0x30) false →
    ∃ t, exec (.timePpsInNsRead a) s = .next t ∧ t.d.out = .regValue (BitVec.ofNat 64 s.d.time.ppsInNs) :: s.d.out ∧
      Tab.find t.d.time.latchPps (RegActor.num a) = some s.d.time.ppsInSec) ∧
  (∀ (s : State) (a : RegActor) (p : Port) (tx : Bool),
    s.d.Serves a (basePort p.val + 0x310 + (if tx then 8 else 0)) false →
    ∃ t, exec (.portBwPeakRead a p tx) s = .next t ∧
      (let w := Tab.get t.d.cnt.bw p.val {}; let v := Tab.get s.d.cnt.bw p.val {}
       t.d.out = .regValue (BitVec.ofNat 64 ((if tx then v.txPeakSeq else v.rxPeakSeq).toNat <<< 48 |||
         (if tx then v.txPeak else v.rxPeak) % 2 ^ 48)) :: s.d.out ∧
       w = if tx then { v with txPeak := 0, txPeakSeq := 0 } else { v with rxPeak := 0, rxPeakSeq := 0 }) ∧
      (∀ q, q ≠ p.val → Tab.get t.d.cnt.bw q {} = Tab.get s.d.cnt.bw q {})) ∧
  (∀ (s : State) (a : RegActor) (n : Fin 4) (v : Word), s.d.Serves a (0x100C + 0x40 * n.val) true →
    ∃ t, exec (.glbTxrTailWrite a n v) s = .next t ∧ t.d.regBits (0x100C + 0x40 * n.val) 15 0 = v.toNat % 65536 ∧
      t.d.heads = s.d.heads) ∧
  (∀ (s : State) (a : RegActor) (v : Word), s.d.Serves a 0x110C true →
    ∃ t, exec (.glbRxrTailWrite a v) s = .next t ∧ t.d.regBits 0x110C 15 0 = v.toNat % 65536 ∧ t.d.heads = s.d.heads) ∧
  (∀ (s : State) (a : RegActor) (n : Fin 5) (v : Word), s.d.Serves a (0x1008 + 0x40 * n.val) true →
    s.d.regBit (0x1008 + 0x40 * n.val) 0 = false →
    ∃ t, exec (.glbRingCtlWrite a n v) s = .next t ∧
      t.d.regBits (0x1008 + 0x40 * n.val) 20 16 = bitsOf v.toNat 20 16 ∧
      t.d.regBit (0x1008 + 0x40 * n.val) 0 = v.getLsbD 0) ∧
  (∀ (s : State) (a : RegActor) (n : Fin 5) (v : Word), s.d.Serves a (0x1008 + 0x40 * n.val) true →
    s.d.regBit (0x1008 + 0x40 * n.val) 0 = true → bitsOf v.toNat 20 16 ≠ s.d.regBits (0x1008 + 0x40 * n.val) 20 16 →
    exec (.glbRingCtlWrite a n v) s = .next (s.put (s.d.bump 0x800))) ∧
  (∀ (s : State) (a : RegActor) (p : Port) (v : Word), s.d.Serves a (basePort p.val + 0x4C) true →
    s.d.boot.st = .boot → ∃ t, exec (.portLoopCtlWrite a p v) s = .next t ∧
      t.d.regBits (basePort p.val + 0x4C) 1 0 = v.toNat % 4 ∧ t.d.ports = s.d.ports) ∧
  (∀ (s : State) (a : RegActor) (n : Fin 64) (v : Word), s.d.Serves a (baseCnt + 0x200 + 8 * n.val) true →
    ∃ t, exec (.cntPevSelWrite a n v) s = .next t ∧ Tab.get t.d.cnt.pev n.val 0 = 0 ∧
      t.d.regBits (baseCnt + 0x200 + 8 * n.val) 23 0 = v.toNat % 2 ^ 24) ∧
  (∀ (s : State) (a : RegActor) (v : Word), s.d.Serves a (baseStore + 4) true → s.d.fwd.oldLive = false →
    ∃ t, exec (.storeResLimitWrite a v) s = .next t ∧ t.d.store.limit = max 1000 (min 0x3B9ACA00 v.toNat) ∧
      t.d.store.frames = s.d.store.frames ∧ t.d.store.queues = s.d.store.queues) ∧
  (∀ (s : State) (a : RegActor) (v : Word), s.d.Serves a (baseStore + 4) true → s.d.fwd.oldLive = true →
    ∃ t, exec (.storeResLimitWrite a v) s = .next t ∧ t.d.store.limit = s.d.store.limit ∧
      t.d.store.limitPend = some (max 1000 (min 0x3B9ACA00 v.toNat))) ∧
  (∀ (s : State) (a : RegActor) (c : Fin 8) (v : Word), s.d.Serves a (baseStore + 0x20 + 4 * c.val) true →
    (s.d.plainWrite (baseStore + 0x20 + 4 * c.val) v.toNat).sharedSize < 1048576 →
    ∃ t, exec (.storeClassCfgWrite a c v) s = .next t ∧
      t.d.reg (baseStore + 0x20 + 4 * c.val) = s.d.reg (baseStore + 0x20 + 4 * c.val) ∧
      t.d.regBit (baseStore + 8) 63 = true) ∧
  (∀ (s : State) (a : RegActor) (c : Fin 8) (v : Word), s.d.Serves a (baseStore + 0x20 + 4 * c.val) true →
    1048576 ≤ (s.d.plainWrite (baseStore + 0x20 + 4 * c.val) v.toNat).sharedSize →
    ∃ t, exec (.storeClassCfgWrite a c v) s = .next t ∧
      t.d.regBits (baseStore + 0x20 + 4 * c.val) 23 0 = v.toNat % 2 ^ 24) ∧
  (∀ (s : State) (a : RegActor) (v : Word), s.d.Serves a (baseFwd 0 + 0x10) true →
    ∃ t, exec (.fwdAgeCtlWrite a v) s = .next t ∧ t.d.regBit (baseFwd 0 + 0x10) 0 = v.getLsbD 0 ∧
      t.d.regBits (baseFwd 0 + 0x10) 31 12 = v.toNat / 4096 ∧ t.d.fwd = s.d.fwd) ∧
  (∀ (d : Dev) (a : RegActor) (off w : Nat), (∀ r, regAt off = some r → r.1.width ≠ w) →
    d.readWindow a off w = (d.bump 0x800, 0)) ∧
  (∀ (d : Dev) (a : RegActor) (off w : Nat) (r : RegDef × Nat), regAt off = some r → r.1.width = w →
    d.readWindow a off w = (d.afterRead a off, d.readReg a off)) ∧
  (∀ (s : State) (a : RegActor) (n : Fin 16) (p : Port) (tx : Bool),
    exec (.timeNowNsRead a) s = .next (s.put (s.d.registerRead a (baseTime + 0x10) 64)) ∧
    exec (.timePpsInNsRead a) s = .next (s.put (s.d.registerRead a (baseTime + 0x30) 64)) ∧
    exec (.mbxH2dPopRead a n) s = .next (s.put (s.d.registerRead a (baseMbx n.val + 8) 64)) ∧
    exec (.mbxD2hPopRead a n) s = .next (s.put (s.d.registerRead a (baseMbx n.val + 0x18) 64)) ∧
    exec (.mbxLockRead a n) s = .next (s.put (s.d.registerRead a (baseMbx n.val + 0x28) 32)) ∧
    exec (.portBwPeakRead a p tx) s =
      .next (s.put (s.d.registerRead a (basePort p.val + 0x310 + (if tx then 8 else 0)) 64))) ∧
  (∀ (d : Dev) (a : RegActor) (n : Fin 16), d.readReg a 0x110 = 0 ∧ d.readReg a 0x101008 = 0 ∧
    d.readReg a (baseMbx n.val) = 0 ∧ d.readReg a (baseMbx n.val + 0x10) = 0) ∧
  (∀ (d : Dev) (a : RegActor) (p : Port), d.readReg a (basePort p.val + 0x44) =
    d.reg (basePort p.val + 0x44) % 2 + 2 * (d.port p.val).held.toNat) ∧
  (∀ (d : Dev) (a : RegActor), d.readReg a (baseThr + 4) < 2 → d.thr.shards = [] ∧ d.thr.jobs = []) ∧
  (∀ a : RegActor, ∀ e ∈ [(baseFwd 0, 4), (baseFwd 0 + 0x10, 0x3C001), (baseFwd 0 + 0x14, 1), (baseFwd 1, 4),
      (baseStore + 8, 3977568), (baseStore + 0x18, 1024 * 65536 + 16 * 256 + 16),
      (baseRed 3 + 0xB00, 32768 * 65536 + 2048), (baseRed 0 + 0x800, 0xFF003FFE), (baseMem + 0x10, 0x10021F),
      (basePort 5 + 8, 1), (baseMgl 1 + 8, 0x10), (baseTime + 0x40, 2 ^ 56)],
    Dev.reset.readReg a e.1 = e.2)

/-! ### Counters, windows and the glean buffer -/

/-- Bandwidth windows: at a boundary every port's counts become the last window, peaks rise, and WSEQ
advances; a window that was cut only begins anew, and both only while SV3 runs; a write of WIN cuts the window
and clears the peaks (R23, R509, R510). The commands of the counters: selection clears its counter, GLEAN_SET
writes the two registers and ignores their reserved and RO bits, arming restarts the samplers and disarming
keeps the buffer (R9, R10, R512, R517, R520). -/
def Obligations.CountersAndWindows : Prop :=
  (∀ (s : State) (p : Nat), s.d.awake = true → s.d.svRuns 3 = true → s.d.cnt.curShort = false →
    ∃ t, exec .bwWindowEnd s = .next t ∧ t.d.cnt.wseq = s.d.cnt.wseq + 1 ∧ t.d.cnt.lastShort = false ∧
      (let w := Tab.get t.d.cnt.bw p {}; let v := Tab.get s.d.cnt.bw p {}
       w.rxLast = v.rxAcc ∧ w.txLast = v.txAcc ∧ w.rxAcc = 0 ∧ w.txAcc = 0 ∧
       w.rxPeak = max v.rxPeak v.rxAcc ∧ w.txPeak = max v.txPeak v.txAcc)) ∧
  (∀ s : State, s.d.awake = true → s.d.svRuns 3 = true → s.d.cnt.curShort = true →
    ∃ t, exec .bwWindowEnd s = .next t ∧ t.d.cnt.curShort = false ∧ t.d.cnt.wseq = s.d.cnt.wseq) ∧
  (∀ s : State, s.d.svRuns 3 = false → exec .bwWindowEnd s = .next s) ∧
  (∀ (s : State) (a : RegActor) (v : Word) (p : Nat), s.d.Serves a baseCnt true →
    ∃ t, exec (.cntBwCtlWrite a v) s = .next t ∧ t.d.regBits baseCnt 4 0 = v.toNat % 32 ∧ t.d.cnt.curShort = true ∧
      (Tab.get t.d.cnt.bw p {}).rxPeak = 0 ∧ (Tab.get t.d.cnt.bw p {}).txPeak = 0) ∧
  (∀ (s : State) (c : CmdCtx) (n : Byte) (l : Bool) (e : Byte) (ix : BitVec 16),
    s.d.Runs (.cntPevSet c n l e ix) c 0x0906 .operator → s.d.svRuns 3 = true → n.toNat < 64 →
    ∃ t, exec (.cntPevSet c n l e ix) s = .next t ∧ Tab.get t.d.cnt.pev n.toNat 0 = 0 ∧
      t.d.regBits (baseCnt + 0x200 + 8 * n.toNat) 23 0 = e.toNat * 65536 + ix.toNat ∧
      t.d.regBit (baseCnt + 0x200 + 8 * n.toNat) 31 = l) ∧
  (∀ (s : State) (c : CmdCtx) (w : Word) (f : Dword), s.d.Runs (.gleanSet c w f) c 0x0903 .operator →
    s.d.svRuns 3 = true →
    ∃ t, exec (.gleanSet c w f) s = .next t ∧ t.d.reg (baseCnt + 8) = w.toNat &&& 0xFFC0E ∧
      t.d.reg (baseCnt + 0x10) = f.toNat - f.toNat % 2 ^ 15 ∧
      t.d.cnt = s.d.cnt) ∧
  (∀ (s : State) (c : CmdCtx), s.d.Runs (.gleanArm c true) c 0x0904 .operator → s.d.svRuns 3 = true →
    ∃ t, exec (.gleanArm c true) s = .next t ∧
      t.d.cnt = { s.d.cnt with armed := true, cand := [], sinceArm := 0 }) ∧
  (∀ (s : State) (c : CmdCtx), s.d.Runs (.gleanArm c false) c 0x0904 .operator → s.d.svRuns 3 = true →
    ∃ t, exec (.gleanArm c false) s = .next t ∧ t.d.cnt = { s.d.cnt with armed := false })

/-! ### Howlink and the management links -/

/-- Howlink: a lane failure takes the spare, then leaves x8; going down frees the agents' locks and its event
queue; coming up needs a link that training has left with lanes and a version (R288, R289, R397). -/
def Obligations.HowlinkEvents : Prop :=
  (∀ (s : State) (l : Fin 17), s.d.awake = true → s.d.svRuns 2 = true → s.d.hl.trained = true →
    s.d.hl.spareUsed = false → s.d.hl.lanes = 16 → l.val < 16 →
    ∃ t, exec (.howlinkLaneFailure l) s = .next t ∧
      t.d.hl = { s.d.hl with spareUsed := true, failedLane := BitVec.ofNat 5 l.val } ∧
      t.d.faults.fseq = s.d.faults.fseq + 1) ∧
  (∀ (s : State) (l : Fin 17), s.d.awake = true → s.d.svRuns 2 = true → s.d.hl.trained = true →
    s.d.hl.spareUsed = true → s.d.hl.lanes = 16 → s.d.hl.carries l.val = true →
    ∃ t, exec (.howlinkLaneFailure l) s = .next t ∧ t.d.hl.lanes = 8 ∧ t.d.hl.up = s.d.hl.up ∧
      t.d.hl.upper = decide (s.d.hl.place l.val < 8)) ∧
  (∀ s : State, s.d.awake = true → s.d.hl.up = true →
    ∃ t, exec .howlinkLinkDown s = .next t ∧ t.d.hl = { s.d.hl with up := false } ∧ t.d.cmd.evHowlink.queue = [] ∧
      t.d.mem.snoop = [] ∧ t.d.mem.waits = [] ∧
      ∀ n, n < 16 → isAgentNo (t.d.mbox n).lock = false) ∧
  (∀ s : State, s.d.awake = true → s.d.hl.up = false → s.d.hl.trained = true → s.d.hl.verMismatch = false →
    s.d.hl.lanes ≠ 0 →
    ∃ t, exec .howlinkLinkUp s = .next t ∧ t.d.hl = { s.d.hl with up := true } ∧ t.d.intPend = s.d.intPend ∧
      t.d.mbx = s.d.mbx)

/-- A management link passes its stages: signal in DETECT, TRAIN and LOCK leads on, each with its own effect,
with what was lost in a stage found again, and a limit exceeded returns it to DETECT with the count (R385,
R386). The exchange of a management link: a valid pair of the same major version admits once the
acknowledgement has come, one of another leaves INCOMPATIBLE, the pair is repeated, and a keep-alive is sent
in ACTIVE; a packet that fails its checks is counted, outside ACTIVE as one that came outside it too (R383,
R386, R387). -/
def Obligations.MgBringUp : Prop :=
  (∀ (s : State) (m : Fin 2), s.d.awake = true → (s.d.mg m.val).st = 1 →
    exec (.mgSignalDetect m) s = .next (s.put (s.d.setMg m.val { s.d.mg m.val with st := 2, los := false }))) ∧
  (∀ (s : State) (m : Fin 2), s.d.awake = true → (s.d.mg m.val).st = 2 →
    exec (.mgSignalDetect m) s = .next (s.put (s.d.setMg m.val { s.d.mg m.val with st := 3, los := false, sync := true }))) ∧
  (∀ (s : State) (m : Fin 2), s.d.awake = true → (s.d.mg m.val).st = 3 →
    ∃ t, exec (.mgSignalDetect m) s = .next t ∧ (t.d.mg m.val).st = 4 ∧
      (t.d.mg m.val).los = false ∧ (t.d.mg m.val).sync = true ∧
      (t.d.mg m.val).round = (s.d.mg m.val).round + 1 ∧ (t.d.mg m.val).pairSeen = false ∧
      (t.d.mg m.val).ackSeen = false ∧ t.d.mg (1 - m.val) = s.d.mg (1 - m.val)) ∧
  (∀ (s : State) (m : Fin 2), s.d.awake = true → (s.d.mg m.val).st ∈ [2, 3, 4] → s.d.mgMode m.val ≠ 0 →
    s.d.boot.st ≠ .powerOn → s.d.boot.st ≠ .selfTest →
    ∃ t, exec (.mgStageTimeout m) s = .next t ∧ (t.d.mg m.val).st = 1 ∧
      t.d.ctr (ctrMgl m.val 0x128) = (s.d.ctr (ctrMgl m.val 0x128) + 1) % 2 ^ 64) ∧
  (∀ (s : State) (m : Fin 2) (p : List Byte), s.d.awake = true → (s.d.mg m.val).st = 4 → p.length = 48 →
    pairValid (LinkMsg.ofBytes (p.take 24)) (LinkMsg.ofBytes (p.drop 24)) = true →
    (s.d.mg m.val).ackSeen = true → LinkMsg.field (LinkMsg.ofBytes (p.drop 24)) 2 1 = 1 →
    ∃ t, exec (.mgExchPacket m p) s = .next t ∧ (t.d.mg m.val).st = 5 ∧ (t.d.mg m.val).los = false ∧
      (t.d.mg m.val).sync = true ∧
      (t.d.mg m.val).partnerId = LinkMsg.ofBytes (p.take 24)) ∧
  (∀ (s : State) (m : Fin 2) (p : List Byte), s.d.awake = true → (s.d.mg m.val).st = 4 → p.length = 48 →
    pairValid (LinkMsg.ofBytes (p.take 24)) (LinkMsg.ofBytes (p.drop 24)) = true →
    LinkMsg.field (LinkMsg.ofBytes (p.drop 24)) 2 1 ≠ 1 →
    ∃ t, exec (.mgExchPacket m p) s = .next t ∧ (t.d.mg m.val).st = 11) ∧
  (∀ (s : State) (m : Fin 2), s.d.awake = true → (s.d.mg m.val).st = 5 →
    exec (.mgExchRepeat m) s = .next (s.put (s.d.mgSend m.val 3 (s.d.mgPair m.val))) ∧
    exec (.mgKeepSend m) s = .next (s.put (s.d.mgSend m.val 4 []))) ∧
  (∀ (s : State) (m : Fin 2) (typ seg : Byte) (len : BitVec 16) (r : Word) (p : List Byte) (crc : Word) (e : Bool),
    s.d.awake = true → (s.d.mg m.val).st = 5 → s.d.mgMode m.val = 1 →
    (crc32 (mgHeader typ seg len r ++ p) ≠ crc ∨ e = false ∨ p.length ≠ len.toNat) →
    exec (.mgPacketReceived m (.glm typ seg len r p crc e)) s = .next (s.put (s.d.bump (ctrMgl m.val 0x110)))) ∧
  (∀ (s : State) (m : Fin 2) (typ seg : Byte) (len : BitVec 16) (r : Word) (p : List Byte) (crc : Word) (e : Bool),
    s.d.awake = true → (s.d.mg m.val).st ≠ 0 → (s.d.mg m.val).st ≠ 5 → s.d.mgMode m.val = 1 →
    (crc32 (mgHeader typ seg len r ++ p) ≠ crc ∨ e = false ∨ p.length ≠ len.toNat) →
    exec (.mgPacketReceived m (.glm typ seg len r p crc e)) s =
      .next (s.put ((s.d.bump (ctrMgl m.val 0x138)).bump (ctrMgl m.val 0x110)))) ∧
  (∀ (s : State) (m : Fin 2) (seg : Byte) (len : BitVec 16) (r : Word) (p : List Byte),
    s.d.awake = true → (s.d.mg m.val).st = 5 → s.d.mgMode m.val = 1 → p.length = len.toNat → p.length ≤ 4608 →
    exec (.mgPacketReceived m (.glm 4 seg len r p (crc32 (mgHeader 4 seg len r ++ p)) true)) s =
      .next (s.put (s.d.bump (ctrMgl m.val 0x100))))

/-- A management link that leaves ACTIVE ends its sessions, empties its event queue, rolls back its OPEN
transaction and shows why (R388); where it runs, it starts again from DETECT. -/
def Obligations.MgLeavesActive : Prop :=
  let left := fun (s t : State) (m code : Nat) => (t.d.mg m).sessions = [] ∧ (t.d.mg m).lastExit = code ∧
    (t.d.mg m).st ≤ 1 ∧ (t.d.evDest (mgSource m)).queue = [] ∧ t.d.openTxn (mgSource m) = none ∧
    t.d.fwd = s.d.fwd ∧ t.d.ports = s.d.ports ∧ t.d.hl = s.d.hl
  (∀ (s : State) (m : Fin 2), (s.d.cmd.txns.filter fun t => t.src == mgSource m.val && decide (t.st = .isOpen)).length ≤ 1 →
    s.d.awake = true → (s.d.mg m.val).st = 5 →
    (∃ t, exec (.mgKeepTimeout m) s = .next t ∧ left s t m.val 3) ∧
    ((s.d.mg m.val).los = false → ∃ t, exec (.mgLossOfSignal m) s = .next t ∧ left s t m.val 1 ∧ (t.d.mg m.val).los = true) ∧
    ((s.d.mg m.val).sync = true → ∃ t, exec (.mgSyncLoss m) s = .next t ∧ left s t m.val 2) ∧
    (s.d.mgMode m.val = 2 → ∃ t, exec (.mgAnRestart m) s = .next t ∧ left s t m.val 5)) ∧
  (∀ (s : State) (m : Fin 2) (a : RegActor) (v : Word),
    (s.d.cmd.txns.filter fun t => t.src == mgSource m.val && decide (t.st = .isOpen)).length ≤ 1 →
    s.d.Serves a (baseMgl m.val) true → (s.d.mg m.val).st = 5 →
    ∃ t, exec (.mglCtlWrite a m v) s = .next t ∧ left s t m.val 6 ∧ t.d.regBits (baseMgl m.val) 1 0 = v.toNat % 4)

/-! ### Cores, banks and faults -/

/-- A core whose check failed stops; one that passes its retest, and has not failed within the second before,
runs again with a TRANSIENT record; one that fails gives way to its idle spare, else its position is empty,
and waits while a bank's replacement or an expander's copy runs; a word of core SRAM that fails its code
leaves the core running, and a row that fails twice within 1 s fails its position (R29, R485, R486, R487; that
the device remembers when a row failed is log entry 175's reading). A failing store bank takes a spare of its
own die, or with none left its position closes; a failure found while a replacement runs waits, and the
replacement ends when the failing bank holds no live cell (R21, R29, R131, R132). The commands of group 0x0C
that act: a forced core swap stops the position and holds its reply, a forced bank swap starts one, and an
injected error waits for the next read of its word, one error of two symbols with another that the word holds
(R499, R500). -/
def Obligations.CoresAndBanks : Prop :=
  (∀ (s : State) (k q : Fin 8), s.d.awake = true → (s.d.corePos (8 * k.val + q.val)).st = .filled →
    ∃ t, exec (.coreCheckFailure k q .idle false) s = .next t ∧ (t.d.corePos (8 * k.val + q.val)).st = .stopped ∧
      (t.d.corePos (8 * k.val + q.val)).failAt = some s.d.now ∧
      ∀ n, n ≠ 8 * k.val + q.val → t.d.corePos n = s.d.corePos n) ∧
  (∀ (s : State) (k q : Fin 8), s.d.awake = true → s.d.svRuns 2 = true →
    (s.d.corePos (8 * k.val + q.val)).st = .stopped → (s.d.corePos (8 * k.val + q.val)).prevFail = none →
    s.d.forced (8 * k.val + q.val) = false → s.d.faults.failures = [] →
    ∃ t, exec (.coreRetestComplete k q true) s = .next t ∧ (t.d.corePos (8 * k.val + q.val)).st = .filled ∧
      t.d.faults.fseq = s.d.faults.fseq + 1 ∧ t.d.faults.spareCores = s.d.faults.spareCores) ∧
  (∀ (s : State) (k q : Fin 8), s.d.awake = true → s.d.svRuns 2 = true →
    (s.d.corePos (8 * k.val + q.val)).st = .stopped → s.d.spareCore (k.val / 2) = 0 →
    s.d.faults.failures = [] → s.d.store.replacing = none → s.d.mem.copyExp = none →
    ∃ t, exec (.coreRetestComplete k q false) s = .next t ∧ (t.d.corePos (8 * k.val + q.val)).st = .filled ∧
      (t.d.corePos (8 * k.val + q.val)).spare = k.val / 2 + 1 ∧ t.d.spareCore (k.val / 2) = 1) ∧
  (∀ (s : State) (k q : Fin 8), s.d.awake = true → s.d.svRuns 2 = true →
    (s.d.corePos (8 * k.val + q.val)).st = .stopped → s.d.spareCore (k.val / 2) ≠ 0 →
    s.d.faults.failures = [] → s.d.store.replacing = none → s.d.mem.copyExp = none →
    ∃ t, exec (.coreRetestComplete k q false) s = .next t ∧ (t.d.corePos (8 * k.val + q.val)).st = .empty) ∧
  (∀ (s : State) (k q : Fin 8), s.d.awake = true → s.d.svRuns 2 = true →
    (s.d.corePos (8 * k.val + q.val)).st = .stopped → s.d.faults.failures = [] →
    (s.d.store.replacing.isSome = true ∨ s.d.mem.copyExp.isSome = true) →
    ∃ t, exec (.coreRetestComplete k q false) s = .next t ∧ t.d.faults.spareCores = s.d.faults.spareCores ∧
      (∀ n, t.d.corePos n = s.d.corePos n) ∧
      t.d.faults.failures.map (fun f => (f.isBank, f.ix)) = [(false, 8 * k.val + q.val)]) ∧
  (∀ (s : State) (k q : Fin 8) (row ctx : BitVec 16) (seq : Word) (b : Bool), s.d.awake = true → s.d.svRuns 2 = true →
    (s.d.corePos (8 * k.val + q.val)).st = .filled → s.d.chunk? ctx.toNat seq = none → s.d.faults.failures = [] →
    Tab.find s.d.faults.sramAt ((8 * k.val + q.val) * 65536 + row.toNat) = none →
    ∃ t, exec (.coreCheckFailure k q (.sram row ctx seq) b) s = .next t ∧ (∀ n, t.d.corePos n = s.d.corePos n) ∧
      t.d.faults.fseq = s.d.faults.fseq + 1 ∧
      Tab.find t.d.faults.sramAt ((8 * k.val + q.val) * 65536 + row.toNat) = some s.d.now) ∧
  (∀ (s : State) (k q : Fin 8) (row ctx : BitVec 16) (seq : Word) (b : Bool) (n : Nat), s.d.awake = true →
    s.d.svRuns 2 = true → (s.d.corePos (8 * k.val + q.val)).st = .filled → s.d.chunk? ctx.toNat seq = none →
    s.d.faults.failures = [] → s.d.store.replacing = none → s.d.mem.copyExp = none → s.d.spareCore (k.val / 2) = 0 →
    Tab.find s.d.faults.sramAt ((8 * k.val + q.val) * 65536 + row.toNat) = some n → s.d.now ≤ n + 1600000000 →
    ∃ t, exec (.coreCheckFailure k q (.sram row ctx seq) b) s = .next t ∧
      (t.d.corePos (8 * k.val + q.val)).spare = k.val / 2 + 1 ∧ t.d.spareCore (k.val / 2) = 1) ∧
  (∀ (s : State) (n : Fin 4) (b : Bool), s.d.awake = true → s.d.svRuns 2 = true → s.d.spareCore n.val ≠ 1 →
    exec (.spareIdleTest n b) s = .next (s.put (s.d.setSpareCore n.val (if b then 0 else 2)))) ∧
  (∀ (s : State) (b : Fin 1024), s.d.awake = true → s.d.svRuns 2 = true → s.d.store.replacing = none → s.d.mem.copyExp = none →
    s.d.faults.failures = [] → s.d.store.closed.contains b.val = false → s.d.bankSpares (b.val / 512) ≠ 0 →
    ∃ t, exec (.bankReplacementStart b .uncorrectable) s = .next t ∧ t.d.store.replacing = some b.val ∧
      t.d.bankSpares (b.val / 512) = s.d.bankSpares (b.val / 512) - 1 ∧
      t.d.bankSpares (1 - b.val / 512) = s.d.bankSpares (1 - b.val / 512) ∧ t.d.store.closed = s.d.store.closed) ∧
  (∀ (s : State) (b : Fin 1024), s.d.awake = true → s.d.svRuns 2 = true → s.d.store.replacing = none → s.d.mem.copyExp = none →
    s.d.faults.failures = [] → s.d.store.closed.contains b.val = false → s.d.bankSpares (b.val / 512) = 0 →
    ∃ t, exec (.bankReplacementStart b .uncorrectable) s = .next t ∧ t.d.store.replacing = none ∧
      t.d.store.closed = s.d.store.closed ++ [b.val]) ∧
  (∀ (s : State) (b : Fin 1024), s.d.awake = true → s.d.svRuns 2 = true → s.d.store.replacing.isSome = true →
    s.d.store.closed.contains b.val = false → s.d.faults.failures = [] →
    ∃ t, exec (.bankReplacementStart b .uncorrectable) s = .next t ∧ t.d.store = s.d.store ∧
      t.d.faults.failures.map (fun f => (f.isBank, f.ix)) = [(true, b.val)]) ∧
  (∀ (s : State) (b : Nat), s.d.awake = true → s.d.svRuns 2 = true → s.d.store.replacing = some b →
    (s.d.store.slots.liveIn (s.d.store.slots.bankBefore b)).isEmpty = false → exec .bankRetire s = .next s) ∧
  (∀ (s : State) (b : Nat), s.d.awake = true → s.d.svRuns 2 = true → s.d.store.replacing = some b →
    (s.d.store.slots.liveIn (s.d.store.slots.bankBefore b)).isEmpty = true → s.d.faults.failures = [] →
    ∃ t, exec .bankRetire s = .next t ∧ t.d.store = { s.d.store with replacing := none } ∧
      t.d.ctr (ctrStore 0x138) = (s.d.ctr (ctrStore 0x138) + 1) % 2 ^ 64) ∧
  (∀ (s : State) (c : CmdCtx) (ix : BitVec 16), s.d.Runs (.diagSpareForce c false ix) c 0x0C05 .operator →
    s.d.svRuns 2 = true → ix.toNat < 64 → (∀ i, i < 64 → (s.d.corePos i).st ≠ .stopped) → (s.d.corePos ix.toNat).st = .filled →
    s.d.spareCore (ix.toNat / 16) = 0 →
    ∃ t, exec (.diagSpareForce c false ix) s = .next t ∧ (t.d.corePos ix.toNat).st = .stopped ∧
      t.d.cmd.held.any (fun h => h.what == .spareCore ix.toNat) = true) ∧
  (∀ (s : State) (c : CmdCtx) (ix : BitVec 16), s.d.Runs (.diagSpareForce c true ix) c 0x0C05 .operator →
    s.d.svRuns 2 = true → s.d.faults.failures = [] → s.d.mem.copyExp = none → ix.toNat < 1024 → s.d.store.replacing = none → s.d.store.closed.contains ix.toNat = false →
    s.d.bankSpares (ix.toNat / 512) ≠ 0 →
    ∃ t, exec (.diagSpareForce c true ix) s = .next t ∧ t.d.store.replacing = some ix.toNat ∧
      t.d.cmd.held.any (fun h => h.what == .spareBank ix.toNat) = true) ∧
  (∀ (s : State) (c : CmdCtx) (a : Byte) (ix : Word) (w : BitVec 16) (two : Bool),
    s.d.Runs (.diagInject c a ix w two) c 0x0C06 (if s.d.boot.st = .run then .owner else .operator) →
    ix.toNat < injectSize a.toNat → (0x10 ≤ a.toNat → a.toNat ≤ 0x14 → w.toNat < 16) →
    (∀ y ∈ s.d.faults.injects, ¬(y.array = a.toNat ∧ y.index = ix.toNat ∧ y.word = w.toNat)) →
    ∃ t, exec (.diagInject c a ix w two) s = .next t ∧ t.d.faults.injects = s.d.faults.injects ++
      [{ array := a.toNat, index := ix.toNat, word := w.toNat, two := two }] ∧ t.d.fwd = s.d.fwd) ∧
  (∀ (s : State) (c : CmdCtx) (a : Byte) (ix : Word) (w : BitVec 16) (two : Bool) (y : Inject),
    s.d.Runs (.diagInject c a ix w two) c 0x0C06 (if s.d.boot.st = .run then .owner else .operator) →
    ix.toNat < injectSize a.toNat → (0x10 ≤ a.toNat → a.toNat ≤ 0x14 → w.toNat < 16) →
    y ∈ s.d.faults.injects → y.array = a.toNat → y.index = ix.toNat → y.word = w.toNat →
    ∃ t, exec (.diagInject c a ix w two) s = .next t ∧
      (t.d.faults.injects.filter fun x => x.array == a.toNat && x.index == ix.toNat && x.word == w.toNat) =
        [{ array := a.toNat, index := ix.toNat, word := w.toNat, two := true }])

/-! ### Board memory -/

/-- The companion's accesses: while no write waits for a snoop, a write of a HOST range stores exactly its
bytes; a read returns the bytes of lines that are whole, and an error where a line is uncorrectable; an
unmapped access is refused with no byte changed, counted, and answered with an error where it is a read; and a
write that waits for a snoop is stored at its response (R283, R290, R304). -/
def Obligations.CompanionMemoryAccess : Prop :=
  (∀ (s : State) (a : BitVec 52) (data : List Byte), s.d.awake = true → s.d.hl.up = true →
    s.d.memRight a.toNat data.length = .full → s.d.mem.waits = [] →
    ∃ t, exec (.howlinkMemAccess { write := true, addr := a, len := data.length, data := data, cache := false }) s =
        .next t ∧ t.d.mem.cells = memWrite s.d.mem.cells a.toNat data ∧
      (∀ i, i < data.length → memByte t.d.mem.cells (a.toNat + i) = data.getD i 0) ∧
      (∀ x, (x < a.toNat ∨ a.toNat + data.length ≤ x) → memByte t.d.mem.cells x = memByte s.d.mem.cells x)) ∧
  (∀ (s : State) (a : BitVec 52) (n : Nat), s.d.awake = true → s.d.hl.up = true → a.toNat < 0x1000004000000 ∨
      0x1000004001000 ≤ a.toNat → s.d.memRight a.toNat n ≠ .denied →
    ((linesOf a.toNat n).any fun l => s.d.lineBad l) = false →
    exec (.howlinkMemAccess { write := false, addr := a, len := n, data := [], cache := false }) s =
      .next (s.put (s.d.send (.memData (s.d.devRead a.toNat n))))) ∧
  (∀ (s : State) (a : BitVec 52) (data : List Byte), s.d.awake = true → s.d.hl.up = true →
    s.d.memRight a.toNat data.length ≠ .full →
    ∃ t, exec (.howlinkMemAccess { write := true, addr := a, len := data.length, data := data, cache := false }) s =
        .next t ∧ t.d.mem.cells = s.d.mem.cells ∧ t.d.ctr (ctrMem 0x130) = (s.d.ctr (ctrMem 0x130) + 1) % 2 ^ 64) ∧
  (∀ (s : State) (l : BitVec 52) (w : WaitWrite), s.d.awake = true → s.d.mem.waits = [w] → w.line = l.toNat →
    ∃ t, exec (.snoopResponse l) s = .next t ∧ t.d.mem.waits = [] ∧
      t.d.mem.cells = memWrite s.d.mem.cells w.addr w.data) ∧
  (∀ (s : State) (a : BitVec 52) (n : Nat), s.d.awake = true → s.d.hl.up = true → a.toNat < 0x1000004000000 ∨
      0x1000004001000 ≤ a.toNat → s.d.memRight a.toNat n = .denied →
    ∃ t, exec (.howlinkMemAccess { write := false, addr := a, len := n, data := [], cache := false }) s = .next t ∧
      t.d.out.head? = some .memError ∧ t.d.mem.cells = s.d.mem.cells ∧
      t.d.ctr (ctrMem 0x130) = (s.d.ctr (ctrMem 0x130) + 1) % 2 ^ 64) ∧
  (∀ (s : State) (a : BitVec 52) (n : Nat), s.d.awake = true → s.d.hl.up = true → a.toNat < 0x1000004000000 ∨
      0x1000004001000 ≤ a.toNat → s.d.memRight a.toNat n ≠ .denied →
    ((linesOf a.toNat n).any fun l => s.d.lineBad l) = true →
    ∃ t, exec (.howlinkMemAccess { write := false, addr := a, len := n, data := [], cache := false }) s = .next t ∧
      t.d.out.head? = some .memError ∧ t.d.mem = s.d.mem ∧
      (let k := ctrMem (if 0x4000000000000 ≤ a.toNat then 0x128 else 0x108)
       t.d.ctr k = (s.d.ctr k + 1) % 2 ^ 64))

/-- Near-tier pages: a corrected-error limit starts a page's copy with a spare page, the copy's end retires
it, and an uncorrectable read counts and marks its line (R295, R304). Expanders: a failing ACTIVE one is
copied to the spare, which takes its place in the stripe order at the copy's end, and waits while a bank's
replacement runs; a lost one gives way to the spare, or closes the granary; a lost spare ends its copy (R29,
R302, R303, R306). -/
def Obligations.PagesAndExpanders : Prop :=
  (∀ (s : State) (a : BitVec 52), s.d.awake = true → s.d.svRuns 2 = true → s.d.inNear a.toNat 1 = true →
    s.d.regBits (baseMem + 8) 15 0 ≠ 0 → s.d.poolFree ≠ 0 → s.d.mem.copyPages.contains (pageOf a.toNat) = false →
    ∃ t, exec (.pageCorrLimit a) s = .next t ∧ t.d.mem.copyPages = s.d.mem.copyPages ++ [pageOf a.toNat] ∧
      t.d.mem.poolUsed = s.d.mem.poolUsed + 1 ∧ t.d.mem.cells = s.d.mem.cells) ∧
  (∀ (s : State) (p : Nat) (r : List Nat), s.d.awake = true → s.d.mem.copyPages = p :: r →
    ∃ t, exec .pageCopyComplete s = .next t ∧ t.d.mem.copyPages = r ∧
      t.d.mem.retiredPages = s.d.mem.retiredPages.filter (fun q => q != p) ++ [p] ∧
      t.d.ctr (ctrMem 0x110) = (s.d.ctr (ctrMem 0x110) + 1) % 2 ^ 64 ∧ t.d.mem.cells = s.d.mem.cells) ∧
  (∀ (s : State) (a : BitVec 52) (n : Nat) (r : Region), s.d.awake = true → s.d.inGran a.toNat 1 = false →
    s.d.inNear a.toNat 1 = true → s.d.regionOf a.toNat 1 = some (n, r) → r.kind = .host →
    (s.d.thr.shards = [] ∧ s.d.thr.jobs = [] ∧ s.d.thr.park = []) →
    ∃ t, exec (.nearTierUncorrectableRead a) s = .next t ∧ lineOf a.toNat ∈ t.d.mem.badLines ∧
      t.d.ctr (ctrMem 0x108) = (s.d.ctr (ctrMem 0x108) + 1) % 2 ^ 64) ∧
  (∀ (s : State) (c : CmdCtx) (a : Dword), s.d.Runs (.memPageRetire c a) c 0x0703 .operator →
    s.d.svRuns 2 = true → s.d.inNear a.toNat 1 = true → s.d.mem.retiredPages.contains (pageOf a.toNat) = false →
    s.d.mem.copyPages.contains (pageOf a.toNat) = false → s.d.poolFree ≠ 0 →
    ∃ t, exec (.memPageRetire c a) s = .next t ∧ t.d.mem = { s.d.mem with
      copyPages := s.d.mem.copyPages ++ [pageOf a.toNat], poolUsed := s.d.mem.poolUsed + 1 }) ∧
  (∀ (s : State) (e : Fin 4) (f : Nat), s.d.awake = true → s.d.svRuns 2 = true → s.d.spareExpander = some f →
    (s.d.expander e.val).role = 1 → s.d.mem.copyExp = none → s.d.regBit (baseMem + 0x40) 0 = true →
    s.d.faults.failures = [] → s.d.store.replacing = none →
    ∃ t, exec (.expanderCorrLimit e) s = .next t ∧ t.d.mem.copyExp = some (e.val, f) ∧ (t.d.expander f).role = 3 ∧
      (t.d.expander e.val).role = 1) ∧
  (∀ (s : State) (e : Fin 4) (f : Nat), s.d.awake = true → s.d.svRuns 2 = true → s.d.spareExpander = some f →
    (s.d.expander e.val).role = 1 → s.d.mem.copyExp = none → s.d.regBit (baseMem + 0x40) 0 = true →
    s.d.faults.failures = [] → s.d.store.replacing.isSome = true →
    ∃ t, exec (.expanderCorrLimit e) s = .next t ∧ t.d.mem = s.d.mem ∧
      t.d.faults.failures.map (fun f => (f.isBank, f.ix)) = [(false, 64 + e.val)]) ∧
  (∀ (s : State) (c : CmdCtx) (p : Byte) (f : Nat), s.d.Runs (.memExpSwap c p) c 0x0705 .operator → p.toNat < 4 →
    s.d.svRuns 2 = true → s.d.mem.copyExp = none → s.d.faults.failures = [] → s.d.store.replacing = none →
    s.d.spareExpander = some f → (s.d.expander p.toNat).role = 1 →
    ∃ t, exec (.memExpSwap c p) s = .next t ∧ t.d.mem.copyExp = some (p.toNat, f) ∧ (t.d.expander f).role = 3) ∧
  (∀ (s : State) (e f : Fin 4), s.d.awake = true → s.d.mem.copyExp = some (e.val, f.val) → e ≠ f →
    ∃ t, exec .expanderCopyComplete s = .next t ∧ t.d.mem.copyExp = none ∧ (t.d.expander f.val).role = 1 ∧
      (t.d.expander e.val).role = 0 ∧
      t.d.mem.stripes = s.d.mem.stripes.map (fun x => if x == e.val then f.val else x)) ∧
  (∀ (s : State) (e : Fin 4), s.d.awake = true → (s.d.expander e.val).role = 1 → s.d.mem.copyExp = none →
    s.d.spareExpander = none → s.d.thr.shards = [] → s.d.thr.jobs = [] → s.d.thr.park = [] →
    ∃ t, exec (.expanderLoss e) s = .next t ∧ t.d.mem.granClosed = true ∧ (t.d.expander e.val).role = 4 ∧
      t.d.granSize = 0) ∧
  (∀ (s : State) (e : Nat), s.d.awake = true →
    ([0, 1, 2, 3].find? fun e => (s.d.expander e).role == 2 || (s.d.expander e).role == 3) = some e →
    ∃ t, exec .spareExpanderLoss s = .next t ∧ t.d.mem.copyExp = none ∧ (t.d.expander e).role = 4 ∧
      t.d.mem.stripes = s.d.mem.stripes ∧ t.d.mem.cells = s.d.mem.cells)

/-! ### Commands and security -/

/-- A command packet takes a place of its source's queue, or is answered BUSY, BAD_PARAM or INCOMPATIBLE at
once, in that order (R404, R405, R409). The gate: a class below the command's is DENIED, POWER_ON, SELF_TEST
and BOOT answer BUSY, SAFE_TALK denies the commands of other groups that write, and a denied command is
answered with no effect but on the idle time of the transaction it bears (R408, R410, R424; the last is log
entry 47's reading). -/
def Obligations.ArrivalAndGate : Prop :=
  (∀ (s : State) (a : Arrival), s.d.arrives a = true → (a.src = .howlink ∨ a.secured = true) → a.typ = 1 →
    s.d.placesHeld a.src < 64 → a.len.toNat ≤ 4096 → a.len.toNat = a.bytes → opcodeDefined a.opcode.toNat = true →
    ∃ t, exec (.commandArrival a) s = .next t ∧ t.d.placesHeld a.src = s.d.placesHeld a.src + 1 ∧
      t.d.out = s.d.out ∧ t.d.fwd = s.d.fwd ∧ t.d.ports = s.d.ports ∧ t.d.red = s.d.red) ∧
  (∀ (s : State) (a : Arrival), s.d.arrives a = true → (a.src = .howlink ∨ a.secured = true) → a.typ = 1 →
    s.d.svRuns 1 = true → s.d.boot.svFail = 0 → 64 ≤ s.d.placesHeld a.src →
    ∃ t, exec (.commandArrival a) s = .next t ∧ .rawReply a .busy ∈ t.d.out ∧ t.d.cmd = s.d.cmd) ∧
  (∀ (s : State) (a : Arrival), s.d.arrives a = true → (a.src = .howlink ∨ a.secured = true) → a.typ = 1 →
    s.d.svRuns 1 = true → s.d.boot.svFail = 0 → s.d.placesHeld a.src < 64 →
    (4096 < a.len.toNat ∨ a.len.toNat ≠ a.bytes) →
    ∃ t, exec (.commandArrival a) s = .next t ∧ .rawReply a .badParam ∈ t.d.out ∧ t.d.cmd = s.d.cmd) ∧
  (∀ (s : State) (a : Arrival), s.d.arrives a = true → (a.src = .howlink ∨ a.secured = true) → a.typ = 1 →
    s.d.svRuns 1 = true → s.d.boot.svFail = 0 → s.d.placesHeld a.src < 64 → a.len.toNat ≤ 4096 →
    a.len.toNat = a.bytes → opcodeDefined a.opcode.toNat = false →
    ∃ t, exec (.commandArrival a) s = .next t ∧ .rawReply a .incompatible ∈ t.d.out ∧ t.d.cmd = s.d.cmd) ∧
  (∀ (d : Dev) (c : CmdCtx) (op : Nat) (cls k : PrivClass), d.awake = true → d.svRuns 1 = true → d.boot.svFail = 0 →
    d.classOf c = some k → (d.boot.st = .ready ∨ d.boot.st = .run) →
    (d.gate c op cls = .run ↔ cls.rank ≤ k.rank) ∧ (d.gate c op cls = .answer .denied ↔ k.rank < cls.rank)) ∧
  (∀ (d : Dev) (c : CmdCtx) (op : Nat) (cls k : PrivClass), d.awake = true → d.svRuns 1 = true → d.boot.svFail = 0 →
    d.classOf c = some k → (d.boot.st = .powerOn ∨ d.boot.st = .selfTest ∨ d.boot.st = .boot) →
    d.gate c op cls = .answer .busy) ∧
  (∀ (d : Dev) (c : CmdCtx) (op : Nat) (cls k : PrivClass), d.awake = true → d.svRuns 1 = true → d.boot.svFail = 0 →
    d.classOf c = some k → d.boot.st = .safeTalk → op / 256 ∉ [0x01, 0x0B, 0x0C] → cls ≠ .observer →
    d.gate c op cls = .answer .denied) ∧
  (∀ (d : Dev) (i : Instr) (c : CmdCtx) (op : Nat) (cls : PrivClass) (st : Status)
    (f : Dev → Dev × Option (Status × Res)), d.gate c op cls = .answer st →
    d.runCmd i c op cls f = (d.touch c).reply c op st .empty)

/-- A reply frees the command's place, is sent while the path is up, and touches nothing but the command path,
the interrupt bits and the link's packet count (R405, R409). -/
def Obligations.ReplyFrame : Prop :=
  ∀ (d : Dev) (c : CmdCtx) (op : Nat) (st : Status) (r : Res),
    let t := d.reply c op st r
    (d.pathUp c = true → d.svRuns 1 = true → .reply c op st r ∈ t.out) ∧
    (d.pathUp c = false → t.out = d.out) ∧
    t.cmd = { d.cmd with places := d.cmd.places.eraseP fun p => p.src == c.src && p.seq == c.seq && p.opcode == op } ∧
    t.boot = d.boot ∧ t.fuses = d.fuses ∧ t.clk = d.clk ∧ t.time = d.time ∧ t.hl = d.hl ∧ t.mbx = d.mbx ∧
    t.mg0 = d.mg0 ∧ t.mg1 = d.mg1 ∧ t.heads = d.heads ∧ t.fwd = d.fwd ∧ t.store = d.store ∧ t.tm = d.tm ∧
    t.red = d.red ∧ t.thr = d.thr ∧ t.mem = d.mem ∧ t.opt = d.opt ∧ t.ports = d.ports ∧ t.plan = d.plan ∧
    t.autoRemap = d.autoRemap ∧ t.faults = d.faults ∧ t.cnt = d.cnt ∧ t.regs = d.regs ∧ t.free = d.free ∧
    t.loopQ = d.loopQ ∧ t.now = d.now

/-- Device commands that act: DEV_RESET with no delay resets after its reply, with a delay arms it, DEV_ROLE
sets the role in SAFE_TALK only, DEV_ADMIT takes READY to RUN, and DEV_EVENT_MASK sets one mask (R3, R412,
R467). -/
def Obligations.DeviceCommandsAct : Prop :=
  (∀ (s : State) (c : CmdCtx), s.d.Runs (.devReset c 0) c 0x0103 .owner →
    ∃ t, exec (.devReset c 0) s = .next t ∧ t.d.boot.inReset = true ∧ t.d.ports = [] ∧ t.d.cmd = {}) ∧
  (∀ (s : State) (c : CmdCtx) (n : Word), s.d.Runs (.devReset c n) c 0x0103 .owner → n ≠ 0 → n.toNat ≤ 1000000 →
    ∃ t, exec (.devReset c n) s = .next t ∧ t.d.boot = { s.d.boot with resetAt := some (s.d.now + n.toNat * 1600) }) ∧
  (∀ (s : State) (c : CmdCtx) (r : BitVec 2), s.d.Runs (.devRole c (some r)) c 0x0104 .owner → r ≠ 3 →
    s.d.boot.st = .safeTalk →
    ∃ t, exec (.devRole c (some r)) s = .next t ∧ t.d.boot = { s.d.boot with roleOverride := some r }) ∧
  (∀ (s : State) (c : CmdCtx) (r : BitVec 2), s.d.Runs (.devRole c (some r)) c 0x0104 .owner → r ≠ 3 →
    (s.d.boot.st = .ready ∨ s.d.boot.st = .run) → r ≠ s.d.boot.role →
    exec (.devRole c (some r)) s = .next (s.put ((s.d.touch c).reply c 0x0104 .denied .empty))) ∧
  (∀ (s : State) (c : CmdCtx), s.d.Runs (.devAdmit c) c 0x0105 .operator → s.d.boot.st = .ready →
    ∃ t, exec (.devAdmit c) s = .next t ∧ t.d.boot = { s.d.boot with st := .run }) ∧
  (∀ (s : State) (c : CmdCtx) (m : BitVec 16), s.d.Runs (.devEventMask c 2 m) c 0x0106 .operator →
    ∃ t, exec (.devEventMask c 2 m) s = .next t ∧ t.d.cmd.evMg0 = { s.d.cmd.evMg0 with mask := m } ∧
      t.d.cmd.evMg1 = s.d.cmd.evMg1 ∧ t.d.cmd.evHowlink = s.d.cmd.evHowlink)

/-- Owner slots and the anti-rollback counter: enrolling fills the lowest EMPTY slot, revoking keeps the last
VALID one, the counter only rises, and SEC_ROLLBACK_SET waits for the last fuse (R464, R465). Firmware's
progress: the heartbeat counts in SAFE_TALK, BOOT, READY and RUN while every supervisor core runs, and a core
that stops is known as stopped, with a FIRMWARE record but for SV1's own stop (R473, R489). -/
def Obligations.OwnersAndFirmware : Prop :=
  (∀ (s : State) (c : CmdCtx) (h : BitVec 256), s.d.Runs (.secOwnerEnroll c h) c 0x0B03 .owner → c.src ≠ .howlink →
    s.d.svRuns 0 = true → s.d.fuses.owner0.1 = 0 →
    ∃ t, exec (.secOwnerEnroll c h) s = .next t ∧ t.d.fuses = { s.d.fuses with owner0 := (1, h) }) ∧
  (∀ (s : State) (c : CmdCtx) (n : Byte), s.d.Runs (.secOwnerRevoke c n) c 0x0B04 .owner → n.toNat < 4 →
    s.d.svRuns 0 = true →
    (s.d.fuses.owner n.toNat).1 = 1 → s.d.fuses.validOwners.length ≠ 1 → s.d.boot.imgOk = false →
    ∃ t, exec (.secOwnerRevoke c n) s = .next t ∧
      t.d.fuses = s.d.fuses.setOwner n.toNat (2, (s.d.fuses.owner n.toNat).2)) ∧
  (∀ (s : State) (c : CmdCtx) (n : Byte), s.d.Runs (.secOwnerRevoke c n) c 0x0B04 .owner → n.toNat < 4 →
    s.d.svRuns 0 = true →
    (s.d.fuses.owner n.toNat).1 = 1 → s.d.fuses.validOwners.length = 1 →
    exec (.secOwnerRevoke c n) s = .next (s.put ((s.d.touch c).reply c 0x0B04 .conflict .empty))) ∧
  (∀ (s : State) (c : CmdCtx) (v : Byte), s.d.Runs (.secRollbackSet c v) c 0x0B05 .owner → s.d.boot.st = .run →
    s.d.svRuns 0 = true →
    v.toNat ≤ 64 → v.toNat ≤ s.d.boot.svn.toNat → s.d.fuses.rollback < v.toNat →
    ∃ t, exec (.secRollbackSet c v) s = .next t ∧ t.d.boot.rollTarget = max v.toNat s.d.boot.rollTarget ∧
      t.d.fuses = s.d.fuses ∧ t.d.out = s.d.out ∧ t.d.cmd.held.any (fun h => h.what == .fuses) = true) ∧
  (∀ s : State, s.d.awake = true → s.d.svRuns 0 = true → s.d.fuses.rollback < s.d.boot.rollTarget →
    ∃ t, exec .fuseBlowTick s = .next t ∧ t.d.fuses = { s.d.fuses with rollback := s.d.fuses.rollback + 1 }) ∧
  (∀ s : State, s.d.awake = true → s.d.boot.st ≠ .powerOn → s.d.boot.st ≠ .selfTest → s.d.boot.svStopped = 0 →
    exec .heartbeatTick s = .next (s.put { s.d with boot := { s.d.boot with heartbeat := s.d.boot.heartbeat + 1 } })) ∧
  (∀ (s : State) (v : Fin 4), s.d.awake = true → s.d.svRuns v.val = true → s.d.svRuns 1 = true →
    ∃ t, exec (.progressWatchTimeout v) s = .next t ∧ t.d.svRuns v.val = false ∧
      (∀ w, w < 4 → w ≠ v.val → t.d.svRuns w = s.d.svRuns w) ∧
      t.d.faults.fseq = (if v.val = 1 then s.d.faults.fseq else s.d.faults.fseq + 1) ∧
      t.d.fwd = s.d.fwd ∧ t.d.store = s.d.store)

/-- SPDM: GET_VERSION starts the negotiation, each later request needs the ones before it, a session is opened
by KEY_EXCHANGE with at most four on a link, FINISH fixes its class by the requester's key, and END_SESSION
closes it; another request than the twelve, and one for another slot than 0, is unsupported; response codes
are the model's (log entry 121) (R410, R468, R469). -/
def Obligations.SpdmSessions : Prop :=
  ∀ (s : State) (x : SpdmCtx), s.d.spdmOpen x = true →
    let m := x.link.val
    let l := s.d.mg m
    let sends := fun (t : State) (code : Nat) (v : List Nat) => t.d.out = .spdm m code v :: s.d.out ∧
      t.d.fuses = s.d.fuses ∧ t.d.fwd = s.d.fwd ∧ t.d.boot = s.d.boot ∧ t.d.mg (1 - m) = s.d.mg (1 - m)
    (x.other.isSome = true → ∀ i ∈ ([.getVersion x, .getCapabilities x, .negotiateAlgorithms x true true true true,
        .getDigests x, .heartbeat x, .endSession x] : List Instr),
      ∃ t, exec i s = .next t ∧ sends t 0x7F [7] ∧ t.d.mg m = l) ∧
    (x.other = none → (∃ t, exec (.getVersion x) s = .next t ∧ sends t 4 [0x12] ∧ t.d.mg m = { l with spdm := 1 }) ∧
    (1 ≤ l.spdm → ∃ t, exec (.getCapabilities x) s = .next t ∧ sends t 0x61 [] ∧ t.d.mg m = { l with spdm := 2 }) ∧
    (2 ≤ l.spdm → ∃ t, exec (.negotiateAlgorithms x true true true true) s = .next t ∧ sends t 0x63 [] ∧
      t.d.mg m = { l with spdm := 3 }) ∧
    (2 ≤ l.spdm → ∀ a b c d, (a && b && c && d) = false →
      ∃ t, exec (.negotiateAlgorithms x a b c d) s = .next t ∧ sends t 0x7F [7] ∧ t.d.mg m = l) ∧
    (l.spdm < 3 → ∃ t, exec (.getDigests x) s = .next t ∧ sends t 0x7F [4] ∧ t.d.mg m = l) ∧
    (3 ≤ l.spdm → ∃ t v, exec (.getDigests x) s = .next t ∧ sends t 1 [1, v] ∧ t.d.mg m = l) ∧
    (3 ≤ l.spdm → ∀ o n : BitVec 16, ∃ t, exec (.getCertificate x 0 o n) s = .next t ∧ t.d.mg m = l ∧
      sends t 2 ([0, min n.toNat (s.d.chainLen - o.toNat),
        s.d.chainLen - o.toNat - min n.toNat (s.d.chainLen - o.toNat)] ++
        (List.range (min n.toNat (s.d.chainLen - o.toNat))).map fun i => (s.d.chainByte (o.toNat + i)).toNat)) ∧
    (3 ≤ l.spdm → ∀ n : BitVec 256,
      ∃ t v, exec (.challenge x 0 n) s = .next t ∧ sends t 3 [0, n.toNat, v] ∧ t.d.mg m = l) ∧
    (3 ≤ l.spdm → ∀ n : BitVec 256, ∃ t, exec (.getMeasurements x 4 false n) s = .next t ∧
      sends t 0x60 [4, s.d.boot.svn.toNat, s.d.fuses.rollback] ∧ t.d.mg m = l) ∧
    (3 ≤ l.spdm → x.slot = 0 → ∀ (r : BitVec 256) (p : BitVec 512), l.sessions.length < 4 →
      ∃ t v, exec (.keyExchange x r p) s = .next t ∧ sends t 0x64 [(s.d.freeId m).toNat, r.toNat, p.toNat, v] ∧
        t.d.mg m = { l with sessions := l.sessions ++ [{ id := s.d.freeId m }] }) ∧
    (3 ≤ l.spdm → x.slot ≠ 0 → ∀ (r : BitVec 256) (p : BitVec 512),
      ∃ t, exec (.keyExchange x r p) s = .next t ∧ sends t 0x7F [7] ∧ t.d.mg m = l) ∧
    (3 ≤ l.spdm → x.slot = 0 → ∀ (r : BitVec 256) (p : BitVec 512), 4 ≤ l.sessions.length →
      ∃ t, exec (.keyExchange x r p) s = .next t ∧ sends t 0x7F [0x0A] ∧ t.d.mg m = l) ∧
    (3 ≤ l.spdm → ∀ (y : Session) (key : BitVec 512) (k : PrivClass), l.session? x.session = some y → y.cls = none →
      s.d.requesterClass key = some k →
      ∃ t, exec (.finish x key true) s = .next t ∧ sends t 0x65 [] ∧ t.d.mg m = { l with
        sessions := (l.sessions.map fun z => if z.id == x.session then { z with cls := some k } else z) }) ∧
    (3 ≤ l.spdm → ∀ y : Session, l.session? x.session = some y → y.cls.isSome = true →
      (∃ t, exec (.heartbeat x) s = .next t ∧ sends t 0x68 [] ∧ t.d.mg m = l) ∧
      (∃ t, exec (.keyUpdate x 1) s = .next t ∧ sends t 0x69 [1] ∧ t.d.mg m = { l with
        sessions := (l.sessions.map fun z => if z.id == x.session then { z with keyGen := z.keyGen + 1 } else z) }) ∧
      (∃ t, exec (.keyUpdate x 3) s = .next t ∧ sends t 0x69 [3] ∧ t.d.mg m = l) ∧
      (∃ t, exec (.endSession x) s = .next t ∧ sends t 0x6C [] ∧
        t.d.mg m = { l with sessions := (l.sessions.filter fun z => z.id != x.session) })))

/-! ### Transactions -/

/-- BEGIN opens a transaction with the next ID of its source and the limits given or their defaults, COMMIT
makes it wait with its reply held, and ROLLBACK drops it with all its claims (R413, R414, R419). An OPEN
transaction that no command has touched for its idle time is rolled back: it ends, its claims are released,
and no object changes; one that a command has touched since then stands (R424, R430). -/
def Obligations.TransactionLife : Prop :=
  (∀ (s : State) (c : CmdCtx) (scope idle drain : BitVec 16),
    s.d.Runs (.begin_ c scope idle drain) c 0x0A01 .operator → scope.toNat ≤ 0xFFF → idle.toNat ≤ 3600 →
    drain.toNat ≤ 60000 → (s.d.touch c).openTxn c.src = none →
    ∃ t, exec (.begin_ c scope idle drain) s = .next t ∧
      t.d.cmd.txns = (s.d.touch c).cmd.txns ++ [{
        src := c.src, id := s.d.nextTxnId c.src, session := c.session, scope := BitVec.ofNat 12 scope.toNat,
        idleS := if idle = 0 then 60 else idle.toNat, drainMs := if drain = 0 then 100 else drain.toNat,
        touched := s.d.now }] ∧
      t.d.nextTxnId c.src = idAfter (s.d.nextTxnId c.src) ∧ idAfter (s.d.nextTxnId c.src) ≠ 0 ∧
      t.d.fwd = s.d.fwd ∧ t.d.ports = s.d.ports ∧ t.d.red = s.d.red) ∧
  (∀ (s : State) (c : CmdCtx) (scope idle drain : BitVec 16) (u : Txn),
    s.d.Runs (.begin_ c scope idle drain) c 0x0A01 .operator → scope.toNat ≤ 0xFFF → idle.toNat ≤ 3600 →
    drain.toNat ≤ 60000 → (s.d.touch c).openTxn c.src = some u →
    exec (.begin_ c scope idle drain) s = .next (s.put ((s.d.touch c).reply c 0x0A01 .conflict .empty))) ∧
  (∀ (s : State) (c : CmdCtx) (u : Txn), s.d.Runs (.commit c) c 0x0A02 .operator →
    (s.d.touch c).openTxn c.src = some u → u.id = c.txn → (s.d.touch c).mustWait u = false →
    ∃ t, exec (.commit c) s = .next t ∧
      (∀ w ∈ t.d.cmd.txns, w.src = u.src → w.id = u.id → w.st = .waiting ∧ w.commit = some c ∧
        w.readyAt = some s.d.now) ∧
      t.d.cmd.held = s.d.cmd.held ++
        [{ c := c, opcode := 0x0A02, what := .commit u.id, at_ := s.d.now, deferred := false }] ∧
      t.d.out = s.d.out ∧ t.d.fwd = s.d.fwd ∧ t.d.ports = s.d.ports ∧ t.d.red = s.d.red) ∧
  (∀ (s : State) (c : CmdCtx) (u : Txn), s.d.Runs (.rollback c) c 0x0A03 .operator →
    (s.d.touch c).openTxn c.src = some u → u.id = c.txn →
    ∃ t, exec (.rollback c) s = .next t ∧
      t.d.cmd.txns = (s.d.touch c).cmd.txns.filter (fun w => !(w.src == c.src && w.id == u.id)) ∧
      t.d.fwd = s.d.fwd ∧ t.d.ports = s.d.ports ∧ t.d.plan = s.d.plan ∧ t.d.red = s.d.red ∧ t.d.thr = s.d.thr ∧
      t.d.mem = s.d.mem ∧ t.d.tm = s.d.tm ∧ t.d.store = s.d.store) ∧
  (∀ (s : State) (src : Source) (u : Txn), s.d.awake = true → s.d.svRuns 1 = true →
    s.d.openTxn src = some u → s.d.now < u.touched + u.idleS * 1600000000 →
    exec (.transactionIdleExpiry src) s = .next s) ∧
  (∀ (s : State) (src : Source) (u : Txn), s.d.awake = true → s.d.svRuns 1 = true →
    s.d.openTxn src = some u → u.touched + u.idleS * 1600000000 ≤ s.d.now →
    ∃ t, exec (.transactionIdleExpiry src) s = .next t ∧
      t.d.cmd.txns = s.d.cmd.txns.filter (fun w => !(w.src == src && w.id == u.id)) ∧ t.d.fwd = s.d.fwd ∧
      t.d.ports = s.d.ports ∧ t.d.red = s.d.red ∧ t.d.thr = s.d.thr ∧ t.d.mem = s.d.mem ∧ t.d.out = s.d.out)

/-- A commit whose drain runs past its limit fails with TIMEOUT, takes no effect, releases its claims and
ends; a wait for the epoch alone is not ended by the limit (R422). -/
def Obligations.DrainWaitTimeout : Prop :=
  (∀ (s : State) (src : Source) (id : BitVec 16) (u : Txn), s.d.awake = true → s.d.svRuns 1 = true →
    s.d.cmd.txns.find? (fun w => w.src == src && w.id == id && decide (w.st = .waiting)) = some u →
    s.d.drainWait u = true →
    ∃ t, exec (.drainWaitTimeout src id) s = .next t ∧
      t.d.cmd.txns = s.d.cmd.txns.filter (fun w => !(w.src == src && w.id == id)) ∧
      (∀ h, s.d.cmd.held = [h] → h.c.src = src → h.what = .commit id → h.deferred = false →
        s.d.pathUp h.c = true → .reply h.c h.opcode .timeout .empty ∈ t.d.out ∧ t.d.cmd.held = []) ∧
      t.d.fwd = s.d.fwd ∧ t.d.ports = s.d.ports ∧ t.d.plan = s.d.plan ∧ t.d.red = s.d.red ∧ t.d.thr = s.d.thr ∧
      t.d.mem = s.d.mem ∧ t.d.tm = s.d.tm ∧ t.d.store = s.d.store) ∧
  (∀ (s : State) (src : Source) (id : BitVec 16) (u : Txn), s.d.awake = true → s.d.svRuns 1 = true →
    s.d.cmd.txns.find? (fun w => w.src == src && w.id == id && decide (w.st = .waiting)) = some u →
    s.d.drainWait u = false → exec (.drainWaitTimeout src id) s = .next s)

/-- Every staged command: inside its source's OPEN transaction and scope, with its rules met, it joins the
staged commands and changes no object; outside a transaction it is DENIED, but for the shapers and the
policers (R414, R415, R416). -/
def Obligations.StagedCommandsJoin : Prop :=
  (∀ (s : State) (c : CmdCtx) (x : Staged) (u : Txn),
    let d := s.d.touch c
    let now := u.staged.foldl (fun d y => d.applyStaged y) d.trial
    s.d.Runs (Staged.instr c x) c (Staged.opcode x) .operator → c.txn ≠ 0 → d.openTxn c.src = some u →
    u.id = c.txn → u.staged.length < 65536 → now.inScope u.scope x = true →
    d.trial.checkStaged now u.staged false x = none →
    ∃ t, exec (Staged.instr c x) s = .next t ∧
      (∀ w ∈ t.d.cmd.txns, w.src = c.src → w.id = u.id → w.staged = u.staged ++ [x] ∧ w.st = .isOpen ∧
        ∀ o ∈ Staged.objs x, (w.nameNo o).isSome = true) ∧
      t.d.fwd = s.d.fwd ∧ t.d.ports = s.d.ports ∧ t.d.plan = s.d.plan ∧ t.d.red = s.d.red ∧ t.d.thr = s.d.thr ∧
      t.d.mem = s.d.mem ∧ t.d.tm = s.d.tm ∧ t.d.store = s.d.store ∧ t.d.autoRemap = s.d.autoRemap) ∧
  (∀ (s : State) (c : CmdCtx) (x : Staged), s.d.Runs (Staged.instr c x) c (Staged.opcode x) .operator →
    c.txn = 0 → Staged.opcode x ∉ [0x0427, 0x0428, 0x0429, 0x042A] →
    exec (Staged.instr c x) s = .next (s.put ((s.d.touch c).reply c (Staged.opcode x) .denied .empty))) ∧
  (∀ (s : State) (c : CmdCtx) (x : Staged), s.d.Runs (Staged.instr c x) c (Staged.opcode x) .operator →
    c.txn ≠ 0 → (s.d.touch c).openTxn c.src = none →
    exec (Staged.instr c x) s = .next (s.put ((s.d.touch c).reply c (Staged.opcode x) .notFound .empty)))

/-- Shapers and policers outside a transaction: the change waits for the next token refill, which applies it
(of a group shaper's masks this is log entry 168's reading); a policer's map applies at once (R139, R140,
R145, R155, R414). -/
def Obligations.ImmediateTrafficCommands : Prop :=
  (∀ (s : State) (c : CmdCtx) (p : ShaperSetP), s.d.Runs (.shaperSet c p) c 0x0427 .operator → c.txn = 0 →
    p.port.toNat < 512 → p.cls.toNat < 8 → p.level.toNat < 4 →
    s.d.claimedElse c.src (.shaper p.port.toNat p.cls.toNat) = false →
    ∃ t, exec (.shaperSet c p) s = .next t ∧
      t.d.shaper p.port.toNat p.cls.toNat = { s.d.shaper p.port.toNat p.cls.toNat with
        b := { (s.d.shaper p.port.toNat p.cls.toNat).b with
          pend := some { en := p.enable, rate := p.rate.toNat, burst := p.burst.toNat } },
        levelPend := some p.level.toNat } ∧
      (∀ l k, k < 8 → (l ≠ p.port.toNat ∨ k ≠ p.cls.toNat) → t.d.shaper l k = s.d.shaper l k) ∧
      t.d.tm.groups = s.d.tm.groups ∧ t.d.tm.policers = s.d.tm.policers ∧ t.d.store = s.d.store) ∧
  (∀ (s : State) (c : CmdCtx) (p : GroupShaperSetP), s.d.Runs (.groupShaperSet c p) c 0x0428 .operator →
    c.txn = 0 → p.group.toNat < 64 → s.d.claimedElse c.src (.groupShaper p.group.toNat) = false →
    ∃ t, exec (.groupShaperSet c p) s = .next t ∧
      (Tab.get t.d.tm.groups p.group.toNat {}).b.pend =
        some { en := p.enable, rate := p.rate.toNat, burst := p.burst.toNat } ∧
      (Tab.get t.d.tm.groups p.group.toNat {}).pend = some (p.ports, p.classes) ∧
      t.d.tm.shapers = s.d.tm.shapers ∧ t.d.tm.policers = s.d.tm.policers) ∧
  (∀ (s : State) (c : CmdCtx) (p : PolicerSetP), s.d.Runs (.policerSet c p) c 0x0429 .operator → c.txn = 0 →
    p.policer.toNat < 8192 → s.d.claimedElse c.src (.policer p.policer.toNat) = false →
    ∃ t, exec (.policerSet c p) s = .next t ∧
      (Tab.get t.d.tm.policers p.policer.toNat {}).b.pend =
        some { en := p.enable, rate := p.rate.toNat, burst := p.burst.toNat } ∧
      (Tab.get t.d.tm.policers p.policer.toNat {}).bytes = (Tab.get s.d.tm.policers p.policer.toNat {}).bytes ∧
      t.d.tm.shapers = s.d.tm.shapers ∧ t.d.tm.groups = s.d.tm.groups) ∧
  (∀ (s : State) (c : CmdCtx) (l : BitVec 16) (k : Byte) (n : BitVec 16),
    s.d.Runs (.policerMap c { key := .portClass l k, policer := n }) c 0x042A .operator → c.txn = 0 →
    l.toNat < 512 → k.toNat < 8 → n.toNat < 8192 → s.d.claimedElse c.src (.polMapPort l.toNat k.toNat) = false →
    ∃ t, exec (.policerMap c { key := .portClass l k, policer := n }) s = .next t ∧
      t.d.tm = { s.d.tm with mapPort := Tab.put s.d.tm.mapPort (l.toNat * 8 + k.toNat) n.toNat }) ∧
  (∀ (s : State) (g : Nat) (b : Policer), s.d.awake = true → Tab.find s.d.tm.policers g = some b →
    ∃ t, exec .tokenRefill s = .next t ∧
      Tab.find t.d.tm.policers g = some { b with b := b.b.refill } ∧ t.d.store = s.d.store ∧ t.d.fwd = s.d.fwd) ∧
  (∀ (b : Bucket) (v : BucketSet), b.pend = some v →
    b.refill.en = v.en ∧ b.refill.rate = v.rate ∧ b.refill.burst = v.burst ∧ b.refill.pend = none ∧
    b.refill.tokens ≤ (v.burst * 4096 : Nat)) ∧
  (∀ b : Bucket, b.pend = none → b.refill.tokens = min ((b.burst * 4096 : Nat) : Int) (b.tokens + b.rate))

/-- COMMIT_READY: a member of the batch that passes validation is applying from then on, with its table
changes in the shadow bank alone; one that fails ends with no effect on any object (R419, R420, R421). -/
def Obligations.CommitValidates : Prop :=
  (∀ (s : State) (u : Txn) (d1 : Dev), s.d.awake = true → s.d.svRuns 1 = true → s.d.cmd.txns = [u] →
    u.st = .waiting → s.d.mustWait u = false → (∀ n, u.readyAt = some n → n ≤ s.d.now) →
    s.d.validate s.d.trial u = .pass d1 →
    ∃ t, exec .commitReady s = .next t ∧ t.d.cmd.txns = [{ u with st := .applying }] ∧
      t.d.fwd = (if u.staged.any Staged.isTable then { s.d.fwd with other := d1.fwd.other } else s.d.fwd) ∧
      t.d.red = s.d.red ∧ t.d.thr = s.d.thr ∧ t.d.ports = s.d.ports ∧ t.d.plan = s.d.plan ∧ t.d.tm = s.d.tm ∧
      t.d.store = s.d.store ∧ t.d.mem = s.d.mem ∧ t.d.out = s.d.out) ∧
  (∀ (s : State) (u : Txn) (i op : Nat) (st : Status), s.d.awake = true → s.d.svRuns 1 = true →
    s.d.cmd.txns = [u] → u.st = .waiting → s.d.mustWait u = false → (∀ n, u.readyAt = some n → n ≤ s.d.now) →
    s.d.validate s.d.trial u = .fail i op st →
    ∃ t, exec .commitReady s = .next t ∧ t.d.cmd.txns = [] ∧ t.d.fwd = s.d.fwd ∧ t.d.red = s.d.red ∧
      t.d.thr = s.d.thr ∧ t.d.ports = s.d.ports ∧ t.d.plan = s.d.plan ∧ t.d.tm = s.d.tm ∧ t.d.store = s.d.store ∧
      t.d.mem = s.d.mem)

/-- COMMIT_FLIP: table changes make the shadow bank current, advance the epoch, keep the former bank live and
start the drain interval; a change of another kind takes its effect, and a port that the batch leaves in the
mode that it had is not disturbed (R95, R97, R326, R419, R423). -/
def Obligations.CommitFlips : Prop :=
  (∀ (s : State) (u : Txn), s.d.awake = true → s.d.svRuns 1 = true → s.d.cmd.txns = [u] → u.st = .applying →
    u.staged ≠ [] → u.staged.all Staged.isTable = true → s.d.red.ctxs = [] →
    ∃ t, exec .commitFlip s = .next t ∧ t.d.cmd.txns = [] ∧ t.d.fwd.cur = s.d.fwd.other ∧
      t.d.fwd.other = s.d.fwd.cur ∧ t.d.fwd.epoch = s.d.fwd.epoch + 1 ∧ t.d.fwd.shadowSel = !s.d.fwd.shadowSel ∧
      t.d.fwd.oldLive = true ∧ t.d.fwd.replayOps = u.staged ∧
      t.d.fwd.drainEnd = s.d.now + clkOfNs s.d.store.limit + 80000 ∧ t.d.ports = s.d.ports ∧ t.d.store = s.d.store) ∧
  (∀ (s : State) (u : Txn) (x : Staged), s.d.awake = true → s.d.svRuns 1 = true → s.d.cmd.txns = [u] →
    u.st = .applying → u.staged = [x] → Staged.isTable x = false → Staged.modePort x = none →
    Staged.opcode x ∉ [0x0201, 0x0204] →
    ∃ t, exec .commitFlip s = .next t ∧ t.d.fwd = (s.d.applyStaged x).fwd ∧ t.d.red = (s.d.applyStaged x).red ∧
      t.d.thr = (s.d.applyStaged x).thr ∧ t.d.ports = (s.d.applyStaged x).ports ∧
      t.d.tm = (s.d.applyStaged x).tm ∧ t.d.store = (s.d.applyStaged x).store ∧
      t.d.mem = (s.d.applyStaged x).mem ∧ t.d.autoRemap = (s.d.applyStaged x).autoRemap) ∧
  (∀ (s : State) (u : Txn) (p q : OptPortModeP), s.d.awake = true → s.d.svRuns 1 = true → s.d.cmd.txns = [u] →
    u.st = .applying → u.staged = [.optPortMode p, .optPortMode q] → p.port = q.port → p.express = false →
    q.express = false → let m := (s.d.port q.port.toNat).modeSet
    m.express = false → m.mode = BitVec.ofNat 3 q.mode.toNat →
    ∃ t, exec .commitFlip s = .next t ∧ t.d.cmd.txns = [] ∧ t.d.port q.port.toNat = s.d.port q.port.toNat ∧
      t.d.opt = s.d.opt ∧ t.d.store = s.d.store)

/-- What the changes of the other kinds do at the flip: plan entries, peers, mirrors, reserves, contexts and
sheaves, job entries and regions take their values; a closed context drains (R89, R125, R134, R216, R222,
R226, R231, R249, R279, R367; a Thresh entry set with VALID = 0 goes by log entry 147). -/
def Obligations.StagedChangesTakeEffect : Prop :=
  (∀ (d : Dev) (p : PlanSetP), (d.applyStaged (.planSet p)).planOf p.port.toNat = p.e) ∧
  (∀ (d : Dev) (p : PlanGroupP), p.engine.toNat < 16 →
    (d.applyStaged (.planGroup p)).autoRemap.getLsbD p.engine.toNat = p.autoRemap) ∧
  (∀ (d : Dev) (l : List (BitVec 24)), (d.applyStaged (.learnPeers l)).fwd = { d.fwd with peers := l }) ∧
  (∀ (d : Dev) (p : PartReserveP), (d.applyStaged (.partReserve p)).partRes p.part.toNat =
    { pmin := p.pmin.toNat, pmax := p.pmax.toNat }) ∧
  (∀ (d : Dev) (p : MirrorSetP), p.enable = false →
    Tab.find (d.applyStaged (.mirrorSet p)).store.mirrors p.session.toNat = none) ∧
  (∀ (d : Dev) (p : MirrorSetP), p.enable = true →
    Tab.find (d.applyStaged (.mirrorSet p)).store.mirrors p.session.toNat =
      some { source := p.source, analysis := p.analysis.toNat, cls := BitVec.ofNat 3 p.cls.toNat }) ∧
  (∀ (d : Dev) (p : CtxSetP), d.ctx? p.ctx.toNat = none → p.e.level ≠ 0 →
    (d.applyStaged (.ctxSet p)).ctx? p.ctx.toNat = some { e := p.e, st := .pending, since := d.now }) ∧
  (∀ (d : Dev) (p : CtxSetP), d.ctx? p.ctx.toNat = none → p.e.level = 0 →
    (d.applyStaged (.ctxSet p)).ctx? p.ctx.toNat = some { e := p.e, st := .active }) ∧
  (∀ (d : Dev) (c : BitVec 16) (x : Ctx), d.ctx? c.toNat = some x → x.st = .pending →
    (d.applyStaged (.ctxClose c)).ctx? c.toNat = none) ∧
  (∀ (d : Dev) (c : BitVec 16) (x : Ctx), d.ctx? c.toNat = some x → (x.st = .active ∨ x.st = .spill) →
    (d.applyStaged (.ctxClose c)).ctx? c.toNat = some { x with st := .draining }) ∧
  (∀ (d : Dev) (p : CtxResizeP) (x : Ctx), d.ctx? p.ctx.toNat = some x →
    (d.applyStaged (.ctxResize p)).ctx? p.ctx.toNat = some { x with resizePend := true, e := { x.e with
      membersNext := p.membersNext, meanNNext := BitVec.ofNat 21 p.meanNNext.toNat, boundary := p.boundary } }) ∧
  (∀ (d : Dev) (n : BitVec 16), (d.applyStaged (.sheafClose n)).sheaf? n.toNat = none) ∧
  (∀ (d : Dev) (p : ThrJobSetP), p.valid = false → (d.applyStaged (.thrJobSet p)).job? p.j.toNat = none) ∧
  (∀ (d : Dev) (p : ThrJobSetP) (x : ThrJob), p.valid = true → d.job? p.j.toNat = some x →
    (d.applyStaged (.thrJobSet p)).job? p.j.toNat = some { x with next := some p.e }) ∧
  (∀ (d : Dev) (j : Byte), (d.applyStaged (.thrJobClose j)).job? j.toNat = none)

/-! ### Link bring-up -/

/-- The stages of bring-up: light and accepted locks lead from DETECT to TRAIN, a planned port that stays dark
is ABSENT, a window of 2^27 bits decides RX_READY, a muted modulator sends no frame but over the lanes of
loopback NEAR, TRAIN ends when both ends are ready, a control block in LOCK shows codeword lock, and LOCK
leads to EXCHANGE with a new ROUND; in loopback NEAR and OPTICAL a frame sent returns (R337, R360 to R363,
R366, R522; how it returns is log entry 174's reading). -/
def Obligations.PortStages : Prop :=
  (∀ (s : State) (p : Port), s.d.awake = true → ((s.d.port p.val).st = .detect ∨ (s.d.port p.val).st = .absent) →
    s.d.ringsReady p.val = true →
    ∃ t, exec (.lightDetected p) s = .next t ∧ t.d.port p.val = { s.d.port p.val with
        st := .train, los := false, muted := s.d.loop p.val == 1, rxReady := false, winBits := 0, winErrs := 0, readySent := 0,
        readyGot := 0, prbsBits := 0, prbsErrs := 0 } ∧
      (∀ q, q ≠ p.val → t.d.port q = s.d.port q) ∧ t.d = { s.d with ports := t.d.ports }) ∧
  (∀ (s : State) (p : Port), s.d.awake = true → s.d.ringsReady p.val = false →
    ∃ t, exec (.lightDetected p) s = .next t ∧ t.d.port p.val = { s.d.port p.val with los := false } ∧
      (∀ q, q ≠ p.val → t.d.port q = s.d.port q) ∧ t.d = { s.d with ports := t.d.ports }) ∧
  (∀ (s : State) (p : Port), s.d.awake = true → (s.d.port p.val).st = .detect →
    (s.d.planOf (s.d.logical p.val)).valid = true →
    exec (.absentTimeout p) s = .next (s.put (s.d.setPort p.val { s.d.port p.val with st := .absent }))) ∧
  (∀ (s : State) (p : Port) (c0 c1 c2 : BitVec 16) (bits errs : Nat), s.d.awake = true →
    (s.d.port p.val).st = .train →
    let x := s.d.port p.val
    let bit := (c0.getLsbD 0 && c1.getLsbD 0) || (c0.getLsbD 0 && c2.getLsbD 0) || (c1.getLsbD 0 && c2.getLsbD 0)
    let got := if 3 ≤ x.readyGot then 3 else if bit then x.readyGot + 1 else 0
    let ready := if x.winBits + bits < 2 ^ 27 then x.rxReady
      else decide ((x.winErrs + errs) * 1000 ≤ x.winBits + bits)
    ∃ t, exec (.trainingFrameReceived p c0 (c1, c2) bits errs) s = .next t ∧
      (t.d.port p.val).rxReady = ready ∧ (t.d.port p.val).readyGot = got ∧
      (t.d.port p.val).prbsBits = x.prbsBits + BitVec.ofNat 64 bits ∧
      (t.d.port p.val).prbsErrs = x.prbsErrs + BitVec.ofNat 64 errs ∧
      (t.d.port p.val).st = (if ready = true ∧ 8 ≤ x.readySent ∧ 3 ≤ got then .lock else .train) ∧
      (∀ q, q ≠ p.val → t.d.port q = s.d.port q) ∧ t.d.fwd = s.d.fwd ∧ t.d.store = s.d.store ∧ t.d.out = s.d.out) ∧
  (∀ (s : State) (p : Port), s.d.awake = true → (s.d.port p.val).muted = true → s.d.loop p.val ≠ 1 →
    exec (.trainingFrameSent p) s = .next s) ∧
  (∀ (s : State) (p : Port), s.d.awake = true → (s.d.port p.val).muted = false → (s.d.port p.val).st = .train →
    (s.d.port p.val).rxReady = false → s.d.loopsBack p.val = false →
    exec (.trainingFrameSent p) s = .next (s.put ((s.d.send (.training p.val 0 (s.d.port p.val).prbsPos)).setPort
      p.val { s.d.port p.val with prbsPos := ((s.d.port p.val).prbsPos + 32608) % 8191 }))) ∧
  (∀ (s : State) (p : Port), s.d.awake = true → (s.d.port p.val).muted = false → (s.d.port p.val).st = .train →
    (s.d.port p.val).rxReady = true →
    ∃ t, exec (.trainingFrameSent p) s = .next t ∧
      t.d.out = .training p.val 1 (s.d.port p.val).prbsPos :: s.d.out ∧
      t.d.loopQ = (if s.d.loopsBack p.val then s.d.loopQ ++ [s.d.trainingReturn p.val 1] else s.d.loopQ) ∧
      (t.d.port p.val).st = (if 7 ≤ (s.d.port p.val).readySent ∧ 3 ≤ (s.d.port p.val).readyGot then .lock else .train) ∧
      ∀ q, q ≠ p.val → t.d.port q = s.d.port q) ∧
  (∀ (s : State) (p : Port) (b : BitVec 256), s.d.awake = true → (s.d.port p.val).st = .lock →
    ∃ t, exec (.syncBlockReceived ⟨p, b⟩) s = .next t ∧ (t.d.port p.val).fecLock = true ∧ (t.d.port p.val).st = .lock ∧
      (t.d.port p.val).frameSync = ((s.d.port p.val).frameSync || (ControlBlock.ofBody b).starts) ∧
      ∀ q, q ≠ p.val → t.d.port q = s.d.port q) ∧
  (∀ (s : State) (p : Port), s.d.awake = true → (s.d.port p.val).st = .lock →
    ∃ t, exec (.lockAchieved p) s = .next t ∧ (t.d.port p.val).st = .exchange ∧
      (t.d.port p.val).round = (s.d.port p.val).round + 1 ∧ (t.d.port p.val).pairNow = false ∧
      (t.d.port p.val).ackNow = false ∧ (∀ q, q ≠ p.val → t.d.port q = s.d.port q) ∧ t.d.fwd = s.d.fwd ∧
      t.d.store = s.d.store ∧ t.d.red = s.d.red)

/-- A failure of TRAIN, LOCK or EXCHANGE counts PORT_TRAIN_FAIL and leads back to DETECT, or, as the
TRAIN_RETRYth in a row, to DOWN with TRAIN_FAIL (R362, R363, R366). -/
def Obligations.TrainingFailures : Prop :=
  ∀ (s : State) (p : Port) (i : Instr),
    ((i = .trainTimeout p ∧ (s.d.port p.val).st = .train) ∨ (i = .lockTimeout p ∧ (s.d.port p.val).st = .lock) ∨
      (i = .exchangeTimeout p ∧ (s.d.port p.val).st = .exchange)) →
    s.d.awake = true → (s.d.port p.val).rx = none → (s.d.port p.val).trainFails < 255 →
    (s.d.port p.val).mode ≠ 0 → (s.d.port p.val).badHalf ≠ 3 → s.d.loop p.val = 0 →
    let n := (s.d.port p.val).trainFails + 1
    let lim := s.d.regBits (basePort p.val + 4) 7 0
    ∃ t, exec i s = .next t ∧ t.d.ctr (ctrPort p.val 0x148) = (s.d.ctr (ctrPort p.val 0x148) + 1) % 2 ^ 64 ∧
      (t.d.port p.val).trainFails = n ∧
      ((lim = 0 ∨ n < lim) → (t.d.port p.val).st = .detect) ∧
      ((lim ≠ 0 ∧ lim ≤ n) → (t.d.port p.val).st = .down ∧ (t.d.port p.val).reason = 4) ∧
      (∀ q, q ≠ p.val → t.d.port q = s.d.port q) ∧ t.d.fwd = s.d.fwd ∧ t.d.red = s.d.red

/-- The exchange: a valid pair that matches the port's plan admits once the acknowledgement has come, one of
no plan leaves UNPLANNED, a matching one in ACTIVE is answered, and the pair is repeated (R364, R366, R368,
R370). -/
def Obligations.PortExchange : Prop :=
  (∀ (s : State) (p : Port) (id feat : LinkMsg), s.d.awake = true → (s.d.port p.val).fecLock = true →
    s.d.loop p.val = 0 → (s.d.port p.val).st = .exchange → pairValid id feat = true →
    LinkMsg.field feat 2 1 = 1 → planMatches (s.d.planOf (s.d.logical p.val)) id = true →
    ∃ t, exec (.exchPairReceived p id feat) s = .next t ∧
      (t.d.port p.val).st = (if (s.d.port p.val).ackNow then .active else .exchange) ∧
      (t.d.port p.val).admitted = true ∧ (t.d.port p.val).partnerId = id ∧ (t.d.port p.val).partnerFeat = feat ∧
      (∀ q, q ≠ p.val → t.d.port q = s.d.port q) ∧ t.d.fwd = s.d.fwd ∧ t.d.store = s.d.store) ∧
  (∀ (s : State) (p : Port) (id feat : LinkMsg), s.d.awake = true → (s.d.port p.val).fecLock = true →
    s.d.loop p.val = 0 → (s.d.port p.val).st = .exchange → pairValid id feat = true →
    LinkMsg.field feat 2 1 = 1 → (s.d.planOf (s.d.logical p.val)).valid = false →
    ∃ t, exec (.exchPairReceived p id feat) s = .next t ∧ (t.d.port p.val).st = .unplanned ∧
      (t.d.port p.val).admitted = false ∧ ∀ q, q ≠ p.val → t.d.port q = s.d.port q) ∧
  (∀ (s : State) (p : Port) (id feat : LinkMsg), s.d.awake = true → (s.d.port p.val).fecLock = true →
    s.d.loop p.val = 0 → (s.d.port p.val).st = .exchange → pairValid id feat = true →
    LinkMsg.field feat 2 1 ≠ 1 →
    ∃ t, exec (.exchPairReceived p id feat) s = .next t ∧ (t.d.port p.val).st = .incompatible ∧
      ∀ q, q ≠ p.val → t.d.port q = s.d.port q) ∧
  (∀ (s : State) (p : Port) (id feat : LinkMsg), s.d.awake = true → (s.d.port p.val).fecLock = true →
    s.d.loop p.val ≠ 2 → (s.d.port p.val).st = .active → pairValid id feat = true →
    pairIdentity id feat = pairIdentity (s.d.port p.val).partnerId (s.d.port p.val).partnerFeat →
    ∃ t, exec (.exchPairReceived p id feat) s = .next t ∧ (t.d.port p.val).st = .active ∧
      t.d.out = (if s.d.silent p.val then s.d.out
        else .link p.val 0x12 (LinkMsg.ofBytes [0x12, LinkMsg.byte id 1]) :: s.d.out) ∧ t.d.fwd = s.d.fwd ∧
      t.d.store = s.d.store ∧ t.d.red = s.d.red) ∧
  (∀ (s : State) (p : Port), s.d.awake = true → (s.d.port p.val).fecLock = true → s.d.loop p.val ≠ 2 →
    (s.d.port p.val).st = .exchange →
    ∃ t, exec (.exchAckReceived p (s.d.port p.val).round) s = .next t ∧ (t.d.port p.val).ackNow = true ∧
      (t.d.port p.val).st = (if (s.d.port p.val).admitted then .active else .exchange) ∧
      (∀ q, q ≠ p.val → t.d.port q = s.d.port q) ∧ t.d.fwd = s.d.fwd ∧ t.d.store = s.d.store) ∧
  (∀ (s : State) (p : Port), s.d.awake = true → (s.d.port p.val).st ∈ [.exchange, .active, .unplanned, .crossed, .incompatible] →
    exec (.exchRepeatTimer p) s = .next (s.put (s.d.sendPair p.val)))

/-- Losses: an ACTIVE port whose light or lock is lost, or whose partner leaves, shows why in LAST_EXIT, sends
PORT_DOWN and starts again from DETECT (R371, R372, R378). Framing and drains: an uncorrectable codeword loses
framing and a SYNC whose offset names a frame finds it again, a LINK block is counted, a port in FAR loopback
returns each block, a drain ends when nothing is queued, its time limit discards what still waits, a held
PORT_RESTART ends with it, and the one that has waited longest ends with TIMEOUT (R120, R321, R322, R331,
R373, R426, R522). -/
def Obligations.PortLossesAndDrains : Prop :=
  (∀ (s : State) (p : Port), s.d.awake = true → (s.d.port p.val).st = .active → (s.d.port p.val).rx = none →
    (s.d.port p.val).hold = none → s.d.swapOfPort p.val = none → s.d.red.ctxs = [] → (s.d.port p.val).mode ≠ 0 →
    (s.d.port p.val).badHalf ≠ 3 → s.d.loop p.val = 0 →
    let left := fun (t : State) (code : Nat) => (t.d.port p.val).st = .detect ∧ (t.d.port p.val).lastExit = code ∧
      (t.d.port p.val).admitted = false ∧
      t.d.ctr (ctrPort p.val 0x140) = (s.d.ctr (ctrPort p.val 0x140) + 1) % 2 ^ 64 ∧
      (∀ c, c < 8 → t.d.queue (.port (s.d.logical p.val)) c = []) ∧
      (∀ q, q ≠ p.val → t.d.port q = s.d.port q) ∧ t.d.fwd = s.d.fwd
    ((s.d.port p.val).los = false → ∃ t, exec (.lossOfSignal p) s = .next t ∧ left t 1 ∧ (t.d.port p.val).los = true ∧
      t.d.ctr (ctrPort p.val 0x138) = (s.d.ctr (ctrPort p.val 0x138) + 1) % 2 ^ 64) ∧
    ((s.d.port p.val).fecLock = true → ∃ t, exec (.lossOfLock p) s = .next t ∧ left t 2) ∧
    ((s.d.port p.val).fecLock = true → ∃ t, exec (.linkDownReceived p) s = .next t ∧ left t 4)) ∧
  (∀ (s : State) (p : Port), s.d.awake = true → (s.d.port p.val).fecLock = true → (s.d.port p.val).rx = none →
    (s.d.port p.val).hunting = false →
    exec (.uncorrectableCodeword p) s = .next (s.put (((s.d.bump (ctrLine p.val 1)).bump (ctrLine p.val 2)).setPort
      p.val { s.d.port p.val with hunting := true, frameSync := false }))) ∧
  (∀ (s : State) (p : Port) (b : BitVec 256) (off : BitVec 16), s.d.awake = true → (s.d.port p.val).fecLock = true →
    (s.d.port p.val).hunting = true → s.d.loop p.val ≠ 2 → ControlBlock.ofBody b = .sync off → off ≠ 0xFFFF →
    exec (.syncBlockReceived ⟨p, b⟩) s = .next (s.put (s.d.setPort p.val { s.d.port p.val with
      hunting := false, frameSync := true }))) ∧
  (∀ (s : State) (p : Port) (b : BitVec 256), s.d.loop p.val ≠ 2 → (s.d.port p.val).st ≠ .lock →
    (∀ off : BitVec 16, ControlBlock.ofBody b = .sync off → off = 0xFFFF) → (∀ m, ControlBlock.ofBody b ≠ .link m) →
    ∃ t, exec (.syncBlockReceived ⟨p, b⟩) s = .next t ∧ (∀ q, t.d.port q = s.d.port q) ∧
      t.d = { s.d with ports := t.d.ports }) ∧
  (∀ (s : State) (p : Port) (b : BitVec 256) (m : LinkMsg), s.d.awake = true → s.d.loop p.val ≠ 2 →
    (s.d.port p.val).fecLock = true → ControlBlock.ofBody b = .link m →
    ∃ t, exec (.syncBlockReceived ⟨p, b⟩) s = .next t ∧ (∀ q, t.d.port q = s.d.port q) ∧
      t.d.ctr (ctrLine p.val 3) = (s.d.ctr (ctrLine p.val 3) + 1) % 2 ^ 64) ∧
  (∀ (s : State) (p : Port) (b : BitVec 256), s.d.returns p.val = true →
    exec (.syncBlockReceived ⟨p, b⟩) s = .next (s.put (s.d.send (.block p.val b)))) ∧
  (∀ (off : BitVec 16) (x : BitVec 8) (y : BitVec 224),
    ControlBlock.ofBody ((1#8 ++ x) ++ off ++ y) = .sync off) ∧
  (∀ (s : State) (p : Port), s.d.awake = true → (s.d.port p.val).st = .draining →
    (s.d.port p.val).drain = some .restart → s.d.queuesEmpty (s.d.logical p.val) = true →
    (s.d.port p.val).rx = none → s.d.swapOfPort p.val = none → s.d.red.ctxs = [] → (s.d.port p.val).mode ≠ 0 →
    (s.d.port p.val).badHalf ≠ 3 → s.d.loop p.val = 0 →
    ∃ t, exec (.portQueuesEmpty p) s = .next t ∧ (t.d.port p.val).st = .detect ∧
      (t.d.port p.val).lastExit = 6 ∧ (t.d.port p.val).drain = none ∧
      ∀ q, q ≠ p.val → t.d.port q = s.d.port q) ∧
  (∀ (s : State) (p : Port) (c : Nat), s.d.awake = true → (s.d.port p.val).st = .draining → c < 8 →
    ∃ t, exec (.drainTimeLimit p) s = .next t ∧ t.d.queue (.port (s.d.logical p.val)) c = [] ∧
      t.d.ports = s.d.ports ∧ t.d.fwd = s.d.fwd ∧ t.d.red = s.d.red) ∧
  (∀ (s : State) (p : Port), s.d.awake = true → (s.d.port p.val).st = .detect →
    s.d.cmd.held.any (fun h => decide (h.what = .portRestart (s.d.logical p.val))) = true →
    ∃ t, exec (.enableDrainEnd p) s = .next t ∧ (t.d.port p.val).st = .detect ∧ (t.d.port p.val).trainFails = 0 ∧
      (∀ h ∈ t.d.cmd.held, h.what ≠ .portRestart (s.d.logical p.val)) ∧ t.d.fwd = s.d.fwd ∧ t.d.store = s.d.store) ∧
  (∀ (s : State) (p : Port) (h : HeldReply), s.d.awake = true → (s.d.port p.val).st = .draining →
    s.d.cmd.held.find? (fun h => h.what == .portRestart (s.d.logical p.val)) = some h →
    ∃ t, exec (.enableWaitTimeout p) s = .next t ∧ t.d.ports = s.d.ports ∧ t.d.fwd = s.d.fwd ∧
      t.d.store = s.d.store ∧ t.d.cmd.held = s.d.cmd.held.erase h ∧
      (h.deferred = false → s.d.pathUp h.c = true → s.d.svRuns 1 = true →
        .reply h.c h.opcode .timeout .empty ∈ t.d.out))

/-- PORT_RESTART drains an ACTIVE port with its reply held, or leaves at once; PORT_PRBS takes a port into
TEST and out of it; OPT_RELOCK clears the failures of a port that is DOWN for its rings (R339, R376, R378,
R426). -/
def Obligations.PortCommands : Prop :=
  (∀ (s : State) (c : CmdCtx) (l : BitVec 16), s.d.Runs (.portRestart c l false) c 0x0206 .operator → c.noWait = false →
    l.toNat < 512 → (s.d.touch c).claimedElse c.src (.port (s.d.physical l.toNat)) = false → s.d.red.ctxs = [] →
    (s.d.port (s.d.physical l.toNat)).st = .active →
    ∃ t, exec (.portRestart c l false) s = .next t ∧
      t.d.port (s.d.physical l.toNat) = { s.d.port (s.d.physical l.toNat) with
        st := .draining, drain := some .restart, drainAt := s.d.now } ∧
      t.d.cmd.held = s.d.cmd.held ++
        [{ c := c, opcode := 0x0206, what := .portRestart l.toNat, at_ := s.d.now, deferred := false }] ∧
      t.d.out = s.d.out ∧ t.d.fwd = s.d.fwd ∧ t.d.store = s.d.store) ∧
  (∀ (s : State) (c : CmdCtx) (l : BitVec 16), s.d.Runs (.portRestart c l true) c 0x0206 .operator → l.toNat < 512 →
    (s.d.touch c).claimedElse c.src (.port (s.d.physical l.toNat)) = false → s.d.red.ctxs = [] →
    let p := s.d.physical l.toNat
    (s.d.port p).st = .active → (s.d.port p).rx = none → s.d.swapOfPort p = none → (s.d.port p).mode ≠ 0 →
    (s.d.port p).badHalf ≠ 3 → s.d.loop p = 0 →
    ∃ t, exec (.portRestart c l true) s = .next t ∧ (t.d.port p).st = .detect ∧ (t.d.port p).lastExit = 6 ∧
      ∀ q, q ≠ p → t.d.port q = s.d.port q) ∧
  (∀ (s : State) (c : CmdCtx) (p : BitVec 16) (pat : PrbsPattern), s.d.Runs (.portPrbs c p pat) c 0x0207 .operator →
    p.toNat < 512 → (s.d.touch c).claimedElse c.src (.port p.toNat) = false → s.d.loop p.toNat ≠ 2 →
    (s.d.port p.toNat).st ∈ [.detect, .train, .lock, .exchange, .unplanned, .absent, .crossed, .incompatible] →
    pat ≠ .none →
    ∃ t, exec (.portPrbs c p pat) s = .next t ∧ (t.d.port p.toNat).st = .test ∧ (t.d.port p.toNat).prbs = pat ∧
      (t.d.port p.toNat).prbsBits = 0 ∧ (t.d.port p.toNat).prbsErrs = 0 ∧
      ∀ q, q ≠ p.toNat → t.d.port q = s.d.port q) ∧
  (∀ (s : State) (p : Port), s.d.awake = true → (s.d.port p.val).st = .test → (s.d.port p.val).prbs ≠ .none →
    ∃ t, exec (.prbsRelock p) s = .next t ∧ (t.d.port p.val).prbsBits = (s.d.port p.val).prbsBits + 2048 ∧
      (t.d.port p.val).prbsErrs = (s.d.port p.val).prbsErrs + 1024 ∧ (t.d.port p.val).prbsRun = 0 ∧ t.d.regBit (basePort p.val + 8) 3 = true ∧
      t.d.fwd = s.d.fwd ∧ t.d.store = s.d.store) ∧
  (∀ (s : State) (c : CmdCtx) (p : BitVec 16), s.d.Runs (.optRelock c p) c 0x0307 .operator → p.toNat < 512 →
    (s.d.port p.toNat).st = .down → (s.d.port p.toNat).reason = 1 →
    (s.d.touch c).claimedElse c.src (.port p.toNat) = false → (s.d.port p.toNat).mode ≠ 0 →
    (s.d.port p.toNat).badHalf ≠ 3 → s.d.loop p.toNat = 0 →
    ∃ t, exec (.optRelock c p) s = .next t ∧ (t.d.port p.toNat).st = .detect ∧
      (t.d.ring p.toNat .tx).fails = 0 ∧ (t.d.ring p.toNat .rx).fails = 0 ∧
      ∀ q, q ≠ p.toNat → t.d.port q = s.d.port q)

/-! ### Light -/

/-- Rings: a sweep dwells two windows at a resonance and climbs to the next, the second matching window
accepts a lock, which unmutes a modulator but in loopback NEAR and lets a port that waits for it leave DETECT,
the second wrong one in a row is a wrong lock and a failure, a sweep without a lock is a failure, the third
failure takes the port DOWN, and 10 s of lock clear the count (R334, R336 to R339, R360, R522; the places of
the resonances are log entry 128's). Lasers: the first hundred readings of 1 ms without a commissioning value
give one (log entry 153), each reading goes into its windows, which show the mean of their readings, a fade
confirmed beyond WARN sets the level, OPT_LASER_REF writes a value, and a laser that fails leaves its port to
the fiber's spare or takes it DOWN (R340 to R343, R350, R355, R356). -/
def Obligations.RingsAndLasers : Prop :=
  (∀ (w : ToneWindow) (g : Nat), toneHits w g = true ↔
    (∀ i, i < 16 → i ≠ g → (w.tones.getD i 0).toInt + 10 * 256 ≤ (w.tones.getD g 0).toInt) ∧
    w.floor.toInt + 15 * 256 ≤ (w.tones.getD g 0).toInt) ∧
  (∀ (s : State) (p : Port) (r : Ring) (w : ToneWindow), s.d.awake = true →
    ((s.d.ring p.val r).lock = .sweep ∨ (s.d.ring p.val r).lock = .muted) → (s.d.ring p.val r).passed < 4 →
    (s.d.ring p.val r).windows = 0 →
    exec (.toneWindow p r w) s = .next (s.put (s.d.setRing p.val r { s.d.ring p.val r with
      windows := 1, heater := (s.d.ring p.val r).climb (ringNo p.val r), matches_ := (s.d.ring p.val r).matches_ +
        (toneHits w ((s.d.port p.val).chan p.val)).toNat }))) ∧
  (∀ (s : State) (p : Port) (r : Ring) (w : ToneWindow), s.d.awake = true →
    ((s.d.ring p.val r).lock = .sweep ∨ (s.d.ring p.val r).lock = .muted) → (s.d.ring p.val r).passed < 4 →
    (s.d.ring p.val r).windows ≠ 0 → (s.d.ring p.val r).matches_ < 2 →
    ((s.d.ring p.val r).matches_ = 0 ∨ toneHits w ((s.d.port p.val).chan p.val) = false) →
    exec (.toneWindow p r w) s = .next (s.put (s.d.setRing p.val r { s.d.ring p.val r with
      windows := 0, matches_ := 0, passed := (s.d.ring p.val r).passed + 1 }))) ∧
  (∀ (s : State) (p : Port) (r : Ring) (w : ToneWindow), s.d.awake = true →
    ((s.d.ring p.val r).lock = .sweep ∨ (s.d.ring p.val r).lock = .muted) → (s.d.ring p.val r).passed < 4 →
    (s.d.ring p.val r).windows ≠ 0 → (s.d.ring p.val r).matches_ = 1 → (s.d.ring p.val r).fails = 0 →
    toneHits w ((s.d.port p.val).chan p.val) = true →
    ∃ t, exec (.toneWindow p r w) s = .next t ∧
      t.d.ring p.val r = { s.d.ring p.val r with lock := .locked, matches_ := 0, misses := 0, lockedAt := s.d.now } ∧
      (∀ k, k ≠ r → t.d.ring p.val k = s.d.ring p.val k) ∧
      ((s.d.port p.val).st ∉ [.detect, .absent] → (t.d.port p.val).st = (s.d.port p.val).st) ∧
      (r = .tx → (s.d.port p.val).st ∉ [.off, .detect, .absent, .down] → (t.d.port p.val).muted = (s.d.loop p.val == 1)) ∧
      ((s.d.port p.val).st = .detect → (s.d.port p.val).los = false →
        (∀ k, k ≠ r → (s.d.ring p.val k).lock = .locked) → (t.d.port p.val).st = .train) ∧
      (∀ q, q ≠ p.val → t.d.port q = s.d.port q) ∧ t.d.fwd = s.d.fwd ∧
      ((s.d.port p.val).prbs = .none → t.d.out = s.d.out)) ∧
  (∀ (s : State) (p : Port) (r : Ring) (w : ToneWindow), s.d.awake = true → (s.d.ring p.val r).lock = .locked →
    toneHits w ((s.d.port p.val).chan p.val) = true →
    exec (.toneWindow p r w) s = .next (s.put (s.d.setRing p.val r { s.d.ring p.val r with misses := 0 }))) ∧
  (∀ (s : State) (p : Port) (r : Ring) (w : ToneWindow), s.d.awake = true → (s.d.ring p.val r).lock = .locked →
    (s.d.ring p.val r).misses = 0 → toneHits w ((s.d.port p.val).chan p.val) = false →
    (r = .tx ∨ -18 * 256 ≤ w.power.toInt) →
    exec (.toneWindow p r w) s = .next (s.put (s.d.setRing p.val r { s.d.ring p.val r with misses := 1 }))) ∧
  (∀ (s : State) (p : Port) (w : ToneWindow), s.d.awake = true → (s.d.ring p.val .rx).lock = .locked →
    (s.d.ring p.val .rx).misses = 1 → (s.d.ring p.val .rx).fails < 2 →
    toneHits w ((s.d.port p.val).chan p.val) = false → -18 * 256 ≤ w.power.toInt →
    (s.d.port p.val).st ∈ [.detect, .train, .lock, .exchange] →
    ∃ t, exec (.toneWindow p .rx w) s = .next t ∧ (t.d.ring p.val .rx).lock = .sweep ∧
      (t.d.ring p.val .rx).fails = (s.d.ring p.val .rx).fails + 1 ∧
      t.d.ctr (ctrLight p.val 0) = (s.d.ctr (ctrLight p.val 0) + 1) % 2 ^ 64 ∧ t.d.ports = s.d.ports ∧
      t.d.ring p.val .tx = s.d.ring p.val .tx) ∧
  (∀ (s : State) (p : Port) (r : Ring), s.d.awake = true → (s.d.ring p.val r).lock = .sweep →
    (s.d.ring p.val r).windows = 0 → (s.d.ring p.val r).fails < 2 →
    ∃ t, exec (.sweepEndNoLock p r) s = .next t ∧ (t.d.ring p.val r).lock = .sweep ∧
      (t.d.ring p.val r).fails = (s.d.ring p.val r).fails + 1 ∧ t.d.ports = s.d.ports ∧ t.d.fwd = s.d.fwd) ∧
  (∀ (s : State) (p : Port) (r : Ring), s.d.awake = true → (s.d.ring p.val r).lock = .sweep →
    (s.d.ring p.val r).windows = 0 → (s.d.ring p.val r).fails = 2 → (s.d.port p.val).st = .detect → s.d.swapOfPort p.val = none →
    ∃ t, exec (.sweepEndNoLock p r) s = .next t ∧ (t.d.port p.val).st = .down ∧ (t.d.port p.val).reason = 1 ∧
      (t.d.ring p.val r).lock = .unlocked ∧ ∀ q, q ≠ p.val → t.d.port q = s.d.port q) ∧
  (∀ (s : State) (p : Port) (r : Ring), s.d.awake = true → (s.d.ring p.val r).lock = .locked →
    exec (.lockFailureClearTimer p r) s = .next (s.put (s.d.setRing p.val r { s.d.ring p.val r with fails := 0 }))) ∧
  (∀ (s : State) (p : Port) (r : Ring) (m : BitVec 16), s.d.awake = true → (s.d.ring p.val r).lock ≠ .unlocked →
    exec (.heaterLoopUpdate p r m) s = .next (s.put (s.d.setRing p.val r { s.d.ring p.val r with
      heater := Config.heaterLoop (s.d.ring p.val r).heater m }))) ∧
  (∀ (s : State) (e : Fin 16) (l : LaserIx) (v : BitVec 16), s.d.awake = true → s.d.serving = true →
    (s.d.laser e.val l.val).lit = true → (s.d.laser e.val l.val).hasRef = false →
    (s.d.laser e.val l.val).refN < 99 →
    ∃ t, exec (.laserReading1ms e l v) s = .next t ∧ t.d = { s.d with opt := t.d.opt } ∧
      t.d.laser e.val l.val = { (s.d.laser e.val l.val).note1ms v.toInt with
        refN := (s.d.laser e.val l.val).refN + 1, refSum := (s.d.laser e.val l.val).refSum + v.toInt } ∧
      ∀ i, i ≠ l.val → t.d.laser e.val i = s.d.laser e.val i) ∧
  (∀ (w : WinAvg) (k : Nat) (v : Int), w.n + 1 = k → (w.add k v).last = some ((w.sum + v) / k) ∧ (w.add k v).n = 0) ∧
  (∀ (s : State) (e : Fin 16) (l : LaserIx) (v : BitVec 16), s.d.awake = true → s.d.serving = true →
    (s.d.laser e.val l.val).lit = true → (s.d.laser e.val l.val).hasRef = false →
    (s.d.laser e.val l.val).refN = 99 →
    ∃ t, exec (.laserReading1ms e l v) s = .next t ∧ (t.d.laser e.val l.val).hasRef = true ∧
      (t.d.laser e.val l.val).ref = BitVec.ofInt 16 (((s.d.laser e.val l.val).refSum + v.toInt) / 100) ∧
      (t.d.laser e.val l.val).fresh = true ∧ t.d.ports = s.d.ports ∧ t.d.fwd = s.d.fwd) ∧
  (∀ (s : State) (e : Fin 16) (l : LaserIx) (v : BitVec 16) (p : Nat), s.d.awake = true → s.d.serving = true →
    (s.d.laser e.val l.val).lit = true → (s.d.laser e.val l.val).hasRef = true →
    (s.d.laser e.val l.val).level = 0 → (s.d.laser e.val l.val).halfOwed = false → s.d.laserPort e.val l.val = some p →
    let fade := v.toInt - (s.d.laser e.val l.val).ref.toInt
    fade ≤ s.d.fadeAt e.val 1 → (∀ k, 2 ≤ k → k ≤ 4 → s.d.fadeAt e.val k < fade) →
    atLeast1 (s.d.regBits (offLightCtl e.val) 15 8) ≤ (s.d.laser e.val l.val).nWarn + 1 →
    ∃ t, exec (.laserReading1ms e l v) s = .next t ∧ (t.d.laser e.val l.val).level = 1 ∧
      (t.d.laser e.val l.val).fade = fade ∧ t.d.ports = s.d.ports ∧ t.d.out = s.d.out) ∧
  (∀ (s : State) (p : Port) (v : BitVec 16), s.d.awake = true → s.d.serving = true →
    s.d.onSpare p.val = false → isCampus (s.d.port p.val).mode = false → (s.d.laser (p.val / 32) (p.val % 32)).lit = true →
    (s.d.port p.val).st = .detect → (s.d.port p.val).rx = none → s.d.canSwap p.val = true →
    (s.d.port p.val).mode ≠ 0 → (s.d.port p.val).badHalf ≠ 3 → s.d.loop p.val = 0 →
    ∃ t, exec (.laserReading10us ⟨p.val / 32, by omega⟩ ⟨p.val % 32, by omega⟩ v true) s = .next t ∧
      (t.d.laser (p.val / 32) (p.val % 32)).failed = true ∧ (t.d.laser (p.val / 32) (p.val % 32)).lit = false ∧
      (t.d.port p.val).st = .detect ∧ (t.d.spare (p.val / 32) (spareOf p.val (s.d.port p.val).mode)).st = 1 ∧
      (t.d.swapIn (p.val / 32)).map (fun w => (w.port, w.dead)) = some (p.val, true)) ∧
  (∀ (s : State) (p : Port) (v : BitVec 16), s.d.awake = true → s.d.serving = true →
    s.d.onSpare p.val = false → isCampus (s.d.port p.val).mode = false → (s.d.laser (p.val / 32) (p.val % 32)).lit = true →
    (s.d.port p.val).st = .detect → s.d.swapOfPort p.val = none →
    (s.d.spare (p.val / 32) (spareOf p.val (s.d.port p.val).mode)).st ≠ 0 →
    ∃ t, exec (.laserReading10us ⟨p.val / 32, by omega⟩ ⟨p.val % 32, by omega⟩ v true) s = .next t ∧
      (t.d.laser (p.val / 32) (p.val % 32)).failed = true ∧ (t.d.port p.val).st = .down ∧
      (t.d.port p.val).reason = 3) ∧
  (∀ (s : State) (p : Port) (v : BitVec 16), s.d.awake = true → s.d.serving = true →
    s.d.onSpare p.val = false → isCampus (s.d.port p.val).mode = false →
    (s.d.laser (p.val / 32) (p.val % 32)).lit = true → (s.d.laser (p.val / 32) (p.val % 32)).hasRef = false →
    ∃ t, exec (.laserReading10us ⟨p.val / 32, by omega⟩ ⟨p.val % 32, by omega⟩ v false) s = .next t ∧
      t.d = { s.d with opt := t.d.opt } ∧
      t.d.laser (p.val / 32) (p.val % 32) = (s.d.laser (p.val / 32) (p.val % 32)).note10us v.toInt) ∧
  (∀ (s : State) (c : CmdCtx) (e l : Byte) (v : BitVec 16), s.d.Runs (.optLaserRef c e l (some v)) c 0x0305 .operator →
    e.toNat < 16 → l.toNat < 37 → (l.toNat = 36 → e.toNat = 0 ∨ e.toNat = 15) →
    let ix := s.d.refIx e.toNat l.toNat
    ∃ t, exec (.optLaserRef c e l (some v)) s = .next t ∧
      t.d.laser e.toNat ix = { s.d.laser e.toNat ix with ref := v, hasRef := true, fresh := false } ∧
      t.d.ports = s.d.ports) ∧
  (∀ (d : Dev) (e i : Nat), (32 ≤ i ∨ isCampus (d.port (32 * e + i)).mode = false) → e < 16 → i < 37 → d.refIx e i = i) ∧
  (∀ (d : Dev) (e i : Nat), i < 32 → isCampus (d.port (32 * e + i)).mode = true → d.refIx e i = 37 + i % 16)

/-- The swap of the device's own laser: OPT_SWAP warms up the fiber's spare, a tuned spare asks the partner, a
SWAP_REQ without an answer is sent again, its answer holds the port, SWAP_NOW changes the shutters, and
SWAP_DONE leaves the port on the spare (R128, R346, R347, R355). A swap that the partner refuses goes by
retrain where that is allowed, and a pause that lasts too long leaves ACTIVE with the new laser (R348, R349).
The partner's swap: SWAP_REQ in ACTIVE is acknowledged and holds losses off, SWAP_NOW is noted, SWAP_DONE and
the hold's end declare losses again, the first data block after SWAP_NOW releases the own queues, and
RATE_DOWN drains to half rate (R345, R351, R354). -/
def Obligations.LaserSwaps : Prop :=
  (∀ (s : State) (c : CmdCtx) (p : BitVec 16), s.d.Runs (.optSwap c p) c 0x0306 .operator → p.toNat < 512 →
    (s.d.touch c).claimedElse c.src (.port p.toNat) = false → (s.d.port p.toNat).st ≠ .off →
    (s.d.port p.toNat).st ≠ .down → s.d.canSwap p.toNat = true →
    let f := spareOf p.toNat (s.d.port p.toNat).mode
    ∃ t, exec (.optSwap c p) s = .next t ∧
      t.d.swapIn (p.toNat / 32) = some {
        port := p.toNat, spare := f, step := .tuning, token := s.d.opt.token + 1,
        at_ := s.d.now, was := Tab.get s.d.opt.ptr (p.toNat / 32 * 5 + f) 0 } ∧
      t.d.spare (p.toNat / 32) f = { st := 1, port := p.toNat % 32 } ∧
      t.d.cmd.held.any (fun h => h.what == .swap p.toNat) = true ∧ t.d.ports = s.d.ports ∧ t.d.out = s.d.out) ∧
  (∀ (s : State) (e : Fin 16) (w : Swap), s.d.awake = true → s.d.swapIn e.val = some w → w.step = .tuning →
    (s.d.port w.port).st = .active → w.dead = false → (s.d.port w.port).feat.getLsbD 0 = true →
    (s.d.port w.port).hold = none → (s.d.port w.port).muted = false →
    ∃ t, exec (.spareTuned e) s = .next t ∧ t.d.swapIn e.val = some { w with step := .requested 1 } ∧
      t.d.out.length = s.d.out.length + 1 ∧ t.d.ports = s.d.ports ∧ t.d.fwd = s.d.fwd) ∧
  (∀ (s : State) (e : Fin 16) (w : Swap), s.d.awake = true → s.d.swapIn e.val = some w → w.step = .tuning →
    w.dead = false →
    ∃ t, exec (.spareTuneTimeout e) s = .next t ∧ (t.d.spare e.val w.spare).st = 3 ∧
      (t.d.port w.port).held = false ∧ (t.d.port w.port).st = (s.d.port w.port).st ∧ t.d.fwd = s.d.fwd) ∧
  (∀ (s : State) (e : Fin 16) (w : Swap), s.d.awake = true → s.d.swapIn e.val = some w → w.step = .requested 1 →
    (s.d.port w.port).st = .active → (s.d.port w.port).muted = false →
    ∃ t, exec (.swapReqResend e) s = .next t ∧ t.d.swapIn e.val = some { w with step := .requested 2 } ∧
      t.d.out.length = s.d.out.length + 1 ∧ t.d.ports = s.d.ports ∧ t.d.fwd = s.d.fwd) ∧
  (∀ (s : State) (p : Port) (w : Swap), s.d.awake = true → (s.d.port p.val).fecLock = true → s.d.loop p.val ≠ 2 →
    s.d.swapOfPort p.val = some w → w.step = .requested 1 → (s.d.port p.val).st = .active →
    ∃ t, exec (.swapAckReceived p w.token) s = .next t ∧ (t.d.port p.val).held = true ∧
      t.d.swapIn (p.val / 32) = some { w with step := .paused, heldAt := s.d.now } ∧
      (∀ q, q ≠ p.val → t.d.port q = s.d.port q) ∧ t.d.store = s.d.store) ∧
  (∀ (s : State) (e : Fin 16) (w : Swap), s.d.awake = true → s.d.swapIn e.val = some w → w.step = .paused →
    s.d.sendingOn (s.d.logical w.port) = [] →
    ∃ t, exec (.swapNow e) s = .next t ∧ t.d.swapIn e.val = some { w with step := .shuttered } ∧
      (t.d.laser e.val (32 + w.spare)).lit = true ∧
      (s.d.laserIx w.port ≠ 32 + w.spare → (t.d.laser e.val (s.d.laserIx w.port)).lit = false) ∧
      t.d.ports = s.d.ports) ∧
  (∀ (s : State) (p : Port) (w : Swap), s.d.awake = true → (s.d.port p.val).fecLock = true → s.d.loop p.val ≠ 2 →
    s.d.swapOfPort p.val = some w → w.step = .shuttered → (s.d.port p.val).reqWait = none →
    (s.d.port p.val).drain ≠ some .mode →
    w.spare = spareOf p.val (s.d.port p.val).mode →
    ∃ t, exec (.swapDoneReceived p w.token) s = .next t ∧ t.d.onSpare p.val = true ∧
      (t.d.port p.val).held = false ∧ (t.d.spare (p.val / 32) w.spare).st = 2 ∧
      t.d.ctr (ctrLight p.val 1) = (s.d.ctr (ctrLight p.val 1) + 1) % 2 ^ 64 ∧
      (∀ q, q ≠ p.val → t.d.port q = s.d.port q) ∧ t.d.store = s.d.store) ∧
  (∀ (s : State) (p : Port) (w : Swap), s.d.awake = true → (s.d.port p.val).fecLock = true → s.d.loop p.val ≠ 2 →
    s.d.swapOfPort p.val = some w → w.step = .requested 1 → (s.d.port p.val).st = .active →
    s.d.regBit (offLightCtl (p.val / 32)) 1 = true → s.d.red.ctxs = [] →
    ∃ t, exec (.swapNakReceived p w.token) s = .next t ∧ (t.d.port p.val).st = .draining ∧
      (t.d.port p.val).drain = some .swap ∧ t.d.swapIn (p.val / 32) = some { w with step := .draining } ∧
      ∀ q, q ≠ p.val → t.d.port q = s.d.port q) ∧
  (∀ (s : State) (e : Fin 16) (p : Port) (w : Swap) (o : Bool), s.d.awake = true → s.d.swapIn e.val = some w →
    w.port = p.val → p.val / 32 = e.val → w.spare = spareOf p.val (s.d.port p.val).mode → (s.d.port p.val).st ≠ .draining →
    (w.step = .paused ∨ w.step = .shuttered) → (s.d.port p.val).rx = none → s.d.red.ctxs = [] →
    (s.d.port p.val).mode ≠ 0 → (s.d.port p.val).badHalf ≠ 3 → s.d.loop p.val = 0 →
    ∃ t, exec (.swapPauseTimeout e true o) s = .next t ∧ (t.d.port p.val).st = .detect ∧
      (t.d.port p.val).lastExit = 9 ∧ t.d.onSpare p.val = true ∧
      t.d.ctr (ctrLight p.val 2) = (s.d.ctr (ctrLight p.val 2) + 1) % 2 ^ 64) ∧
  (∀ (s : State) (p : Port) (k : Byte) (both : Bool), s.d.awake = true → s.d.loop p.val ≠ 2 →
    (s.d.port p.val).st = .active → (s.d.port p.val).fecLock = true → s.d.swapOfPort p.val = none →
    ∃ t, exec (.swapReqReceived p k both) s = .next t ∧
      t.d.port p.val = { s.d.port p.val with
        hold := some { token := k, both := both }, reqWait := none, held := (s.d.port p.val).held || both } ∧
      t.d.out = (if s.d.silent p.val then s.d.out
        else .link p.val 0x41 (LinkMsg.ofBytes [0x41, k, if both then 1 else 0, 0, 0, 50]) :: s.d.out) ∧
      (∀ q, q ≠ p.val → t.d.port q = s.d.port q) ∧ t.d.store = s.d.store) ∧
  (∀ (s : State) (p : Port) (h : PartnerHold), s.d.awake = true → s.d.loop p.val ≠ 2 →
    (s.d.port p.val).fecLock = true → (s.d.port p.val).hold = some h →
    ∃ t, exec (.swapNowReceived p h.token) s = .next t ∧
      t.d.port p.val = { s.d.port p.val with hold := some { h with nowSeen := true } } ∧
      ∀ q, q ≠ p.val → t.d.port q = s.d.port q) ∧
  (∀ (s : State) (p : Port) (h : PartnerHold), s.d.awake = true → (s.d.port p.val).hold = some h →
    h.nowSeen = true → h.ended = false → (s.d.port p.val).fecLock = true → (s.d.port p.val).hunting = false →
    s.d.swapOfPort p.val = none → (s.d.port p.val).muted = false →
    ∃ t, exec (.swapDone p) s = .next t ∧
      t.d.port p.val = { s.d.port p.val with
        hold := if h.both && !h.data then some { h with ended := true } else none,
        held := if h.both && h.data then false else (s.d.port p.val).held } ∧
      t.d.out.length = s.d.out.length + 3 ∧ ∀ q, q ≠ p.val → t.d.port q = s.d.port q) ∧
  (∀ (s : State) (p : Port) (h : PartnerHold), s.d.awake = true → (s.d.port p.val).hold = some h →
    h.ended = false → s.d.swapOfPort p.val = none →
    exec (.partnerSwapHoldExpiry p) s = .next (s.put (s.d.setPort p.val { s.d.port p.val with
      hold := if h.both && h.nowSeen && !h.data then some { h with ended := true } else none,
      held := if h.both && (!h.nowSeen || h.data) then false else (s.d.port p.val).held }))) ∧
  (∀ (d : Dev) (p : Nat) (h : PartnerHold), (d.port p).hold = some h → h.both = true → h.nowSeen = true → h.data = false →
    h.ended = true → d.swapOfPort p = none → ((d.dataBlock p).port p).hold = none ∧ ((d.dataBlock p).port p).held = false) ∧
  (∀ (s : State) (p : Port), s.d.awake = true → (s.d.port p.val).fecLock = true → s.d.loop p.val ≠ 2 →
    (s.d.port p.val).st = .active → (s.d.port p.val).feat.getLsbD 1 = true → isHalf (s.d.port p.val).mode = false →
    s.d.red.ctxs = [] →
    ∃ t, exec (.rateDownReceived p) s = .next t ∧ t.d.port p.val = { s.d.port p.val with
        st := .draining, drain := some .rate, drainAt := s.d.now } ∧
      (∀ q, q ≠ p.val → t.d.port q = s.d.port q) ∧ t.d.store = s.d.store)

/-- Band switches: OPT_BAND_SET moves one with its reply held, and its settling ends the command with the new
state (R312, R327, R329). The reads of ports and optics answer OK with the fields that their table lists
(R329, R355, R378). -/
def Obligations.BandsAndOpticsReads : Prop :=
  (∀ (s : State) (c : CmdCtx) (e : Byte), s.d.Runs (.optBandSet c e true) c 0x0302 .owner → e.toNat < 16 →
    Tab.find s.d.opt.moving e.toNat = none →
    ∃ t, exec (.optBandSet c e true) s = .next t ∧ Tab.find t.d.opt.moving e.toNat = some true ∧
      t.d.fuses = s.d.fuses ∧ t.d.out = s.d.out ∧
      t.d.cmd.held.any (fun h => h.what == .band e.toNat) = true) ∧
  (∀ (s : State) (e : Fin 16) (b : Bool), s.d.awake = true → Tab.find s.d.opt.moving e.val = some b →
    ∃ t, exec (.bandSwitchSettled e) s = .next t ∧ Tab.find t.d.opt.moving e.val = none ∧
      t.d.fuses.band.getLsbD e.val = b ∧ (∀ k, k < 16 → k ≠ e.val → t.d.fuses.band.getLsbD k = s.d.fuses.band.getLsbD k) ∧
      t.d.ports = s.d.ports ∧ ∀ h ∈ t.d.cmd.held, h.what ≠ .band e.val) ∧
  (∀ (s : State) (c : CmdCtx) (l : BitVec 16), s.d.Runs (.planRead c l) c 0x0202 .observer → l.toNat < 512 →
    let e := s.d.planOf l.toNat
    exec (.planRead c l) s = .next (s.put ((s.d.touch c).reply c 0x0202 .ok (.fields [e.valid.toNat, e.role.toNat,
      e.addr.toNat, e.port.toNat, e.serial.toNat, e.system.toNat, (s.d.autoRemap.getLsbD (l.toNat / 32)).toNat])))) ∧
  (∀ (s : State) (c : CmdCtx) (e : Byte), s.d.Runs (.portMapRead c e) c 0x0205 .observer → e.toNat < 16 →
    exec (.portMapRead c e) s = .next (s.put ((s.d.touch c).reply c 0x0205 .ok (.fields
      ((List.range 32).map fun i => s.d.physical (32 * e.toNat + i)))))) ∧
  (∀ (s : State) (c : CmdCtx) (l : BitVec 16), s.d.Runs (.portRead c l) c 0x0208 .observer → l.toNat < 512 →
    let p := s.d.physical l.toNat
    let x := s.d.port p
    exec (.portRead c l) s = .next (s.put ((s.d.touch c).reply c 0x0208 .ok (.fields [
      s.d.logical p <<< 23 ||| x.reason <<< 12 ||| x.lastExit <<< 8 ||| x.st.code, s.d.linkStatusReg p,
      x.partnerReg 0, x.partnerReg 1, x.partnerReg 2, x.partnerFeatReg, x.feat.toNat])))) ∧
  (∀ (s : State) (c : CmdCtx) (e : Byte), s.d.Runs (.optRead c e) c 0x0304 .observer → e.toNat < 16 →
    exec (.optRead c e) s = .next (s.put ((s.d.touch c).reply c 0x0304 .ok (.fields (s.d.engStatusReg e.toNat ::
      ((List.range 32).map fun i => s.d.portCfgReg (32 * e.toNat + i)) ++
      ((List.range 32).map fun i => s.d.lineStatusReg (32 * e.toNat + i))))))) ∧
  (∀ (s : State) (c : CmdCtx) (e : Byte), s.d.Runs (.optLightRead c e) c 0x0308 .observer → e.toNat < 16 →
    ∃ rings, rings.length = 128 ∧ exec (.optLightRead c e) s = .next (s.put ((s.d.touch c).reply c 0x0308 .ok
      (.fields (s.d.spareStatusReg e.toNat :: ((List.range 32).map fun i => s.d.lightStatusReg (32 * e.toNat + i)) ++
        ((List.range 37).map fun i => s.d.laserRefReg e.toNat i) ++ rings)))))

/-! ### Reads -/

/-- The reads of the device's state, its security, its transactions, its time and its faults answer OK with
what their table lists, and change nothing (R378, R412, R413, R450, R477, R500). -/
def Obligations.StatusReads : Prop :=
  (∀ (s : State) (c : CmdCtx), s.d.Runs (.devInfo c) c 0x0101 .observer →
    exec (.devInfo c) s = .next (s.put ((s.d.touch c).reply c 0x0101 .ok (.fields [0x5120B0, s.d.fuses.serial.toNat,
      s.d.boot.role.toNat, s.d.boot.fwMajor.toNat, s.d.boot.fwMinor.toNat, s.d.boot.system.toNat,
      s.d.boot.chassis.toNat, s.d.boot.slot.toNat])))) ∧
  (∀ (s : State) (c : CmdCtx), s.d.Runs (.devState c) c 0x0102 .observer → s.d.cmd.txns = [] →
    exec (.devState c) s = .next (s.put ((s.d.touch c).reply c 0x0102 .ok (.fields [s.d.boot.st.code,
      s.d.boot.cause.toNat, s.d.boot.heartbeat.toNat, 0, 0, 0, 0, 0, 0])))) ∧
  (∀ (s : State) (c : CmdCtx) (b : List Byte), s.d.Runs (.devNop c b) c 0x0107 .observer → b.length ≤ 4096 →
    exec (.devNop c b) s = .next (s.put ((s.d.touch c).reply c 0x0107 .ok (.bytes b)))) ∧
  (∀ (s : State) (c : CmdCtx), s.d.Runs (.devRole c none) c 0x0104 .observer →
    exec (.devRole c none) s = .next (s.put ((s.d.touch c).reply c 0x0104 .ok (.fields
      [(s.d.boot.roleOverride.getD s.d.boot.role).toNat])))) ∧
  (∀ (s : State) (c : CmdCtx), s.d.Runs (.secRead c) c 0x0B01 .observer →
    ∃ r : List Nat, r.length = 13 ∧ r.drop 9 = [s.d.fuses.rollback, s.d.boot.svn.toNat, s.d.boot.fwHash.toNat,
      s.d.boot.cfgHash.toNat] ∧ r[1]? = some s.d.fuses.owner0.2.toNat ∧ r[2]? = some s.d.fuses.owner0.1.toNat ∧
      exec (.secRead c) s = .next (s.put ((s.d.touch c).reply c 0x0B01 .ok (.fields r)))) ∧
  (∀ (s : State) (c : CmdCtx) (a : Bool) (o n : BitVec 16), s.d.Runs (.secCertRead c a o n) c 0x0B06 .observer →
    n.toNat ≤ 4096 →
    ∃ b : List Byte, b.length = min n.toNat (s.d.certLen a - o.toNat) ∧
      exec (.secCertRead c a o n) s = .next (s.put ((s.d.touch c).reply c 0x0B06 .ok (.bytes b)))) ∧
  (∀ (s : State) (c : CmdCtx) (u : Txn), s.d.Runs (.txnStatus c none) c 0x0A04 .observer →
    (s.d.touch c).shownTxn c.src = some u →
    exec (.txnStatus c none) s = .next (s.put ((s.d.touch c).reply c 0x0A04 .ok (.fields
      [u.id.toNat, u.scope.toNat, u.st.code, u.staged.length, (s.d.touch c).sharedCount u])))) ∧
  (∀ (s : State) (c : CmdCtx), s.d.Runs (.timeRead c) c 0x0801 .observer →
    exec (.timeRead c) s = .next (s.put ((s.d.touch c).reply c 0x0801 .ok (.fields [s.d.time.sec.toNat, s.d.time.ns,
      s.d.time.st.code, unsignedOf 40 s.d.time.rate, s.d.time.domA.num.toNat, s.d.time.domA.st.toNat,
      unsignedOf 48 s.d.time.domA.offset, s.d.time.domB.num.toNat, s.d.time.domB.st.toNat,
      unsignedOf 48 s.d.time.domB.offset, s.d.time.selB.toNat])))) ∧
  (∀ (s : State) (c : CmdCtx) (l : BitVec 16), s.d.Runs (.launchRead c l) c 0x0807 .observer → l.toNat < 512 →
    Tab.get s.d.store.launch l.toNat [] = [] →
    exec (.launchRead c l) s = .next (s.put ((s.d.touch c).reply c 0x0807 .ok (.fields [0])))) ∧
  (∀ (s : State) (c : CmdCtx) (f : Word) (n : BitVec 16), s.d.Runs (.diagFaultRead c f n) c 0x0C01 .observer →
    n.toNat ≤ 64 → let l := s.d.faults.log.reverse.filter fun r => decide (0 ≤ seqDist r.fseq f)
    l ≠ [] → exec (.diagFaultRead c f n) s =
      .next (s.put ((s.d.touch c).reply c 0x0C01 .ok (.bytes ((l.take n.toNat).flatMap FaultRec.bytes))))) ∧
  (∀ (s : State) (c : CmdCtx), s.d.Runs (.diagSpareRead c) c 0x0C02 .observer →
    ∃ fib : List Nat, fib.length = 80 ∧ exec (.diagSpareRead c) s = .next (s.put ((s.d.touch c).reply c 0x0C02 .ok
      (.fields ([s.d.spareCore 0, s.d.spareCore 1, s.d.spareCore 2, s.d.spareCore 3, s.d.store.spare0,
        s.d.store.spare1] ++ fib ++ [s.d.hl.spareUsed.toNat, s.d.poolFree, s.d.spareExpander.getD 4]))))) ∧
  (∀ (s : State) (c : CmdCtx) (n : Byte), s.d.Runs (.diagSelftestRead c n) c 0x0C03 .observer → n.toNat < 8 →
    let x := Tab.get s.d.boot.items n.toNat {}
    exec (.diagSelftestRead c n) s = .next (s.put ((s.d.touch c).reply c 0x0C03 .ok
      (.fields ([x.repaired, x.degraded, x.fatal] ++ x.units))))) ∧
  (∀ (s : State) (c : CmdCtx), s.d.Runs (.diagEolRead c) c 0x0C04 .observer →
    ∃ r : List Nat, exec (.diagEolRead c) s = .next (s.put ((s.d.touch c).reply c 0x0C04 .ok (.fields
      ([s.d.filledPositions, (s.d.faults.eol.getLsbD 0).toNat, s.d.activeBanks, (s.d.faults.eol.getLsbD 1).toNat,
        (s.d.faults.eol.getLsbD 2).toNat] ++ r)))))

/-- The reads of the tables, the queues, the reduction plane, Thresh, the board memory and the glean buffer:
OK with the fields listed, NOT_FOUND where nothing is there (R92, R94, R155, R222, R279, R307, R505, R517). -/
def Obligations.TableReads : Prop :=
  (∀ (s : State) (c : CmdCtx) (k : BitVec 48), s.d.Runs (.search c (.emKey k)) c 0x0401 .observer →
    s.d.fwd.cur.emFind k = none →
    exec (.search c (.emKey k)) s = .next (s.put ((s.d.touch c).reply c 0x0401 .notFound .empty))) ∧
  (∀ (s : State) (c : CmdCtx) (k : BitVec 48) (n : Nat) (e : EmEntry),
    s.d.Runs (.search c (.emKey k)) c 0x0401 .observer → s.d.faults.injects = [] → s.d.fwd.bad = [] →
    s.d.fwd.cur.emFind k = some (n, e) →
    exec (.search c (.emKey k)) s = .next (s.put ((s.d.touch c).reply c 0x0401 .ok (.fields
      [e.word, (Tab.get s.d.fwd.hits e.key.toNat 0).toNat])))) ∧
  (∀ (s : State) (c : CmdCtx) (l : BitVec 16), s.d.Runs (.search c (.route l)) c 0x0401 .observer →
    s.d.faults.injects = [] → s.d.fwd.bad = [] → l.toNat < 4096 →
    exec (.search c (.route l)) s = .next (s.put ((s.d.touch c).reply c 0x0401 .ok (.fields
      [(s.d.fwd.cur.routeOf l.toNat).rtype.toNat, (s.d.fwd.cur.routeOf l.toNat).target.toNat])))) ∧
  (∀ (s : State) (c : CmdCtx) (t : TableId) (n : BitVec 16), s.d.Runs (.nextWalk c t 0 0xFFFF n) c 0x0402 .observer →
    n ≠ 0 → n.toNat ≤ 64 → s.d.faults.injects = [] → s.d.fwd.bad = [] → (s.d.fwd.cur.walk t).length ≤ n.toNat →
    exec (.nextWalk c t 0 0xFFFF n) s = .next (s.put ((s.d.touch c).reply c 0x0402 .ok (.fields
      (0 :: (s.d.fwd.cur.walk t).flatMap (fun e => e.2.2)))))) ∧
  (∀ (s : State) (c : CmdCtx) (t : TableId) (cur : Word) (p n : BitVec 16),
    s.d.Runs (.nextWalk c t cur p n) c 0x0402 .observer → n ≠ 0 → n.toNat ≤ 64 → bitsOf cur.toNat 29 0 ≠ 0 →
    (bitsOf cur.toNat 31 30 ≠ s.d.fwd.epoch.toNat ∨ s.d.fwd.cursors.contains cur = false) →
    exec (.nextWalk c t cur p n) s = .next (s.put ((s.d.touch c).reply c 0x0402 .conflict .empty))) ∧
  (∀ (s : State) (c : CmdCtx) (n : BitVec 16), s.d.Runs (.policerRead c n) c 0x042B .observer → n.toNat < 8192 →
    let x := Tab.get s.d.tm.policers n.toNat {}
    exec (.policerRead c n) s = .next (s.put ((s.d.touch c).reply c 0x042B .ok (.fields
      [(BitVec.ofInt 64 x.b.tokens).toNat, x.bytes % 2 ^ 64, x.dropped % 2 ^ 64])))) ∧
  (∀ (s : State) (c : CmdCtx) (n : BitVec 16) (x : Ctx) (h : Word), s.d.Runs (.ctxRead c n) c 0x0505 .observer →
    s.d.ctx? n.toNat = some x → x.highest = some h →
    exec (.ctxRead c n) s = .next (s.put ((s.d.touch c).reply c 0x0505 .ok (.fields
      (x.words ++ x.openCounts ++ [h.toNat] ++ completionRecord n.toNat x))))) ∧
  (∀ (s : State) (c : CmdCtx) (n : BitVec 16) (x : Sheaf), s.d.Runs (.sheafRead c n) c 0x0511 .observer →
    n.toNat < 8192 → s.d.sheaf? n.toNat = some x →
    exec (.sheafRead c n) s = .next (s.put ((s.d.touch c).reply c 0x0511 .ok (.fields x.words)))) ∧
  (∀ (s : State) (c : CmdCtx) (n : BitVec 16) (x : ThrShard), s.d.Runs (.thrRead c true n) c 0x0607 .observer →
    n.toNat < 16384 → Tab.find s.d.thr.shards n.toNat = some x →
    exec (.thrRead c true n) s = .next (s.put ((s.d.touch c).reply c 0x0607 .ok (.fields (x.words (s.d.cursorOf x)))))) ∧
  (∀ (s : State) (c : CmdCtx) (n : BitVec 16), s.d.Runs (.thrRead c false n) c 0x0607 .observer →
    n.toNat < 64 → s.d.job? n.toNat = none →
    exec (.thrRead c false n) s = .next (s.put ((s.d.touch c).reply c 0x0607 .ok (.fields (List.replicate 16 0))))) ∧
  (∀ (s : State) (c : CmdCtx) (n : BitVec 16) (f : Word) (k : BitVec 16) (x : ThrShard),
    s.d.Runs (.thrMapRead c n f k) c 0x0608 .observer → n.toNat < 16384 → k.toNat ≤ 512 →
    Tab.find s.d.thr.shards n.toNat = some x → f.toNat + k.toNat ≤ x.cfg.cps.toNat →
    ∃ r : List Nat, r.length = k.toNat ∧
      exec (.thrMapRead c n f k) s = .next (s.put ((s.d.touch c).reply c 0x0608 .ok (.fields r)))) ∧
  (∀ (s : State) (c : CmdCtx), s.d.Runs (.memRegionRead c) c 0x0702 .observer →
    ∃ r : List Nat, r.length = 48 ∧ exec (.memRegionRead c) s = .next (s.put ((s.d.touch c).reply c 0x0702 .ok
      (.fields (r ++ [granBase, s.d.granSize]))))) ∧
  (∀ (s : State) (c : CmdCtx) (f n : BitVec 16), s.d.Runs (.memPageList c f n) c 0x0704 .observer → n.toNat ≤ 256 →
    exec (.memPageList c f n) s = .next (s.put ((s.d.touch c).reply c 0x0704 .ok (.fields
      ((s.d.mem.retiredPages.drop f.toNat).take n.toNat))))) ∧
  (∀ (s : State) (c : CmdCtx), s.d.Runs (.memStatus c) c 0x0707 .observer →
    exec (.memStatus c) s = .next (s.put ((s.d.touch c).reply c 0x0707 .ok (.fields [s.d.g7StatusReg, s.d.hlStatusReg,
      s.d.cxlStatusReg 0, s.d.cxlStatusReg 1, s.d.cxlStatusReg 2, s.d.cxlStatusReg 3])))) ∧
  (∀ (s : State) (c : CmdCtx) (q : QueueName) (t : Dest) (k : Nat), s.d.Runs (.cntQueueRead c q) c 0x0901 .observer →
    queueOf q = some (t, k) →
    let n := Tab.get s.d.store.qcount (qkey t k) {}
    exec (.cntQueueRead c q) s = .next (s.put ((s.d.touch c).reply c 0x0901 .ok (.fields [n.admitted.toNat,
      n.admCells.toNat, n.sent.toNat, n.refused.toNat, n.aged.toNat, n.marked.toNat, s.d.queueCells t k, (s.d.queue t k).length, s.d.oldestNs t k])))) ∧
  (∀ (s : State) (c : CmdCtx) (n : BitVec 16) (e : PartEntry), s.d.Runs (.cntPartRead c n) c 0x0902 .observer →
    n.toNat < 4096 → Tab.find s.d.fwd.cur.parts n.toNat = some e → e.valid = true →
    let k := Tab.get s.d.store.pcount n.toNat {}
    exec (.cntPartRead c n) s = .next (s.put ((s.d.touch c).reply c 0x0902 .ok (.fields [k.frames.toNat,
      k.cells.toNat, k.refused.toNat, k.aged.toNat, s.d.partUse n.toNat .partRes, s.d.partUse n.toNat .shared, (s.d.partRes n.toNat).pmin,
      (s.d.partRes n.toNat).pmax])))) ∧
  (∀ (s : State) (c : CmdCtx) (f : Word) (n : BitVec 16), s.d.Runs (.gleanRead c f n) c 0x0905 .observer →
    s.d.svRuns 3 = true → n.toNat ≤ 63 → s.d.faults.injects = [] → let l := (s.d.cnt.glean.filter fun e => decide (0 ≤ seqDist e.gseq f)).take n.toNat
    exec (.gleanRead c f n) s = .next (s.put ((s.d.touch c).reply c 0x0905 .ok (.bytes
      (beBytes 4 ((l.head?.map (·.gseq)).getD f).toNat ++ l.flatMap GleanEnt.bytes)))))

/-! ### Frames -/

/-- Arriving frames: a port that accepts none discards and counts them, a header that fails check 1 counts
HDR_ERR, fails its frame's link check and loses framing, any other one is noted with its copies, the tail
completes the copies, or fails them with the count of its error, and a port in FAR loopback returns a frame as
it came (R35, R62 to R64, R67, R359, R522). -/
def Obligations.FramesIn : Prop :=
  (∀ (s : State) (p : Port) (h : Header), s.d.awake = true → (s.d.port p.val).hunting = false →
    (s.d.port p.val).rx = none → s.d.loop p.val ≠ 2 → (s.d.port p.val).st ≠ .active →
    (s.d.port p.val).st ≠ .draining →
    exec (.frameHeaderTaken p h) s = .next (s.put (s.d.bump (ctrPort p.val 0x150)))) ∧
  (∀ (s : State) (p : Port) (h : Header), s.d.awake = true → (s.d.port p.val).hunting = false →
    (s.d.port p.val).rx = none → s.d.loop p.val ≠ 2 →
    ((s.d.port p.val).st = .active ∨ (s.d.port p.val).st = .draining) → headerPlausible h = false →
    ∃ t, exec (.frameHeaderTaken p h) s = .next t ∧ (t.d.port p.val).rx = none ∧ (t.d.port p.val).hunting = true ∧
      (t.d.port p.val).frameSync = false ∧
      t.d.ctr (ctrPort p.val 0x100) = (s.d.ctr (ctrPort p.val 0x100) + 1) % 2 ^ 64 ∧
      t.d.ctr (ctrPort p.val 0x118) = (s.d.ctr (ctrPort p.val 0x118) + 1) % 2 ^ 64 ∧
      t.d.store.frames = s.d.store.frames ∧ t.d.store.queues = s.d.store.queues ∧ t.d.fwd = s.d.fwd ∧
      t.d.red = s.d.red) ∧
  (∀ (s : State) (p : Port) (h : Header), s.d.awake = true → (s.d.port p.val).hunting = false →
    (s.d.port p.val).rx = none → s.d.loop p.val = 2 →
    ∃ t, exec (.frameHeaderTaken p h) s = .next t ∧
      ((s.d.port p.val).st = .test ∧ (s.d.port p.val).muted = false →
        ∃ r, (t.d.port p.val).rx = some r ∧ r.hdr = h ∧ r.fids = []) ∧
      ((s.d.port p.val).st ≠ .test ∨ (s.d.port p.val).muted = true → t = s) ∧
      t.d.store = s.d.store ∧ t.d.ctrs = s.d.ctrs ∧ t.d.out = s.d.out) ∧
  (∀ (s : State) (p : Port) (b : List Byte) (e2e link : Word) (r : RxFrame), s.d.awake = true →
    (s.d.port p.val).rx = some r → s.d.loop p.val = 2 →
    ∃ t, exec (.frameTailReceived p b e2e link) s = .next t ∧ (t.d.port p.val).rx = none ∧
      t.d.out = .frame p.val r.hdr b e2e link (link == ~~~(linkCheck r.hdr b e2e)) :: s.d.out ∧
      t.d.store = s.d.store ∧ t.d.ctrs = s.d.ctrs) ∧
  (∀ (s : State) (p : Port) (h : Header), s.d.awake = true → (s.d.port p.val).hunting = false →
    (s.d.port p.val).rx = none → s.d.loop p.val ≠ 2 →
    ((s.d.port p.val).st = .active ∨ (s.d.port p.val).st = .draining) → headerPlausible h = true →
    ∃ t r, exec (.frameHeaderTaken p h) s = .next t ∧ (t.d.port p.val).rx = some r ∧ r.hdr = h ∧ r.at_ = s.d.now ∧
      (∀ o, (((s.d.dataBlock p.val).writeCopies p.val).ingress p.val (s.d.logical p.val) h).2 = some o →
        r.fids = [] ∧ t.d.store.frames = s.d.store.frames ∧ t.d.store.queues = s.d.store.queues) ∧
      (∀ q, q ≠ p.val → t.d.port q = s.d.port q) ∧ t.d.fuses = s.d.fuses ∧ t.d.plan = s.d.plan ∧
      t.d.mem = s.d.mem ∧ t.d.boot = s.d.boot) ∧
  (∀ (s : State) (p : Port), s.d.awake = true →
    ((s.d.port p.val).st = .active ∨ (s.d.port p.val).st = .draining) →
    exec (.ingressOverrun p) s = .next (s.put (s.d.bump (ctrPort p.val 0x170)))) ∧
  (∀ (s : State) (k : Fin 16) (n : TableId) (ix : Nat), s.d.awake = true → s.d.tableBad k.val n ix = true →
    s.d.tableBad (if k.val = 0 then 1 else 0) n ix = false →
    ∃ t, exec (.tableEntryRewrite k n ix) s = .next t ∧ t.d.tableBad k.val n ix = false ∧
      t.d.fwd.cur = s.d.fwd.cur ∧ t.d.fwd.other = s.d.fwd.other ∧ t.d.store = s.d.store) ∧
  (∀ (s : State) (p : Port) (b : List Byte) (e2e : Word) (r : RxFrame), s.d.awake = true →
    (s.d.port p.val).rx = some r → s.d.loop p.val ≠ 2 → b.length = r.hdr.len.toNat → r.consumed = false →
    (∀ n ∈ r.fids, ∀ f, s.d.frame? n = some f → f.ptp = false) →
    ∃ t, exec (.frameTailReceived p b e2e (linkCheck r.hdr b e2e)) s = .next t ∧ (t.d.port p.val).rx = none ∧
      (∀ n ∈ r.fids, t.d.frame? n = (s.d.frame? n).map fun f =>
        { f with payload := b, e2e := e2e, whole := true, ptp := false }) ∧
      (∀ n, n ∉ r.fids → t.d.frame? n = s.d.frame? n) ∧
      t.d.ctr (ctrClass p.val r.cls.toNat 0) = (s.d.ctr (ctrClass p.val r.cls.toNat 0) + 1) % 2 ^ 64 ∧
      t.d.store.queues = s.d.store.queues ∧ t.d.fwd = s.d.fwd) ∧
  (∀ (s : State) (p : Port) (b : List Byte) (e2e link : Word) (r : RxFrame), s.d.awake = true →
    (s.d.port p.val).rx = some r → s.d.loop p.val ≠ 2 → b.length = r.hdr.len.toNat → link = ~~~(linkCheck r.hdr b e2e) →
    ∃ t, exec (.frameTailReceived p b e2e link) s = .next t ∧ (t.d.port p.val).rx = none ∧
      t.d.ctr (ctrPort p.val 0x120) = (s.d.ctr (ctrPort p.val 0x120) + 1) % 2 ^ 64 ∧
      (∀ c n, n < 521 → c < 8 → ∀ x ∈ Tab.get t.d.store.queues (n * 8 + c) [], x.fid ∉ r.fids)) ∧
  (∀ (s : State) (p : Port) (b : List Byte) (e2e link : Word) (r : RxFrame), s.d.awake = true →
    (s.d.port p.val).rx = some r → s.d.loop p.val ≠ 2 → link ≠ linkCheck r.hdr b e2e →
    (b.length ≠ r.hdr.len.toNat ∨ link ≠ ~~~(linkCheck r.hdr b e2e)) →
    ∃ t, exec (.frameTailReceived p b e2e link) s = .next t ∧ (t.d.port p.val).rx = none ∧
      t.d.ctr (ctrPort p.val 0x118) = (s.d.ctr (ctrPort p.val 0x118) + 1) % 2 ^ 64)

/-- Sending: the highest eligible level is selected, the head of the class stands to be sent with HOPS raised,
an expired head is discarded and its read slot withheld, a port whose transmit buffer has no room asks for
nothing, the last byte releases the place on the wire with the class counted, and comes back on a port in
loopback, a copy whose cells read uncorrectable is discarded before it starts and ends with a tail mark after,
with its count, a PTP frame is rebuilt as it leaves, a launch frame is released at its time, from which it
ages, and a copy that ends with a tail mark is as long as its LEN, its missing bytes free values (the model's
choice, log entry 129) (R54, R55, R60, R108, R119, R120, R123, R130, R133, R141, R142, R442, R445, R446,
R522). -/
def Obligations.FramesOut : Prop :=
  (∀ (d : Dev) (l c : Nat), d.selectClass l = some c → d.eligible l c = true ∧
    ∀ k, k < 8 → d.eligible l k = true → (d.shaper l k).level ≤ (d.shaper l c).level) ∧
  (∀ (s : State) (p : Port) (c : Nat) (x : Copy) (r : List Copy) (f : Frame), let l := s.d.logical p.val
    s.d.awake = true → (s.d.port p.val).st = .active → (s.d.port p.val).held = false → s.d.mayRead l = true →
    Tab.get s.d.store.launch l [] = [] → s.d.selectClass l = some c → s.d.queue (.port l) c = x :: r →
    s.d.expired x = false → s.d.frame? x.fid = some f → f.bad = false → s.d.faults.injects = [] →
    ∃ t z, exec (.copySelected p) s = .next t ∧ t.d.queue (.port l) c = r ∧
      t.d.sendingOn l = s.d.sendingOn l ++ [z] ∧ z.copy.fid = x.fid ∧ z.copy.cls = x.cls ∧ z.hdr.hops = f.hdr.hops + 1 ∧
      z.tailMark = false ∧ z.cut = false ∧ z.read = 0 ∧
      t.d.ports = s.d.ports ∧ t.d.fwd = s.d.fwd) ∧
  (∀ (s : State) (p : Port) (c : Nat) (x : Copy) (r : List Copy), let l := s.d.logical p.val
    s.d.awake = true → (s.d.port p.val).st = .active → (s.d.port p.val).held = false → s.d.mayRead l = true →
    Tab.get s.d.store.launch l [] = [] → s.d.selectClass l = some c → s.d.queue (.port l) c = x :: r →
    s.d.expired x = true →
    ∃ t, exec (.copySelected p) s = .next t ∧ t.d.queue (.port l) c = r ∧ t.d.sendingOn l = s.d.sendingOn l ∧
      t.d.ctr (ctrStore 0x110) = (s.d.ctr (ctrStore 0x110) + 1) % 2 ^ 64 ∧
      t.d.store.slots.lost = s.d.store.slots.lost + 1) ∧
  (∀ (s : State) (p : Port), s.d.mayRead (s.d.logical p.val) = false → exec (.copySelected p) s = .next s) ∧
  (∀ (s : State) (k : Nat) (l : List Copy), s.d.awake = true →
    s.d.store.queues.filter (fun e => e.1 == k) = [(k, l)] →
    ∃ t, exec .headScan s = .next t ∧ Tab.get t.d.store.queues k [] = l.dropWhile s.d.expired ∧
      t.d.store.sending = s.d.store.sending ∧ t.d.ports = s.d.ports ∧ t.d.fwd = s.d.fwd) ∧
  (∀ (s : State) (p : Port) (x : Sending) (r : List Sending) (f : Frame), let l := s.d.logical p.val
    s.d.awake = true → s.d.sendingOn l = x :: r → x.ended = true → s.d.frame? x.copy.fid = some f → f.ptp = false →
    f.bad = false → s.d.faults.injects = [] →
    x.built = none → (x.tailMark = true → x.hdr.len.toNat ≤ f.payload.length) →
    let good := linkCheck x.hdr f.payload f.e2e
    ∃ t, exec (.copySent p) s = .next t ∧ t.d.sendingOn l = r ∧
      .frame p.val x.hdr f.payload f.e2e (if x.tailMark then ~~~good else good) x.tailMark ∈ t.d.out ∧
      t.d.loopQ = s.d.loopQ ++ (if s.d.loopsBack p.val then [.frameHeaderTaken p x.hdr,
        .frameTailReceived p f.payload f.e2e (if x.tailMark then ~~~good else good)] else []) ∧
      (x.tailMark = false → t.d.ctr (ctrClass p.val x.hdr.tc.toNat 2) =
        (s.d.ctr (ctrClass p.val x.hdr.tc.toNat 2) + 1) % 2 ^ 64) ∧
      (x.tailMark = true → t.d.ctr (ctrPort p.val 0x128) = (s.d.ctr (ctrPort p.val 0x128) + 1) % 2 ^ 64) ∧
      t.d.store.queues = s.d.store.queues ∧ t.d.fwd = s.d.fwd ∧ t.d.ports = s.d.ports) ∧
  (∀ (s : State) (p : Port) (x : Sending) (r : List Sending) (f : Frame), let l := s.d.logical p.val
    s.d.awake = true → s.d.sendingOn l = x :: r → s.d.frame? x.copy.fid = some f → f.ptp = true → x.built = none →
    x.copy.mirror = false → f.bad = false → s.d.faults.injects = [] →
    ∃ t z, exec (.ptpEventFrameEgress p) s = .next t ∧ t.d.sendingOn l = z :: r ∧ z.built.isSome = true ∧
      z.copy = x.copy ∧ z.hdr = s.d.ptpHeader x.hdr ∧ z.hdr.hops = 1 ∧ z.hdr.epoch = s.d.fwd.epoch ∧ z.hdr.es = true ∧
      t.d.ctr (ctrTime 0x100) = (s.d.ctr (ctrTime 0x100) + 1) % 2 ^ 64 ∧ t.d.store.queues = s.d.store.queues ∧
      t.d.store.frames = s.d.store.frames ∧ t.d.ports = s.d.ports) ∧
  (∀ (s : State) (p : Port) (e : Launch) (r : List Launch), let l := s.d.logical p.val
    s.d.awake = true → Tab.get s.d.store.launch l [] = e :: r → e.ready = false → e.t ≤ s.d.timeNs →
    s.d.activeL l = true →
    ∃ t, exec (.launchRelease p) s = .next t ∧
      Tab.get t.d.store.launch l [] = { e with ready := true, late := e.late || (s.d.port p.val).held } :: r ∧
      t.d.frame? e.copy.fid = (s.d.frame? e.copy.fid).map (fun f =>
        { f with at_ := s.d.now - clkOfNs (s.d.timeNs - e.t) }) ∧
      t.d.store.queues = s.d.store.queues ∧ t.d.ports = s.d.ports) ∧
  (∀ (s : State) (p : Port), s.d.awake = true →
    (∀ e ∈ Tab.get s.d.store.launch (s.d.logical p.val) [], e.ready = true ∨ s.d.timeNs < e.t) →
    exec (.launchRelease p) s = .next s) ∧
  (∀ (s : State) (p : Port) (x : Sending) (r : List Sending) (f : Frame), let l := s.d.logical p.val
    s.d.awake = true → s.d.sendingOn l = x :: r → x.ended = true → s.d.frame? x.copy.fid = some f → f.ptp = false →
    f.bad = false → s.d.faults.injects = [] → x.built = none → x.tailMark = true → f.payload.length < x.hdr.len.toNat →
    ∃ (t : State) (rest : List Byte) (e2e : Word), exec (.copySent p) s = .next t ∧ t.d.sendingOn l = r ∧
      f.payload.length + rest.length = x.hdr.len.toNat ∧
      .frame p.val x.hdr (f.payload ++ rest) e2e (~~~(linkCheck x.hdr (f.payload ++ rest) e2e)) true ∈ t.d.out ∧
      t.d.ctr (ctrPort p.val 0x128) = (s.d.ctr (ctrPort p.val 0x128) + 1) % 2 ^ 64 ∧
      t.d.store.queues = s.d.store.queues ∧ t.d.ports = s.d.ports) ∧
  (∀ (s : State) (p : Port) (x : Sending) (r : List Sending) (f : Frame), let l := s.d.logical p.val
    s.d.awake = true → s.d.sendingOn l = x :: r → x.ended = true → s.d.frame? x.copy.fid = some f → f.ptp = false →
    f.bad = true → x.begun = true → x.unread ≠ 0 → x.built = none → x.tailMark = false →
    x.hdr.len.toNat ≤ f.payload.length →
    ∃ t, exec (.copySent p) s = .next t ∧ t.d.sendingOn l = r ∧
      .frame p.val x.hdr f.payload f.e2e (~~~(linkCheck x.hdr f.payload f.e2e)) true ∈ t.d.out ∧
      t.d.ctr (ctrStore 0x130) = (s.d.ctr (ctrStore 0x130) + 1) % 2 ^ 64 ∧
      t.d.ctr (ctrPort p.val 0x128) = (s.d.ctr (ctrPort p.val 0x128) + 1) % 2 ^ 64 ∧
      t.d.store.queues = s.d.store.queues ∧ t.d.ports = s.d.ports) ∧
  (∀ (s : State) (p : Port) (x : Sending) (r : List Sending) (f : Frame), let l := s.d.logical p.val
    s.d.awake = true → s.d.sendingOn l = x :: r → x.ended = true → s.d.frame? x.copy.fid = some f →
    f.bad = true → x.begun = false →
    ∃ t, exec (.copySent p) s = .next t ∧ t.d.sendingOn l = r.filter Sending.begun ∧
      t.d.ctr (ctrStore 0x130) = (s.d.ctr (ctrStore 0x130) + 1) % 2 ^ 64 ∧
      t.d.store.queues = s.d.store.queues ∧ t.d.ports = s.d.ports)

/-- The agent's rings: a descriptor that the device owns is taken and counted, one of a wrong length is
written back as discarded, and a whole good frame of the agent queue goes to the receive ring's buffer; each
descriptor is the little-endian reading of its 32 bytes, and a write whose address is companion DRAM leaves
(R7, R109, R283, R443, R444, R534). -/
def Obligations.AgentRings : Prop :=
  (∀ (s : State) (n : Fin 4) (raw b : List Byte), s.d.awake = true → s.d.serving = true →
    s.d.ringOwned n.val = true →
    ∃ t, exec (.txDescriptorTaken n raw b) s = .next t ∧
      (Tab.get t.d.heads (8 + n.val) 0).toNat = ((Tab.get s.d.heads (8 + n.val) 0).toNat + 1) % s.d.ringSize n.val ∧
      t.d.ctr ctrTxFrames = (s.d.ctr ctrTxFrames + 1) % 2 ^ 64 ∧ t.d.ports = s.d.ports ∧ t.d.fuses = s.d.fuses ∧
      t.d.mem = s.d.mem) ∧
  (∀ (s : State) (n : Fin 4) (raw b : List Byte), s.d.awake = true → s.d.serving = true →
    s.d.ringOwned n.val = true → ((TxDesc.ofBytes raw).len.toNat < 32 ∨ 8224 < (TxDesc.ofBytes raw).len.toNat) →
    s.d.reg (0x1000 + 0x40 * n.val) / 32 * 32 + 32 * s.d.ringSize n.val ≤ 2 ^ 48 →
    ∃ t, exec (.txDescriptorTaken n raw b) s = .next t ∧
      .dmaWrite (s.d.reg (0x1000 + 0x40 * n.val) / 32 * 32 +
          32 * ((Tab.get s.d.heads (8 + n.val) 0).toNat % s.d.ringSize n.val) + 16) (writeBackBytes 4 none 0) ∈ t.d.out ∧
      (Tab.get t.d.heads n.val 0).toNat = ((Tab.get s.d.heads n.val 0).toNat + 1) % s.d.ringSize n.val ∧
      t.d.store = s.d.store ∧ t.d.fwd = s.d.fwd) ∧
  (∀ (s : State) (n : Fin 4) (raw b : List Byte), s.d.awake = true → s.d.serving = true →
    let x := TxDesc.ofBytes raw
    s.d.ringOwned n.val = true → 32 ≤ x.len.toNat → x.len.toNat ≤ 8224 → b.length = x.len.toNat →
    x.launch = false →
    let y := s.d.takeDesc n.val
    let d1 := y.1.bump ctrTxFrames
    exec (.txDescriptorTaken n raw b) s = .next (s.put
      (d1.postFrame (d1.ringFrame b (n.val, y.2, x.tsReq)) x.port.toNat n.val y.2))) ∧
  (∀ (s : State) (tc : Fin 8) (raw : List Byte) (c : Copy) (r : List Copy) (f : Frame), s.d.awake = true →
    s.d.queue .agent tc.val = c :: r → s.d.frame? c.fid = some f → f.whole = true → s.d.expired c = false →
    f.bad = false → s.d.faults.injects = [] → s.d.store.slots.fetchBad = [] → e2eCheck f.hdr f.payload = f.e2e → s.d.ringOwned 4 = true →
    let x := RxDesc.ofBytes raw
    32 + f.hdr.len.toNat ≤ x.len.toNat → x.buf.toNat + (f.hdr.bytes ++ f.payload).length ≤ 2 ^ 48 → (∀ w, f.wb = some w → w.1 < 4) →
    ∃ t, exec (.agentFrameDelivery tc raw) s = .next t ∧ t.d.queue .agent tc.val = r ∧
      .dmaWrite x.buf.toNat (f.hdr.bytes ++ f.payload) ∈ t.d.out ∧
      (Tab.get t.d.heads 12 0).toNat = ((Tab.get s.d.heads 12 0).toNat + 1) % s.d.ringSize 4 ∧
      t.d.ports = s.d.ports ∧ t.d.fwd = s.d.fwd) ∧
  (∀ (s : State) (tc : Fin 8) (raw : List Byte) (c : Copy) (r : List Copy) (f : Frame), s.d.awake = true →
    s.d.queue .agent tc.val = c :: r → s.d.frame? c.fid = some f → f.whole = true → s.d.expired c = false →
    f.bad = false → s.d.faults.injects = [] → s.d.store.slots.fetchBad = [] → e2eCheck f.hdr f.payload ≠ f.e2e →
    ∃ t, exec (.agentFrameDelivery tc raw) s = .next t ∧ t.d.queue .agent tc.val = r ∧
      t.d.ctr ctrGlbE2e = (s.d.ctr ctrGlbE2e + 1) % 2 ^ 64)

/-! ### Learning, queues and reduction -/

/-- Learning and ageing: a pending event enters the learn ring, the ring's oldest entry is written into both
banks or removed from both, a LEARN frame of another leaf joins the pending events, the sweeper marks, then
removes, an entry without a hit, a learn since then that still has its hit holds the removal off, and
FLUSH_BY_PORT removes what it names (R79, R83 to R92, R98). -/
def Obligations.LearningAndAgeing : Prop :=
  (∀ (s : State) (k : Fin 16) (e : LearnEv) (p : Nat) (r : List (LearnEv × Nat)), s.d.awake = true →
    Tab.get s.d.fwd.learnQ k.val [] = (e, p) :: r →
    ∃ t, exec (.learnQueueDrain k) s = .next t ∧ Tab.get t.d.fwd.learnQ k.val [] = r ∧
      t.d.fwd.ring = s.d.fwd.ring ++ [RingEv.learn k.val e p] ∧ t.d.fwd.cur = s.d.fwd.cur ∧
      t.d.fwd.other = s.d.fwd.other ∧ t.d.ctr (ctrFwd k.val 0x130) = (s.d.ctr (ctrFwd k.val 0x130) + 1) % 2 ^ 64 ∧
      t.d.store = s.d.store ∧ t.d.ports = s.d.ports) ∧
  (∀ (s : State) (k p : Nat) (key : BitVec 48) (rt : BitVec 3) (tg : BitVec 12) (peer : Bool) (r : List RingEv),
    s.d.awake = true → s.d.fwd.ring = .learn k { key := key, kind := .create rt tg, peer := peer } p :: r →
    s.d.committing key = false → (∀ x, s.d.fwd.cur.emFind key = some x → x.2.static = false) →
    let e : EmEntry := { key := key, static := false, res := { rtype := rt, target := tg } }
    (s.d.fwd.cur.emFind key = none → (s.d.fwd.cur.emInsert e).isSome = true) →
    ∃ t, exec .learnRingApply s = .next t ∧ t.d.fwd.ring = r ∧ t.d.fwd.cur = s.d.fwd.cur.learn e ∧
      t.d.fwd.other = s.d.fwd.other.learn e ∧ t.d.fuses = s.d.fuses ∧ t.d.ports = s.d.ports ∧ t.d.mem = s.d.mem) ∧
  (∀ (s : State) (k p : Nat) (key : BitVec 48) (rt : BitVec 3) (tg : BitVec 12) (r : List RingEv),
    s.d.awake = true → s.d.fwd.ring = .learn k { key := key, kind := .remove rt tg, peer := true } p :: r →
    s.d.committing key = false → (∀ x, s.d.fwd.cur.emFind key = some x → x.2.static = false) →
    let same := fun (x : EmEntry) => x.res.rtype == rt && x.res.target == tg
    ∃ t, exec .learnRingApply s = .next t ∧ t.d.fwd.ring = r ∧ t.d.fwd.cur = s.d.fwd.cur.removeIf key same ∧
      t.d.fwd.other = s.d.fwd.other.removeIf key same ∧ t.d.store = s.d.store ∧ t.d.ports = s.d.ports ∧
      t.d.mem = s.d.mem) ∧
  (∀ (s : State) (k p : Nat) (e : LearnEv) (r : List RingEv), s.d.awake = true →
    s.d.fwd.ring = .learn k e p :: r → s.d.committing e.key = true →
    ∃ t, exec .learnRingApply s = .next t ∧ t.d.fwd.ring = r ∧ t.d.fwd.cur = s.d.fwd.cur ∧
      t.d.fwd.other = s.d.fwd.other ∧ t.d.ports = s.d.ports ∧ t.d.mem = s.d.mem) ∧
  (∀ (s : State) (k p : Nat) (e : LearnEv) (r : List RingEv), s.d.awake = true →
    s.d.fwd.ring = .learn k e p :: r → s.d.committing e.key = true → e.peer = true →
    ∃ t, exec .learnRingApply s = .next t ∧ t.d.fwd = { s.d.fwd with ring := r } ∧
      t.d.ctr (ctrFwd k 0x148) = (s.d.ctr (ctrFwd k 0x148) + 1) % 2 ^ 64) ∧
  (∀ (s : State) (key : BitVec 48) (r : List RingEv) (n : Nat) (x : EmEntry), s.d.awake = true →
    s.d.fwd.ring = .sweep key :: r → s.d.committing key = false → s.d.fwd.cur.emFind key = some (n, x) →
    x.static = false → (s.d.fwd.relearned.contains key = false ∨ Tab.get s.d.fwd.hits key.toNat 0 = 0) →
    ∃ t, exec .learnRingApply s = .next t ∧ t.d.fwd.ring = r ∧ t.d.fwd.cur = s.d.fwd.cur.emDelete key ∧
      t.d.ports = s.d.ports ∧ t.d.mem = s.d.mem) ∧
  (∀ (s : State) (key : BitVec 48) (r : List RingEv), s.d.awake = true →
    s.d.fwd.ring = .sweep key :: r → s.d.fwd.relearned.contains key = true → Tab.get s.d.fwd.hits key.toNat 0 ≠ 0 →
    ∃ t, exec .learnRingApply s = .next t ∧ t.d.fwd.ring = r ∧ t.d.fwd.cur = s.d.fwd.cur ∧
      t.d.fwd.other = s.d.fwd.other ∧ t.d.ports = s.d.ports ∧ t.d.mem = s.d.mem) ∧
  (∀ (s : State) (k : Fin 16) (x : Taken) (r : List Taken), s.d.awake = true →
    Tab.get s.d.fwd.taken k.val [] = x :: r → addrSvc x.hdr.dst = 3 → x.ok = true →
    s.d.regBit (baseFwd 0 + 0x14) 2 = true →
    let key := keyEndpoint (BitVec.ofNat 12 (bitsOf x.hdr.ksf.toNat 63 52)) (BitVec.ofNat 24 (bitsOf x.hdr.ksf.toNat 47 24))
    let via := bitsOf x.hdr.ksf.toNat 23 12
    s.d.fwd.cur.emFind key = none → (s.d.isLeaf = true → via ≠ s.d.devNum) → bitsOf x.hdr.ksf.toNat 51 48 = 1 →
    Tab.get s.d.fwd.learnQ k.val [] = [] →
    ∃ t, exec (.learnFrameReceived k) s = .next t ∧ Tab.get t.d.fwd.taken k.val [] = r ∧
      Tab.get t.d.fwd.learnQ k.val [] = [({ key := key, kind := .create 1 (BitVec.ofNat 12 via), peer := true }, x.port)] ∧
      t.d.fwd.cur = s.d.fwd.cur ∧ t.d.store = s.d.store ∧ t.d.ports = s.d.ports) ∧
  (∀ (s : State) (e : EmEntry), s.d.awake = true → s.d.regBit (baseFwd 0 + 0x10) 0 = true →
    Tab.find s.d.fwd.cur.em s.d.fwd.sweepPos = some e →
    ∃ t, exec .sweeperVisit s = .next t ∧ t.d.fwd.sweepPos = (s.d.fwd.sweepPos + 1) % emPositions ∧
      t.d.fwd.cur = s.d.fwd.cur ∧ t.d.fwd.other = s.d.fwd.other ∧ Tab.get t.d.fwd.hits e.key.toNat 0 = 0 ∧
      (Tab.get s.d.fwd.hits e.key.toNat 0 ≠ 0 → t.d.fwd.idle.contains e.key = false ∧ t.d.fwd.ring = s.d.fwd.ring) ∧
      (Tab.get s.d.fwd.hits e.key.toNat 0 = 0 → s.d.fwd.idle.contains e.key = false →
        t.d.fwd.idle.contains e.key = true ∧ t.d.fwd.ring = s.d.fwd.ring) ∧
      (Tab.get s.d.fwd.hits e.key.toNat 0 = 0 → s.d.fwd.idle.contains e.key = true →
        t.d.fwd.ring = if e.static then s.d.fwd.ring else s.d.fwd.ring ++ [RingEv.sweep e.key]) ∧
      t.d.store = s.d.store ∧ t.d.ports = s.d.ports) ∧
  (∀ (s : State) (c : CmdCtx) (l n : BitVec 16), s.d.Runs (.flushByPort c l n) c 0x0403 .operator → l.toNat < 512 →
    (n = 0xFFFF ∨ n.toNat < 4096) →
    ∃ t, exec (.flushByPort c l n) s = .next t ∧
      (∀ x, x ∈ t.d.fwd.cur.em ↔ (x ∈ s.d.fwd.cur.em ∧ ¬(x.2.static = false ∧ x.2.res.rtype = 0 ∧
        x.2.res.target.toNat % 512 = l.toNat ∧ (n = 0xFFFF ∨ bitsOf x.2.key.toNat 47 36 = n.toNat)))) ∧
      t.d.fwd.cur.route = s.d.fwd.cur.route ∧ t.d.store = s.d.store ∧ t.d.ports = s.d.ports)

/-- Congestion, the drain of the old bank and its replay: a notice that names an up-port's spine sets the
level 3 that each decay tick lowers, the drain's end retires the old bank and lets a waiting limit act, and
the replay ends with both banks equal (R97, R120, R150). -/
def Obligations.CongestionAndEpochs : Prop :=
  (∀ (s : State) (k : Fin 16) (x : Taken) (r : List Taken) (l : Nat), s.d.awake = true →
    Tab.get s.d.fwd.taken k.val [] = x :: r → addrSvc x.hdr.dst = 2 → x.ok = true → s.d.regBit baseTm 1 = true →
    s.d.upPortTo (bitsOf x.hdr.ksf.toNat 51 40) = some l →
    ∃ t, exec (.congestionNoticeReceived k) s = .next t ∧ Tab.get t.d.fwd.taken k.val [] = r ∧
      Tab.get t.d.tm.levels (bitsOf x.hdr.ksf.toNat 63 52 * 512 + l) 0 = 3 ∧
      t.d.ctr (ctrTm 0x118) = (s.d.ctr (ctrTm 0x118) + 1) % 2 ^ 64 ∧ t.d.fwd.cur = s.d.fwd.cur ∧
      t.d.store = s.d.store ∧ t.d.ports = s.d.ports) ∧
  (∀ (s : State) (k : Fin 16) (x : Taken) (r : List Taken), s.d.awake = true →
    Tab.get s.d.fwd.taken k.val [] = x :: r → addrSvc x.hdr.dst = 2 → x.ok = false →
    ∃ t, exec (.congestionNoticeReceived k) s = .next t ∧ t.d.tm = s.d.tm ∧
      t.d.ctr (ctrFwd k.val 0x168) = (s.d.ctr (ctrFwd k.val 0x168) + 1) % 2 ^ 64) ∧
  (∀ (s : State) (n v : Nat), s.d.awake = true → s.d.tm.levels.filter (fun e => e.1 == n) = [(n, v)] →
    ∃ t, exec .decayTick s = .next t ∧ Tab.get t.d.tm.levels n 0 = v - 1 ∧
      t = s.put { s.d with tm := { s.d.tm with levels := t.d.tm.levels } }) ∧
  (∀ s : State, s.d.awake = true → s.d.fwd.oldLive = true →
    exec .epochDrainEnd s = .next (s.put { s.d with
      fwd := { s.d.fwd with oldLive := false, replay := true },
      store := { s.d.store with limit := s.d.store.limitPend.getD s.d.store.limit, limitPend := none } })) ∧
  (∀ s : State, s.d.awake = true → s.d.fwd.replay = true →
    ∃ t, exec .replayEnd s = .next t ∧ t.d.fwd.replay = false ∧ t.d.fwd.replayOps = [] ∧
      t.d.fwd.cur = s.d.fwd.cur ∧ (t.d.fwd.other = { s.d.fwd.cur with num := s.d.fwd.other.num } ∨ t.d.fwd.other.same s.d.fwd.cur = true) ∧
      t.d.fwd.epoch = s.d.fwd.epoch ∧ t.d.store = s.d.store ∧ t.d.ports = s.d.ports)

/-- Admission to the store: the queue's reserve takes a copy first, then the partition's, then the shared
pool, and a copy that none takes is refused (R115, R116, R123). -/
def Obligations.AdmissionOrder : Prop :=
  ∀ (d : Dev) (part : Nat) (t : Dest) (cls k : Nat),
    let fits := d.queueUse t cls false + k ≤ d.qmin cls
    let fitsPart := d.partUse part .partRes + k ≤ (d.partRes part).pmin
    let fitsShared := d.queueUse t cls true + k ≤ (d.sharedSize - d.sharedUse) * 2 ^ d.alphaCode cls / 256 ∧
      ((d.partRes part).pmax = 0xFFFFFFFF ∨ d.partUse part .shared + k ≤ (d.partRes part).pmax) ∧
      d.sharedUse + k ≤ d.sharedSize
    (d.admitFirst part t cls k false = some .queueRes ↔ fits) ∧
    (d.admitFirst part t cls k false = some .partRes ↔ ¬ fits ∧ fitsPart) ∧
    (d.admitFirst part t cls k false = some .shared ↔ ¬ fits ∧ ¬ fitsPart ∧ fitsShared) ∧
    (d.admitFirst part t cls k false = none ↔ ¬ fits ∧ ¬ fitsPart ∧ ¬ fitsShared) ∧
    (d.admitFirst part t cls k true = some .shared ↔ fitsShared)

/-- Contributions: a duplicate is counted, a first one opens its chunk, a later one is combined with it, the
last one at a root finishes the chunk, and one that finds no slot is refused (R197, R199 to R201, R210, R237).
-/
def Obligations.Contributions : Prop :=
  ∀ (s : State) (k tc : Fin 8) (f : Frame) (c : Ctx), s.d.AtHead k.val tc.val f → f.hdr.kind = 2 →
    let cid := f.hdr.ctx.toNat
    let seq := f.hdr.seq
    s.d.ctx? cid = some c → c.e.part = f.hdr.part → c.e.job = f.hdr.job → (c.st = .active ∨ c.st = .spill) →
    s.d.clusterClosed k.val = false → c.isThresh = false → c.e.op ≠ 7 → c.e.level ≠ 0 →
    s.d.onPath c.e cid seq (f.hdr.sub.getLsbD 7) f.hdr.src = true → hasPort (c.membership seq) f.port = true →
    (∀ l ∈ members (c.membership seq), s.d.memberUp c.e.part.toNat l = true) →
    let now := fun (t : State) => t.d.ctx? cid
    (∀ x, c.chunk? seq = some x → formatOk x.att f.hdr = true → hasPort x.bits f.port = true →
      ∃ t, exec (.contributionServed k tc) s = .next t ∧
        now t = some { c with counts := { c.counts with dup := c.counts.dup + 1 } } ∧
        t.d.ctr (ctrRed k.val 0xA10) = (s.d.ctr (ctrRed k.val 0xA10) + 1) % 2 ^ 64 ∧ t.d.mem = s.d.mem) ∧
    (∀ x, c.chunk? seq = some x → formatOk x.att f.hdr = true → hasPort x.bits f.port = false →
      x.bits ||| portBit f.port ≠ c.membership seq →
      ∃ t y, exec (.contributionServed k tc) s = .next t ∧ now t = some y ∧
        y.chunk? seq = some (x.absorb c.e.cap.toNat f) ∧ y.e = c.e ∧ y.st = c.st ∧ y.fin = c.fin ∧
        t.d.mem = s.d.mem ∧ t.d.ports = s.d.ports) ∧
    (c.chunk? seq = none → c.record? seq = none → formatOk (c.e.arith false) f.hdr = true →
      c.chunks.length < c.slots → portBit f.port ≠ c.membership seq →
      ∃ t y x, exec (.contributionServed k tc) s = .next t ∧ now t = some y ∧ y.chunk? seq = some x ∧
        x.st = .gather ∧ x.bits = portBit f.port ∧ x.rh = f.hdr.sub.getLsbD 7 ∧ x.opened = s.d.now ∧
        y.chunks.length = c.chunks.length + 1 ∧ t.d.mem = s.d.mem ∧ t.d.ports = s.d.ports) ∧
    (c.chunk? seq = none → c.record? seq = none → formatOk (c.e.arith false) f.hdr = true →
      c.slots ≤ c.chunks.length →
      ∃ t y, exec (.contributionServed k tc) s = .next t ∧ now t = some y ∧ y.chunks = c.chunks ∧ y.fin = c.fin) ∧
    (∀ x, c.chunk? seq = some x → formatOk x.att f.hdr = true → hasPort x.bits f.port = false → x.seq = seq →
      x.bits ||| portBit f.port = c.membership seq → c.e.level = 2 → x.att.op ≠ 7 → c.e.window ≠ 0 →
      ∃ t y r, exec (.contributionServed k tc) s = .next t ∧ now t = some y ∧ y.chunk? seq = none ∧
        y.record? seq = some r ∧ r.isDone = true ∧ y.counts.isDone = c.counts.isDone + 1 ∧
        t.d.mem = s.d.mem ∧ t.d.ports = s.d.ports)

/-- What reaches a chunk besides contributions: NACK_WINDOW asks for a resend, NACK_ABANDONED ends a chunk in
SENT, a result notice finishes it, a RESULT_NACK of a lingering result is answered with it, the gather limit
and the third retry abandon it, a credit lets it leave HOLD, and LINGER_EXPIRY drops the copy (R201, R202,
R204, R207 to R209). -/
def Obligations.ChunkEvents : Prop :=
  (∀ (s : State) (k tc : Fin 8) (f : Frame) (c : Ctx) (x : Chunk), s.d.AtHead k.val tc.val f → f.hdr.kind = 7 →
    f.hdr.sub = 0x12 → s.d.ctx? (ksfCtx f.hdr) = some c → c.chunk? (ksfSeq f.hdr) = some x → c.e.part = f.hdr.part →
    x.st = .sent → x.rh = bitOf f.hdr.ksf.toNat 7 →
    (bitsOf f.hdr.ksf.toNat 15 8 = 2 → ∃ t y, exec (.nackReceived k tc) s = .next t ∧
      t.d.ctx? (ksfCtx f.hdr) = some y ∧ y.chunk? (ksfSeq f.hdr) = some { x with resend := true } ∧ y.fin = c.fin) ∧
    (bitsOf f.hdr.ksf.toNat 15 8 = 6 → c.e.window ≠ 0 → ∃ t y r, exec (.nackReceived k tc) s = .next t ∧
      t.d.ctx? (ksfCtx f.hdr) = some y ∧ y.chunk? (ksfSeq f.hdr) = none ∧ y.record? (ksfSeq f.hdr) = some r ∧
      r.isDone = false)) ∧
  (∀ (s : State) (k tc : Fin 8) (f : Frame) (c : Ctx) (x : Linger), s.d.AtHead k.val tc.val f → f.hdr.kind = 7 →
    f.hdr.sub = 0x10 → f.arr.isSome = true → s.d.ctx? (ksfCtx f.hdr) = some c → c.st ≠ .pending → c.e.level = 2 →
    s.d.clusterClosed k.val = false → c.e.part = f.hdr.part → c.e.job = f.hdr.job →
    s.d.lingerOf c (ksfSeq f.hdr) = some x →
    ∃ t, exec (.resultNackReceived k tc) s = .next t ∧ t.d.red.ctxs = s.d.red.ctxs ∧
      t.d.ctr (ctrRed (clusterOf (ksfCtx f.hdr)) 0xA48) =
        (s.d.ctr (ctrRed (clusterOf (ksfCtx f.hdr)) 0xA48) + 1) % 2 ^ 64) ∧
  (∀ (s : State) (k : Fin 8) (n : Notice) (r : List Notice) (c : Ctx) (x : Chunk), s.d.awake = true →
    Tab.get s.d.red.notices k.val [] = n :: r → s.d.ctx? n.ctx.toNat = some c → c.chunk? n.seq = some x →
    x.st = .sent → c.e.window ≠ 0 →
    ∃ t y z, exec (.resultNotice k) s = .next t ∧ Tab.get t.d.red.notices k.val [] = r ∧
      t.d.ctx? n.ctx.toNat = some y ∧ y.chunk? n.seq = none ∧ y.record? n.seq = some z ∧ z.isDone = true ∧
      t.d.store = s.d.store ∧ t.d.mem = s.d.mem) ∧
  (∀ (s : State) (cid : BitVec 16) (q : Word) (c : Ctx) (x : Chunk), s.d.awake = true → s.d.ctx? cid.toNat = some c →
    c.chunk? q = some x → c.e.window ≠ 0 →
    let left := fun (t : State) => ∃ y r, t.d.ctx? cid.toNat = some y ∧ y.chunk? q = none ∧ y.record? q = some r ∧
      r.isDone = false ∧ t.d.mem = s.d.mem ∧ t.d.ports = s.d.ports
    (x.st = .gather ∨ x.st = .hold → ∃ t, exec (.gatherTimerExpiry cid q) s = .next t ∧ left t) ∧
    (x.st = .sent → 2 ≤ x.expiries → ∃ t, exec (.retryTimerExpiry cid q) s = .next t ∧ left t) ∧
    (x.st = .sent → x.expiries = 0 → x.resend = true → x.waitCredit = true →
      ∃ t y, exec (.retryTimerExpiry cid q) s = .next t ∧ t.d.ctx? cid.toNat = some y ∧
        y.chunk? q = some { x with expiries := 1, retryFrom := s.d.now, resend := false }) ∧
    (x.st = .hold → s.d.firstWaiting cid.toNat c x = true → s.d.creditFree c cid.toNat q x.rh = true →
      s.d.reaches c.e (s.d.destOf c.e cid.toNat q x.rh) = true →
      ∃ t y z, exec (.creditReturn cid q) s = .next t ∧ t.d.ctx? cid.toNat = some y ∧ y.chunk? q = some z ∧
        z.st = .sent ∧ z.retryFrom = s.d.now ∧ z.bits = x.bits) ∧
    (x.st = .sent → x.waitCredit = true → s.d.firstWaiting cid.toNat c x = true →
      s.d.creditFree c cid.toNat q x.rh = true →
      ∃ t y z, exec (.partnerCreditFree cid q) s = .next t ∧ t.d.ctx? cid.toNat = some y ∧ y.chunk? q = some z ∧
        z.waitCredit = false ∧ z.st = .sent)) ∧
  (∀ (s : State) (cid : BitVec 16) (q : Word) (c : Ctx) (r : FinRec), s.d.awake = true →
    s.d.ctx? cid.toNat = some c → c.record? q = some r →
    ∃ t y, exec (.lingerExpiry cid q) s = .next t ∧ t.d.ctx? cid.toNat = some y ∧
      y.record? q = some { r with linger := none } ∧ y.chunks = c.chunks ∧ t.d.store = s.d.store ∧ t.d.mem = s.d.mem)

/-- The life of a context: the head of the setups, once it has settled, becomes ACTIVE where its units are
free, or SPILL where it may, a head that waits too long is reported once, a resize takes effect at its
boundary, and a drained context leaves its record (R210, R213, R222, R229 to R231). -/
def Obligations.ContextLife : Prop :=
  (∀ (s : State) (cid : Nat) (c : Ctx), s.d.awake = true → s.d.setupHead = some (cid, c) →
    s.d.now < c.since + s.d.regBits (baseRed 0 + 0xB14) 31 16 * 1600 → exec .setupHeadServed s = .next s) ∧
  (∀ (s : State) (cid : Nat) (c : Ctx), s.d.awake = true → s.d.setupHead = some (cid, c) →
    c.since + s.d.regBits (baseRed 0 + 0xB14) 31 16 * 1600 ≤ s.d.now → 2 * c.e.window.toNat ≤ s.d.freeRecords (clusterOf cid) →
    let units := c.e.window.toNat * c.e.units
    (units ≤ s.d.freeUnits (clusterOf cid) → ∃ t, exec .setupHeadServed s = .next t ∧
      t.d.ctx? cid = some { c with st := .active } ∧ (∀ n, n ≠ cid → t.d.ctx? n = s.d.ctx? n) ∧
      t.d.ctr (ctrRed (clusterOf cid) 0xC00) = (s.d.ctr (ctrRed (clusterOf cid) 0xC00) + 1) % 2 ^ 64 ∧
      t.d.mem = s.d.mem) ∧
    (s.d.freeUnits (clusterOf cid) < units → c.e.spillOk = true → units ≤ s.d.freeSpill →
      ∃ t, exec .setupHeadServed s = .next t ∧ t.d.ctx? cid = some { c with st := .spill, spilled := true } ∧
        ∀ n, n ≠ cid → t.d.ctx? n = s.d.ctx? n) ∧
    (s.d.freeUnits (clusterOf cid) < units → c.e.spillOk = false → exec .setupHeadServed s = .next s)) ∧
  (∀ (s : State) (cid : Nat) (c : Ctx), s.d.awake = true → s.d.setupHead = some (cid, c) → c.stallSent = false →
    s.d.regBits offSetupCtl 15 0 ≠ 0 → c.since + s.d.regBits offSetupCtl 15 0 * 1600000 < s.d.now →
    ∃ t, exec .setupStall s = .next t ∧ t.d.ctx? cid = some { c with stallSent := true } ∧
      ∀ n, n ≠ cid → t.d.ctx? n = s.d.ctx? n) ∧
  (∀ (s : State) (n : BitVec 16) (c : Ctx), s.d.awake = true → s.d.ctx? n.toNat = some c → c.resizePend = true →
    (∀ x ∈ c.chunks, 0 ≤ seqDist x.seq c.e.boundary) → (∀ x ∈ c.fin, 0 ≤ seqDist x.seq c.e.boundary) →
    ∃ t, exec (.resizeBoundaryReached n) s = .next t ∧ t.d.ctx? n.toNat = some { c with resizePend := false, e :=
      { c.e with members := c.e.membersNext, meanN := c.e.meanNNext } } ∧ (∀ k, k ≠ n.toNat → t.d.ctx? k = s.d.ctx? k) ∧
      t.d.store = s.d.store) ∧
  (∀ (s : State) (n : BitVec 16) (c : Ctx), s.d.awake = true → s.d.ctx? n.toNat = some c → c.st = .draining →
    c.chunks = [] → (∀ r ∈ c.fin, r.linger = none) →
    ∃ t, exec (.contextDrainEnd n) s = .next t ∧ t.d.ctx? n.toNat = none ∧
      Tab.find t.d.red.last n.toNat = some (completionRecord n.toNat c) ∧ t.d.mem = s.d.mem ∧ t.d.ports = s.d.ports)

/-- Sheaves: an arrival of the phase is counted once for its port, and not for a member port that counts as
not ACTIVE (the model's reading, log entry 173), the last one at a root releases and begins the next phase, a
release that passes begins it at a GATHER sheaf, which sends its arrival at once where it has no member, the
arrival upward is repeated, and a stuck phase is reported once (R216 to R220). -/
def Obligations.Sheaves : Prop :=
  (∀ (s : State) (k tc : Fin 8) (f : Frame) (x : Sheaf), s.d.AtHead k.val tc.val f → f.hdr.kind = 4 →
    let n := f.hdr.ctx.toNat
    let more := bitsOf f.hdr.ksf.toNat 52 32
    s.d.sheaf? n = some x → x.cfg.part = f.hdr.part → x.cfg.job = f.hdr.job →
    hasPort x.cfg.members f.port = true → f.hdr.seq = x.cfg.phase → let up := s.d.memberUp f.hdr.part.toNat f.port
    (hasPort x.arrived f.port = true ∨ up = false → ∃ t, exec (.sheafArrival k tc) s = .next t ∧ t.d.red = s.d.red ∧
      t.d.ctr (ctrRed (n / 1024) 0xA68) = (s.d.ctr (ctrRed (n / 1024) 0xA68) + 1) % 2 ^ 64) ∧
    (hasPort x.arrived f.port = false → up = true → x.cfg.level = 2 → x.count + more < x.cfg.target.toNat →
      ∃ t y, exec (.sheafArrival k tc) s = .next t ∧ t.d.sheaf? n = some y ∧ y.count = x.count + more ∧
        y.arrived = x.arrived ||| portBit f.port ∧ y.cfg = x.cfg ∧
        (x.cfg.dop = 1 ∧ f32isNan (combineDatum 1 (!x.got) x.datum (BitVec.ofNat 32 f.hdr.ksf.toNat)) = true ∨
          y.datum = combineDatum x.cfg.dop (!x.got) x.datum (BitVec.ofNat 32 f.hdr.ksf.toNat)) ∧ t.d.mem = s.d.mem) ∧
    (hasPort x.arrived f.port = false → up = true → x.cfg.level = 2 → x.cfg.target.toNat ≤ x.count + more →
      x.count + more < 2 ^ 21 →
      ∃ t y, exec (.sheafArrival k tc) s = .next t ∧ t.d.sheaf? n = some y ∧ y.cfg.phase = x.cfg.phase + 1 ∧
        y.count = 0 ∧ y.arrived = 0 ∧ y.lastCount = x.count + more ∧
        t.d.ctr (ctrRed (n / 1024) 0xA60) = (s.d.ctr (ctrRed (n / 1024) 0xA60) + 1) % 2 ^ 64 ∧ t.d.mem = s.d.mem)) ∧
  (∀ (s : State) (k : Fin 8) (r : SheafRel) (l : List SheafRel) (x : Sheaf), s.d.awake = true →
    Tab.get s.d.red.passing k.val [] = r :: l → s.d.sheaf? r.sheaf = some x → x.cfg.level = 1 →
    x.cfg.part = r.part → x.cfg.job = r.job → x.cfg.phase = r.phase → x.cfg.members ≠ 0 →
    ∃ t, exec (.sheafReleasePassing k) s = .next t ∧ Tab.get t.d.red.passing k.val [] = l ∧
      t.d.sheaf? r.sheaf = some { x with
        cfg := { x.cfg with phase := x.cfg.phase + 1 }, lastCount := r.count, lastDatum := r.datum, lastSrc := r.src,
        count := 0, datum := 0, arrived := 0, got := false, released := true, sentUp := false, firstAt := none,
        stuckSent := false } ∧ (∀ n, n ≠ r.sheaf → t.d.sheaf? n = s.d.sheaf? n) ∧ t.d.store = s.d.store) ∧
  (∀ (s : State) (k : Fin 8) (r : SheafRel) (l : List SheafRel) (x : Sheaf), s.d.awake = true →
    Tab.get s.d.red.passing k.val [] = r :: l → s.d.sheaf? r.sheaf = some x → x.cfg.level = 1 →
    x.cfg.part = r.part → x.cfg.job = r.job → x.cfg.phase = r.phase → x.cfg.members = 0 →
    ∃ t y, exec (.sheafReleasePassing k) s = .next t ∧ Tab.get t.d.red.passing k.val [] = l ∧
      t.d.sheaf? r.sheaf = some y ∧ y.cfg = { x.cfg with phase := x.cfg.phase + 1 } ∧ y.sentUp = true) ∧
  (∀ (s : State) (n : Fin 8192) (x : Sheaf), s.d.awake = true → s.d.sheaf? n.val = some x → x.cfg.level = 1 →
    x.sentUp = true →
    exec (.sheafRetryExpiry n) s = .next (s.put (s.d.build 0 { Header.blank with
      kind := 4, tc := 4, part := x.cfg.part, job := x.cfg.job, dst := x.cfg.up, src := s.d.ownAddr 1,
      ctx := BitVec.ofNat 16 n.val, seq := x.cfg.phase,
      ksf := BitVec.ofNat 64 ((x.count % 2 ^ 21) <<< 32 ||| x.datum.toNat) } []))) ∧
  (∀ (s : State) (n : Fin 8192) (x : Sheaf), s.d.awake = true → s.d.sheaf? n.val = some x →
    x.firstAt.isSome = true → x.stuckSent = false →
    ∃ t, exec (.sheafStuck n) s = .next t ∧ t.d.sheaf? n.val = some { x with stuckSent := true } ∧
      (∀ k, k ≠ n.val → t.d.sheaf? k = s.d.sheaf? k) ∧
      t.d.ctr (ctrRed (n.val / 1024) 0xA70) = (s.d.ctr (ctrRed (n.val / 1024) 0xA70) + 1) % 2 ^ 64) ∧
  (∀ (s : State) (n : Fin 8192) (x : Sheaf), s.d.awake = true → s.d.sheaf? n.val = some x → x.stuckSent = true →
    exec (.sheafStuck n) s = .next s)

/-! ### Thresh -/

/-- Thresh's phases: a built chunk map makes its shard ready, with the slots lost that were lost before it,
arrivals are repeated while they are owed, a release of the vote advances the phase and the step, a skip
advances the phase alone, and a chunk that found no room is parked when there is room (R252, R254, R258, R259,
R261, R267, R274, R276, R303). An update of the state in staging writes the slot and its STAMP, at the
addresses that the shard and the map give, and a chunk whose slot holds its phase already is dropped and
counted (R252, R255, R267). -/
def Obligations.Thresh : Prop :=
  (∀ (s : State) (n : Fin 16384) (h : ThrShard) (c : Ctx) (x : ThrJob), s.d.awake = true →
    Tab.find s.d.thr.shards n.val = some h → s.d.ctx? h.cfg.ctx.toNat = some c →
    s.d.job? h.cfg.jent.toNat = some x → h.ready = false → h.draining = false →
    (∀ e ∈ s.d.thr.jobs, e.2.runs = []) →
    let map := s.d.buildMap h c.e x.phase
    let built := { h with ready := true }
    ∃ t y, exec (.chunkMapBuilt n) s = .next t ∧ Tab.find t.d.thr.shards n.val = some y ∧ y.ready = true ∧
      y.cursor = (if x.own = .rebuild then 0 else if x.own = .lost then h.cursor else h.home + h.peer) ∧
      y.cfg = h.cfg ∧
      t.d.mem = (if h.doomed = true ∨ s.d.mem.granClosed = true then (map.loseSlots n.val built 0).mem
        else if x.own = .lost then (map.loseSlots n.val built h.cursor).mem else map.mem)) ∧
  (∀ (s : State) (j : Fin 64) (x : ThrJob), s.d.awake = true → s.d.job? j.val = some x → x.arrivalsSent = true →
    exec (.threshArrivalRepeat j) s = .next (s.put (s.d.sendArrivals j.val x))) ∧
  (∀ (s : State) (r : SheafRel) (l : List SheafRel) (j : Nat) (x : ThrJob), s.d.awake = true →
    s.d.thr.posts = r :: l → s.d.thr.jobs = [(j, x)] → x.cfg.part = r.part → x.cfg.job = r.job →
    x.phase = r.phase → x.cfg.voteSheaf.toNat = r.sheaf →
    (x.cfg.gate = 1 → bitsOf r.datum.toNat 3 0 = 0 → ∃ t y, exec .threshReleasePosted s = .next t ∧
      t.d.thr.posts = l ∧ t.d.job? j = some y ∧ y.phase = x.phase + 1 ∧ y.voteSeen = none ∧
      (∀ n p, Tab.find s.d.thr.params n = some p → p.f.jent.toNat = j → p.next = none →
        ∃ q, Tab.find t.d.thr.params n = some q ∧ q.f = { p.f with step := p.f.step + 1 })) ∧
    (x.cfg.gate ≠ 0 → bitsOf r.datum.toNat 3 0 ≠ 0 → ∃ t y, exec .threshReleasePosted s = .next t ∧
      t.d.thr.posts = l ∧ t.d.job? j = some y ∧ y.phase = x.phase + 1 ∧
      (∀ n p, Tab.find s.d.thr.params n = some p → p.f.jent.toNat = j → p.next = none →
        ∃ q, Tab.find t.d.thr.params n = some q ∧ q.f = p.f)) ∧
    (x.cfg.gate = 2 → bitsOf r.datum.toNat 3 0 = 0 → x.normSeen = none → x.cfg.normSheaf.toNat ≠ r.sheaf →
      ∃ t y, exec .threshReleasePosted s = .next t ∧ t.d.thr.posts = l ∧ t.d.job? j = some y ∧
        y.phase = x.phase ∧ y.voteSeen = some r.datum)) ∧
  (∀ (s : State) (n : BitVec 16) (q : Word) (c : Ctx) (x : Chunk) (m : Nat) (h : ThrShard) (j : ThrJob),
    s.d.awake = true → s.d.ctx? n.toNat = some c → c.chunk? q = some x → x.st = .waitPark → c.e.window ≠ 0 →
    s.d.shardOfCtx n.toNat = some (m, h) → s.d.job? h.cfg.jent.toNat = some j → s.d.parkFits c.e.cap.toNat = true →
    j.log.length < 4096 →
    ∃ t y r, exec (.parkSpaceFreed n q) s = .next t ∧ t.d.ctx? n.toNat = some y ∧ y.chunk? q = none ∧
      y.record? q = some r ∧ r.isDone = true ∧ t.d.ctr (ctrThr 0x100) = (s.d.ctr (ctrThr 0x100) + 1) % 2 ^ 64) ∧
  (∀ (s : State) (k : Fin 8) (p : Parked) (n : Nat) (h : ThrShard) (c : Ctx) (x : ThrJob) (f : ThrParam)
    (a b e : Word) (w : List Byte), s.d.awake = true → s.d.nextUpdate k.val = some p →
    s.d.shardOfCtx p.ctx.toNat = some (n, h) → s.d.ctx? p.ctx.toNat = some c → s.d.job? h.cfg.jent.toNat = some x →
    s.d.updateConsts x h p.phase = (f, a, b, e) →
    let ix := (h.place x.phase p.seq).1
    let m := s.d.mapEnt h ix
    m.lost = false → m.stamp ≠ p.phase →
    ThrParam.slot f (rndFor c.e.rnd c.e.seed p.seq) c.e.cap.toNat a b e p.vals p.state = some w →
    (∀ e ∈ s.d.thr.jobs, e.2.runs = []) →
    ∃ t, exec (.stagingReady k) s = .next t ∧
      t.d.mem.cells = ((s.d.devWrite (h.cfg.stateBase.toNat + m.slot * w.length) w).setMapEnt h ix
        { m with stamp := p.phase, stale := false }).mem.cells ∧ t.d.ports = s.d.ports) ∧
  (∀ (s : State) (k : Fin 8) (p : Parked) (n : Nat) (h : ThrShard) (c : Ctx) (x : ThrJob) (f : ThrParam)
    (a b e : Word), s.d.awake = true → s.d.nextUpdate k.val = some p →
    s.d.shardOfCtx p.ctx.toNat = some (n, h) → s.d.ctx? p.ctx.toNat = some c → s.d.job? h.cfg.jent.toNat = some x →
    s.d.updateConsts x h p.phase = (f, a, b, e) →
    (s.d.mapEnt h (h.place x.phase p.seq).1).lost = false →
    (s.d.mapEnt h (h.place x.phase p.seq).1).stamp = p.phase → (∀ e ∈ s.d.thr.jobs, e.2.runs = []) →
    ∃ t, exec (.stagingReady k) s = .next t ∧ t.d.mem = s.d.mem ∧
      t.d.ctr (ctrThr 0x128) = (s.d.ctr (ctrThr 0x128) + 1) % 2 ^ 64) ∧
  (∀ (s : State) (k tc : Fin 8) (f : Frame) (c : Ctx) (n : Nat) (h : ThrShard) (x : ThrJob),
    s.d.AtHead k.val tc.val f → f.hdr.kind = 7 → f.hdr.sub = 0x13 → s.d.ctx? (ksfCtx f.hdr) = some c →
    s.d.shardOfCtx (ksfCtx f.hdr) = some (n, h) → c.e.part = f.hdr.part →
    -1 ≤ seqDist (h.place x.phase (ksfSeq f.hdr)).2 x.phase → s.d.job? h.cfg.jent.toNat = some x → h.ready = true → x.own ≠ .rebuild → x.nackUntil = false →
    let m := s.d.mapEnt h (h.place x.phase (ksfSeq f.hdr)).1
    m.valid = true → m.lost = false → m.stamp = (h.place x.phase (ksfSeq f.hdr)).2 →
    ∃ t, exec (.weightReqReceived k tc) s = .next t ∧
      t.d.ctr (ctrThr 0x168) = (s.d.ctr (ctrThr 0x168) + 1) % 2 ^ 64 ∧ t.d.thr = s.d.thr ∧ t.d.mem = s.d.mem) ∧
  (∀ (s : State) (c : CmdCtx) (n : BitVec 16) (j q : Word) (h : ThrShard), let d := s.d.touch c
    s.d.Runs (.memSlotRestored c n j q) c 0x0706 .operator → Tab.find s.d.thr.shards n.toNat = some h →
    d.claimedElse c.src (.shard n.toNat) = false → s.d.mem.granClosed = false → j.toNat < h.cfg.cps.toNat →
    (s.d.mapEnt h j.toNat).valid = true → (s.d.mapEnt h j.toNat).lost = true →
    (∀ x, s.d.job? h.cfg.jent.toNat = some x → x.own = .lost) →
    exec (.memSlotRestored c n j q) s = .next (s.put
      (((d.restoreSlot n.toNat h j.toNat (s.d.mapEnt h j.toNat) q).thrTidy).reply c 0x0706 .ok .empty)))

/-- The mirror stream: frames in order are taken and advance it, STATE writes its bytes, COMMIT its map entry,
NOTE accounts for its chunk, an ACK empties the log that it covers, REBUILD_REQ makes the copies SOLO and
REBUILD_END makes them in sync (R258, R270, R273, R274). -/
def Obligations.MirrorStream : Prop :=
  ∀ (s : State) (k tc : Fin 8) (f : Frame) (j : Nat) (x : ThrJob), s.d.AtHead k.val tc.val f → f.hdr.kind = 6 →
    s.d.mirrorJob f.hdr = some (j, x) → s.d.job? j = some x → (∀ e ∈ s.d.thr.jobs, e.2.runs = []) →
    (f.hdr.seq = x.rxNext → f.hdr.sub = 1 → ∀ (n : Nat) (h : ThrShard), s.d.mirrorShard j f.hdr = some (n, h) →
      bitsOf f.hdr.ksf.toNat 47 0 + f.payload.length ≤ (h.home + h.peer) * s.d.shardSlotBytes h →
      ∃ t y, exec (.mirrorStateReceived k tc) s = .next t ∧ t.d.job? j = some y ∧ y.rxNext = x.rxNext + 1 ∧
        t.d.mem.cells = (s.d.devWrite (h.cfg.stateBase.toNat + bitsOf f.hdr.ksf.toNat 47 0) f.payload).mem.cells) ∧
    (f.hdr.seq = x.rxNext → f.hdr.sub = 3 → ∀ (n : Nat) (h : ThrShard) (ix : Nat),
      s.d.mirrorShard j f.hdr = some (n, h) → s.d.shardSlotBytes h ≠ 0 →
      s.d.indexOfSlot h (bitsOf f.hdr.ksf.toNat 47 0 / s.d.shardSlotBytes h) = some ix →
      ∃ t y, exec (.mirrorCommitReceived k tc) s = .next t ∧ t.d.job? j = some y ∧ y.rxNext = x.rxNext + 1 ∧
        t.d.mem.cells = (s.d.setMapEnt h ix { s.d.mapEnt h ix with
          stamp := BitVec.ofNat 32 (ofBe (f.payload.take 4)), stale := false,
          lost := (s.d.mapEnt h ix).lost && s.d.mem.granClosed }).mem.cells) ∧
    (f.hdr.seq = x.rxNext → f.hdr.sub = 4 → ∀ (n : Nat) (h : ThrShard), s.d.mirrorShard j f.hdr = some (n, h) →
      (h.place x.phase (BitVec.ofNat 32 f.hdr.ksf.toNat)).2 = x.phase →
      ∃ t y, exec (.mirrorNoteReceived k tc) s = .next t ∧ t.d.job? j = some y ∧ y.rxNext = x.rxNext + 1 ∧
        y.sum0.accounted =
          (if (h.cfg.ctx, BitVec.ofNat 32 f.hdr.ksf.toNat) ∈ x.sum0.counted then x.sum0.accounted
           else x.sum0.accounted + 1) ∧ y.phase = x.phase ∧ t.d.mem = s.d.mem) ∧
    (f.hdr.sub = 2 → x.endSeq = none → (x.own = .rebuild → x.reqSent = true) → let n := BitVec.ofNat 32 (bitsOf f.hdr.ksf.toNat 63 32)
      seqDist n x.txNext ≤ 0 →
      ∃ t y, exec (.mirrorAckReceived k tc) s = .next t ∧ t.d.job? j = some y ∧
        y.log = x.log.filter (fun m => !decide (seqDist m.seq n < 0)) ∧ y.txNext = x.txNext ∧ y.lastRx = s.d.now) ∧
    (f.hdr.seq = 0 → f.hdr.sub = 5 → x.own = .inSync →
      ∃ t y, exec (.mirrorRebuildReqReceived k tc) s = .next t ∧ t.d.job? j = some y ∧ y.own = .solo ∧
        y.rxNext = 1 ∧ y.txNext = 0 ∧ y.log = [] ∧ t.d.mem = s.d.mem) ∧
    (f.hdr.seq = x.rxNext → f.hdr.sub = 6 → x.own = .rebuild →
      ∃ t y, exec (.mirrorRebuildEndReceived k tc) s = .next t ∧ t.d.job? j = some y ∧ y.own = .inSync ∧
        y.bulk = none ∧ y.endSeq = none ∧ t.d.mem = s.d.mem) ∧
    (f.hdr.seq ≠ x.rxNext → (f.hdr.sub = 1 ∨ f.hdr.sub = 3 ∨ f.hdr.sub = 4 ∨ f.hdr.sub = 6) →
      ∃ t y, exec (.mirrorOutOfOrder k tc) s = .next t ∧ t.d.job? j = some y ∧ y.rxNext = x.rxNext ∧
        y.rxSinceAck = 0 ∧ y.lastRx = s.d.now ∧
        t.d.ctr (ctrThr 0x140) = (s.d.ctr (ctrThr 0x140) + 1) % 2 ^ 64 ∧ t.d.mem = s.d.mem)

/-- The mirror's timers and its bulk copy: an RTO sends the log again, the interval sends an ACK, silence
makes copies in sync SOLO and copies in REBUILD LOST, and the bulk copy goes on slot by slot, the last one
with REBUILD_END (R273 to R276); no slot is read from a closed granary (R303). -/
def Obligations.MirrorTimers : Prop :=
  ∀ (s : State) (j : Fin 64) (x : ThrJob), s.d.awake = true → s.d.job? j.val = some x →
    (x.log ≠ [] → ∃ t, exec (.mirrorRtoExpiry j) s = .next t ∧
      t.d.job? j.val = some { x with lastAckAdv := s.d.now } ∧
      t.d.ctr (ctrThr 0x138) = (s.d.ctr (ctrThr 0x138) + x.log.length) % 2 ^ 64 ∧ t.d.mem = s.d.mem) ∧
    (∃ t, exec (.mirrorAckInterval j) s = .next t ∧ t.d.job? j.val = some { x with rxSinceAck := 0 } ∧
      t.d.mem = s.d.mem ∧ t.d.ports = s.d.ports) ∧
    (x.own = .inSync → ∃ t y, exec (.mirrorDeadExpiry j) s = .next t ∧ t.d.job? j.val = some y ∧ y.own = .solo ∧
      y.log = [] ∧ y.txNext = 0 ∧ y.loss = true) ∧
    (x.own = .rebuild → ∃ t y, exec (.mirrorDeadExpiry j) s = .next t ∧
      t.d.job? j.val = some y ∧ y.own = .lost ∧ y.reqSent = false) ∧
    (x.own = .solo → exec (.mirrorDeadExpiry j) s = .next s) ∧
    (∀ (b : Nat × Nat) (n slot : Nat) (h : ThrShard), x.bulk = some b → s.d.bulkAt j.val b = some (n, h, slot) →
      Tab.find s.d.thr.shards n = some h →
      (s.d.mem.granClosed = false → s.d.bulkAt j.val (h.cfg.ctx.toNat, slot + 1) ≠ none →
        x.log.length + slotFrames (s.d.shardSlotBytes h) ≤ 4096 →
        ∃ t y z, exec (.bulkCopySlot j) s = .next t ∧ t.d.job? j.val = some y ∧
          y.bulk = some (h.cfg.ctx.toNat, slot + 1) ∧ Tab.find t.d.thr.shards n = some z ∧ z.cursor = slot + 1 ∧
          t.d.mem = s.d.mem ∧ t.d.ports = s.d.ports) ∧
      (s.d.mem.granClosed = false → s.d.bulkAt j.val (h.cfg.ctx.toNat, slot + 1) = none →
        x.log.length + slotFrames (s.d.shardSlotBytes h) < 4096 →
        ∃ t y, exec (.bulkCopySlot j) s = .next t ∧ t.d.job? j.val = some y ∧ y.bulk = none ∧
          y.endSeq = some (y.txNext - 1) ∧ t.d.mem = s.d.mem ∧ t.d.ports = s.d.ports) ∧
      (s.d.mem.granClosed = true → exec (.bulkCopySlot j) s = .next s))
end

