-- ==== Sys2Proof/Laws/Memory.lean ====
section
/-! SUPPORT. Laws of sparse tables and of board memory: an entry reads as it was last written, a write
leaves every other entry alone, every operation keeps the canonical form, and canonical tables that
read alike are equal. -/

namespace Sys2Proof

section Tables

variable {α : Type}

@[simp] theorem Tab.find_nil (n : Nat) : Tab.find ([] : Tab α) n = none := rfl

theorem Tab.find_cons (k : Nat) (v : α) (r : Tab α) (n : Nat) :
    Tab.find ((k, v) :: r) n = if k = n then some v else Tab.find r n := rfl

@[simp] theorem Tab.find_put_same (t : Tab α) (n : Nat) (v : α) : Tab.find (Tab.put t n v) n = some v := by
  induction t with
  | nil => simp [Tab.put, Tab.find_cons]
  | cons e r ih => obtain ⟨k, w⟩ := e; simp only [Tab.put]; split_ifs with h1 h2 <;> simp [Tab.find_cons, ih]; omega

theorem Tab.find_put_other (t : Tab α) {n m : Nat} (v : α) (h : m ≠ n) :
    Tab.find (Tab.put t n v) m = Tab.find t m := by
  induction t with
  | nil => simp [Tab.put, Tab.find_cons, h.symm]
  | cons e r ih =>
    obtain ⟨k, w⟩ := e; simp only [Tab.put]
    split_ifs with h1 h2
    · simp [Tab.find_cons, h.symm]
    · subst h2; simp [Tab.find_cons, h.symm]
    · simp [Tab.find_cons, ih]

@[simp] theorem Tab.find_del_same (t : Tab α) (n : Nat) : Tab.find (Tab.del t n) n = none := by
  induction t with
  | nil => rfl
  | cons e r ih => obtain ⟨k, w⟩ := e; simp only [Tab.del]; split_ifs with h <;> simp [Tab.find_cons, ih, h]

theorem Tab.find_del_other (t : Tab α) {n m : Nat} (h : m ≠ n) : Tab.find (Tab.del t n) m = Tab.find t m := by
  induction t with
  | nil => rfl
  | cons e r ih =>
    obtain ⟨k, w⟩ := e; simp only [Tab.del]
    split_ifs with h1
    · subst h1; simp [Tab.find_cons, h.symm, ih]
    · simp [Tab.find_cons, ih]

@[simp] theorem Tab.get_put_same (t : Tab α) (n : Nat) (v d : α) : Tab.get (Tab.put t n v) n d = v := by
  simp [Tab.get]

theorem Tab.get_put_other (t : Tab α) {n m : Nat} (v d : α) (h : m ≠ n) :
    Tab.get (Tab.put t n v) m d = Tab.get t m d := by
  simp [Tab.get, Tab.find_put_other t v h]

@[simp] theorem Tab.get_del_same (t : Tab α) (n : Nat) (d : α) : Tab.get (Tab.del t n) n d = d := by
  simp [Tab.get]

theorem Tab.get_del_other (t : Tab α) {n m : Nat} (d : α) (h : m ≠ n) :
    Tab.get (Tab.del t n) m d = Tab.get t m d := by
  simp [Tab.get, Tab.find_del_other t h]

theorem Tab.risingFrom_mono {b c : Nat} (h : b ≤ c) : ∀ t : Tab α, Tab.risingFrom c t = true → Tab.risingFrom b t = true
  | [], _ => rfl
  | (k, _) :: r, hr => by
    simp only [Tab.risingFrom, Bool.and_eq_true, decide_eq_true_eq] at hr ⊢
    exact ⟨by omega, hr.2⟩

theorem Tab.find_eq_none_of_risingFrom {b n : Nat} (hn : n ≤ b) :
    ∀ t : Tab α, Tab.risingFrom b t = true → Tab.find t n = none
  | [], _ => rfl
  | (k, v) :: r, h => by
    simp only [Tab.risingFrom, Bool.and_eq_true, decide_eq_true_eq] at h
    rw [Tab.find_cons, if_neg (by omega)]
    exact Tab.find_eq_none_of_risingFrom hn r (Tab.risingFrom_mono (by omega) r h.2)

theorem Tab.risingFrom_put {b n : Nat} (v : α) (hb : b < n) :
    ∀ t : Tab α, Tab.risingFrom b t = true → Tab.risingFrom b (Tab.put t n v) = true := by
  intro t
  induction t generalizing b with
  | nil => simp [Tab.put, Tab.risingFrom, hb]
  | cons e r ih =>
    obtain ⟨k, w⟩ := e
    simp only [Tab.risingFrom, Bool.and_eq_true, decide_eq_true_eq, and_imp]
    intro h1 h2
    simp only [Tab.put]
    split_ifs with h3 h4
    · simp [Tab.risingFrom, hb, h3, h2]
    · subst h4; simp [Tab.risingFrom, hb, h2]
    · simp [Tab.risingFrom, h1, ih (by omega : k < n) h2]

theorem Tab.risingFrom_filter (p : Nat × α → Bool) : ∀ {b : Nat} (t : Tab α), Tab.risingFrom b t = true →
    Tab.risingFrom b (t.filter p) = true
  | _, [], _ => rfl
  | b, (k, v) :: r, h => by
    simp only [Tab.risingFrom, Bool.and_eq_true, decide_eq_true_eq] at h
    have ih := Tab.risingFrom_filter p r h.2
    rw [List.filter_cons]
    split_ifs
    · simp [Tab.risingFrom, h.1, ih]
    · exact Tab.risingFrom_mono (by omega) _ ih

theorem Tab.del_eq_filter (t : Tab α) (n : Nat) : Tab.del t n = t.filter fun e => !decide (e.1 = n) := by
  induction t with
  | nil => rfl
  | cons e r ih => obtain ⟨k, w⟩ := e; simp only [Tab.del, List.filter_cons]; split_ifs <;> simp_all

theorem Tab.rising_put (t : Tab α) (n : Nat) (v : α) (h : Tab.rising t = true) : Tab.rising (Tab.put t n v) = true := by
  cases t with
  | nil => rfl
  | cons e r =>
    obtain ⟨k, w⟩ := e
    simp only [Tab.rising] at h
    simp only [Tab.put]
    split_ifs with h1 h2
    · simp [Tab.rising, Tab.risingFrom, h1, h]
    · subst h2; simpa [Tab.rising] using h
    · simpa [Tab.rising] using Tab.risingFrom_put v (by omega) r h

theorem Tab.rising_of_risingFrom {b : Nat} (t : Tab α) (h : Tab.risingFrom b t = true) : Tab.rising t = true := by
  cases t with
  | nil => rfl
  | cons e r => simp only [Tab.risingFrom, Bool.and_eq_true] at h; exact h.2

theorem Tab.rising_filter (p : Nat × α → Bool) (t : Tab α) (h : Tab.rising t = true) :
    Tab.rising (t.filter p) = true := by
  cases t with
  | nil => rfl
  | cons e r =>
    have h' := Tab.risingFrom_filter p r h
    rw [List.filter_cons]
    split_ifs
    · exact h'
    · exact Tab.rising_of_risingFrom _ h'

variable [DecidableEq α]

omit [DecidableEq α] in
theorem Tab.mem_put (t : Tab α) (n : Nat) (v : α) (x : Nat × α) (h : x ∈ Tab.put t n v) : x = (n, v) ∨ x ∈ t := by
  induction t with
  | nil => simpa [Tab.put] using h
  | cons e r ih =>
    obtain ⟨k, w⟩ := e
    simp only [Tab.put] at h
    split_ifs at h <;> simp only [List.mem_cons] at h ⊢
    · tauto
    · tauto
    · rcases h with h | h
      · tauto
      · rcases ih h with h | h <;> tauto

theorem Tab.tight_put (t : Tab α) (n : Nat) {v d : α} (hv : v ≠ d) (h : Tab.tight t d = true) :
    Tab.tight (Tab.put t n v) d = true := by
  rw [Tab.tight, List.all_eq_true] at h ⊢
  intro x hx
  rcases Tab.mem_put t n v x hx with rfl | hx
  · simpa using hv
  · exact h x hx

theorem Tab.tight_filter (p : Nat × α → Bool) (t : Tab α) {d : α} (h : Tab.tight t d = true) :
    Tab.tight (t.filter p) d = true := by
  simp only [Tab.tight, List.all_eq_true] at h ⊢
  exact fun x hx => h x (List.mem_filter.mp hx).1

theorem Tab.wf_filter (p : Nat × α → Bool) (t : Tab α) {d : α} (h : Tab.wf t d = true) :
    Tab.wf (t.filter p) d = true := by
  simp only [Tab.wf, Bool.and_eq_true] at h ⊢
  exact ⟨Tab.rising_filter p t h.1, Tab.tight_filter p t h.2⟩

/-- A write keeps the canonical form. -/
theorem Tab.wf_set (t : Tab α) (n : Nat) (v d : α) (h : Tab.wf t d = true) : Tab.wf (Tab.set t n v d) d = true := by
  unfold Tab.set
  split_ifs with hv
  · rw [Tab.del_eq_filter]; exact Tab.wf_filter _ t h
  · simp only [Tab.wf, Bool.and_eq_true] at h ⊢
    exact ⟨Tab.rising_put t n v h.1, Tab.tight_put t n hv h.2⟩

@[simp] theorem Tab.get_set_same (t : Tab α) (n : Nat) (v d : α) : Tab.get (Tab.set t n v d) n d = v := by
  unfold Tab.set; split_ifs with h <;> simp [h]

theorem Tab.get_set_other (t : Tab α) {n m : Nat} (v d e : α) (h : m ≠ n) :
    Tab.get (Tab.set t n v d) m e = Tab.get t m e := by
  unfold Tab.set; split_ifs <;> simp [Tab.get_del_other, Tab.get_put_other, h]

/-- Canonical tables that read alike are equal. -/
theorem Tab.ext_of_wf {d : α} : ∀ {t u : Tab α}, Tab.wf t d = true → Tab.wf u d = true →
    (∀ n, Tab.get t n d = Tab.get u n d) → t = u := by
  have key : ∀ {t u : Tab α} {k : Nat} {v : α}, Tab.wf ((k, v) :: t) d = true → Tab.wf u d = true →
      (∀ n, Tab.get ((k, v) :: t) n d = Tab.get u n d) → ∃ j w r, u = (j, w) :: r ∧ j ≤ k := by
    intro t u k v ht hu h
    have hv : v ≠ d := by simp [Tab.wf, Tab.tight] at ht; exact ht.2.1
    have hk := h k
    cases u with
    | nil => exact absurd (by simpa [Tab.get, Tab.find_cons] using hk) hv
    | cons e r =>
      obtain ⟨j, w⟩ := e
      refine ⟨j, w, r, rfl, ?_⟩
      by_contra hj
      simp only [Tab.wf, Bool.and_eq_true, Tab.rising] at hu
      have := Tab.find_eq_none_of_risingFrom (n := k) (b := j) (by omega) r hu.1
      have hjk : j ≠ k := by omega
      exact hv (by simpa [Tab.get, Tab.find_cons, this, hjk] using hk)
  have tail : ∀ {t : Tab α} {k : Nat} {v : α}, Tab.wf ((k, v) :: t) d = true → Tab.wf t d = true := by
    intro t k v h
    simp only [Tab.wf, Bool.and_eq_true, Tab.rising] at h ⊢
    exact ⟨Tab.rising_of_risingFrom t h.1, by simp [Tab.tight] at h ⊢; exact h.2.2⟩
  intro t
  induction t with
  | nil =>
    intro u ht hu h
    cases u with
    | nil => rfl
    | cons e r =>
      obtain ⟨j, w⟩ := e
      obtain ⟨_, _, _, h1, _⟩ := key hu ht (fun n => (h n).symm)
      cases h1
  | cons e r ih =>
    obtain ⟨k, v⟩ := e
    intro u ht hu h
    obtain ⟨j, w, q, rfl, hj⟩ := key ht hu h
    obtain ⟨k', v', r', h1, hk⟩ := key hu ht (fun n => (h n).symm)
    cases h1
    have hkj : k = j := by omega
    subst hkj
    have hvw : v = w := by simpa [Tab.get, Tab.find_cons] using h k
    subst hvw
    refine congrArg _ (ih (tail ht) (tail hu) fun n => ?_)
    by_cases hn : n ≤ k
    · have h1 := Tab.find_eq_none_of_risingFrom (n := n) hn r (by simp only [Tab.wf, Tab.rising, Bool.and_eq_true] at ht; exact ht.1)
      have h2 := Tab.find_eq_none_of_risingFrom (n := n) hn q (by simp only [Tab.wf, Tab.rising, Bool.and_eq_true] at hu; exact hu.1)
      simp [Tab.get, h1, h2]
    · have hkn : k ≠ n := by omega
      simpa [Tab.get, Tab.find_cons, hkn] using h n

end Tables

/-! ### Board memory -/

@[simp] theorem memByte_memSetByte_same (m : List Host.Cell) (a : Nat) (b : Byte) : memByte (memSetByte m a b) a = b :=
  Tab.get_set_same m a b memDefault

theorem memByte_memSetByte_other (m : List Host.Cell) {a x : Nat} (b : Byte) (h : x ≠ a) :
    memByte (memSetByte m a b) x = memByte m x :=
  Tab.get_set_other m b memDefault memDefault h

theorem memWf_memSetByte (m : List Host.Cell) (a : Nat) (b : Byte) (h : memWf m = true) :
    memWf (memSetByte m a b) = true := Tab.wf_set m a b memDefault h

theorem memWf_memWrite (m : List Host.Cell) (a : Nat) (l : List Byte) (h : memWf m = true) :
    memWf (memWrite m a l) = true := by
  induction l generalizing m a with
  | nil => exact h
  | cons b r ih => exact ih _ _ (memWf_memSetByte m a b h)

theorem memWf_filter (m : List Host.Cell) (p : Host.Cell → Bool) (h : memWf m = true) : memWf (m.filter p) = true :=
  Tab.wf_filter p m h

theorem memWf_memClear (m : List Host.Cell) (lo hi : Nat) (h : memWf m = true) : memWf (memClear m lo hi) = true :=
  Tab.wf_filter _ m h

/-- A write changes no byte outside the bytes written. -/
theorem memByte_memWrite_outside (m : List Host.Cell) (a x : Nat) (l : List Byte) (h : x < a ∨ a + l.length ≤ x) :
    memByte (memWrite m a l) x = memByte m x := by
  induction l generalizing m a with
  | nil => rfl
  | cons b r ih =>
    simp only [List.length_cons] at h
    rw [memWrite, ih _ _ (by omega), memByte_memSetByte_other m b (by omega)]

/-- Bytes read back as they were written. -/
theorem memRead_memWrite (m : List Host.Cell) (a : Nat) (l : List Byte) : memRead (memWrite m a l) a l.length = l := by
  induction l generalizing m a with
  | nil => rfl
  | cons b r ih =>
    rw [List.length_cons, memRead, memWrite, ih, memByte_memWrite_outside _ _ _ _ (by omega), memByte_memSetByte_same]

namespace Machine

theorem memWf_applyWrite (d : Dev) (a : Nat) (b : List Byte) (h : memWf d.mem.cells = true) :
    memWf (d.applyWrite a b).mem.cells = true := memWf_memWrite _ _ _ h

theorem memWf_reset : memWf State.reset.d.mem.cells = true := rfl

end Machine

end Sys2Proof
end

