-- ==== Sys2Proof/Laws/Ops.lean ====
section
/-! SUPPORT. What each shared operation on the device can change: `<operation>_shape` says it once, and
one lemma per field that it leaves alone says so for `simp`. -/

namespace Sys2Proof.Machine

theorem Dev.send_shape (d : Dev) (o : Out) :
    ∃ o', d.send o = { d with out := o' } := ⟨_, rfl⟩

@[simp] theorem Dev.send_now (d : Dev) (o : Out) : (d.send o).now = d.now := rfl
@[simp] theorem Dev.send_boot (d : Dev) (o : Out) : (d.send o).boot = d.boot := rfl
@[simp] theorem Dev.send_loopQ (d : Dev) (o : Out) : (d.send o).loopQ = d.loopQ := rfl
@[simp] theorem Dev.send_fuses (d : Dev) (o : Out) : (d.send o).fuses = d.fuses := rfl
@[simp] theorem Dev.send_clk (d : Dev) (o : Out) : (d.send o).clk = d.clk := rfl
@[simp] theorem Dev.send_time (d : Dev) (o : Out) : (d.send o).time = d.time := rfl
@[simp] theorem Dev.send_cmd (d : Dev) (o : Out) : (d.send o).cmd = d.cmd := rfl
@[simp] theorem Dev.send_hl (d : Dev) (o : Out) : (d.send o).hl = d.hl := rfl
@[simp] theorem Dev.send_mbx (d : Dev) (o : Out) : (d.send o).mbx = d.mbx := rfl
@[simp] theorem Dev.send_mg0 (d : Dev) (o : Out) : (d.send o).mg0 = d.mg0 := rfl
@[simp] theorem Dev.send_mg1 (d : Dev) (o : Out) : (d.send o).mg1 = d.mg1 := rfl
@[simp] theorem Dev.send_intPend (d : Dev) (o : Out) : (d.send o).intPend = d.intPend := rfl
@[simp] theorem Dev.send_heads (d : Dev) (o : Out) : (d.send o).heads = d.heads := rfl
@[simp] theorem Dev.send_fwd (d : Dev) (o : Out) : (d.send o).fwd = d.fwd := rfl
@[simp] theorem Dev.send_store (d : Dev) (o : Out) : (d.send o).store = d.store := rfl
@[simp] theorem Dev.send_tm (d : Dev) (o : Out) : (d.send o).tm = d.tm := rfl
@[simp] theorem Dev.send_red (d : Dev) (o : Out) : (d.send o).red = d.red := rfl
@[simp] theorem Dev.send_thr (d : Dev) (o : Out) : (d.send o).thr = d.thr := rfl
@[simp] theorem Dev.send_mem (d : Dev) (o : Out) : (d.send o).mem = d.mem := rfl
@[simp] theorem Dev.send_opt (d : Dev) (o : Out) : (d.send o).opt = d.opt := rfl
@[simp] theorem Dev.send_ports (d : Dev) (o : Out) : (d.send o).ports = d.ports := rfl
@[simp] theorem Dev.send_plan (d : Dev) (o : Out) : (d.send o).plan = d.plan := rfl
@[simp] theorem Dev.send_autoRemap (d : Dev) (o : Out) : (d.send o).autoRemap = d.autoRemap := rfl
@[simp] theorem Dev.send_faults (d : Dev) (o : Out) : (d.send o).faults = d.faults := rfl
@[simp] theorem Dev.send_cnt (d : Dev) (o : Out) : (d.send o).cnt = d.cnt := rfl
@[simp] theorem Dev.send_regs (d : Dev) (o : Out) : (d.send o).regs = d.regs := rfl
@[simp] theorem Dev.send_ctrs (d : Dev) (o : Out) : (d.send o).ctrs = d.ctrs := rfl
@[simp] theorem Dev.send_free (d : Dev) (o : Out) : (d.send o).free = d.free := rfl

theorem Dev.setReg_shape (d : Dev) (a v : Nat) :
    ∃ r', d.setReg a v = { d with regs := r' } := ⟨_, rfl⟩

@[simp] theorem Dev.setReg_now (d : Dev) (a v : Nat) : (d.setReg a v).now = d.now := rfl
@[simp] theorem Dev.setReg_boot (d : Dev) (a v : Nat) : (d.setReg a v).boot = d.boot := rfl
@[simp] theorem Dev.setReg_loopQ (d : Dev) (a v : Nat) : (d.setReg a v).loopQ = d.loopQ := rfl
@[simp] theorem Dev.setReg_fuses (d : Dev) (a v : Nat) : (d.setReg a v).fuses = d.fuses := rfl
@[simp] theorem Dev.setReg_clk (d : Dev) (a v : Nat) : (d.setReg a v).clk = d.clk := rfl
@[simp] theorem Dev.setReg_time (d : Dev) (a v : Nat) : (d.setReg a v).time = d.time := rfl
@[simp] theorem Dev.setReg_cmd (d : Dev) (a v : Nat) : (d.setReg a v).cmd = d.cmd := rfl
@[simp] theorem Dev.setReg_hl (d : Dev) (a v : Nat) : (d.setReg a v).hl = d.hl := rfl
@[simp] theorem Dev.setReg_mbx (d : Dev) (a v : Nat) : (d.setReg a v).mbx = d.mbx := rfl
@[simp] theorem Dev.setReg_mg0 (d : Dev) (a v : Nat) : (d.setReg a v).mg0 = d.mg0 := rfl
@[simp] theorem Dev.setReg_mg1 (d : Dev) (a v : Nat) : (d.setReg a v).mg1 = d.mg1 := rfl
@[simp] theorem Dev.setReg_intPend (d : Dev) (a v : Nat) : (d.setReg a v).intPend = d.intPend := rfl
@[simp] theorem Dev.setReg_heads (d : Dev) (a v : Nat) : (d.setReg a v).heads = d.heads := rfl
@[simp] theorem Dev.setReg_fwd (d : Dev) (a v : Nat) : (d.setReg a v).fwd = d.fwd := rfl
@[simp] theorem Dev.setReg_store (d : Dev) (a v : Nat) : (d.setReg a v).store = d.store := rfl
@[simp] theorem Dev.setReg_tm (d : Dev) (a v : Nat) : (d.setReg a v).tm = d.tm := rfl
@[simp] theorem Dev.setReg_red (d : Dev) (a v : Nat) : (d.setReg a v).red = d.red := rfl
@[simp] theorem Dev.setReg_thr (d : Dev) (a v : Nat) : (d.setReg a v).thr = d.thr := rfl
@[simp] theorem Dev.setReg_mem (d : Dev) (a v : Nat) : (d.setReg a v).mem = d.mem := rfl
@[simp] theorem Dev.setReg_opt (d : Dev) (a v : Nat) : (d.setReg a v).opt = d.opt := rfl
@[simp] theorem Dev.setReg_ports (d : Dev) (a v : Nat) : (d.setReg a v).ports = d.ports := rfl
@[simp] theorem Dev.setReg_plan (d : Dev) (a v : Nat) : (d.setReg a v).plan = d.plan := rfl
@[simp] theorem Dev.setReg_autoRemap (d : Dev) (a v : Nat) : (d.setReg a v).autoRemap = d.autoRemap := rfl
@[simp] theorem Dev.setReg_faults (d : Dev) (a v : Nat) : (d.setReg a v).faults = d.faults := rfl
@[simp] theorem Dev.setReg_cnt (d : Dev) (a v : Nat) : (d.setReg a v).cnt = d.cnt := rfl
@[simp] theorem Dev.setReg_ctrs (d : Dev) (a v : Nat) : (d.setReg a v).ctrs = d.ctrs := rfl
@[simp] theorem Dev.setReg_free (d : Dev) (a v : Nat) : (d.setReg a v).free = d.free := rfl
@[simp] theorem Dev.setReg_out (d : Dev) (a v : Nat) : (d.setReg a v).out = d.out := rfl

theorem Dev.bumpBy_shape (d : Dev) (a n : Nat) :
    ∃ k', d.bumpBy a n = { d with ctrs := k' } := ⟨_, rfl⟩

@[simp] theorem Dev.bumpBy_now (d : Dev) (a n : Nat) : (d.bumpBy a n).now = d.now := rfl
@[simp] theorem Dev.bumpBy_boot (d : Dev) (a n : Nat) : (d.bumpBy a n).boot = d.boot := rfl
@[simp] theorem Dev.bumpBy_loopQ (d : Dev) (a n : Nat) : (d.bumpBy a n).loopQ = d.loopQ := rfl
@[simp] theorem Dev.bumpBy_fuses (d : Dev) (a n : Nat) : (d.bumpBy a n).fuses = d.fuses := rfl
@[simp] theorem Dev.bumpBy_clk (d : Dev) (a n : Nat) : (d.bumpBy a n).clk = d.clk := rfl
@[simp] theorem Dev.bumpBy_time (d : Dev) (a n : Nat) : (d.bumpBy a n).time = d.time := rfl
@[simp] theorem Dev.bumpBy_cmd (d : Dev) (a n : Nat) : (d.bumpBy a n).cmd = d.cmd := rfl
@[simp] theorem Dev.bumpBy_hl (d : Dev) (a n : Nat) : (d.bumpBy a n).hl = d.hl := rfl
@[simp] theorem Dev.bumpBy_mbx (d : Dev) (a n : Nat) : (d.bumpBy a n).mbx = d.mbx := rfl
@[simp] theorem Dev.bumpBy_mg0 (d : Dev) (a n : Nat) : (d.bumpBy a n).mg0 = d.mg0 := rfl
@[simp] theorem Dev.bumpBy_mg1 (d : Dev) (a n : Nat) : (d.bumpBy a n).mg1 = d.mg1 := rfl
@[simp] theorem Dev.bumpBy_intPend (d : Dev) (a n : Nat) : (d.bumpBy a n).intPend = d.intPend := rfl
@[simp] theorem Dev.bumpBy_heads (d : Dev) (a n : Nat) : (d.bumpBy a n).heads = d.heads := rfl
@[simp] theorem Dev.bumpBy_fwd (d : Dev) (a n : Nat) : (d.bumpBy a n).fwd = d.fwd := rfl
@[simp] theorem Dev.bumpBy_store (d : Dev) (a n : Nat) : (d.bumpBy a n).store = d.store := rfl
@[simp] theorem Dev.bumpBy_tm (d : Dev) (a n : Nat) : (d.bumpBy a n).tm = d.tm := rfl
@[simp] theorem Dev.bumpBy_red (d : Dev) (a n : Nat) : (d.bumpBy a n).red = d.red := rfl
@[simp] theorem Dev.bumpBy_thr (d : Dev) (a n : Nat) : (d.bumpBy a n).thr = d.thr := rfl
@[simp] theorem Dev.bumpBy_mem (d : Dev) (a n : Nat) : (d.bumpBy a n).mem = d.mem := rfl
@[simp] theorem Dev.bumpBy_opt (d : Dev) (a n : Nat) : (d.bumpBy a n).opt = d.opt := rfl
@[simp] theorem Dev.bumpBy_ports (d : Dev) (a n : Nat) : (d.bumpBy a n).ports = d.ports := rfl
@[simp] theorem Dev.bumpBy_plan (d : Dev) (a n : Nat) : (d.bumpBy a n).plan = d.plan := rfl
@[simp] theorem Dev.bumpBy_autoRemap (d : Dev) (a n : Nat) : (d.bumpBy a n).autoRemap = d.autoRemap := rfl
@[simp] theorem Dev.bumpBy_faults (d : Dev) (a n : Nat) : (d.bumpBy a n).faults = d.faults := rfl
@[simp] theorem Dev.bumpBy_cnt (d : Dev) (a n : Nat) : (d.bumpBy a n).cnt = d.cnt := rfl
@[simp] theorem Dev.bumpBy_regs (d : Dev) (a n : Nat) : (d.bumpBy a n).regs = d.regs := rfl
@[simp] theorem Dev.bumpBy_free (d : Dev) (a n : Nat) : (d.bumpBy a n).free = d.free := rfl
@[simp] theorem Dev.bumpBy_out (d : Dev) (a n : Nat) : (d.bumpBy a n).out = d.out := rfl

theorem Dev.bump_shape (d : Dev) (a : Nat) :
    ∃ k', d.bump a = { d with ctrs := k' } := ⟨_, rfl⟩

@[simp] theorem Dev.bump_now (d : Dev) (a : Nat) : (d.bump a).now = d.now := rfl
@[simp] theorem Dev.bump_boot (d : Dev) (a : Nat) : (d.bump a).boot = d.boot := rfl
@[simp] theorem Dev.bump_loopQ (d : Dev) (a : Nat) : (d.bump a).loopQ = d.loopQ := rfl
@[simp] theorem Dev.bump_fuses (d : Dev) (a : Nat) : (d.bump a).fuses = d.fuses := rfl
@[simp] theorem Dev.bump_clk (d : Dev) (a : Nat) : (d.bump a).clk = d.clk := rfl
@[simp] theorem Dev.bump_time (d : Dev) (a : Nat) : (d.bump a).time = d.time := rfl
@[simp] theorem Dev.bump_cmd (d : Dev) (a : Nat) : (d.bump a).cmd = d.cmd := rfl
@[simp] theorem Dev.bump_hl (d : Dev) (a : Nat) : (d.bump a).hl = d.hl := rfl
@[simp] theorem Dev.bump_mbx (d : Dev) (a : Nat) : (d.bump a).mbx = d.mbx := rfl
@[simp] theorem Dev.bump_mg0 (d : Dev) (a : Nat) : (d.bump a).mg0 = d.mg0 := rfl
@[simp] theorem Dev.bump_mg1 (d : Dev) (a : Nat) : (d.bump a).mg1 = d.mg1 := rfl
@[simp] theorem Dev.bump_intPend (d : Dev) (a : Nat) : (d.bump a).intPend = d.intPend := rfl
@[simp] theorem Dev.bump_heads (d : Dev) (a : Nat) : (d.bump a).heads = d.heads := rfl
@[simp] theorem Dev.bump_fwd (d : Dev) (a : Nat) : (d.bump a).fwd = d.fwd := rfl
@[simp] theorem Dev.bump_store (d : Dev) (a : Nat) : (d.bump a).store = d.store := rfl
@[simp] theorem Dev.bump_tm (d : Dev) (a : Nat) : (d.bump a).tm = d.tm := rfl
@[simp] theorem Dev.bump_red (d : Dev) (a : Nat) : (d.bump a).red = d.red := rfl
@[simp] theorem Dev.bump_thr (d : Dev) (a : Nat) : (d.bump a).thr = d.thr := rfl
@[simp] theorem Dev.bump_mem (d : Dev) (a : Nat) : (d.bump a).mem = d.mem := rfl
@[simp] theorem Dev.bump_opt (d : Dev) (a : Nat) : (d.bump a).opt = d.opt := rfl
@[simp] theorem Dev.bump_ports (d : Dev) (a : Nat) : (d.bump a).ports = d.ports := rfl
@[simp] theorem Dev.bump_plan (d : Dev) (a : Nat) : (d.bump a).plan = d.plan := rfl
@[simp] theorem Dev.bump_autoRemap (d : Dev) (a : Nat) : (d.bump a).autoRemap = d.autoRemap := rfl
@[simp] theorem Dev.bump_faults (d : Dev) (a : Nat) : (d.bump a).faults = d.faults := rfl
@[simp] theorem Dev.bump_cnt (d : Dev) (a : Nat) : (d.bump a).cnt = d.cnt := rfl
@[simp] theorem Dev.bump_regs (d : Dev) (a : Nat) : (d.bump a).regs = d.regs := rfl
@[simp] theorem Dev.bump_free (d : Dev) (a : Nat) : (d.bump a).free = d.free := rfl
@[simp] theorem Dev.bump_out (d : Dev) (a : Nat) : (d.bump a).out = d.out := rfl

theorem Dev.setPort_shape (d : Dev) (p : Nat) (x : PortSt) :
    ∃ p', d.setPort p x = { d with ports := p' } := ⟨_, rfl⟩

@[simp] theorem Dev.setPort_now (d : Dev) (p : Nat) (x : PortSt) : (d.setPort p x).now = d.now := rfl
@[simp] theorem Dev.setPort_boot (d : Dev) (p : Nat) (x : PortSt) : (d.setPort p x).boot = d.boot := rfl
@[simp] theorem Dev.setPort_loopQ (d : Dev) (p : Nat) (x : PortSt) : (d.setPort p x).loopQ = d.loopQ := rfl
@[simp] theorem Dev.setPort_fuses (d : Dev) (p : Nat) (x : PortSt) : (d.setPort p x).fuses = d.fuses := rfl
@[simp] theorem Dev.setPort_clk (d : Dev) (p : Nat) (x : PortSt) : (d.setPort p x).clk = d.clk := rfl
@[simp] theorem Dev.setPort_time (d : Dev) (p : Nat) (x : PortSt) : (d.setPort p x).time = d.time := rfl
@[simp] theorem Dev.setPort_cmd (d : Dev) (p : Nat) (x : PortSt) : (d.setPort p x).cmd = d.cmd := rfl
@[simp] theorem Dev.setPort_hl (d : Dev) (p : Nat) (x : PortSt) : (d.setPort p x).hl = d.hl := rfl
@[simp] theorem Dev.setPort_mbx (d : Dev) (p : Nat) (x : PortSt) : (d.setPort p x).mbx = d.mbx := rfl
@[simp] theorem Dev.setPort_mg0 (d : Dev) (p : Nat) (x : PortSt) : (d.setPort p x).mg0 = d.mg0 := rfl
@[simp] theorem Dev.setPort_mg1 (d : Dev) (p : Nat) (x : PortSt) : (d.setPort p x).mg1 = d.mg1 := rfl
@[simp] theorem Dev.setPort_intPend (d : Dev) (p : Nat) (x : PortSt) : (d.setPort p x).intPend = d.intPend := rfl
@[simp] theorem Dev.setPort_heads (d : Dev) (p : Nat) (x : PortSt) : (d.setPort p x).heads = d.heads := rfl
@[simp] theorem Dev.setPort_fwd (d : Dev) (p : Nat) (x : PortSt) : (d.setPort p x).fwd = d.fwd := rfl
@[simp] theorem Dev.setPort_store (d : Dev) (p : Nat) (x : PortSt) : (d.setPort p x).store = d.store := rfl
@[simp] theorem Dev.setPort_tm (d : Dev) (p : Nat) (x : PortSt) : (d.setPort p x).tm = d.tm := rfl
@[simp] theorem Dev.setPort_red (d : Dev) (p : Nat) (x : PortSt) : (d.setPort p x).red = d.red := rfl
@[simp] theorem Dev.setPort_thr (d : Dev) (p : Nat) (x : PortSt) : (d.setPort p x).thr = d.thr := rfl
@[simp] theorem Dev.setPort_mem (d : Dev) (p : Nat) (x : PortSt) : (d.setPort p x).mem = d.mem := rfl
@[simp] theorem Dev.setPort_opt (d : Dev) (p : Nat) (x : PortSt) : (d.setPort p x).opt = d.opt := rfl
@[simp] theorem Dev.setPort_plan (d : Dev) (p : Nat) (x : PortSt) : (d.setPort p x).plan = d.plan := rfl
@[simp] theorem Dev.setPort_autoRemap (d : Dev) (p : Nat) (x : PortSt) : (d.setPort p x).autoRemap = d.autoRemap := rfl
@[simp] theorem Dev.setPort_faults (d : Dev) (p : Nat) (x : PortSt) : (d.setPort p x).faults = d.faults := rfl
@[simp] theorem Dev.setPort_cnt (d : Dev) (p : Nat) (x : PortSt) : (d.setPort p x).cnt = d.cnt := rfl
@[simp] theorem Dev.setPort_regs (d : Dev) (p : Nat) (x : PortSt) : (d.setPort p x).regs = d.regs := rfl
@[simp] theorem Dev.setPort_ctrs (d : Dev) (p : Nat) (x : PortSt) : (d.setPort p x).ctrs = d.ctrs := rfl
@[simp] theorem Dev.setPort_free (d : Dev) (p : Nat) (x : PortSt) : (d.setPort p x).free = d.free := rfl
@[simp] theorem Dev.setPort_out (d : Dev) (p : Nat) (x : PortSt) : (d.setPort p x).out = d.out := rfl

theorem Dev.setCtx_shape (d : Dev) (c : Nat) (x : Ctx) :
    ∃ r', d.setCtx c x = { d with red := r' } := ⟨_, rfl⟩

@[simp] theorem Dev.setCtx_now (d : Dev) (c : Nat) (x : Ctx) : (d.setCtx c x).now = d.now := rfl
@[simp] theorem Dev.setCtx_boot (d : Dev) (c : Nat) (x : Ctx) : (d.setCtx c x).boot = d.boot := rfl
@[simp] theorem Dev.setCtx_loopQ (d : Dev) (c : Nat) (x : Ctx) : (d.setCtx c x).loopQ = d.loopQ := rfl
@[simp] theorem Dev.setCtx_fuses (d : Dev) (c : Nat) (x : Ctx) : (d.setCtx c x).fuses = d.fuses := rfl
@[simp] theorem Dev.setCtx_clk (d : Dev) (c : Nat) (x : Ctx) : (d.setCtx c x).clk = d.clk := rfl
@[simp] theorem Dev.setCtx_time (d : Dev) (c : Nat) (x : Ctx) : (d.setCtx c x).time = d.time := rfl
@[simp] theorem Dev.setCtx_cmd (d : Dev) (c : Nat) (x : Ctx) : (d.setCtx c x).cmd = d.cmd := rfl
@[simp] theorem Dev.setCtx_hl (d : Dev) (c : Nat) (x : Ctx) : (d.setCtx c x).hl = d.hl := rfl
@[simp] theorem Dev.setCtx_mbx (d : Dev) (c : Nat) (x : Ctx) : (d.setCtx c x).mbx = d.mbx := rfl
@[simp] theorem Dev.setCtx_mg0 (d : Dev) (c : Nat) (x : Ctx) : (d.setCtx c x).mg0 = d.mg0 := rfl
@[simp] theorem Dev.setCtx_mg1 (d : Dev) (c : Nat) (x : Ctx) : (d.setCtx c x).mg1 = d.mg1 := rfl
@[simp] theorem Dev.setCtx_intPend (d : Dev) (c : Nat) (x : Ctx) : (d.setCtx c x).intPend = d.intPend := rfl
@[simp] theorem Dev.setCtx_heads (d : Dev) (c : Nat) (x : Ctx) : (d.setCtx c x).heads = d.heads := rfl
@[simp] theorem Dev.setCtx_fwd (d : Dev) (c : Nat) (x : Ctx) : (d.setCtx c x).fwd = d.fwd := rfl
@[simp] theorem Dev.setCtx_store (d : Dev) (c : Nat) (x : Ctx) : (d.setCtx c x).store = d.store := rfl
@[simp] theorem Dev.setCtx_tm (d : Dev) (c : Nat) (x : Ctx) : (d.setCtx c x).tm = d.tm := rfl
@[simp] theorem Dev.setCtx_thr (d : Dev) (c : Nat) (x : Ctx) : (d.setCtx c x).thr = d.thr := rfl
@[simp] theorem Dev.setCtx_mem (d : Dev) (c : Nat) (x : Ctx) : (d.setCtx c x).mem = d.mem := rfl
@[simp] theorem Dev.setCtx_opt (d : Dev) (c : Nat) (x : Ctx) : (d.setCtx c x).opt = d.opt := rfl
@[simp] theorem Dev.setCtx_ports (d : Dev) (c : Nat) (x : Ctx) : (d.setCtx c x).ports = d.ports := rfl
@[simp] theorem Dev.setCtx_plan (d : Dev) (c : Nat) (x : Ctx) : (d.setCtx c x).plan = d.plan := rfl
@[simp] theorem Dev.setCtx_autoRemap (d : Dev) (c : Nat) (x : Ctx) : (d.setCtx c x).autoRemap = d.autoRemap := rfl
@[simp] theorem Dev.setCtx_faults (d : Dev) (c : Nat) (x : Ctx) : (d.setCtx c x).faults = d.faults := rfl
@[simp] theorem Dev.setCtx_cnt (d : Dev) (c : Nat) (x : Ctx) : (d.setCtx c x).cnt = d.cnt := rfl
@[simp] theorem Dev.setCtx_regs (d : Dev) (c : Nat) (x : Ctx) : (d.setCtx c x).regs = d.regs := rfl
@[simp] theorem Dev.setCtx_ctrs (d : Dev) (c : Nat) (x : Ctx) : (d.setCtx c x).ctrs = d.ctrs := rfl
@[simp] theorem Dev.setCtx_free (d : Dev) (c : Nat) (x : Ctx) : (d.setCtx c x).free = d.free := rfl
@[simp] theorem Dev.setCtx_out (d : Dev) (c : Nat) (x : Ctx) : (d.setCtx c x).out = d.out := rfl

theorem Dev.freePlace_shape (d : Dev) (c : CmdCtx) (op : Nat) :
    ∃ c', d.freePlace c op = { d with cmd := c' } := ⟨_, rfl⟩

@[simp] theorem Dev.freePlace_now (d : Dev) (c : CmdCtx) (op : Nat) : (d.freePlace c op).now = d.now := rfl
@[simp] theorem Dev.freePlace_boot (d : Dev) (c : CmdCtx) (op : Nat) : (d.freePlace c op).boot = d.boot := rfl
@[simp] theorem Dev.freePlace_loopQ (d : Dev) (c : CmdCtx) (op : Nat) : (d.freePlace c op).loopQ = d.loopQ := rfl
@[simp] theorem Dev.freePlace_fuses (d : Dev) (c : CmdCtx) (op : Nat) : (d.freePlace c op).fuses = d.fuses := rfl
@[simp] theorem Dev.freePlace_clk (d : Dev) (c : CmdCtx) (op : Nat) : (d.freePlace c op).clk = d.clk := rfl
@[simp] theorem Dev.freePlace_time (d : Dev) (c : CmdCtx) (op : Nat) : (d.freePlace c op).time = d.time := rfl
@[simp] theorem Dev.freePlace_hl (d : Dev) (c : CmdCtx) (op : Nat) : (d.freePlace c op).hl = d.hl := rfl
@[simp] theorem Dev.freePlace_mbx (d : Dev) (c : CmdCtx) (op : Nat) : (d.freePlace c op).mbx = d.mbx := rfl
@[simp] theorem Dev.freePlace_mg0 (d : Dev) (c : CmdCtx) (op : Nat) : (d.freePlace c op).mg0 = d.mg0 := rfl
@[simp] theorem Dev.freePlace_mg1 (d : Dev) (c : CmdCtx) (op : Nat) : (d.freePlace c op).mg1 = d.mg1 := rfl
@[simp] theorem Dev.freePlace_intPend (d : Dev) (c : CmdCtx) (op : Nat) : (d.freePlace c op).intPend = d.intPend := rfl
@[simp] theorem Dev.freePlace_heads (d : Dev) (c : CmdCtx) (op : Nat) : (d.freePlace c op).heads = d.heads := rfl
@[simp] theorem Dev.freePlace_fwd (d : Dev) (c : CmdCtx) (op : Nat) : (d.freePlace c op).fwd = d.fwd := rfl
@[simp] theorem Dev.freePlace_store (d : Dev) (c : CmdCtx) (op : Nat) : (d.freePlace c op).store = d.store := rfl
@[simp] theorem Dev.freePlace_tm (d : Dev) (c : CmdCtx) (op : Nat) : (d.freePlace c op).tm = d.tm := rfl
@[simp] theorem Dev.freePlace_red (d : Dev) (c : CmdCtx) (op : Nat) : (d.freePlace c op).red = d.red := rfl
@[simp] theorem Dev.freePlace_thr (d : Dev) (c : CmdCtx) (op : Nat) : (d.freePlace c op).thr = d.thr := rfl
@[simp] theorem Dev.freePlace_mem (d : Dev) (c : CmdCtx) (op : Nat) : (d.freePlace c op).mem = d.mem := rfl
@[simp] theorem Dev.freePlace_opt (d : Dev) (c : CmdCtx) (op : Nat) : (d.freePlace c op).opt = d.opt := rfl
@[simp] theorem Dev.freePlace_ports (d : Dev) (c : CmdCtx) (op : Nat) : (d.freePlace c op).ports = d.ports := rfl
@[simp] theorem Dev.freePlace_plan (d : Dev) (c : CmdCtx) (op : Nat) : (d.freePlace c op).plan = d.plan := rfl
@[simp] theorem Dev.freePlace_autoRemap (d : Dev) (c : CmdCtx) (op : Nat) : (d.freePlace c op).autoRemap = d.autoRemap := rfl
@[simp] theorem Dev.freePlace_faults (d : Dev) (c : CmdCtx) (op : Nat) : (d.freePlace c op).faults = d.faults := rfl
@[simp] theorem Dev.freePlace_cnt (d : Dev) (c : CmdCtx) (op : Nat) : (d.freePlace c op).cnt = d.cnt := rfl
@[simp] theorem Dev.freePlace_regs (d : Dev) (c : CmdCtx) (op : Nat) : (d.freePlace c op).regs = d.regs := rfl
@[simp] theorem Dev.freePlace_ctrs (d : Dev) (c : CmdCtx) (op : Nat) : (d.freePlace c op).ctrs = d.ctrs := rfl
@[simp] theorem Dev.freePlace_free (d : Dev) (c : CmdCtx) (op : Nat) : (d.freePlace c op).free = d.free := rfl
@[simp] theorem Dev.freePlace_out (d : Dev) (c : CmdCtx) (op : Nat) : (d.freePlace c op).out = d.out := rfl

theorem Dev.touch_shape (d : Dev) (c : CmdCtx) :
    ∃ c', d.touch c = { d with cmd := c' } := ⟨_, rfl⟩

@[simp] theorem Dev.touch_now (d : Dev) (c : CmdCtx) : (d.touch c).now = d.now := by
  obtain ⟨_, h⟩ := Dev.touch_shape d c; rw [h]
@[simp] theorem Dev.touch_boot (d : Dev) (c : CmdCtx) : (d.touch c).boot = d.boot := by
  obtain ⟨_, h⟩ := Dev.touch_shape d c; rw [h]
@[simp] theorem Dev.touch_loopQ (d : Dev) (c : CmdCtx) : (d.touch c).loopQ = d.loopQ := by
  obtain ⟨_, h⟩ := Dev.touch_shape d c; rw [h]
@[simp] theorem Dev.touch_fuses (d : Dev) (c : CmdCtx) : (d.touch c).fuses = d.fuses := by
  obtain ⟨_, h⟩ := Dev.touch_shape d c; rw [h]
@[simp] theorem Dev.touch_clk (d : Dev) (c : CmdCtx) : (d.touch c).clk = d.clk := by
  obtain ⟨_, h⟩ := Dev.touch_shape d c; rw [h]
@[simp] theorem Dev.touch_time (d : Dev) (c : CmdCtx) : (d.touch c).time = d.time := by
  obtain ⟨_, h⟩ := Dev.touch_shape d c; rw [h]
@[simp] theorem Dev.touch_hl (d : Dev) (c : CmdCtx) : (d.touch c).hl = d.hl := by
  obtain ⟨_, h⟩ := Dev.touch_shape d c; rw [h]
@[simp] theorem Dev.touch_mbx (d : Dev) (c : CmdCtx) : (d.touch c).mbx = d.mbx := by
  obtain ⟨_, h⟩ := Dev.touch_shape d c; rw [h]
@[simp] theorem Dev.touch_mg0 (d : Dev) (c : CmdCtx) : (d.touch c).mg0 = d.mg0 := by
  obtain ⟨_, h⟩ := Dev.touch_shape d c; rw [h]
@[simp] theorem Dev.touch_mg1 (d : Dev) (c : CmdCtx) : (d.touch c).mg1 = d.mg1 := by
  obtain ⟨_, h⟩ := Dev.touch_shape d c; rw [h]
@[simp] theorem Dev.touch_intPend (d : Dev) (c : CmdCtx) : (d.touch c).intPend = d.intPend := by
  obtain ⟨_, h⟩ := Dev.touch_shape d c; rw [h]
@[simp] theorem Dev.touch_heads (d : Dev) (c : CmdCtx) : (d.touch c).heads = d.heads := by
  obtain ⟨_, h⟩ := Dev.touch_shape d c; rw [h]
@[simp] theorem Dev.touch_fwd (d : Dev) (c : CmdCtx) : (d.touch c).fwd = d.fwd := by
  obtain ⟨_, h⟩ := Dev.touch_shape d c; rw [h]
@[simp] theorem Dev.touch_store (d : Dev) (c : CmdCtx) : (d.touch c).store = d.store := by
  obtain ⟨_, h⟩ := Dev.touch_shape d c; rw [h]
@[simp] theorem Dev.touch_tm (d : Dev) (c : CmdCtx) : (d.touch c).tm = d.tm := by
  obtain ⟨_, h⟩ := Dev.touch_shape d c; rw [h]
@[simp] theorem Dev.touch_red (d : Dev) (c : CmdCtx) : (d.touch c).red = d.red := by
  obtain ⟨_, h⟩ := Dev.touch_shape d c; rw [h]
@[simp] theorem Dev.touch_thr (d : Dev) (c : CmdCtx) : (d.touch c).thr = d.thr := by
  obtain ⟨_, h⟩ := Dev.touch_shape d c; rw [h]
@[simp] theorem Dev.touch_mem (d : Dev) (c : CmdCtx) : (d.touch c).mem = d.mem := by
  obtain ⟨_, h⟩ := Dev.touch_shape d c; rw [h]
@[simp] theorem Dev.touch_opt (d : Dev) (c : CmdCtx) : (d.touch c).opt = d.opt := by
  obtain ⟨_, h⟩ := Dev.touch_shape d c; rw [h]
@[simp] theorem Dev.touch_ports (d : Dev) (c : CmdCtx) : (d.touch c).ports = d.ports := by
  obtain ⟨_, h⟩ := Dev.touch_shape d c; rw [h]
@[simp] theorem Dev.touch_plan (d : Dev) (c : CmdCtx) : (d.touch c).plan = d.plan := by
  obtain ⟨_, h⟩ := Dev.touch_shape d c; rw [h]
@[simp] theorem Dev.touch_autoRemap (d : Dev) (c : CmdCtx) : (d.touch c).autoRemap = d.autoRemap := by
  obtain ⟨_, h⟩ := Dev.touch_shape d c; rw [h]
@[simp] theorem Dev.touch_faults (d : Dev) (c : CmdCtx) : (d.touch c).faults = d.faults := by
  obtain ⟨_, h⟩ := Dev.touch_shape d c; rw [h]
@[simp] theorem Dev.touch_cnt (d : Dev) (c : CmdCtx) : (d.touch c).cnt = d.cnt := by
  obtain ⟨_, h⟩ := Dev.touch_shape d c; rw [h]
@[simp] theorem Dev.touch_regs (d : Dev) (c : CmdCtx) : (d.touch c).regs = d.regs := by
  obtain ⟨_, h⟩ := Dev.touch_shape d c; rw [h]
@[simp] theorem Dev.touch_ctrs (d : Dev) (c : CmdCtx) : (d.touch c).ctrs = d.ctrs := by
  obtain ⟨_, h⟩ := Dev.touch_shape d c; rw [h]
@[simp] theorem Dev.touch_free (d : Dev) (c : CmdCtx) : (d.touch c).free = d.free := by
  obtain ⟨_, h⟩ := Dev.touch_shape d c; rw [h]
@[simp] theorem Dev.touch_out (d : Dev) (c : CmdCtx) : (d.touch c).out = d.out := by
  obtain ⟨_, h⟩ := Dev.touch_shape d c; rw [h]

theorem Dev.sendInt_shape (d : Dev) (v : Nat) :
    ∃ o', d.sendInt v = { d with out := o' } := by unfold Dev.sendInt; split_ifs <;> exact ⟨_, rfl⟩

@[simp] theorem Dev.sendInt_now (d : Dev) (v : Nat) : (d.sendInt v).now = d.now := by
  obtain ⟨_, h⟩ := Dev.sendInt_shape d v; rw [h]
@[simp] theorem Dev.sendInt_boot (d : Dev) (v : Nat) : (d.sendInt v).boot = d.boot := by
  obtain ⟨_, h⟩ := Dev.sendInt_shape d v; rw [h]
@[simp] theorem Dev.sendInt_loopQ (d : Dev) (v : Nat) : (d.sendInt v).loopQ = d.loopQ := by
  obtain ⟨_, h⟩ := Dev.sendInt_shape d v; rw [h]
@[simp] theorem Dev.sendInt_fuses (d : Dev) (v : Nat) : (d.sendInt v).fuses = d.fuses := by
  obtain ⟨_, h⟩ := Dev.sendInt_shape d v; rw [h]
@[simp] theorem Dev.sendInt_clk (d : Dev) (v : Nat) : (d.sendInt v).clk = d.clk := by
  obtain ⟨_, h⟩ := Dev.sendInt_shape d v; rw [h]
@[simp] theorem Dev.sendInt_time (d : Dev) (v : Nat) : (d.sendInt v).time = d.time := by
  obtain ⟨_, h⟩ := Dev.sendInt_shape d v; rw [h]
@[simp] theorem Dev.sendInt_cmd (d : Dev) (v : Nat) : (d.sendInt v).cmd = d.cmd := by
  obtain ⟨_, h⟩ := Dev.sendInt_shape d v; rw [h]
@[simp] theorem Dev.sendInt_hl (d : Dev) (v : Nat) : (d.sendInt v).hl = d.hl := by
  obtain ⟨_, h⟩ := Dev.sendInt_shape d v; rw [h]
@[simp] theorem Dev.sendInt_mbx (d : Dev) (v : Nat) : (d.sendInt v).mbx = d.mbx := by
  obtain ⟨_, h⟩ := Dev.sendInt_shape d v; rw [h]
@[simp] theorem Dev.sendInt_mg0 (d : Dev) (v : Nat) : (d.sendInt v).mg0 = d.mg0 := by
  obtain ⟨_, h⟩ := Dev.sendInt_shape d v; rw [h]
@[simp] theorem Dev.sendInt_mg1 (d : Dev) (v : Nat) : (d.sendInt v).mg1 = d.mg1 := by
  obtain ⟨_, h⟩ := Dev.sendInt_shape d v; rw [h]
@[simp] theorem Dev.sendInt_intPend (d : Dev) (v : Nat) : (d.sendInt v).intPend = d.intPend := by
  obtain ⟨_, h⟩ := Dev.sendInt_shape d v; rw [h]
@[simp] theorem Dev.sendInt_heads (d : Dev) (v : Nat) : (d.sendInt v).heads = d.heads := by
  obtain ⟨_, h⟩ := Dev.sendInt_shape d v; rw [h]
@[simp] theorem Dev.sendInt_fwd (d : Dev) (v : Nat) : (d.sendInt v).fwd = d.fwd := by
  obtain ⟨_, h⟩ := Dev.sendInt_shape d v; rw [h]
@[simp] theorem Dev.sendInt_store (d : Dev) (v : Nat) : (d.sendInt v).store = d.store := by
  obtain ⟨_, h⟩ := Dev.sendInt_shape d v; rw [h]
@[simp] theorem Dev.sendInt_tm (d : Dev) (v : Nat) : (d.sendInt v).tm = d.tm := by
  obtain ⟨_, h⟩ := Dev.sendInt_shape d v; rw [h]
@[simp] theorem Dev.sendInt_red (d : Dev) (v : Nat) : (d.sendInt v).red = d.red := by
  obtain ⟨_, h⟩ := Dev.sendInt_shape d v; rw [h]
@[simp] theorem Dev.sendInt_thr (d : Dev) (v : Nat) : (d.sendInt v).thr = d.thr := by
  obtain ⟨_, h⟩ := Dev.sendInt_shape d v; rw [h]
@[simp] theorem Dev.sendInt_mem (d : Dev) (v : Nat) : (d.sendInt v).mem = d.mem := by
  obtain ⟨_, h⟩ := Dev.sendInt_shape d v; rw [h]
@[simp] theorem Dev.sendInt_opt (d : Dev) (v : Nat) : (d.sendInt v).opt = d.opt := by
  obtain ⟨_, h⟩ := Dev.sendInt_shape d v; rw [h]
@[simp] theorem Dev.sendInt_ports (d : Dev) (v : Nat) : (d.sendInt v).ports = d.ports := by
  obtain ⟨_, h⟩ := Dev.sendInt_shape d v; rw [h]
@[simp] theorem Dev.sendInt_plan (d : Dev) (v : Nat) : (d.sendInt v).plan = d.plan := by
  obtain ⟨_, h⟩ := Dev.sendInt_shape d v; rw [h]
@[simp] theorem Dev.sendInt_autoRemap (d : Dev) (v : Nat) : (d.sendInt v).autoRemap = d.autoRemap := by
  obtain ⟨_, h⟩ := Dev.sendInt_shape d v; rw [h]
@[simp] theorem Dev.sendInt_faults (d : Dev) (v : Nat) : (d.sendInt v).faults = d.faults := by
  obtain ⟨_, h⟩ := Dev.sendInt_shape d v; rw [h]
@[simp] theorem Dev.sendInt_cnt (d : Dev) (v : Nat) : (d.sendInt v).cnt = d.cnt := by
  obtain ⟨_, h⟩ := Dev.sendInt_shape d v; rw [h]
@[simp] theorem Dev.sendInt_regs (d : Dev) (v : Nat) : (d.sendInt v).regs = d.regs := by
  obtain ⟨_, h⟩ := Dev.sendInt_shape d v; rw [h]
@[simp] theorem Dev.sendInt_ctrs (d : Dev) (v : Nat) : (d.sendInt v).ctrs = d.ctrs := by
  obtain ⟨_, h⟩ := Dev.sendInt_shape d v; rw [h]
@[simp] theorem Dev.sendInt_free (d : Dev) (v : Nat) : (d.sendInt v).free = d.free := by
  obtain ⟨_, h⟩ := Dev.sendInt_shape d v; rw [h]

theorem Dev.raiseInt_shape (d : Dev) (v : Nat) :
    ∃ i' o', d.raiseInt v = { d with intPend := i', out := o' } := by
  unfold Dev.raiseInt
  dsimp only
  split_ifs
  · exact ⟨_, _, rfl⟩
  · exact ⟨_, _, rfl⟩
  · obtain ⟨o, h⟩ := Dev.sendInt_shape { d with intPend := d.intPend ||| BitVec.ofNat 64 (1 <<< v) } v
    exact ⟨_, o, h⟩

@[simp] theorem Dev.raiseInt_now (d : Dev) (v : Nat) : (d.raiseInt v).now = d.now := by
  obtain ⟨_, _, h⟩ := Dev.raiseInt_shape d v; rw [h]
@[simp] theorem Dev.raiseInt_boot (d : Dev) (v : Nat) : (d.raiseInt v).boot = d.boot := by
  obtain ⟨_, _, h⟩ := Dev.raiseInt_shape d v; rw [h]
@[simp] theorem Dev.raiseInt_loopQ (d : Dev) (v : Nat) : (d.raiseInt v).loopQ = d.loopQ := by
  obtain ⟨_, _, h⟩ := Dev.raiseInt_shape d v; rw [h]
@[simp] theorem Dev.raiseInt_fuses (d : Dev) (v : Nat) : (d.raiseInt v).fuses = d.fuses := by
  obtain ⟨_, _, h⟩ := Dev.raiseInt_shape d v; rw [h]
@[simp] theorem Dev.raiseInt_clk (d : Dev) (v : Nat) : (d.raiseInt v).clk = d.clk := by
  obtain ⟨_, _, h⟩ := Dev.raiseInt_shape d v; rw [h]
@[simp] theorem Dev.raiseInt_time (d : Dev) (v : Nat) : (d.raiseInt v).time = d.time := by
  obtain ⟨_, _, h⟩ := Dev.raiseInt_shape d v; rw [h]
@[simp] theorem Dev.raiseInt_cmd (d : Dev) (v : Nat) : (d.raiseInt v).cmd = d.cmd := by
  obtain ⟨_, _, h⟩ := Dev.raiseInt_shape d v; rw [h]
@[simp] theorem Dev.raiseInt_hl (d : Dev) (v : Nat) : (d.raiseInt v).hl = d.hl := by
  obtain ⟨_, _, h⟩ := Dev.raiseInt_shape d v; rw [h]
@[simp] theorem Dev.raiseInt_mbx (d : Dev) (v : Nat) : (d.raiseInt v).mbx = d.mbx := by
  obtain ⟨_, _, h⟩ := Dev.raiseInt_shape d v; rw [h]
@[simp] theorem Dev.raiseInt_mg0 (d : Dev) (v : Nat) : (d.raiseInt v).mg0 = d.mg0 := by
  obtain ⟨_, _, h⟩ := Dev.raiseInt_shape d v; rw [h]
@[simp] theorem Dev.raiseInt_mg1 (d : Dev) (v : Nat) : (d.raiseInt v).mg1 = d.mg1 := by
  obtain ⟨_, _, h⟩ := Dev.raiseInt_shape d v; rw [h]
@[simp] theorem Dev.raiseInt_heads (d : Dev) (v : Nat) : (d.raiseInt v).heads = d.heads := by
  obtain ⟨_, _, h⟩ := Dev.raiseInt_shape d v; rw [h]
@[simp] theorem Dev.raiseInt_fwd (d : Dev) (v : Nat) : (d.raiseInt v).fwd = d.fwd := by
  obtain ⟨_, _, h⟩ := Dev.raiseInt_shape d v; rw [h]
@[simp] theorem Dev.raiseInt_store (d : Dev) (v : Nat) : (d.raiseInt v).store = d.store := by
  obtain ⟨_, _, h⟩ := Dev.raiseInt_shape d v; rw [h]
@[simp] theorem Dev.raiseInt_tm (d : Dev) (v : Nat) : (d.raiseInt v).tm = d.tm := by
  obtain ⟨_, _, h⟩ := Dev.raiseInt_shape d v; rw [h]
@[simp] theorem Dev.raiseInt_red (d : Dev) (v : Nat) : (d.raiseInt v).red = d.red := by
  obtain ⟨_, _, h⟩ := Dev.raiseInt_shape d v; rw [h]
@[simp] theorem Dev.raiseInt_thr (d : Dev) (v : Nat) : (d.raiseInt v).thr = d.thr := by
  obtain ⟨_, _, h⟩ := Dev.raiseInt_shape d v; rw [h]
@[simp] theorem Dev.raiseInt_mem (d : Dev) (v : Nat) : (d.raiseInt v).mem = d.mem := by
  obtain ⟨_, _, h⟩ := Dev.raiseInt_shape d v; rw [h]
@[simp] theorem Dev.raiseInt_opt (d : Dev) (v : Nat) : (d.raiseInt v).opt = d.opt := by
  obtain ⟨_, _, h⟩ := Dev.raiseInt_shape d v; rw [h]
@[simp] theorem Dev.raiseInt_ports (d : Dev) (v : Nat) : (d.raiseInt v).ports = d.ports := by
  obtain ⟨_, _, h⟩ := Dev.raiseInt_shape d v; rw [h]
@[simp] theorem Dev.raiseInt_plan (d : Dev) (v : Nat) : (d.raiseInt v).plan = d.plan := by
  obtain ⟨_, _, h⟩ := Dev.raiseInt_shape d v; rw [h]
@[simp] theorem Dev.raiseInt_autoRemap (d : Dev) (v : Nat) : (d.raiseInt v).autoRemap = d.autoRemap := by
  obtain ⟨_, _, h⟩ := Dev.raiseInt_shape d v; rw [h]
@[simp] theorem Dev.raiseInt_faults (d : Dev) (v : Nat) : (d.raiseInt v).faults = d.faults := by
  obtain ⟨_, _, h⟩ := Dev.raiseInt_shape d v; rw [h]
@[simp] theorem Dev.raiseInt_cnt (d : Dev) (v : Nat) : (d.raiseInt v).cnt = d.cnt := by
  obtain ⟨_, _, h⟩ := Dev.raiseInt_shape d v; rw [h]
@[simp] theorem Dev.raiseInt_regs (d : Dev) (v : Nat) : (d.raiseInt v).regs = d.regs := by
  obtain ⟨_, _, h⟩ := Dev.raiseInt_shape d v; rw [h]
@[simp] theorem Dev.raiseInt_ctrs (d : Dev) (v : Nat) : (d.raiseInt v).ctrs = d.ctrs := by
  obtain ⟨_, _, h⟩ := Dev.raiseInt_shape d v; rw [h]
@[simp] theorem Dev.raiseInt_free (d : Dev) (v : Nat) : (d.raiseInt v).free = d.free := by
  obtain ⟨_, _, h⟩ := Dev.raiseInt_shape d v; rw [h]

theorem Dev.setEvDest_shape (d : Dev) (s : Source) (e : EvDest) :
    ∃ c', d.setEvDest s e = { d with cmd := c' } := by cases s <;> exact ⟨_, rfl⟩

@[simp] theorem Dev.setEvDest_now (d : Dev) (s : Source) (e : EvDest) : (d.setEvDest s e).now = d.now := by
  obtain ⟨_, h⟩ := Dev.setEvDest_shape d s e; rw [h]
@[simp] theorem Dev.setEvDest_boot (d : Dev) (s : Source) (e : EvDest) : (d.setEvDest s e).boot = d.boot := by
  obtain ⟨_, h⟩ := Dev.setEvDest_shape d s e; rw [h]
@[simp] theorem Dev.setEvDest_loopQ (d : Dev) (s : Source) (e : EvDest) : (d.setEvDest s e).loopQ = d.loopQ := by
  obtain ⟨_, h⟩ := Dev.setEvDest_shape d s e; rw [h]
@[simp] theorem Dev.setEvDest_fuses (d : Dev) (s : Source) (e : EvDest) : (d.setEvDest s e).fuses = d.fuses := by
  obtain ⟨_, h⟩ := Dev.setEvDest_shape d s e; rw [h]
@[simp] theorem Dev.setEvDest_clk (d : Dev) (s : Source) (e : EvDest) : (d.setEvDest s e).clk = d.clk := by
  obtain ⟨_, h⟩ := Dev.setEvDest_shape d s e; rw [h]
@[simp] theorem Dev.setEvDest_time (d : Dev) (s : Source) (e : EvDest) : (d.setEvDest s e).time = d.time := by
  obtain ⟨_, h⟩ := Dev.setEvDest_shape d s e; rw [h]
@[simp] theorem Dev.setEvDest_hl (d : Dev) (s : Source) (e : EvDest) : (d.setEvDest s e).hl = d.hl := by
  obtain ⟨_, h⟩ := Dev.setEvDest_shape d s e; rw [h]
@[simp] theorem Dev.setEvDest_mbx (d : Dev) (s : Source) (e : EvDest) : (d.setEvDest s e).mbx = d.mbx := by
  obtain ⟨_, h⟩ := Dev.setEvDest_shape d s e; rw [h]
@[simp] theorem Dev.setEvDest_mg0 (d : Dev) (s : Source) (e : EvDest) : (d.setEvDest s e).mg0 = d.mg0 := by
  obtain ⟨_, h⟩ := Dev.setEvDest_shape d s e; rw [h]
@[simp] theorem Dev.setEvDest_mg1 (d : Dev) (s : Source) (e : EvDest) : (d.setEvDest s e).mg1 = d.mg1 := by
  obtain ⟨_, h⟩ := Dev.setEvDest_shape d s e; rw [h]
@[simp] theorem Dev.setEvDest_intPend (d : Dev) (s : Source) (e : EvDest) : (d.setEvDest s e).intPend = d.intPend := by
  obtain ⟨_, h⟩ := Dev.setEvDest_shape d s e; rw [h]
@[simp] theorem Dev.setEvDest_heads (d : Dev) (s : Source) (e : EvDest) : (d.setEvDest s e).heads = d.heads := by
  obtain ⟨_, h⟩ := Dev.setEvDest_shape d s e; rw [h]
@[simp] theorem Dev.setEvDest_fwd (d : Dev) (s : Source) (e : EvDest) : (d.setEvDest s e).fwd = d.fwd := by
  obtain ⟨_, h⟩ := Dev.setEvDest_shape d s e; rw [h]
@[simp] theorem Dev.setEvDest_store (d : Dev) (s : Source) (e : EvDest) : (d.setEvDest s e).store = d.store := by
  obtain ⟨_, h⟩ := Dev.setEvDest_shape d s e; rw [h]
@[simp] theorem Dev.setEvDest_tm (d : Dev) (s : Source) (e : EvDest) : (d.setEvDest s e).tm = d.tm := by
  obtain ⟨_, h⟩ := Dev.setEvDest_shape d s e; rw [h]
@[simp] theorem Dev.setEvDest_red (d : Dev) (s : Source) (e : EvDest) : (d.setEvDest s e).red = d.red := by
  obtain ⟨_, h⟩ := Dev.setEvDest_shape d s e; rw [h]
@[simp] theorem Dev.setEvDest_thr (d : Dev) (s : Source) (e : EvDest) : (d.setEvDest s e).thr = d.thr := by
  obtain ⟨_, h⟩ := Dev.setEvDest_shape d s e; rw [h]
@[simp] theorem Dev.setEvDest_mem (d : Dev) (s : Source) (e : EvDest) : (d.setEvDest s e).mem = d.mem := by
  obtain ⟨_, h⟩ := Dev.setEvDest_shape d s e; rw [h]
@[simp] theorem Dev.setEvDest_opt (d : Dev) (s : Source) (e : EvDest) : (d.setEvDest s e).opt = d.opt := by
  obtain ⟨_, h⟩ := Dev.setEvDest_shape d s e; rw [h]
@[simp] theorem Dev.setEvDest_ports (d : Dev) (s : Source) (e : EvDest) : (d.setEvDest s e).ports = d.ports := by
  obtain ⟨_, h⟩ := Dev.setEvDest_shape d s e; rw [h]
@[simp] theorem Dev.setEvDest_plan (d : Dev) (s : Source) (e : EvDest) : (d.setEvDest s e).plan = d.plan := by
  obtain ⟨_, h⟩ := Dev.setEvDest_shape d s e; rw [h]
@[simp] theorem Dev.setEvDest_autoRemap (d : Dev) (s : Source) (e : EvDest) : (d.setEvDest s e).autoRemap = d.autoRemap := by
  obtain ⟨_, h⟩ := Dev.setEvDest_shape d s e; rw [h]
@[simp] theorem Dev.setEvDest_faults (d : Dev) (s : Source) (e : EvDest) : (d.setEvDest s e).faults = d.faults := by
  obtain ⟨_, h⟩ := Dev.setEvDest_shape d s e; rw [h]
@[simp] theorem Dev.setEvDest_cnt (d : Dev) (s : Source) (e : EvDest) : (d.setEvDest s e).cnt = d.cnt := by
  obtain ⟨_, h⟩ := Dev.setEvDest_shape d s e; rw [h]
@[simp] theorem Dev.setEvDest_regs (d : Dev) (s : Source) (e : EvDest) : (d.setEvDest s e).regs = d.regs := by
  obtain ⟨_, h⟩ := Dev.setEvDest_shape d s e; rw [h]
@[simp] theorem Dev.setEvDest_ctrs (d : Dev) (s : Source) (e : EvDest) : (d.setEvDest s e).ctrs = d.ctrs := by
  obtain ⟨_, h⟩ := Dev.setEvDest_shape d s e; rw [h]
@[simp] theorem Dev.setEvDest_free (d : Dev) (s : Source) (e : EvDest) : (d.setEvDest s e).free = d.free := by
  obtain ⟨_, h⟩ := Dev.setEvDest_shape d s e; rw [h]
@[simp] theorem Dev.setEvDest_out (d : Dev) (s : Source) (e : EvDest) : (d.setEvDest s e).out = d.out := by
  obtain ⟨_, h⟩ := Dev.setEvDest_shape d s e; rw [h]

theorem Dev.eventTo_shape (d : Dev) (e : Ev) (s : Source) :
    ∃ c', d.eventTo e s = { d with cmd := c' } := by
  unfold Dev.eventTo
  dsimp only
  split_ifs
  · exact ⟨_, rfl⟩
  · exact Dev.setEvDest_shape d s _
  · exact Dev.setEvDest_shape d s _

@[simp] theorem Dev.eventTo_now (d : Dev) (e : Ev) (s : Source) : (d.eventTo e s).now = d.now := by
  obtain ⟨_, h⟩ := Dev.eventTo_shape d e s; rw [h]
@[simp] theorem Dev.eventTo_boot (d : Dev) (e : Ev) (s : Source) : (d.eventTo e s).boot = d.boot := by
  obtain ⟨_, h⟩ := Dev.eventTo_shape d e s; rw [h]
@[simp] theorem Dev.eventTo_loopQ (d : Dev) (e : Ev) (s : Source) : (d.eventTo e s).loopQ = d.loopQ := by
  obtain ⟨_, h⟩ := Dev.eventTo_shape d e s; rw [h]
@[simp] theorem Dev.eventTo_fuses (d : Dev) (e : Ev) (s : Source) : (d.eventTo e s).fuses = d.fuses := by
  obtain ⟨_, h⟩ := Dev.eventTo_shape d e s; rw [h]
@[simp] theorem Dev.eventTo_clk (d : Dev) (e : Ev) (s : Source) : (d.eventTo e s).clk = d.clk := by
  obtain ⟨_, h⟩ := Dev.eventTo_shape d e s; rw [h]
@[simp] theorem Dev.eventTo_time (d : Dev) (e : Ev) (s : Source) : (d.eventTo e s).time = d.time := by
  obtain ⟨_, h⟩ := Dev.eventTo_shape d e s; rw [h]
@[simp] theorem Dev.eventTo_hl (d : Dev) (e : Ev) (s : Source) : (d.eventTo e s).hl = d.hl := by
  obtain ⟨_, h⟩ := Dev.eventTo_shape d e s; rw [h]
@[simp] theorem Dev.eventTo_mbx (d : Dev) (e : Ev) (s : Source) : (d.eventTo e s).mbx = d.mbx := by
  obtain ⟨_, h⟩ := Dev.eventTo_shape d e s; rw [h]
@[simp] theorem Dev.eventTo_mg0 (d : Dev) (e : Ev) (s : Source) : (d.eventTo e s).mg0 = d.mg0 := by
  obtain ⟨_, h⟩ := Dev.eventTo_shape d e s; rw [h]
@[simp] theorem Dev.eventTo_mg1 (d : Dev) (e : Ev) (s : Source) : (d.eventTo e s).mg1 = d.mg1 := by
  obtain ⟨_, h⟩ := Dev.eventTo_shape d e s; rw [h]
@[simp] theorem Dev.eventTo_intPend (d : Dev) (e : Ev) (s : Source) : (d.eventTo e s).intPend = d.intPend := by
  obtain ⟨_, h⟩ := Dev.eventTo_shape d e s; rw [h]
@[simp] theorem Dev.eventTo_heads (d : Dev) (e : Ev) (s : Source) : (d.eventTo e s).heads = d.heads := by
  obtain ⟨_, h⟩ := Dev.eventTo_shape d e s; rw [h]
@[simp] theorem Dev.eventTo_fwd (d : Dev) (e : Ev) (s : Source) : (d.eventTo e s).fwd = d.fwd := by
  obtain ⟨_, h⟩ := Dev.eventTo_shape d e s; rw [h]
@[simp] theorem Dev.eventTo_store (d : Dev) (e : Ev) (s : Source) : (d.eventTo e s).store = d.store := by
  obtain ⟨_, h⟩ := Dev.eventTo_shape d e s; rw [h]
@[simp] theorem Dev.eventTo_tm (d : Dev) (e : Ev) (s : Source) : (d.eventTo e s).tm = d.tm := by
  obtain ⟨_, h⟩ := Dev.eventTo_shape d e s; rw [h]
@[simp] theorem Dev.eventTo_red (d : Dev) (e : Ev) (s : Source) : (d.eventTo e s).red = d.red := by
  obtain ⟨_, h⟩ := Dev.eventTo_shape d e s; rw [h]
@[simp] theorem Dev.eventTo_thr (d : Dev) (e : Ev) (s : Source) : (d.eventTo e s).thr = d.thr := by
  obtain ⟨_, h⟩ := Dev.eventTo_shape d e s; rw [h]
@[simp] theorem Dev.eventTo_mem (d : Dev) (e : Ev) (s : Source) : (d.eventTo e s).mem = d.mem := by
  obtain ⟨_, h⟩ := Dev.eventTo_shape d e s; rw [h]
@[simp] theorem Dev.eventTo_opt (d : Dev) (e : Ev) (s : Source) : (d.eventTo e s).opt = d.opt := by
  obtain ⟨_, h⟩ := Dev.eventTo_shape d e s; rw [h]
@[simp] theorem Dev.eventTo_ports (d : Dev) (e : Ev) (s : Source) : (d.eventTo e s).ports = d.ports := by
  obtain ⟨_, h⟩ := Dev.eventTo_shape d e s; rw [h]
@[simp] theorem Dev.eventTo_plan (d : Dev) (e : Ev) (s : Source) : (d.eventTo e s).plan = d.plan := by
  obtain ⟨_, h⟩ := Dev.eventTo_shape d e s; rw [h]
@[simp] theorem Dev.eventTo_autoRemap (d : Dev) (e : Ev) (s : Source) : (d.eventTo e s).autoRemap = d.autoRemap := by
  obtain ⟨_, h⟩ := Dev.eventTo_shape d e s; rw [h]
@[simp] theorem Dev.eventTo_faults (d : Dev) (e : Ev) (s : Source) : (d.eventTo e s).faults = d.faults := by
  obtain ⟨_, h⟩ := Dev.eventTo_shape d e s; rw [h]
@[simp] theorem Dev.eventTo_cnt (d : Dev) (e : Ev) (s : Source) : (d.eventTo e s).cnt = d.cnt := by
  obtain ⟨_, h⟩ := Dev.eventTo_shape d e s; rw [h]
@[simp] theorem Dev.eventTo_regs (d : Dev) (e : Ev) (s : Source) : (d.eventTo e s).regs = d.regs := by
  obtain ⟨_, h⟩ := Dev.eventTo_shape d e s; rw [h]
@[simp] theorem Dev.eventTo_ctrs (d : Dev) (e : Ev) (s : Source) : (d.eventTo e s).ctrs = d.ctrs := by
  obtain ⟨_, h⟩ := Dev.eventTo_shape d e s; rw [h]
@[simp] theorem Dev.eventTo_free (d : Dev) (e : Ev) (s : Source) : (d.eventTo e s).free = d.free := by
  obtain ⟨_, h⟩ := Dev.eventTo_shape d e s; rw [h]
@[simp] theorem Dev.eventTo_out (d : Dev) (e : Ev) (s : Source) : (d.eventTo e s).out = d.out := by
  obtain ⟨_, h⟩ := Dev.eventTo_shape d e s; rw [h]

theorem Dev.event_shape (d : Dev) (e : Ev) :
    ∃ c', d.event e = { d with cmd := c' } := by
  unfold Dev.event
  split_ifs
  · obtain ⟨a, ha⟩ := Dev.eventTo_shape d e .howlink
    obtain ⟨b, hb⟩ := Dev.eventTo_shape (d.eventTo e .howlink) e .mg0
    obtain ⟨c, hc⟩ := Dev.eventTo_shape ((d.eventTo e .howlink).eventTo e .mg0) e .mg1
    exact ⟨c, by rw [hc, hb, ha]⟩
  · exact ⟨_, rfl⟩

@[simp] theorem Dev.event_now (d : Dev) (e : Ev) : (d.event e).now = d.now := by
  obtain ⟨_, h⟩ := Dev.event_shape d e; rw [h]
@[simp] theorem Dev.event_boot (d : Dev) (e : Ev) : (d.event e).boot = d.boot := by
  obtain ⟨_, h⟩ := Dev.event_shape d e; rw [h]
@[simp] theorem Dev.event_loopQ (d : Dev) (e : Ev) : (d.event e).loopQ = d.loopQ := by
  obtain ⟨_, h⟩ := Dev.event_shape d e; rw [h]
@[simp] theorem Dev.event_fuses (d : Dev) (e : Ev) : (d.event e).fuses = d.fuses := by
  obtain ⟨_, h⟩ := Dev.event_shape d e; rw [h]
@[simp] theorem Dev.event_clk (d : Dev) (e : Ev) : (d.event e).clk = d.clk := by
  obtain ⟨_, h⟩ := Dev.event_shape d e; rw [h]
@[simp] theorem Dev.event_time (d : Dev) (e : Ev) : (d.event e).time = d.time := by
  obtain ⟨_, h⟩ := Dev.event_shape d e; rw [h]
@[simp] theorem Dev.event_hl (d : Dev) (e : Ev) : (d.event e).hl = d.hl := by
  obtain ⟨_, h⟩ := Dev.event_shape d e; rw [h]
@[simp] theorem Dev.event_mbx (d : Dev) (e : Ev) : (d.event e).mbx = d.mbx := by
  obtain ⟨_, h⟩ := Dev.event_shape d e; rw [h]
@[simp] theorem Dev.event_mg0 (d : Dev) (e : Ev) : (d.event e).mg0 = d.mg0 := by
  obtain ⟨_, h⟩ := Dev.event_shape d e; rw [h]
@[simp] theorem Dev.event_mg1 (d : Dev) (e : Ev) : (d.event e).mg1 = d.mg1 := by
  obtain ⟨_, h⟩ := Dev.event_shape d e; rw [h]
@[simp] theorem Dev.event_intPend (d : Dev) (e : Ev) : (d.event e).intPend = d.intPend := by
  obtain ⟨_, h⟩ := Dev.event_shape d e; rw [h]
@[simp] theorem Dev.event_heads (d : Dev) (e : Ev) : (d.event e).heads = d.heads := by
  obtain ⟨_, h⟩ := Dev.event_shape d e; rw [h]
@[simp] theorem Dev.event_fwd (d : Dev) (e : Ev) : (d.event e).fwd = d.fwd := by
  obtain ⟨_, h⟩ := Dev.event_shape d e; rw [h]
@[simp] theorem Dev.event_store (d : Dev) (e : Ev) : (d.event e).store = d.store := by
  obtain ⟨_, h⟩ := Dev.event_shape d e; rw [h]
@[simp] theorem Dev.event_tm (d : Dev) (e : Ev) : (d.event e).tm = d.tm := by
  obtain ⟨_, h⟩ := Dev.event_shape d e; rw [h]
@[simp] theorem Dev.event_red (d : Dev) (e : Ev) : (d.event e).red = d.red := by
  obtain ⟨_, h⟩ := Dev.event_shape d e; rw [h]
@[simp] theorem Dev.event_thr (d : Dev) (e : Ev) : (d.event e).thr = d.thr := by
  obtain ⟨_, h⟩ := Dev.event_shape d e; rw [h]
@[simp] theorem Dev.event_mem (d : Dev) (e : Ev) : (d.event e).mem = d.mem := by
  obtain ⟨_, h⟩ := Dev.event_shape d e; rw [h]
@[simp] theorem Dev.event_opt (d : Dev) (e : Ev) : (d.event e).opt = d.opt := by
  obtain ⟨_, h⟩ := Dev.event_shape d e; rw [h]
@[simp] theorem Dev.event_ports (d : Dev) (e : Ev) : (d.event e).ports = d.ports := by
  obtain ⟨_, h⟩ := Dev.event_shape d e; rw [h]
@[simp] theorem Dev.event_plan (d : Dev) (e : Ev) : (d.event e).plan = d.plan := by
  obtain ⟨_, h⟩ := Dev.event_shape d e; rw [h]
@[simp] theorem Dev.event_autoRemap (d : Dev) (e : Ev) : (d.event e).autoRemap = d.autoRemap := by
  obtain ⟨_, h⟩ := Dev.event_shape d e; rw [h]
@[simp] theorem Dev.event_faults (d : Dev) (e : Ev) : (d.event e).faults = d.faults := by
  obtain ⟨_, h⟩ := Dev.event_shape d e; rw [h]
@[simp] theorem Dev.event_cnt (d : Dev) (e : Ev) : (d.event e).cnt = d.cnt := by
  obtain ⟨_, h⟩ := Dev.event_shape d e; rw [h]
@[simp] theorem Dev.event_regs (d : Dev) (e : Ev) : (d.event e).regs = d.regs := by
  obtain ⟨_, h⟩ := Dev.event_shape d e; rw [h]
@[simp] theorem Dev.event_ctrs (d : Dev) (e : Ev) : (d.event e).ctrs = d.ctrs := by
  obtain ⟨_, h⟩ := Dev.event_shape d e; rw [h]
@[simp] theorem Dev.event_free (d : Dev) (e : Ev) : (d.event e).free = d.free := by
  obtain ⟨_, h⟩ := Dev.event_shape d e; rw [h]
@[simp] theorem Dev.event_out (d : Dev) (e : Ev) : (d.event e).out = d.out := by
  obtain ⟨_, h⟩ := Dev.event_shape d e; rw [h]

theorem Dev.raiseFault_shape (d : Dev) (n : Word) (waits : Bool) :
    ∃ i' f' o', d.raiseFault n waits = { d with intPend := i', faults := f', out := o' } := by
  unfold Dev.raiseFault
  split_ifs
  · exact ⟨_, _, _, rfl⟩
  · obtain ⟨i, o, h⟩ := Dev.raiseInt_shape d 23
    exact ⟨i, _, o, h⟩

@[simp] theorem Dev.raiseFault_now (d : Dev) (n : Word) (waits : Bool) : (d.raiseFault n waits).now = d.now := by
  obtain ⟨_, _, _, h⟩ := Dev.raiseFault_shape d n waits; rw [h]
@[simp] theorem Dev.raiseFault_boot (d : Dev) (n : Word) (waits : Bool) : (d.raiseFault n waits).boot = d.boot := by
  obtain ⟨_, _, _, h⟩ := Dev.raiseFault_shape d n waits; rw [h]
@[simp] theorem Dev.raiseFault_loopQ (d : Dev) (n : Word) (waits : Bool) : (d.raiseFault n waits).loopQ = d.loopQ := by
  obtain ⟨_, _, _, h⟩ := Dev.raiseFault_shape d n waits; rw [h]
@[simp] theorem Dev.raiseFault_fuses (d : Dev) (n : Word) (waits : Bool) : (d.raiseFault n waits).fuses = d.fuses := by
  obtain ⟨_, _, _, h⟩ := Dev.raiseFault_shape d n waits; rw [h]
@[simp] theorem Dev.raiseFault_clk (d : Dev) (n : Word) (waits : Bool) : (d.raiseFault n waits).clk = d.clk := by
  obtain ⟨_, _, _, h⟩ := Dev.raiseFault_shape d n waits; rw [h]
@[simp] theorem Dev.raiseFault_time (d : Dev) (n : Word) (waits : Bool) : (d.raiseFault n waits).time = d.time := by
  obtain ⟨_, _, _, h⟩ := Dev.raiseFault_shape d n waits; rw [h]
@[simp] theorem Dev.raiseFault_cmd (d : Dev) (n : Word) (waits : Bool) : (d.raiseFault n waits).cmd = d.cmd := by
  obtain ⟨_, _, _, h⟩ := Dev.raiseFault_shape d n waits; rw [h]
@[simp] theorem Dev.raiseFault_hl (d : Dev) (n : Word) (waits : Bool) : (d.raiseFault n waits).hl = d.hl := by
  obtain ⟨_, _, _, h⟩ := Dev.raiseFault_shape d n waits; rw [h]
@[simp] theorem Dev.raiseFault_mbx (d : Dev) (n : Word) (waits : Bool) : (d.raiseFault n waits).mbx = d.mbx := by
  obtain ⟨_, _, _, h⟩ := Dev.raiseFault_shape d n waits; rw [h]
@[simp] theorem Dev.raiseFault_mg0 (d : Dev) (n : Word) (waits : Bool) : (d.raiseFault n waits).mg0 = d.mg0 := by
  obtain ⟨_, _, _, h⟩ := Dev.raiseFault_shape d n waits; rw [h]
@[simp] theorem Dev.raiseFault_mg1 (d : Dev) (n : Word) (waits : Bool) : (d.raiseFault n waits).mg1 = d.mg1 := by
  obtain ⟨_, _, _, h⟩ := Dev.raiseFault_shape d n waits; rw [h]
@[simp] theorem Dev.raiseFault_heads (d : Dev) (n : Word) (waits : Bool) : (d.raiseFault n waits).heads = d.heads := by
  obtain ⟨_, _, _, h⟩ := Dev.raiseFault_shape d n waits; rw [h]
@[simp] theorem Dev.raiseFault_fwd (d : Dev) (n : Word) (waits : Bool) : (d.raiseFault n waits).fwd = d.fwd := by
  obtain ⟨_, _, _, h⟩ := Dev.raiseFault_shape d n waits; rw [h]
@[simp] theorem Dev.raiseFault_store (d : Dev) (n : Word) (waits : Bool) : (d.raiseFault n waits).store = d.store := by
  obtain ⟨_, _, _, h⟩ := Dev.raiseFault_shape d n waits; rw [h]
@[simp] theorem Dev.raiseFault_tm (d : Dev) (n : Word) (waits : Bool) : (d.raiseFault n waits).tm = d.tm := by
  obtain ⟨_, _, _, h⟩ := Dev.raiseFault_shape d n waits; rw [h]
@[simp] theorem Dev.raiseFault_red (d : Dev) (n : Word) (waits : Bool) : (d.raiseFault n waits).red = d.red := by
  obtain ⟨_, _, _, h⟩ := Dev.raiseFault_shape d n waits; rw [h]
@[simp] theorem Dev.raiseFault_thr (d : Dev) (n : Word) (waits : Bool) : (d.raiseFault n waits).thr = d.thr := by
  obtain ⟨_, _, _, h⟩ := Dev.raiseFault_shape d n waits; rw [h]
@[simp] theorem Dev.raiseFault_mem (d : Dev) (n : Word) (waits : Bool) : (d.raiseFault n waits).mem = d.mem := by
  obtain ⟨_, _, _, h⟩ := Dev.raiseFault_shape d n waits; rw [h]
@[simp] theorem Dev.raiseFault_opt (d : Dev) (n : Word) (waits : Bool) : (d.raiseFault n waits).opt = d.opt := by
  obtain ⟨_, _, _, h⟩ := Dev.raiseFault_shape d n waits; rw [h]
@[simp] theorem Dev.raiseFault_ports (d : Dev) (n : Word) (waits : Bool) : (d.raiseFault n waits).ports = d.ports := by
  obtain ⟨_, _, _, h⟩ := Dev.raiseFault_shape d n waits; rw [h]
@[simp] theorem Dev.raiseFault_plan (d : Dev) (n : Word) (waits : Bool) : (d.raiseFault n waits).plan = d.plan := by
  obtain ⟨_, _, _, h⟩ := Dev.raiseFault_shape d n waits; rw [h]
@[simp] theorem Dev.raiseFault_autoRemap (d : Dev) (n : Word) (waits : Bool) : (d.raiseFault n waits).autoRemap = d.autoRemap := by
  obtain ⟨_, _, _, h⟩ := Dev.raiseFault_shape d n waits; rw [h]
@[simp] theorem Dev.raiseFault_cnt (d : Dev) (n : Word) (waits : Bool) : (d.raiseFault n waits).cnt = d.cnt := by
  obtain ⟨_, _, _, h⟩ := Dev.raiseFault_shape d n waits; rw [h]
@[simp] theorem Dev.raiseFault_regs (d : Dev) (n : Word) (waits : Bool) : (d.raiseFault n waits).regs = d.regs := by
  obtain ⟨_, _, _, h⟩ := Dev.raiseFault_shape d n waits; rw [h]
@[simp] theorem Dev.raiseFault_ctrs (d : Dev) (n : Word) (waits : Bool) : (d.raiseFault n waits).ctrs = d.ctrs := by
  obtain ⟨_, _, _, h⟩ := Dev.raiseFault_shape d n waits; rw [h]
@[simp] theorem Dev.raiseFault_free (d : Dev) (n : Word) (waits : Bool) : (d.raiseFault n waits).free = d.free := by
  obtain ⟨_, _, _, h⟩ := Dev.raiseFault_shape d n waits; rw [h]

theorem Dev.recordFault_shape (d : Dev) (cls unit_ index sub action left detail : Nat) :
    ∃ c' i' f' o', d.recordFault cls unit_ index sub action left detail = { d with cmd := c', intPend := i', faults := f', out := o' } := by
  unfold Dev.recordFault
  generalize (if left > 255 then 255 else left) = n
  dsimp only
  obtain ⟨a, ha⟩ := Dev.event_shape _ _
  rw [ha]
  obtain ⟨b, g, o, hb⟩ := Dev.raiseFault_shape _ _ _
  rw [hb]
  exact ⟨_, _, _, _, rfl⟩

theorem Dev.faultRec_shape (d : Dev) (cls unit_ index sub action left detail : Nat) :
    ∃ c' i' f' o', d.faultRec cls unit_ index sub action left detail = { d with cmd := c', intPend := i', faults := f', out := o' } := by
  unfold Dev.faultRec
  split_ifs
  · exact Dev.recordFault_shape d cls unit_ index sub action left detail
  · exact ⟨_, _, _, _, rfl⟩

@[simp] theorem Dev.faultRec_now (d : Dev) (cls unit_ index sub action left detail : Nat) : (d.faultRec cls unit_ index sub action left detail).now = d.now := by
  obtain ⟨_, _, _, _, h⟩ := Dev.faultRec_shape d cls unit_ index sub action left detail; rw [h]
@[simp] theorem Dev.faultRec_boot (d : Dev) (cls unit_ index sub action left detail : Nat) : (d.faultRec cls unit_ index sub action left detail).boot = d.boot := by
  obtain ⟨_, _, _, _, h⟩ := Dev.faultRec_shape d cls unit_ index sub action left detail; rw [h]
@[simp] theorem Dev.faultRec_loopQ (d : Dev) (cls unit_ index sub action left detail : Nat) : (d.faultRec cls unit_ index sub action left detail).loopQ = d.loopQ := by
  obtain ⟨_, _, _, _, h⟩ := Dev.faultRec_shape d cls unit_ index sub action left detail; rw [h]
@[simp] theorem Dev.faultRec_fuses (d : Dev) (cls unit_ index sub action left detail : Nat) : (d.faultRec cls unit_ index sub action left detail).fuses = d.fuses := by
  obtain ⟨_, _, _, _, h⟩ := Dev.faultRec_shape d cls unit_ index sub action left detail; rw [h]
@[simp] theorem Dev.faultRec_clk (d : Dev) (cls unit_ index sub action left detail : Nat) : (d.faultRec cls unit_ index sub action left detail).clk = d.clk := by
  obtain ⟨_, _, _, _, h⟩ := Dev.faultRec_shape d cls unit_ index sub action left detail; rw [h]
@[simp] theorem Dev.faultRec_time (d : Dev) (cls unit_ index sub action left detail : Nat) : (d.faultRec cls unit_ index sub action left detail).time = d.time := by
  obtain ⟨_, _, _, _, h⟩ := Dev.faultRec_shape d cls unit_ index sub action left detail; rw [h]
@[simp] theorem Dev.faultRec_hl (d : Dev) (cls unit_ index sub action left detail : Nat) : (d.faultRec cls unit_ index sub action left detail).hl = d.hl := by
  obtain ⟨_, _, _, _, h⟩ := Dev.faultRec_shape d cls unit_ index sub action left detail; rw [h]
@[simp] theorem Dev.faultRec_mbx (d : Dev) (cls unit_ index sub action left detail : Nat) : (d.faultRec cls unit_ index sub action left detail).mbx = d.mbx := by
  obtain ⟨_, _, _, _, h⟩ := Dev.faultRec_shape d cls unit_ index sub action left detail; rw [h]
@[simp] theorem Dev.faultRec_mg0 (d : Dev) (cls unit_ index sub action left detail : Nat) : (d.faultRec cls unit_ index sub action left detail).mg0 = d.mg0 := by
  obtain ⟨_, _, _, _, h⟩ := Dev.faultRec_shape d cls unit_ index sub action left detail; rw [h]
@[simp] theorem Dev.faultRec_mg1 (d : Dev) (cls unit_ index sub action left detail : Nat) : (d.faultRec cls unit_ index sub action left detail).mg1 = d.mg1 := by
  obtain ⟨_, _, _, _, h⟩ := Dev.faultRec_shape d cls unit_ index sub action left detail; rw [h]
@[simp] theorem Dev.faultRec_heads (d : Dev) (cls unit_ index sub action left detail : Nat) : (d.faultRec cls unit_ index sub action left detail).heads = d.heads := by
  obtain ⟨_, _, _, _, h⟩ := Dev.faultRec_shape d cls unit_ index sub action left detail; rw [h]
@[simp] theorem Dev.faultRec_fwd (d : Dev) (cls unit_ index sub action left detail : Nat) : (d.faultRec cls unit_ index sub action left detail).fwd = d.fwd := by
  obtain ⟨_, _, _, _, h⟩ := Dev.faultRec_shape d cls unit_ index sub action left detail; rw [h]
@[simp] theorem Dev.faultRec_store (d : Dev) (cls unit_ index sub action left detail : Nat) : (d.faultRec cls unit_ index sub action left detail).store = d.store := by
  obtain ⟨_, _, _, _, h⟩ := Dev.faultRec_shape d cls unit_ index sub action left detail; rw [h]
@[simp] theorem Dev.faultRec_tm (d : Dev) (cls unit_ index sub action left detail : Nat) : (d.faultRec cls unit_ index sub action left detail).tm = d.tm := by
  obtain ⟨_, _, _, _, h⟩ := Dev.faultRec_shape d cls unit_ index sub action left detail; rw [h]
@[simp] theorem Dev.faultRec_red (d : Dev) (cls unit_ index sub action left detail : Nat) : (d.faultRec cls unit_ index sub action left detail).red = d.red := by
  obtain ⟨_, _, _, _, h⟩ := Dev.faultRec_shape d cls unit_ index sub action left detail; rw [h]
@[simp] theorem Dev.faultRec_thr (d : Dev) (cls unit_ index sub action left detail : Nat) : (d.faultRec cls unit_ index sub action left detail).thr = d.thr := by
  obtain ⟨_, _, _, _, h⟩ := Dev.faultRec_shape d cls unit_ index sub action left detail; rw [h]
@[simp] theorem Dev.faultRec_mem (d : Dev) (cls unit_ index sub action left detail : Nat) : (d.faultRec cls unit_ index sub action left detail).mem = d.mem := by
  obtain ⟨_, _, _, _, h⟩ := Dev.faultRec_shape d cls unit_ index sub action left detail; rw [h]
@[simp] theorem Dev.faultRec_opt (d : Dev) (cls unit_ index sub action left detail : Nat) : (d.faultRec cls unit_ index sub action left detail).opt = d.opt := by
  obtain ⟨_, _, _, _, h⟩ := Dev.faultRec_shape d cls unit_ index sub action left detail; rw [h]
@[simp] theorem Dev.faultRec_ports (d : Dev) (cls unit_ index sub action left detail : Nat) : (d.faultRec cls unit_ index sub action left detail).ports = d.ports := by
  obtain ⟨_, _, _, _, h⟩ := Dev.faultRec_shape d cls unit_ index sub action left detail; rw [h]
@[simp] theorem Dev.faultRec_plan (d : Dev) (cls unit_ index sub action left detail : Nat) : (d.faultRec cls unit_ index sub action left detail).plan = d.plan := by
  obtain ⟨_, _, _, _, h⟩ := Dev.faultRec_shape d cls unit_ index sub action left detail; rw [h]
@[simp] theorem Dev.faultRec_autoRemap (d : Dev) (cls unit_ index sub action left detail : Nat) : (d.faultRec cls unit_ index sub action left detail).autoRemap = d.autoRemap := by
  obtain ⟨_, _, _, _, h⟩ := Dev.faultRec_shape d cls unit_ index sub action left detail; rw [h]
@[simp] theorem Dev.faultRec_cnt (d : Dev) (cls unit_ index sub action left detail : Nat) : (d.faultRec cls unit_ index sub action left detail).cnt = d.cnt := by
  obtain ⟨_, _, _, _, h⟩ := Dev.faultRec_shape d cls unit_ index sub action left detail; rw [h]
@[simp] theorem Dev.faultRec_regs (d : Dev) (cls unit_ index sub action left detail : Nat) : (d.faultRec cls unit_ index sub action left detail).regs = d.regs := by
  obtain ⟨_, _, _, _, h⟩ := Dev.faultRec_shape d cls unit_ index sub action left detail; rw [h]
@[simp] theorem Dev.faultRec_ctrs (d : Dev) (cls unit_ index sub action left detail : Nat) : (d.faultRec cls unit_ index sub action left detail).ctrs = d.ctrs := by
  obtain ⟨_, _, _, _, h⟩ := Dev.faultRec_shape d cls unit_ index sub action left detail; rw [h]
@[simp] theorem Dev.faultRec_free (d : Dev) (cls unit_ index sub action left detail : Nat) : (d.faultRec cls unit_ index sub action left detail).free = d.free := by
  obtain ⟨_, _, _, _, h⟩ := Dev.faultRec_shape d cls unit_ index sub action left detail; rw [h]

theorem Dev.reply_shape (d : Dev) (c : CmdCtx) (op : Nat) (st : Status) (r : Res) :
    ∃ c' i' k' o', d.reply c op st r = { d with cmd := c', intPend := i', ctrs := k', out := o' } := by
  unfold Dev.reply
  dsimp only
  split_ifs
  · split
    · obtain ⟨i, o, h⟩ := Dev.raiseInt_shape ((d.freePlace c op).send (.reply c op st r)) 16
      exact ⟨_, i, _, o, h⟩
    · exact ⟨_, _, _, _, rfl⟩
    · exact ⟨_, _, _, _, rfl⟩
  · exact ⟨_, _, _, _, rfl⟩

@[simp] theorem Dev.reply_now (d : Dev) (c : CmdCtx) (op : Nat) (st : Status) (r : Res) : (d.reply c op st r).now = d.now := by
  obtain ⟨_, _, _, _, h⟩ := Dev.reply_shape d c op st r; rw [h]
@[simp] theorem Dev.reply_boot (d : Dev) (c : CmdCtx) (op : Nat) (st : Status) (r : Res) : (d.reply c op st r).boot = d.boot := by
  obtain ⟨_, _, _, _, h⟩ := Dev.reply_shape d c op st r; rw [h]
@[simp] theorem Dev.reply_loopQ (d : Dev) (c : CmdCtx) (op : Nat) (st : Status) (r : Res) : (d.reply c op st r).loopQ = d.loopQ := by
  obtain ⟨_, _, _, _, h⟩ := Dev.reply_shape d c op st r; rw [h]
@[simp] theorem Dev.reply_fuses (d : Dev) (c : CmdCtx) (op : Nat) (st : Status) (r : Res) : (d.reply c op st r).fuses = d.fuses := by
  obtain ⟨_, _, _, _, h⟩ := Dev.reply_shape d c op st r; rw [h]
@[simp] theorem Dev.reply_clk (d : Dev) (c : CmdCtx) (op : Nat) (st : Status) (r : Res) : (d.reply c op st r).clk = d.clk := by
  obtain ⟨_, _, _, _, h⟩ := Dev.reply_shape d c op st r; rw [h]
@[simp] theorem Dev.reply_time (d : Dev) (c : CmdCtx) (op : Nat) (st : Status) (r : Res) : (d.reply c op st r).time = d.time := by
  obtain ⟨_, _, _, _, h⟩ := Dev.reply_shape d c op st r; rw [h]
@[simp] theorem Dev.reply_hl (d : Dev) (c : CmdCtx) (op : Nat) (st : Status) (r : Res) : (d.reply c op st r).hl = d.hl := by
  obtain ⟨_, _, _, _, h⟩ := Dev.reply_shape d c op st r; rw [h]
@[simp] theorem Dev.reply_mbx (d : Dev) (c : CmdCtx) (op : Nat) (st : Status) (r : Res) : (d.reply c op st r).mbx = d.mbx := by
  obtain ⟨_, _, _, _, h⟩ := Dev.reply_shape d c op st r; rw [h]
@[simp] theorem Dev.reply_mg0 (d : Dev) (c : CmdCtx) (op : Nat) (st : Status) (r : Res) : (d.reply c op st r).mg0 = d.mg0 := by
  obtain ⟨_, _, _, _, h⟩ := Dev.reply_shape d c op st r; rw [h]
@[simp] theorem Dev.reply_mg1 (d : Dev) (c : CmdCtx) (op : Nat) (st : Status) (r : Res) : (d.reply c op st r).mg1 = d.mg1 := by
  obtain ⟨_, _, _, _, h⟩ := Dev.reply_shape d c op st r; rw [h]
@[simp] theorem Dev.reply_heads (d : Dev) (c : CmdCtx) (op : Nat) (st : Status) (r : Res) : (d.reply c op st r).heads = d.heads := by
  obtain ⟨_, _, _, _, h⟩ := Dev.reply_shape d c op st r; rw [h]
@[simp] theorem Dev.reply_fwd (d : Dev) (c : CmdCtx) (op : Nat) (st : Status) (r : Res) : (d.reply c op st r).fwd = d.fwd := by
  obtain ⟨_, _, _, _, h⟩ := Dev.reply_shape d c op st r; rw [h]
@[simp] theorem Dev.reply_store (d : Dev) (c : CmdCtx) (op : Nat) (st : Status) (r : Res) : (d.reply c op st r).store = d.store := by
  obtain ⟨_, _, _, _, h⟩ := Dev.reply_shape d c op st r; rw [h]
@[simp] theorem Dev.reply_tm (d : Dev) (c : CmdCtx) (op : Nat) (st : Status) (r : Res) : (d.reply c op st r).tm = d.tm := by
  obtain ⟨_, _, _, _, h⟩ := Dev.reply_shape d c op st r; rw [h]
@[simp] theorem Dev.reply_red (d : Dev) (c : CmdCtx) (op : Nat) (st : Status) (r : Res) : (d.reply c op st r).red = d.red := by
  obtain ⟨_, _, _, _, h⟩ := Dev.reply_shape d c op st r; rw [h]
@[simp] theorem Dev.reply_thr (d : Dev) (c : CmdCtx) (op : Nat) (st : Status) (r : Res) : (d.reply c op st r).thr = d.thr := by
  obtain ⟨_, _, _, _, h⟩ := Dev.reply_shape d c op st r; rw [h]
@[simp] theorem Dev.reply_mem (d : Dev) (c : CmdCtx) (op : Nat) (st : Status) (r : Res) : (d.reply c op st r).mem = d.mem := by
  obtain ⟨_, _, _, _, h⟩ := Dev.reply_shape d c op st r; rw [h]
@[simp] theorem Dev.reply_opt (d : Dev) (c : CmdCtx) (op : Nat) (st : Status) (r : Res) : (d.reply c op st r).opt = d.opt := by
  obtain ⟨_, _, _, _, h⟩ := Dev.reply_shape d c op st r; rw [h]
@[simp] theorem Dev.reply_ports (d : Dev) (c : CmdCtx) (op : Nat) (st : Status) (r : Res) : (d.reply c op st r).ports = d.ports := by
  obtain ⟨_, _, _, _, h⟩ := Dev.reply_shape d c op st r; rw [h]
@[simp] theorem Dev.reply_plan (d : Dev) (c : CmdCtx) (op : Nat) (st : Status) (r : Res) : (d.reply c op st r).plan = d.plan := by
  obtain ⟨_, _, _, _, h⟩ := Dev.reply_shape d c op st r; rw [h]
@[simp] theorem Dev.reply_autoRemap (d : Dev) (c : CmdCtx) (op : Nat) (st : Status) (r : Res) : (d.reply c op st r).autoRemap = d.autoRemap := by
  obtain ⟨_, _, _, _, h⟩ := Dev.reply_shape d c op st r; rw [h]
@[simp] theorem Dev.reply_faults (d : Dev) (c : CmdCtx) (op : Nat) (st : Status) (r : Res) : (d.reply c op st r).faults = d.faults := by
  obtain ⟨_, _, _, _, h⟩ := Dev.reply_shape d c op st r; rw [h]
@[simp] theorem Dev.reply_cnt (d : Dev) (c : CmdCtx) (op : Nat) (st : Status) (r : Res) : (d.reply c op st r).cnt = d.cnt := by
  obtain ⟨_, _, _, _, h⟩ := Dev.reply_shape d c op st r; rw [h]
@[simp] theorem Dev.reply_regs (d : Dev) (c : CmdCtx) (op : Nat) (st : Status) (r : Res) : (d.reply c op st r).regs = d.regs := by
  obtain ⟨_, _, _, _, h⟩ := Dev.reply_shape d c op st r; rw [h]
@[simp] theorem Dev.reply_free (d : Dev) (c : CmdCtx) (op : Nat) (st : Status) (r : Res) : (d.reply c op st r).free = d.free := by
  obtain ⟨_, _, _, _, h⟩ := Dev.reply_shape d c op st r; rw [h]

theorem Dev.finishHeld_shape (d : Dev) (h : HeldReply) (st : Status) (r : Res) :
    ∃ c' i' k' o', d.finishHeld h st r = { d with cmd := c', intPend := i', ctrs := k', out := o' } := by
  unfold Dev.finishHeld
  dsimp only
  split_ifs
  · obtain ⟨a, ha⟩ := Dev.event_shape { d with cmd := { d.cmd with held := d.cmd.held.erase h } } (.opDone h.c.src h.c.seq h.opcode st)
    exact ⟨a, _, _, _, ha⟩
  · exact Dev.reply_shape { d with cmd := { d.cmd with held := d.cmd.held.erase h } } h.c h.opcode st r

@[simp] theorem Dev.finishHeld_now (d : Dev) (h : HeldReply) (st : Status) (r : Res) : (d.finishHeld h st r).now = d.now := by
  obtain ⟨_, _, _, _, h⟩ := Dev.finishHeld_shape d h st r; rw [h]
@[simp] theorem Dev.finishHeld_boot (d : Dev) (h : HeldReply) (st : Status) (r : Res) : (d.finishHeld h st r).boot = d.boot := by
  obtain ⟨_, _, _, _, h⟩ := Dev.finishHeld_shape d h st r; rw [h]
@[simp] theorem Dev.finishHeld_loopQ (d : Dev) (h : HeldReply) (st : Status) (r : Res) : (d.finishHeld h st r).loopQ = d.loopQ := by
  obtain ⟨_, _, _, _, h⟩ := Dev.finishHeld_shape d h st r; rw [h]
@[simp] theorem Dev.finishHeld_fuses (d : Dev) (h : HeldReply) (st : Status) (r : Res) : (d.finishHeld h st r).fuses = d.fuses := by
  obtain ⟨_, _, _, _, h⟩ := Dev.finishHeld_shape d h st r; rw [h]
@[simp] theorem Dev.finishHeld_clk (d : Dev) (h : HeldReply) (st : Status) (r : Res) : (d.finishHeld h st r).clk = d.clk := by
  obtain ⟨_, _, _, _, h⟩ := Dev.finishHeld_shape d h st r; rw [h]
@[simp] theorem Dev.finishHeld_time (d : Dev) (h : HeldReply) (st : Status) (r : Res) : (d.finishHeld h st r).time = d.time := by
  obtain ⟨_, _, _, _, h⟩ := Dev.finishHeld_shape d h st r; rw [h]
@[simp] theorem Dev.finishHeld_hl (d : Dev) (h : HeldReply) (st : Status) (r : Res) : (d.finishHeld h st r).hl = d.hl := by
  obtain ⟨_, _, _, _, h⟩ := Dev.finishHeld_shape d h st r; rw [h]
@[simp] theorem Dev.finishHeld_mbx (d : Dev) (h : HeldReply) (st : Status) (r : Res) : (d.finishHeld h st r).mbx = d.mbx := by
  obtain ⟨_, _, _, _, h⟩ := Dev.finishHeld_shape d h st r; rw [h]
@[simp] theorem Dev.finishHeld_mg0 (d : Dev) (h : HeldReply) (st : Status) (r : Res) : (d.finishHeld h st r).mg0 = d.mg0 := by
  obtain ⟨_, _, _, _, h⟩ := Dev.finishHeld_shape d h st r; rw [h]
@[simp] theorem Dev.finishHeld_mg1 (d : Dev) (h : HeldReply) (st : Status) (r : Res) : (d.finishHeld h st r).mg1 = d.mg1 := by
  obtain ⟨_, _, _, _, h⟩ := Dev.finishHeld_shape d h st r; rw [h]
@[simp] theorem Dev.finishHeld_heads (d : Dev) (h : HeldReply) (st : Status) (r : Res) : (d.finishHeld h st r).heads = d.heads := by
  obtain ⟨_, _, _, _, h⟩ := Dev.finishHeld_shape d h st r; rw [h]
@[simp] theorem Dev.finishHeld_fwd (d : Dev) (h : HeldReply) (st : Status) (r : Res) : (d.finishHeld h st r).fwd = d.fwd := by
  obtain ⟨_, _, _, _, h⟩ := Dev.finishHeld_shape d h st r; rw [h]
@[simp] theorem Dev.finishHeld_store (d : Dev) (h : HeldReply) (st : Status) (r : Res) : (d.finishHeld h st r).store = d.store := by
  obtain ⟨_, _, _, _, h⟩ := Dev.finishHeld_shape d h st r; rw [h]
@[simp] theorem Dev.finishHeld_tm (d : Dev) (h : HeldReply) (st : Status) (r : Res) : (d.finishHeld h st r).tm = d.tm := by
  obtain ⟨_, _, _, _, h⟩ := Dev.finishHeld_shape d h st r; rw [h]
@[simp] theorem Dev.finishHeld_red (d : Dev) (h : HeldReply) (st : Status) (r : Res) : (d.finishHeld h st r).red = d.red := by
  obtain ⟨_, _, _, _, h⟩ := Dev.finishHeld_shape d h st r; rw [h]
@[simp] theorem Dev.finishHeld_thr (d : Dev) (h : HeldReply) (st : Status) (r : Res) : (d.finishHeld h st r).thr = d.thr := by
  obtain ⟨_, _, _, _, h⟩ := Dev.finishHeld_shape d h st r; rw [h]
@[simp] theorem Dev.finishHeld_mem (d : Dev) (h : HeldReply) (st : Status) (r : Res) : (d.finishHeld h st r).mem = d.mem := by
  obtain ⟨_, _, _, _, h⟩ := Dev.finishHeld_shape d h st r; rw [h]
@[simp] theorem Dev.finishHeld_opt (d : Dev) (h : HeldReply) (st : Status) (r : Res) : (d.finishHeld h st r).opt = d.opt := by
  obtain ⟨_, _, _, _, h⟩ := Dev.finishHeld_shape d h st r; rw [h]
@[simp] theorem Dev.finishHeld_ports (d : Dev) (h : HeldReply) (st : Status) (r : Res) : (d.finishHeld h st r).ports = d.ports := by
  obtain ⟨_, _, _, _, h⟩ := Dev.finishHeld_shape d h st r; rw [h]
@[simp] theorem Dev.finishHeld_plan (d : Dev) (h : HeldReply) (st : Status) (r : Res) : (d.finishHeld h st r).plan = d.plan := by
  obtain ⟨_, _, _, _, h⟩ := Dev.finishHeld_shape d h st r; rw [h]
@[simp] theorem Dev.finishHeld_autoRemap (d : Dev) (h : HeldReply) (st : Status) (r : Res) : (d.finishHeld h st r).autoRemap = d.autoRemap := by
  obtain ⟨_, _, _, _, h⟩ := Dev.finishHeld_shape d h st r; rw [h]
@[simp] theorem Dev.finishHeld_faults (d : Dev) (h : HeldReply) (st : Status) (r : Res) : (d.finishHeld h st r).faults = d.faults := by
  obtain ⟨_, _, _, _, h⟩ := Dev.finishHeld_shape d h st r; rw [h]
@[simp] theorem Dev.finishHeld_cnt (d : Dev) (h : HeldReply) (st : Status) (r : Res) : (d.finishHeld h st r).cnt = d.cnt := by
  obtain ⟨_, _, _, _, h⟩ := Dev.finishHeld_shape d h st r; rw [h]
@[simp] theorem Dev.finishHeld_regs (d : Dev) (h : HeldReply) (st : Status) (r : Res) : (d.finishHeld h st r).regs = d.regs := by
  obtain ⟨_, _, _, _, h⟩ := Dev.finishHeld_shape d h st r; rw [h]
@[simp] theorem Dev.finishHeld_free (d : Dev) (h : HeldReply) (st : Status) (r : Res) : (d.finishHeld h st r).free = d.free := by
  obtain ⟨_, _, _, _, h⟩ := Dev.finishHeld_shape d h st r; rw [h]

theorem Dev.setMg_shape (d : Dev) (m : Nat) (l : MgLink) :
    ∃ x' y', d.setMg m l = { d with mg0 := x', mg1 := y' } := by unfold Dev.setMg; split_ifs <;> exact ⟨_, _, rfl⟩

@[simp] theorem Dev.setMg_now (d : Dev) (m : Nat) (l : MgLink) : (d.setMg m l).now = d.now := by
  obtain ⟨_, _, h⟩ := Dev.setMg_shape d m l; rw [h]
@[simp] theorem Dev.setMg_boot (d : Dev) (m : Nat) (l : MgLink) : (d.setMg m l).boot = d.boot := by
  obtain ⟨_, _, h⟩ := Dev.setMg_shape d m l; rw [h]
@[simp] theorem Dev.setMg_loopQ (d : Dev) (m : Nat) (l : MgLink) : (d.setMg m l).loopQ = d.loopQ := by
  obtain ⟨_, _, h⟩ := Dev.setMg_shape d m l; rw [h]
@[simp] theorem Dev.setMg_fuses (d : Dev) (m : Nat) (l : MgLink) : (d.setMg m l).fuses = d.fuses := by
  obtain ⟨_, _, h⟩ := Dev.setMg_shape d m l; rw [h]
@[simp] theorem Dev.setMg_clk (d : Dev) (m : Nat) (l : MgLink) : (d.setMg m l).clk = d.clk := by
  obtain ⟨_, _, h⟩ := Dev.setMg_shape d m l; rw [h]
@[simp] theorem Dev.setMg_time (d : Dev) (m : Nat) (l : MgLink) : (d.setMg m l).time = d.time := by
  obtain ⟨_, _, h⟩ := Dev.setMg_shape d m l; rw [h]
@[simp] theorem Dev.setMg_cmd (d : Dev) (m : Nat) (l : MgLink) : (d.setMg m l).cmd = d.cmd := by
  obtain ⟨_, _, h⟩ := Dev.setMg_shape d m l; rw [h]
@[simp] theorem Dev.setMg_hl (d : Dev) (m : Nat) (l : MgLink) : (d.setMg m l).hl = d.hl := by
  obtain ⟨_, _, h⟩ := Dev.setMg_shape d m l; rw [h]
@[simp] theorem Dev.setMg_mbx (d : Dev) (m : Nat) (l : MgLink) : (d.setMg m l).mbx = d.mbx := by
  obtain ⟨_, _, h⟩ := Dev.setMg_shape d m l; rw [h]
@[simp] theorem Dev.setMg_intPend (d : Dev) (m : Nat) (l : MgLink) : (d.setMg m l).intPend = d.intPend := by
  obtain ⟨_, _, h⟩ := Dev.setMg_shape d m l; rw [h]
@[simp] theorem Dev.setMg_heads (d : Dev) (m : Nat) (l : MgLink) : (d.setMg m l).heads = d.heads := by
  obtain ⟨_, _, h⟩ := Dev.setMg_shape d m l; rw [h]
@[simp] theorem Dev.setMg_fwd (d : Dev) (m : Nat) (l : MgLink) : (d.setMg m l).fwd = d.fwd := by
  obtain ⟨_, _, h⟩ := Dev.setMg_shape d m l; rw [h]
@[simp] theorem Dev.setMg_store (d : Dev) (m : Nat) (l : MgLink) : (d.setMg m l).store = d.store := by
  obtain ⟨_, _, h⟩ := Dev.setMg_shape d m l; rw [h]
@[simp] theorem Dev.setMg_tm (d : Dev) (m : Nat) (l : MgLink) : (d.setMg m l).tm = d.tm := by
  obtain ⟨_, _, h⟩ := Dev.setMg_shape d m l; rw [h]
@[simp] theorem Dev.setMg_red (d : Dev) (m : Nat) (l : MgLink) : (d.setMg m l).red = d.red := by
  obtain ⟨_, _, h⟩ := Dev.setMg_shape d m l; rw [h]
@[simp] theorem Dev.setMg_thr (d : Dev) (m : Nat) (l : MgLink) : (d.setMg m l).thr = d.thr := by
  obtain ⟨_, _, h⟩ := Dev.setMg_shape d m l; rw [h]
@[simp] theorem Dev.setMg_mem (d : Dev) (m : Nat) (l : MgLink) : (d.setMg m l).mem = d.mem := by
  obtain ⟨_, _, h⟩ := Dev.setMg_shape d m l; rw [h]
@[simp] theorem Dev.setMg_opt (d : Dev) (m : Nat) (l : MgLink) : (d.setMg m l).opt = d.opt := by
  obtain ⟨_, _, h⟩ := Dev.setMg_shape d m l; rw [h]
@[simp] theorem Dev.setMg_ports (d : Dev) (m : Nat) (l : MgLink) : (d.setMg m l).ports = d.ports := by
  obtain ⟨_, _, h⟩ := Dev.setMg_shape d m l; rw [h]
@[simp] theorem Dev.setMg_plan (d : Dev) (m : Nat) (l : MgLink) : (d.setMg m l).plan = d.plan := by
  obtain ⟨_, _, h⟩ := Dev.setMg_shape d m l; rw [h]
@[simp] theorem Dev.setMg_autoRemap (d : Dev) (m : Nat) (l : MgLink) : (d.setMg m l).autoRemap = d.autoRemap := by
  obtain ⟨_, _, h⟩ := Dev.setMg_shape d m l; rw [h]
@[simp] theorem Dev.setMg_faults (d : Dev) (m : Nat) (l : MgLink) : (d.setMg m l).faults = d.faults := by
  obtain ⟨_, _, h⟩ := Dev.setMg_shape d m l; rw [h]
@[simp] theorem Dev.setMg_cnt (d : Dev) (m : Nat) (l : MgLink) : (d.setMg m l).cnt = d.cnt := by
  obtain ⟨_, _, h⟩ := Dev.setMg_shape d m l; rw [h]
@[simp] theorem Dev.setMg_regs (d : Dev) (m : Nat) (l : MgLink) : (d.setMg m l).regs = d.regs := by
  obtain ⟨_, _, h⟩ := Dev.setMg_shape d m l; rw [h]
@[simp] theorem Dev.setMg_ctrs (d : Dev) (m : Nat) (l : MgLink) : (d.setMg m l).ctrs = d.ctrs := by
  obtain ⟨_, _, h⟩ := Dev.setMg_shape d m l; rw [h]
@[simp] theorem Dev.setMg_free (d : Dev) (m : Nat) (l : MgLink) : (d.setMg m l).free = d.free := by
  obtain ⟨_, _, h⟩ := Dev.setMg_shape d m l; rw [h]
@[simp] theorem Dev.setMg_out (d : Dev) (m : Nat) (l : MgLink) : (d.setMg m l).out = d.out := by
  obtain ⟨_, _, h⟩ := Dev.setMg_shape d m l; rw [h]

theorem Dev.snoop_shape (d : Dev) (line : Nat) :
    ∃ m' o', d.snoop line = { d with mem := m', out := o' } := by unfold Dev.snoop; dsimp only; split_ifs <;> exact ⟨_, _, rfl⟩

@[simp] theorem Dev.snoop_now (d : Dev) (line : Nat) : (d.snoop line).now = d.now := by
  obtain ⟨_, _, h⟩ := Dev.snoop_shape d line; rw [h]
@[simp] theorem Dev.snoop_boot (d : Dev) (line : Nat) : (d.snoop line).boot = d.boot := by
  obtain ⟨_, _, h⟩ := Dev.snoop_shape d line; rw [h]
@[simp] theorem Dev.snoop_loopQ (d : Dev) (line : Nat) : (d.snoop line).loopQ = d.loopQ := by
  obtain ⟨_, _, h⟩ := Dev.snoop_shape d line; rw [h]
@[simp] theorem Dev.snoop_fuses (d : Dev) (line : Nat) : (d.snoop line).fuses = d.fuses := by
  obtain ⟨_, _, h⟩ := Dev.snoop_shape d line; rw [h]
@[simp] theorem Dev.snoop_clk (d : Dev) (line : Nat) : (d.snoop line).clk = d.clk := by
  obtain ⟨_, _, h⟩ := Dev.snoop_shape d line; rw [h]
@[simp] theorem Dev.snoop_time (d : Dev) (line : Nat) : (d.snoop line).time = d.time := by
  obtain ⟨_, _, h⟩ := Dev.snoop_shape d line; rw [h]
@[simp] theorem Dev.snoop_cmd (d : Dev) (line : Nat) : (d.snoop line).cmd = d.cmd := by
  obtain ⟨_, _, h⟩ := Dev.snoop_shape d line; rw [h]
@[simp] theorem Dev.snoop_hl (d : Dev) (line : Nat) : (d.snoop line).hl = d.hl := by
  obtain ⟨_, _, h⟩ := Dev.snoop_shape d line; rw [h]
@[simp] theorem Dev.snoop_mbx (d : Dev) (line : Nat) : (d.snoop line).mbx = d.mbx := by
  obtain ⟨_, _, h⟩ := Dev.snoop_shape d line; rw [h]
@[simp] theorem Dev.snoop_mg0 (d : Dev) (line : Nat) : (d.snoop line).mg0 = d.mg0 := by
  obtain ⟨_, _, h⟩ := Dev.snoop_shape d line; rw [h]
@[simp] theorem Dev.snoop_mg1 (d : Dev) (line : Nat) : (d.snoop line).mg1 = d.mg1 := by
  obtain ⟨_, _, h⟩ := Dev.snoop_shape d line; rw [h]
@[simp] theorem Dev.snoop_intPend (d : Dev) (line : Nat) : (d.snoop line).intPend = d.intPend := by
  obtain ⟨_, _, h⟩ := Dev.snoop_shape d line; rw [h]
@[simp] theorem Dev.snoop_heads (d : Dev) (line : Nat) : (d.snoop line).heads = d.heads := by
  obtain ⟨_, _, h⟩ := Dev.snoop_shape d line; rw [h]
@[simp] theorem Dev.snoop_fwd (d : Dev) (line : Nat) : (d.snoop line).fwd = d.fwd := by
  obtain ⟨_, _, h⟩ := Dev.snoop_shape d line; rw [h]
@[simp] theorem Dev.snoop_store (d : Dev) (line : Nat) : (d.snoop line).store = d.store := by
  obtain ⟨_, _, h⟩ := Dev.snoop_shape d line; rw [h]
@[simp] theorem Dev.snoop_tm (d : Dev) (line : Nat) : (d.snoop line).tm = d.tm := by
  obtain ⟨_, _, h⟩ := Dev.snoop_shape d line; rw [h]
@[simp] theorem Dev.snoop_red (d : Dev) (line : Nat) : (d.snoop line).red = d.red := by
  obtain ⟨_, _, h⟩ := Dev.snoop_shape d line; rw [h]
@[simp] theorem Dev.snoop_thr (d : Dev) (line : Nat) : (d.snoop line).thr = d.thr := by
  obtain ⟨_, _, h⟩ := Dev.snoop_shape d line; rw [h]
@[simp] theorem Dev.snoop_opt (d : Dev) (line : Nat) : (d.snoop line).opt = d.opt := by
  obtain ⟨_, _, h⟩ := Dev.snoop_shape d line; rw [h]
@[simp] theorem Dev.snoop_ports (d : Dev) (line : Nat) : (d.snoop line).ports = d.ports := by
  obtain ⟨_, _, h⟩ := Dev.snoop_shape d line; rw [h]
@[simp] theorem Dev.snoop_plan (d : Dev) (line : Nat) : (d.snoop line).plan = d.plan := by
  obtain ⟨_, _, h⟩ := Dev.snoop_shape d line; rw [h]
@[simp] theorem Dev.snoop_autoRemap (d : Dev) (line : Nat) : (d.snoop line).autoRemap = d.autoRemap := by
  obtain ⟨_, _, h⟩ := Dev.snoop_shape d line; rw [h]
@[simp] theorem Dev.snoop_faults (d : Dev) (line : Nat) : (d.snoop line).faults = d.faults := by
  obtain ⟨_, _, h⟩ := Dev.snoop_shape d line; rw [h]
@[simp] theorem Dev.snoop_cnt (d : Dev) (line : Nat) : (d.snoop line).cnt = d.cnt := by
  obtain ⟨_, _, h⟩ := Dev.snoop_shape d line; rw [h]
@[simp] theorem Dev.snoop_regs (d : Dev) (line : Nat) : (d.snoop line).regs = d.regs := by
  obtain ⟨_, _, h⟩ := Dev.snoop_shape d line; rw [h]
@[simp] theorem Dev.snoop_ctrs (d : Dev) (line : Nat) : (d.snoop line).ctrs = d.ctrs := by
  obtain ⟨_, _, h⟩ := Dev.snoop_shape d line; rw [h]
@[simp] theorem Dev.snoop_free (d : Dev) (line : Nat) : (d.snoop line).free = d.free := by
  obtain ⟨_, _, h⟩ := Dev.snoop_shape d line; rw [h]

theorem Dev.applyWrite_shape (d : Dev) (a : Nat) (b : List Byte) :
    ∃ m', d.applyWrite a b = { d with mem := m' } := ⟨_, rfl⟩

@[simp] theorem Dev.applyWrite_now (d : Dev) (a : Nat) (b : List Byte) : (d.applyWrite a b).now = d.now := rfl
@[simp] theorem Dev.applyWrite_boot (d : Dev) (a : Nat) (b : List Byte) : (d.applyWrite a b).boot = d.boot := rfl
@[simp] theorem Dev.applyWrite_loopQ (d : Dev) (a : Nat) (b : List Byte) : (d.applyWrite a b).loopQ = d.loopQ := rfl
@[simp] theorem Dev.applyWrite_fuses (d : Dev) (a : Nat) (b : List Byte) : (d.applyWrite a b).fuses = d.fuses := rfl
@[simp] theorem Dev.applyWrite_clk (d : Dev) (a : Nat) (b : List Byte) : (d.applyWrite a b).clk = d.clk := rfl
@[simp] theorem Dev.applyWrite_time (d : Dev) (a : Nat) (b : List Byte) : (d.applyWrite a b).time = d.time := rfl
@[simp] theorem Dev.applyWrite_cmd (d : Dev) (a : Nat) (b : List Byte) : (d.applyWrite a b).cmd = d.cmd := rfl
@[simp] theorem Dev.applyWrite_hl (d : Dev) (a : Nat) (b : List Byte) : (d.applyWrite a b).hl = d.hl := rfl
@[simp] theorem Dev.applyWrite_mbx (d : Dev) (a : Nat) (b : List Byte) : (d.applyWrite a b).mbx = d.mbx := rfl
@[simp] theorem Dev.applyWrite_mg0 (d : Dev) (a : Nat) (b : List Byte) : (d.applyWrite a b).mg0 = d.mg0 := rfl
@[simp] theorem Dev.applyWrite_mg1 (d : Dev) (a : Nat) (b : List Byte) : (d.applyWrite a b).mg1 = d.mg1 := rfl
@[simp] theorem Dev.applyWrite_intPend (d : Dev) (a : Nat) (b : List Byte) : (d.applyWrite a b).intPend = d.intPend := rfl
@[simp] theorem Dev.applyWrite_heads (d : Dev) (a : Nat) (b : List Byte) : (d.applyWrite a b).heads = d.heads := rfl
@[simp] theorem Dev.applyWrite_fwd (d : Dev) (a : Nat) (b : List Byte) : (d.applyWrite a b).fwd = d.fwd := rfl
@[simp] theorem Dev.applyWrite_store (d : Dev) (a : Nat) (b : List Byte) : (d.applyWrite a b).store = d.store := rfl
@[simp] theorem Dev.applyWrite_tm (d : Dev) (a : Nat) (b : List Byte) : (d.applyWrite a b).tm = d.tm := rfl
@[simp] theorem Dev.applyWrite_red (d : Dev) (a : Nat) (b : List Byte) : (d.applyWrite a b).red = d.red := rfl
@[simp] theorem Dev.applyWrite_thr (d : Dev) (a : Nat) (b : List Byte) : (d.applyWrite a b).thr = d.thr := rfl
@[simp] theorem Dev.applyWrite_opt (d : Dev) (a : Nat) (b : List Byte) : (d.applyWrite a b).opt = d.opt := rfl
@[simp] theorem Dev.applyWrite_ports (d : Dev) (a : Nat) (b : List Byte) : (d.applyWrite a b).ports = d.ports := rfl
@[simp] theorem Dev.applyWrite_plan (d : Dev) (a : Nat) (b : List Byte) : (d.applyWrite a b).plan = d.plan := rfl
@[simp] theorem Dev.applyWrite_autoRemap (d : Dev) (a : Nat) (b : List Byte) : (d.applyWrite a b).autoRemap = d.autoRemap := rfl
@[simp] theorem Dev.applyWrite_faults (d : Dev) (a : Nat) (b : List Byte) : (d.applyWrite a b).faults = d.faults := rfl
@[simp] theorem Dev.applyWrite_cnt (d : Dev) (a : Nat) (b : List Byte) : (d.applyWrite a b).cnt = d.cnt := rfl
@[simp] theorem Dev.applyWrite_regs (d : Dev) (a : Nat) (b : List Byte) : (d.applyWrite a b).regs = d.regs := rfl
@[simp] theorem Dev.applyWrite_ctrs (d : Dev) (a : Nat) (b : List Byte) : (d.applyWrite a b).ctrs = d.ctrs := rfl
@[simp] theorem Dev.applyWrite_free (d : Dev) (a : Nat) (b : List Byte) : (d.applyWrite a b).free = d.free := rfl
@[simp] theorem Dev.applyWrite_out (d : Dev) (a : Nat) (b : List Byte) : (d.applyWrite a b).out = d.out := rfl

theorem Dev.detect_shape (d : Dev) (isBank : Bool) (ix : Nat) (limit : Bool) :
    ∃ f', d.detect isBank ix limit = { d with faults := f' } := by unfold Dev.detect; split_ifs <;> exact ⟨_, rfl⟩

@[simp] theorem Dev.detect_now (d : Dev) (isBank : Bool) (ix : Nat) (limit : Bool) : (d.detect isBank ix limit).now = d.now := by
  obtain ⟨_, h⟩ := Dev.detect_shape d isBank ix limit; rw [h]
@[simp] theorem Dev.detect_boot (d : Dev) (isBank : Bool) (ix : Nat) (limit : Bool) : (d.detect isBank ix limit).boot = d.boot := by
  obtain ⟨_, h⟩ := Dev.detect_shape d isBank ix limit; rw [h]
@[simp] theorem Dev.detect_loopQ (d : Dev) (isBank : Bool) (ix : Nat) (limit : Bool) : (d.detect isBank ix limit).loopQ = d.loopQ := by
  obtain ⟨_, h⟩ := Dev.detect_shape d isBank ix limit; rw [h]
@[simp] theorem Dev.detect_fuses (d : Dev) (isBank : Bool) (ix : Nat) (limit : Bool) : (d.detect isBank ix limit).fuses = d.fuses := by
  obtain ⟨_, h⟩ := Dev.detect_shape d isBank ix limit; rw [h]
@[simp] theorem Dev.detect_clk (d : Dev) (isBank : Bool) (ix : Nat) (limit : Bool) : (d.detect isBank ix limit).clk = d.clk := by
  obtain ⟨_, h⟩ := Dev.detect_shape d isBank ix limit; rw [h]
@[simp] theorem Dev.detect_time (d : Dev) (isBank : Bool) (ix : Nat) (limit : Bool) : (d.detect isBank ix limit).time = d.time := by
  obtain ⟨_, h⟩ := Dev.detect_shape d isBank ix limit; rw [h]
@[simp] theorem Dev.detect_cmd (d : Dev) (isBank : Bool) (ix : Nat) (limit : Bool) : (d.detect isBank ix limit).cmd = d.cmd := by
  obtain ⟨_, h⟩ := Dev.detect_shape d isBank ix limit; rw [h]
@[simp] theorem Dev.detect_hl (d : Dev) (isBank : Bool) (ix : Nat) (limit : Bool) : (d.detect isBank ix limit).hl = d.hl := by
  obtain ⟨_, h⟩ := Dev.detect_shape d isBank ix limit; rw [h]
@[simp] theorem Dev.detect_mbx (d : Dev) (isBank : Bool) (ix : Nat) (limit : Bool) : (d.detect isBank ix limit).mbx = d.mbx := by
  obtain ⟨_, h⟩ := Dev.detect_shape d isBank ix limit; rw [h]
@[simp] theorem Dev.detect_mg0 (d : Dev) (isBank : Bool) (ix : Nat) (limit : Bool) : (d.detect isBank ix limit).mg0 = d.mg0 := by
  obtain ⟨_, h⟩ := Dev.detect_shape d isBank ix limit; rw [h]
@[simp] theorem Dev.detect_mg1 (d : Dev) (isBank : Bool) (ix : Nat) (limit : Bool) : (d.detect isBank ix limit).mg1 = d.mg1 := by
  obtain ⟨_, h⟩ := Dev.detect_shape d isBank ix limit; rw [h]
@[simp] theorem Dev.detect_intPend (d : Dev) (isBank : Bool) (ix : Nat) (limit : Bool) : (d.detect isBank ix limit).intPend = d.intPend := by
  obtain ⟨_, h⟩ := Dev.detect_shape d isBank ix limit; rw [h]
@[simp] theorem Dev.detect_heads (d : Dev) (isBank : Bool) (ix : Nat) (limit : Bool) : (d.detect isBank ix limit).heads = d.heads := by
  obtain ⟨_, h⟩ := Dev.detect_shape d isBank ix limit; rw [h]
@[simp] theorem Dev.detect_fwd (d : Dev) (isBank : Bool) (ix : Nat) (limit : Bool) : (d.detect isBank ix limit).fwd = d.fwd := by
  obtain ⟨_, h⟩ := Dev.detect_shape d isBank ix limit; rw [h]
@[simp] theorem Dev.detect_store (d : Dev) (isBank : Bool) (ix : Nat) (limit : Bool) : (d.detect isBank ix limit).store = d.store := by
  obtain ⟨_, h⟩ := Dev.detect_shape d isBank ix limit; rw [h]
@[simp] theorem Dev.detect_tm (d : Dev) (isBank : Bool) (ix : Nat) (limit : Bool) : (d.detect isBank ix limit).tm = d.tm := by
  obtain ⟨_, h⟩ := Dev.detect_shape d isBank ix limit; rw [h]
@[simp] theorem Dev.detect_red (d : Dev) (isBank : Bool) (ix : Nat) (limit : Bool) : (d.detect isBank ix limit).red = d.red := by
  obtain ⟨_, h⟩ := Dev.detect_shape d isBank ix limit; rw [h]
@[simp] theorem Dev.detect_thr (d : Dev) (isBank : Bool) (ix : Nat) (limit : Bool) : (d.detect isBank ix limit).thr = d.thr := by
  obtain ⟨_, h⟩ := Dev.detect_shape d isBank ix limit; rw [h]
@[simp] theorem Dev.detect_mem (d : Dev) (isBank : Bool) (ix : Nat) (limit : Bool) : (d.detect isBank ix limit).mem = d.mem := by
  obtain ⟨_, h⟩ := Dev.detect_shape d isBank ix limit; rw [h]
@[simp] theorem Dev.detect_opt (d : Dev) (isBank : Bool) (ix : Nat) (limit : Bool) : (d.detect isBank ix limit).opt = d.opt := by
  obtain ⟨_, h⟩ := Dev.detect_shape d isBank ix limit; rw [h]
@[simp] theorem Dev.detect_ports (d : Dev) (isBank : Bool) (ix : Nat) (limit : Bool) : (d.detect isBank ix limit).ports = d.ports := by
  obtain ⟨_, h⟩ := Dev.detect_shape d isBank ix limit; rw [h]
@[simp] theorem Dev.detect_plan (d : Dev) (isBank : Bool) (ix : Nat) (limit : Bool) : (d.detect isBank ix limit).plan = d.plan := by
  obtain ⟨_, h⟩ := Dev.detect_shape d isBank ix limit; rw [h]
@[simp] theorem Dev.detect_autoRemap (d : Dev) (isBank : Bool) (ix : Nat) (limit : Bool) : (d.detect isBank ix limit).autoRemap = d.autoRemap := by
  obtain ⟨_, h⟩ := Dev.detect_shape d isBank ix limit; rw [h]
@[simp] theorem Dev.detect_cnt (d : Dev) (isBank : Bool) (ix : Nat) (limit : Bool) : (d.detect isBank ix limit).cnt = d.cnt := by
  obtain ⟨_, h⟩ := Dev.detect_shape d isBank ix limit; rw [h]
@[simp] theorem Dev.detect_regs (d : Dev) (isBank : Bool) (ix : Nat) (limit : Bool) : (d.detect isBank ix limit).regs = d.regs := by
  obtain ⟨_, h⟩ := Dev.detect_shape d isBank ix limit; rw [h]
@[simp] theorem Dev.detect_ctrs (d : Dev) (isBank : Bool) (ix : Nat) (limit : Bool) : (d.detect isBank ix limit).ctrs = d.ctrs := by
  obtain ⟨_, h⟩ := Dev.detect_shape d isBank ix limit; rw [h]
@[simp] theorem Dev.detect_free (d : Dev) (isBank : Bool) (ix : Nat) (limit : Bool) : (d.detect isBank ix limit).free = d.free := by
  obtain ⟨_, h⟩ := Dev.detect_shape d isBank ix limit; rw [h]
@[simp] theorem Dev.detect_out (d : Dev) (isBank : Bool) (ix : Nat) (limit : Bool) : (d.detect isBank ix limit).out = d.out := by
  obtain ⟨_, h⟩ := Dev.detect_shape d isBank ix limit; rw [h]

theorem Dev.meetError_shape (d : Dev) (x : Inject) :
    ∃ f', d.meetError x = { d with faults := f' } := ⟨_, rfl⟩

@[simp] theorem Dev.meetError_now (d : Dev) (x : Inject) : (d.meetError x).now = d.now := rfl
@[simp] theorem Dev.meetError_boot (d : Dev) (x : Inject) : (d.meetError x).boot = d.boot := rfl
@[simp] theorem Dev.meetError_loopQ (d : Dev) (x : Inject) : (d.meetError x).loopQ = d.loopQ := rfl
@[simp] theorem Dev.meetError_fuses (d : Dev) (x : Inject) : (d.meetError x).fuses = d.fuses := rfl
@[simp] theorem Dev.meetError_clk (d : Dev) (x : Inject) : (d.meetError x).clk = d.clk := rfl
@[simp] theorem Dev.meetError_time (d : Dev) (x : Inject) : (d.meetError x).time = d.time := rfl
@[simp] theorem Dev.meetError_cmd (d : Dev) (x : Inject) : (d.meetError x).cmd = d.cmd := rfl
@[simp] theorem Dev.meetError_hl (d : Dev) (x : Inject) : (d.meetError x).hl = d.hl := rfl
@[simp] theorem Dev.meetError_mbx (d : Dev) (x : Inject) : (d.meetError x).mbx = d.mbx := rfl
@[simp] theorem Dev.meetError_mg0 (d : Dev) (x : Inject) : (d.meetError x).mg0 = d.mg0 := rfl
@[simp] theorem Dev.meetError_mg1 (d : Dev) (x : Inject) : (d.meetError x).mg1 = d.mg1 := rfl
@[simp] theorem Dev.meetError_intPend (d : Dev) (x : Inject) : (d.meetError x).intPend = d.intPend := rfl
@[simp] theorem Dev.meetError_heads (d : Dev) (x : Inject) : (d.meetError x).heads = d.heads := rfl
@[simp] theorem Dev.meetError_fwd (d : Dev) (x : Inject) : (d.meetError x).fwd = d.fwd := rfl
@[simp] theorem Dev.meetError_store (d : Dev) (x : Inject) : (d.meetError x).store = d.store := rfl
@[simp] theorem Dev.meetError_tm (d : Dev) (x : Inject) : (d.meetError x).tm = d.tm := rfl
@[simp] theorem Dev.meetError_red (d : Dev) (x : Inject) : (d.meetError x).red = d.red := rfl
@[simp] theorem Dev.meetError_thr (d : Dev) (x : Inject) : (d.meetError x).thr = d.thr := rfl
@[simp] theorem Dev.meetError_mem (d : Dev) (x : Inject) : (d.meetError x).mem = d.mem := rfl
@[simp] theorem Dev.meetError_opt (d : Dev) (x : Inject) : (d.meetError x).opt = d.opt := rfl
@[simp] theorem Dev.meetError_ports (d : Dev) (x : Inject) : (d.meetError x).ports = d.ports := rfl
@[simp] theorem Dev.meetError_plan (d : Dev) (x : Inject) : (d.meetError x).plan = d.plan := rfl
@[simp] theorem Dev.meetError_autoRemap (d : Dev) (x : Inject) : (d.meetError x).autoRemap = d.autoRemap := rfl
@[simp] theorem Dev.meetError_cnt (d : Dev) (x : Inject) : (d.meetError x).cnt = d.cnt := rfl
@[simp] theorem Dev.meetError_regs (d : Dev) (x : Inject) : (d.meetError x).regs = d.regs := rfl
@[simp] theorem Dev.meetError_ctrs (d : Dev) (x : Inject) : (d.meetError x).ctrs = d.ctrs := rfl
@[simp] theorem Dev.meetError_free (d : Dev) (x : Inject) : (d.meetError x).free = d.free := rfl
@[simp] theorem Dev.meetError_out (d : Dev) (x : Inject) : (d.meetError x).out = d.out := rfl

theorem Dev.writeRest_shape (d : Dev) (fid : Nat) :
    ∃ e', d.writeRest fid = { d with store := e' } := ⟨_, rfl⟩

@[simp] theorem Dev.writeRest_now (d : Dev) (fid : Nat) : (d.writeRest fid).now = d.now := rfl
@[simp] theorem Dev.writeRest_boot (d : Dev) (fid : Nat) : (d.writeRest fid).boot = d.boot := rfl
@[simp] theorem Dev.writeRest_loopQ (d : Dev) (fid : Nat) : (d.writeRest fid).loopQ = d.loopQ := rfl
@[simp] theorem Dev.writeRest_fuses (d : Dev) (fid : Nat) : (d.writeRest fid).fuses = d.fuses := rfl
@[simp] theorem Dev.writeRest_clk (d : Dev) (fid : Nat) : (d.writeRest fid).clk = d.clk := rfl
@[simp] theorem Dev.writeRest_time (d : Dev) (fid : Nat) : (d.writeRest fid).time = d.time := rfl
@[simp] theorem Dev.writeRest_cmd (d : Dev) (fid : Nat) : (d.writeRest fid).cmd = d.cmd := rfl
@[simp] theorem Dev.writeRest_hl (d : Dev) (fid : Nat) : (d.writeRest fid).hl = d.hl := rfl
@[simp] theorem Dev.writeRest_mbx (d : Dev) (fid : Nat) : (d.writeRest fid).mbx = d.mbx := rfl
@[simp] theorem Dev.writeRest_mg0 (d : Dev) (fid : Nat) : (d.writeRest fid).mg0 = d.mg0 := rfl
@[simp] theorem Dev.writeRest_mg1 (d : Dev) (fid : Nat) : (d.writeRest fid).mg1 = d.mg1 := rfl
@[simp] theorem Dev.writeRest_intPend (d : Dev) (fid : Nat) : (d.writeRest fid).intPend = d.intPend := rfl
@[simp] theorem Dev.writeRest_heads (d : Dev) (fid : Nat) : (d.writeRest fid).heads = d.heads := rfl
@[simp] theorem Dev.writeRest_fwd (d : Dev) (fid : Nat) : (d.writeRest fid).fwd = d.fwd := rfl
@[simp] theorem Dev.writeRest_tm (d : Dev) (fid : Nat) : (d.writeRest fid).tm = d.tm := rfl
@[simp] theorem Dev.writeRest_red (d : Dev) (fid : Nat) : (d.writeRest fid).red = d.red := rfl
@[simp] theorem Dev.writeRest_thr (d : Dev) (fid : Nat) : (d.writeRest fid).thr = d.thr := rfl
@[simp] theorem Dev.writeRest_mem (d : Dev) (fid : Nat) : (d.writeRest fid).mem = d.mem := rfl
@[simp] theorem Dev.writeRest_opt (d : Dev) (fid : Nat) : (d.writeRest fid).opt = d.opt := rfl
@[simp] theorem Dev.writeRest_ports (d : Dev) (fid : Nat) : (d.writeRest fid).ports = d.ports := rfl
@[simp] theorem Dev.writeRest_plan (d : Dev) (fid : Nat) : (d.writeRest fid).plan = d.plan := rfl
@[simp] theorem Dev.writeRest_autoRemap (d : Dev) (fid : Nat) : (d.writeRest fid).autoRemap = d.autoRemap := rfl
@[simp] theorem Dev.writeRest_faults (d : Dev) (fid : Nat) : (d.writeRest fid).faults = d.faults := rfl
@[simp] theorem Dev.writeRest_cnt (d : Dev) (fid : Nat) : (d.writeRest fid).cnt = d.cnt := rfl
@[simp] theorem Dev.writeRest_regs (d : Dev) (fid : Nat) : (d.writeRest fid).regs = d.regs := rfl
@[simp] theorem Dev.writeRest_ctrs (d : Dev) (fid : Nat) : (d.writeRest fid).ctrs = d.ctrs := rfl
@[simp] theorem Dev.writeRest_free (d : Dev) (fid : Nat) : (d.writeRest fid).free = d.free := rfl
@[simp] theorem Dev.writeRest_out (d : Dev) (fid : Nat) : (d.writeRest fid).out = d.out := rfl

theorem Dev.spoilFrame_shape (d : Dev) (fid : Nat) :
    ∃ e', d.spoilFrame fid = { d with store := e' } := ⟨_, rfl⟩

@[simp] theorem Dev.spoilFrame_now (d : Dev) (fid : Nat) : (d.spoilFrame fid).now = d.now := rfl
@[simp] theorem Dev.spoilFrame_boot (d : Dev) (fid : Nat) : (d.spoilFrame fid).boot = d.boot := rfl
@[simp] theorem Dev.spoilFrame_loopQ (d : Dev) (fid : Nat) : (d.spoilFrame fid).loopQ = d.loopQ := rfl
@[simp] theorem Dev.spoilFrame_fuses (d : Dev) (fid : Nat) : (d.spoilFrame fid).fuses = d.fuses := rfl
@[simp] theorem Dev.spoilFrame_clk (d : Dev) (fid : Nat) : (d.spoilFrame fid).clk = d.clk := rfl
@[simp] theorem Dev.spoilFrame_time (d : Dev) (fid : Nat) : (d.spoilFrame fid).time = d.time := rfl
@[simp] theorem Dev.spoilFrame_cmd (d : Dev) (fid : Nat) : (d.spoilFrame fid).cmd = d.cmd := rfl
@[simp] theorem Dev.spoilFrame_hl (d : Dev) (fid : Nat) : (d.spoilFrame fid).hl = d.hl := rfl
@[simp] theorem Dev.spoilFrame_mbx (d : Dev) (fid : Nat) : (d.spoilFrame fid).mbx = d.mbx := rfl
@[simp] theorem Dev.spoilFrame_mg0 (d : Dev) (fid : Nat) : (d.spoilFrame fid).mg0 = d.mg0 := rfl
@[simp] theorem Dev.spoilFrame_mg1 (d : Dev) (fid : Nat) : (d.spoilFrame fid).mg1 = d.mg1 := rfl
@[simp] theorem Dev.spoilFrame_intPend (d : Dev) (fid : Nat) : (d.spoilFrame fid).intPend = d.intPend := rfl
@[simp] theorem Dev.spoilFrame_heads (d : Dev) (fid : Nat) : (d.spoilFrame fid).heads = d.heads := rfl
@[simp] theorem Dev.spoilFrame_fwd (d : Dev) (fid : Nat) : (d.spoilFrame fid).fwd = d.fwd := rfl
@[simp] theorem Dev.spoilFrame_tm (d : Dev) (fid : Nat) : (d.spoilFrame fid).tm = d.tm := rfl
@[simp] theorem Dev.spoilFrame_red (d : Dev) (fid : Nat) : (d.spoilFrame fid).red = d.red := rfl
@[simp] theorem Dev.spoilFrame_thr (d : Dev) (fid : Nat) : (d.spoilFrame fid).thr = d.thr := rfl
@[simp] theorem Dev.spoilFrame_mem (d : Dev) (fid : Nat) : (d.spoilFrame fid).mem = d.mem := rfl
@[simp] theorem Dev.spoilFrame_opt (d : Dev) (fid : Nat) : (d.spoilFrame fid).opt = d.opt := rfl
@[simp] theorem Dev.spoilFrame_ports (d : Dev) (fid : Nat) : (d.spoilFrame fid).ports = d.ports := rfl
@[simp] theorem Dev.spoilFrame_plan (d : Dev) (fid : Nat) : (d.spoilFrame fid).plan = d.plan := rfl
@[simp] theorem Dev.spoilFrame_autoRemap (d : Dev) (fid : Nat) : (d.spoilFrame fid).autoRemap = d.autoRemap := rfl
@[simp] theorem Dev.spoilFrame_faults (d : Dev) (fid : Nat) : (d.spoilFrame fid).faults = d.faults := rfl
@[simp] theorem Dev.spoilFrame_cnt (d : Dev) (fid : Nat) : (d.spoilFrame fid).cnt = d.cnt := rfl
@[simp] theorem Dev.spoilFrame_regs (d : Dev) (fid : Nat) : (d.spoilFrame fid).regs = d.regs := rfl
@[simp] theorem Dev.spoilFrame_ctrs (d : Dev) (fid : Nat) : (d.spoilFrame fid).ctrs = d.ctrs := rfl
@[simp] theorem Dev.spoilFrame_free (d : Dev) (fid : Nat) : (d.spoilFrame fid).free = d.free := rfl
@[simp] theorem Dev.spoilFrame_out (d : Dev) (fid : Nat) : (d.spoilFrame fid).out = d.out := rfl

theorem Dev.bankFails_shape (d : Dev) (bank : Nat) (limit : Bool) :
    ∃ f', d.bankFails bank limit = { d with faults := f' } := by
  unfold Dev.bankFails
  split
  · split_ifs
    · exact ⟨_, rfl⟩
    · exact Dev.detect_shape d true _ limit
  · exact ⟨_, rfl⟩

@[simp] theorem Dev.bankFails_now (d : Dev) (bank : Nat) (limit : Bool) : (d.bankFails bank limit).now = d.now := by
  obtain ⟨_, h⟩ := Dev.bankFails_shape d bank limit; rw [h]
@[simp] theorem Dev.bankFails_boot (d : Dev) (bank : Nat) (limit : Bool) : (d.bankFails bank limit).boot = d.boot := by
  obtain ⟨_, h⟩ := Dev.bankFails_shape d bank limit; rw [h]
@[simp] theorem Dev.bankFails_loopQ (d : Dev) (bank : Nat) (limit : Bool) : (d.bankFails bank limit).loopQ = d.loopQ := by
  obtain ⟨_, h⟩ := Dev.bankFails_shape d bank limit; rw [h]
@[simp] theorem Dev.bankFails_fuses (d : Dev) (bank : Nat) (limit : Bool) : (d.bankFails bank limit).fuses = d.fuses := by
  obtain ⟨_, h⟩ := Dev.bankFails_shape d bank limit; rw [h]
@[simp] theorem Dev.bankFails_clk (d : Dev) (bank : Nat) (limit : Bool) : (d.bankFails bank limit).clk = d.clk := by
  obtain ⟨_, h⟩ := Dev.bankFails_shape d bank limit; rw [h]
@[simp] theorem Dev.bankFails_time (d : Dev) (bank : Nat) (limit : Bool) : (d.bankFails bank limit).time = d.time := by
  obtain ⟨_, h⟩ := Dev.bankFails_shape d bank limit; rw [h]
@[simp] theorem Dev.bankFails_cmd (d : Dev) (bank : Nat) (limit : Bool) : (d.bankFails bank limit).cmd = d.cmd := by
  obtain ⟨_, h⟩ := Dev.bankFails_shape d bank limit; rw [h]
@[simp] theorem Dev.bankFails_hl (d : Dev) (bank : Nat) (limit : Bool) : (d.bankFails bank limit).hl = d.hl := by
  obtain ⟨_, h⟩ := Dev.bankFails_shape d bank limit; rw [h]
@[simp] theorem Dev.bankFails_mbx (d : Dev) (bank : Nat) (limit : Bool) : (d.bankFails bank limit).mbx = d.mbx := by
  obtain ⟨_, h⟩ := Dev.bankFails_shape d bank limit; rw [h]
@[simp] theorem Dev.bankFails_mg0 (d : Dev) (bank : Nat) (limit : Bool) : (d.bankFails bank limit).mg0 = d.mg0 := by
  obtain ⟨_, h⟩ := Dev.bankFails_shape d bank limit; rw [h]
@[simp] theorem Dev.bankFails_mg1 (d : Dev) (bank : Nat) (limit : Bool) : (d.bankFails bank limit).mg1 = d.mg1 := by
  obtain ⟨_, h⟩ := Dev.bankFails_shape d bank limit; rw [h]
@[simp] theorem Dev.bankFails_intPend (d : Dev) (bank : Nat) (limit : Bool) : (d.bankFails bank limit).intPend = d.intPend := by
  obtain ⟨_, h⟩ := Dev.bankFails_shape d bank limit; rw [h]
@[simp] theorem Dev.bankFails_heads (d : Dev) (bank : Nat) (limit : Bool) : (d.bankFails bank limit).heads = d.heads := by
  obtain ⟨_, h⟩ := Dev.bankFails_shape d bank limit; rw [h]
@[simp] theorem Dev.bankFails_fwd (d : Dev) (bank : Nat) (limit : Bool) : (d.bankFails bank limit).fwd = d.fwd := by
  obtain ⟨_, h⟩ := Dev.bankFails_shape d bank limit; rw [h]
@[simp] theorem Dev.bankFails_store (d : Dev) (bank : Nat) (limit : Bool) : (d.bankFails bank limit).store = d.store := by
  obtain ⟨_, h⟩ := Dev.bankFails_shape d bank limit; rw [h]
@[simp] theorem Dev.bankFails_tm (d : Dev) (bank : Nat) (limit : Bool) : (d.bankFails bank limit).tm = d.tm := by
  obtain ⟨_, h⟩ := Dev.bankFails_shape d bank limit; rw [h]
@[simp] theorem Dev.bankFails_red (d : Dev) (bank : Nat) (limit : Bool) : (d.bankFails bank limit).red = d.red := by
  obtain ⟨_, h⟩ := Dev.bankFails_shape d bank limit; rw [h]
@[simp] theorem Dev.bankFails_thr (d : Dev) (bank : Nat) (limit : Bool) : (d.bankFails bank limit).thr = d.thr := by
  obtain ⟨_, h⟩ := Dev.bankFails_shape d bank limit; rw [h]
@[simp] theorem Dev.bankFails_mem (d : Dev) (bank : Nat) (limit : Bool) : (d.bankFails bank limit).mem = d.mem := by
  obtain ⟨_, h⟩ := Dev.bankFails_shape d bank limit; rw [h]
@[simp] theorem Dev.bankFails_opt (d : Dev) (bank : Nat) (limit : Bool) : (d.bankFails bank limit).opt = d.opt := by
  obtain ⟨_, h⟩ := Dev.bankFails_shape d bank limit; rw [h]
@[simp] theorem Dev.bankFails_ports (d : Dev) (bank : Nat) (limit : Bool) : (d.bankFails bank limit).ports = d.ports := by
  obtain ⟨_, h⟩ := Dev.bankFails_shape d bank limit; rw [h]
@[simp] theorem Dev.bankFails_plan (d : Dev) (bank : Nat) (limit : Bool) : (d.bankFails bank limit).plan = d.plan := by
  obtain ⟨_, h⟩ := Dev.bankFails_shape d bank limit; rw [h]
@[simp] theorem Dev.bankFails_autoRemap (d : Dev) (bank : Nat) (limit : Bool) : (d.bankFails bank limit).autoRemap = d.autoRemap := by
  obtain ⟨_, h⟩ := Dev.bankFails_shape d bank limit; rw [h]
@[simp] theorem Dev.bankFails_cnt (d : Dev) (bank : Nat) (limit : Bool) : (d.bankFails bank limit).cnt = d.cnt := by
  obtain ⟨_, h⟩ := Dev.bankFails_shape d bank limit; rw [h]
@[simp] theorem Dev.bankFails_regs (d : Dev) (bank : Nat) (limit : Bool) : (d.bankFails bank limit).regs = d.regs := by
  obtain ⟨_, h⟩ := Dev.bankFails_shape d bank limit; rw [h]
@[simp] theorem Dev.bankFails_ctrs (d : Dev) (bank : Nat) (limit : Bool) : (d.bankFails bank limit).ctrs = d.ctrs := by
  obtain ⟨_, h⟩ := Dev.bankFails_shape d bank limit; rw [h]
@[simp] theorem Dev.bankFails_free (d : Dev) (bank : Nat) (limit : Bool) : (d.bankFails bank limit).free = d.free := by
  obtain ⟨_, h⟩ := Dev.bankFails_shape d bank limit; rw [h]
@[simp] theorem Dev.bankFails_out (d : Dev) (bank : Nat) (limit : Bool) : (d.bankFails bank limit).out = d.out := by
  obtain ⟨_, h⟩ := Dev.bankFails_shape d bank limit; rw [h]

theorem Dev.retireRow_shape (d : Dev) (array index : Nat) :
    ∃ c' i' e' f' o', d.retireRow array index = { d with cmd := c', intPend := i', store := e', faults := f', out := o' } := by
  unfold Dev.retireRow
  dsimp only
  obtain ⟨a, ha⟩ := Dev.event_shape _ _
  rw [ha]
  obtain ⟨b, i, f, o, hb⟩ := Dev.faultRec_shape _ _ _ _ _ _ _ _
  rw [hb]
  exact ⟨_, _, _, _, _, rfl⟩

@[simp] theorem Dev.retireRow_now (d : Dev) (array index : Nat) : (d.retireRow array index).now = d.now := by
  obtain ⟨_, _, _, _, _, h⟩ := Dev.retireRow_shape d array index; rw [h]
@[simp] theorem Dev.retireRow_boot (d : Dev) (array index : Nat) : (d.retireRow array index).boot = d.boot := by
  obtain ⟨_, _, _, _, _, h⟩ := Dev.retireRow_shape d array index; rw [h]
@[simp] theorem Dev.retireRow_loopQ (d : Dev) (array index : Nat) : (d.retireRow array index).loopQ = d.loopQ := by
  obtain ⟨_, _, _, _, _, h⟩ := Dev.retireRow_shape d array index; rw [h]
@[simp] theorem Dev.retireRow_fuses (d : Dev) (array index : Nat) : (d.retireRow array index).fuses = d.fuses := by
  obtain ⟨_, _, _, _, _, h⟩ := Dev.retireRow_shape d array index; rw [h]
@[simp] theorem Dev.retireRow_clk (d : Dev) (array index : Nat) : (d.retireRow array index).clk = d.clk := by
  obtain ⟨_, _, _, _, _, h⟩ := Dev.retireRow_shape d array index; rw [h]
@[simp] theorem Dev.retireRow_time (d : Dev) (array index : Nat) : (d.retireRow array index).time = d.time := by
  obtain ⟨_, _, _, _, _, h⟩ := Dev.retireRow_shape d array index; rw [h]
@[simp] theorem Dev.retireRow_hl (d : Dev) (array index : Nat) : (d.retireRow array index).hl = d.hl := by
  obtain ⟨_, _, _, _, _, h⟩ := Dev.retireRow_shape d array index; rw [h]
@[simp] theorem Dev.retireRow_mbx (d : Dev) (array index : Nat) : (d.retireRow array index).mbx = d.mbx := by
  obtain ⟨_, _, _, _, _, h⟩ := Dev.retireRow_shape d array index; rw [h]
@[simp] theorem Dev.retireRow_mg0 (d : Dev) (array index : Nat) : (d.retireRow array index).mg0 = d.mg0 := by
  obtain ⟨_, _, _, _, _, h⟩ := Dev.retireRow_shape d array index; rw [h]
@[simp] theorem Dev.retireRow_mg1 (d : Dev) (array index : Nat) : (d.retireRow array index).mg1 = d.mg1 := by
  obtain ⟨_, _, _, _, _, h⟩ := Dev.retireRow_shape d array index; rw [h]
@[simp] theorem Dev.retireRow_heads (d : Dev) (array index : Nat) : (d.retireRow array index).heads = d.heads := by
  obtain ⟨_, _, _, _, _, h⟩ := Dev.retireRow_shape d array index; rw [h]
@[simp] theorem Dev.retireRow_fwd (d : Dev) (array index : Nat) : (d.retireRow array index).fwd = d.fwd := by
  obtain ⟨_, _, _, _, _, h⟩ := Dev.retireRow_shape d array index; rw [h]
@[simp] theorem Dev.retireRow_tm (d : Dev) (array index : Nat) : (d.retireRow array index).tm = d.tm := by
  obtain ⟨_, _, _, _, _, h⟩ := Dev.retireRow_shape d array index; rw [h]
@[simp] theorem Dev.retireRow_red (d : Dev) (array index : Nat) : (d.retireRow array index).red = d.red := by
  obtain ⟨_, _, _, _, _, h⟩ := Dev.retireRow_shape d array index; rw [h]
@[simp] theorem Dev.retireRow_thr (d : Dev) (array index : Nat) : (d.retireRow array index).thr = d.thr := by
  obtain ⟨_, _, _, _, _, h⟩ := Dev.retireRow_shape d array index; rw [h]
@[simp] theorem Dev.retireRow_mem (d : Dev) (array index : Nat) : (d.retireRow array index).mem = d.mem := by
  obtain ⟨_, _, _, _, _, h⟩ := Dev.retireRow_shape d array index; rw [h]
@[simp] theorem Dev.retireRow_opt (d : Dev) (array index : Nat) : (d.retireRow array index).opt = d.opt := by
  obtain ⟨_, _, _, _, _, h⟩ := Dev.retireRow_shape d array index; rw [h]
@[simp] theorem Dev.retireRow_ports (d : Dev) (array index : Nat) : (d.retireRow array index).ports = d.ports := by
  obtain ⟨_, _, _, _, _, h⟩ := Dev.retireRow_shape d array index; rw [h]
@[simp] theorem Dev.retireRow_plan (d : Dev) (array index : Nat) : (d.retireRow array index).plan = d.plan := by
  obtain ⟨_, _, _, _, _, h⟩ := Dev.retireRow_shape d array index; rw [h]
@[simp] theorem Dev.retireRow_autoRemap (d : Dev) (array index : Nat) : (d.retireRow array index).autoRemap = d.autoRemap := by
  obtain ⟨_, _, _, _, _, h⟩ := Dev.retireRow_shape d array index; rw [h]
@[simp] theorem Dev.retireRow_cnt (d : Dev) (array index : Nat) : (d.retireRow array index).cnt = d.cnt := by
  obtain ⟨_, _, _, _, _, h⟩ := Dev.retireRow_shape d array index; rw [h]
@[simp] theorem Dev.retireRow_regs (d : Dev) (array index : Nat) : (d.retireRow array index).regs = d.regs := by
  obtain ⟨_, _, _, _, _, h⟩ := Dev.retireRow_shape d array index; rw [h]
@[simp] theorem Dev.retireRow_ctrs (d : Dev) (array index : Nat) : (d.retireRow array index).ctrs = d.ctrs := by
  obtain ⟨_, _, _, _, _, h⟩ := Dev.retireRow_shape d array index; rw [h]
@[simp] theorem Dev.retireRow_free (d : Dev) (array index : Nat) : (d.retireRow array index).free = d.free := by
  obtain ⟨_, _, _, _, _, h⟩ := Dev.retireRow_shape d array index; rw [h]

/-- All that a port's sending does: one more entry in what was sent, and in loopback its return in the queue. -/
theorem Dev.emit_eq (d : Dev) (p : Nat) (o : Out) (l : List Instr) :
    d.emit p o l = { d.send o with loopQ := if d.loopsBack p then d.loopQ ++ l else d.loopQ } := by
  unfold Dev.emit
  split <;> rfl

end Sys2Proof.Machine
end

