-- ==== Sys2Proof/Laws/State.lean ====
section
/-! SUPPORT. Laws of the state: its updates field by field, one step, and the state after reset. -/

namespace Sys2Proof.Machine

@[simp] theorem State.put_d (s : State) (d : Dev) : (s.put d).d = d := rfl
@[simp] theorem State.put_pending (s : State) (d : Dev) : (s.put d).pending = s.pending := rfl
@[simp] theorem State.put_put (s : State) (d e : Dev) : (s.put d).put e = s.put e := rfl
@[simp] theorem State.put_self (s : State) : s.put s.d = s := rfl

theorem goto_eq (s : State) (d : Dev) : goto s d = .next (s.put d) := rfl

theorem goto_next {s t : State} {d : Dev} (h : goto s d = .next t) : t = s.put d := by
  rw [goto_eq] at h
  injection h with h
  exact h.symm

/-- A step on a queue that holds a command runs that command. -/
theorem step_cons (s : State) (c : Instr) (r : List Instr) (h : s.pending = c :: r) :
    step s = exec c { s with pending := r } := by
  unfold step; rw [h]

theorem step_nil (s : State) (h : s.pending = []) : step s = execTick s := by
  unfold step; rw [h]

@[simp] theorem State.reset_pending : State.reset.pending = [] := rfl
@[simp] theorem State.reset_d : State.reset.d = Dev.reset := rfl

end Sys2Proof.Machine
end

