-- ==== Sys2Proof/Laws/Commands.lean ====
section
/-! SUPPORT. Laws of command packets: what a command that is let in does, and what the gate answers to
one that is not. -/

namespace Sys2Proof.Machine

/-- A command that is let in and answers: its effect, then its reply. -/
theorem Dev.runCmd_answers {d d1 : Dev} {i : Instr} {c : CmdCtx} {op : Nat} {cls : PrivClass}
    {f : Dev → Dev × Option (Status × Res)} {st : Status} {r : Res} (h : d.Runs i c op cls)
    (hf : f (d.touch c) = (d1, some (st, r))) : d.runCmd i c op cls f = d1.reply c op st r := by
  obtain ⟨h1, h2, h3⟩ := h
  simp [Dev.runCmd, Dev.mayBegin, h1, h2, h3, hf]

/-- A command that is let in and whose reply is held: its effect alone. -/
theorem Dev.runCmd_holds {d d1 : Dev} {i : Instr} {c : CmdCtx} {op : Nat} {cls : PrivClass}
    {f : Dev → Dev × Option (Status × Res)} (h : d.Runs i c op cls) (hf : f (d.touch c) = (d1, none)) :
    d.runCmd i c op cls f = d1 := by
  obtain ⟨h1, h2, h3⟩ := h
  simp [Dev.runCmd, Dev.mayBegin, h1, h2, h3, hf]

/-- A command that the gate turns away is answered; it restarts its transaction's idle time alone. -/
theorem Dev.runCmd_turned_away {d : Dev} {i : Instr} {c : CmdCtx} {op : Nat} {cls : PrivClass}
    {f : Dev → Dev × Option (Status × Res)} {st : Status} (h : d.gate c op cls = .answer st) :
    d.runCmd i c op cls f = (d.touch c).reply c op st .empty := by
  simp [Dev.runCmd, h]

/-- A device in reset, or one without SV1, answers nothing. -/
theorem Dev.runCmd_dead {d : Dev} {i : Instr} {c : CmdCtx} {op : Nat} {cls : PrivClass}
    {f : Dev → Dev × Option (Status × Res)} (h : d.gate c op cls = .dead) : d.runCmd i c op cls f = d := by
  simp [Dev.runCmd, h]

/-- A command without a transaction touches none: it moves the pointer over the sources alone. -/
theorem Dev.touch_none (d : Dev) (c : CmdCtx) (h : c.txn = 0) :
    d.touch c = { d with cmd := { d.cmd with ptr := c.src.num } } := by
  simp [Dev.touch, h]

end Sys2Proof.Machine
end

