-- ==== Sys2Proof/Laws/Writes.lean ====
section
/-! SUPPORT. The device's own writes keep board memory canonical. -/

namespace Sys2Proof.Machine

/-- A snoop leaves the bytes as they are. -/
@[simp] theorem Dev.snoop_cells (d : Dev) (line : Nat) : (d.snoop line).mem.cells = d.mem.cells := by
  unfold Dev.snoop
  dsimp only
  split_ifs <;> rfl

/-- A write that waits leaves the bytes as they are. -/
@[simp] theorem Dev.waitWrite_cells (d : Dev) (w : WaitWrite) : (d.waitWrite w).mem.cells = d.mem.cells := rfl

theorem memWf_writeLine (d : Dev) (a : Nat) (b : List Byte) (h : memWf d.mem.cells = true) :
    memWf (d.writeLine a b).mem.cells = true := by
  unfold Dev.writeLine
  dsimp only
  split_ifs
  · simpa using h
  · exact h
  · exact memWf_applyWrite d a b h

/-- A write of any length keeps what each write to a line keeps. -/
theorem memWf_writeLines (f : Dev → Nat → List Byte → Dev)
    (hf : ∀ d a b, memWf d.mem.cells = true → memWf (f d a b).mem.cells = true) (n : Nat) (d : Dev) (a : Nat)
    (b : List Byte) (h : memWf d.mem.cells = true) : memWf (Dev.writeLines f n d a b).mem.cells = true := by
  induction n generalizing d a b with
  | zero => exact h
  | succ n ih =>
    unfold Dev.writeLines
    dsimp only
    split_ifs
    · exact h
    · exact hf d a b h
    · exact ih _ _ _ (hf d a _ h)

theorem memWf_devWrite (d : Dev) (a : Nat) (b : List Byte) (h : memWf d.mem.cells = true) :
    memWf (d.devWrite a b).mem.cells = true := by
  unfold Dev.devWrite
  split_ifs
  · exact memWf_writeLines _ memWf_writeLine _ _ _ _ h
  · exact h

end Sys2Proof.Machine
end

