-- ==== Sys2Proof/Machine/LineChain.lean ====
section
/-! DEFINITION. The coding chain of an optical line (R320, R322): blocks of 257 bits, the outer and the inner code,
and the PAM4 symbols.  The rules name the two codes by their sizes, so their check symbols are opaque.
DESIGN CHOICE, log entry 176. -/

namespace Sys2Proof.Machine

/-- The whole groups of `n` consecutive things of a list. -/
def groupsOf {α : Type} (n : Nat) (l : List α) : List (List α) :=
  (List.range (l.length / n)).map fun i => (l.drop (i * n)).take n

/-- A block of the line: a data block, or a control block (R322). -/
structure LineBlock where
  isData : Bool
  body : BitVec 256
  deriving DecidableEq, Repr

/-- The body of a control block that the device sends: bits that the table does not list are 0 (R10, R322). -/
def ControlBlock.body : ControlBlock → BitVec 256
  | .idle => 0#256
  | .sync off => (1#8 ++ 0#8) ++ off ++ 0#224
  | .link m => (2#8 ++ 0#8) ++ m ++ 0#48
  | .reserved => 3#8 ++ 0#248

/-- The blocks of frame bytes, which data blocks carry contiguously, 32 in each (R322). -/
def dataBlocks (l : List Byte) : List LineBlock :=
  (groupsOf 32 l).map fun b => { isData := true, body := BitVec.ofNat 256 (ofBe b) }

/-- The 257 bits of a block: the header bit, then the body from its most significant bit. -/
def LineBlock.bits (b : LineBlock) : List Bool :=
  b.isData :: (List.range 256).map fun i => b.body.getLsbD (255 - i)

/-- Bits as a number, the first most significant. -/
def bitsNat (l : List Bool) : Nat := l.foldl (fun n b => 2 * n + b.toNat) 0

/-- A codeword of the outer code RS(544,514): the 514 symbols of ten bits of twenty blocks, and thirty check symbols. -/
def outerWord (blocks : List LineBlock) : List (BitVec 10) :=
  let data := (groupsOf 10 (blocks.flatMap LineBlock.bits)).map fun g => BitVec.ofNat 10 (bitsNat g)
  data ++ (List.range 30).map fun i => Config.outerCheck data i

/-- A word of the inner code (128,120): 120 bits and eight check bits. -/
def innerWord (l : List Bool) : List Bool := l ++ (List.range 8).map fun i => Config.innerCheck l i

/-- The line's bits of codewords of the outer code. -/
def lineWords (l : List (BitVec 10)) : List Bool :=
  (groupsOf 120 (l.flatMap fun s => (List.range 10).map fun i => s.getLsbD (9 - i))).flatMap innerWord

/-- PAM4 symbols of the line's bits, Gray coded. -/
def lineLevels (l : List Bool) : List Level :=
  (groupsOf 2 l).map fun g => grayLevel (g.getD 0 false) (g.getD 1 false)

/-- The symbols of a run of blocks, in codewords of twenty. -/
def lineSymbols (blocks : List LineBlock) : List Level :=
  lineLevels (lineWords ((groupsOf 20 blocks).flatMap outerWord))

/-- Rates of the chain, in bits of 1,000 s: PAM4's two bits of a symbol, then 120 of 128, 514 of 544, 256 of 257, and
8,192 of 8,193, the most that control blocks leave (R320). -/
def rawRate (slow : Bool) : Nat := 2 * (if slow then 113350000000000 else 226700000000000)
def innerRate (slow : Bool) : Nat := rawRate slow * 120 / 128
def outerRate (slow : Bool) : Nat := innerRate slow * 514 / 544
def blockRate (slow : Bool) : Nat := outerRate slow * 256 / 257
def frameRate (slow : Bool) : Nat := blockRate slow * 8192 / 8193

end Sys2Proof.Machine
end

