-- ==== Sys2Proof/Tests/States.lean ====
section
/-! SUPPORT. The states that the tests and the witnesses are about: the machine after reset with one thing
changed. -/

namespace Sys2Proof.Tests

open Sys2Proof Sys2Proof.Machine

/-- A state with an empty queue. -/
def mk (d : Dev) : State := { pending := [], d := d }

/-- The device after reset in a device state; Howlink is trained and holds owner class. -/
def dv (st : DevState) : Dev :=
  { State.reset.d with
    boot := { State.reset.d.boot with st := st, hlOwner := true, system := 7, slot := 1, addr := svcAddr 1 5 0, role := 1 },
    hl := { State.reset.d.hl with trained := true } }

/-- The device in RUN, in SAFE_TALK and in READY. -/
def dRun : Dev := dv .run
def dSafe : Dev := dv .safeTalk
def dReady : Dev := dv .ready

/-- The device in RUN with SV3 stopped. -/
def dNo3 : Dev := { dRun with boot := { dRun.boot with svStopped := 8 } }

/-- A command packet's header on Howlink that names a transaction. -/
def cTx (txn : BitVec 16) : CmdCtx := { src := .howlink, agent := 0, session := 0, seq := 1, txn := txn, noWait := false }

/-- One that names none. -/
def c0 : CmdCtx := cTx 0

/-- One of an owner's session on MG0. -/
def cMg : CmdCtx := { src := .mg0, agent := 0, session := 1, seq := 1, txn := 0, noWait := false }

/-- The device with MG0 in a stage, with an owner's session. -/
def dMg (d : Dev) (st : Nat) : Dev :=
  { d with mg0 := { d.mg0 with st := st, los := false, sync := true, sessions := [{ id := 1, cls := some .owner }] } }

/-- Port 511 in a state. -/
def dPort (x : PortSt) : Dev := dRun.setPort 511 x
def p511 : Port := ⟨511, by decide⟩

/-- A port of full rate in a state. -/
def full (st : PortState) : PortSt := {
    st := st, mode := 1, fecLock := true, los := false, frameSync := true, muted := false }

/-- A header of a kind. -/
def hdr (kind : BitVec 4) (sub : Byte) (ctx : BitVec 16) (seq : Word) (ksf : Dword) : Header :=
  { Header.blank with ver := 1, kind := kind, sub := sub, ctx := ctx, seq := seq, ksf := ksf, part := 1, job := 2 }

/-- A whole frame with a header and a payload, whose check is right. -/
def frameOf (h : Header) (b : List Byte) : Frame :=
  { hdr := h, rx := h, e2e := e2eCheck h b, payload := b, arr := some (3, 3), at_ := 0, stamp := 0, whole := true,
    inputCopy := false, oldBank := false, charge := none, ptp := false, wb := none, sentAt := none,
    glean := false, bad := false }

/-- A copy of frame 0. -/
def copyTo (t : Dest) (cls : BitVec 3) : Copy :=
  { fid := 0, dest := t, cls := cls, shared := true, cells := 1, mirror := false, gleaned := false }

/-- A frame at the head of a queue. -/
def atQueue (d : Dev) (t : Dest) (cls : BitVec 3) (f : Frame) : Dev :=
  { d with store := { d.store with
    frames := [(0, f)], nextFid := 1, queues := [(qkey t cls.toNat, [copyTo t cls])] } }

/-- The head of a queue, as `AtHead` says it. -/
theorem atHead_intro {d : Dev} {k tc : Nat} {f : Frame} (c : Copy) (r : List Copy)
    (h : d.awake = true ∧ (d.queue (.cluster k) tc = c :: r ∧ d.frame? c.fid = some f ∧ d.expired c = false) ∧
      f.whole = true ∧ (f.bad = false ∧ e2eCheck f.hdr f.payload = f.e2e) ∧ d.faults.injects = [] ∧
      d.store.slots.fetchBad = []) :
    d.AtHead k tc f :=
  ⟨h.1, ⟨c, r, h.2.1⟩, h.2.2.1, h.2.2.2.1, h.2.2.2.2.1, h.2.2.2.2.2⟩

/-- A context entry of operation SUM. -/
def ctxE (level : BitVec 2) (op : BitVec 4) : CtxEntry :=
  { level := level, spillOk := true, prio := 0, part := 1, fmt := 1, job := 2, op := op, tf := false, wide := false,
    rnd := false, seed := 0, cseq := 0, meanN := 1, meanNNext := 1, tiers := 2, cap := 1, window := 1,
    upCredits := 1, n2 := 1, n3 := 1, retryUs := 1, abandonUs := 1, lingerUs := 1, report := 0, boundary := 5,
    members := 0x18, membersNext := 0x8 }

/-- An open transaction of Howlink with ID 1. -/
def txn1 : Txn := { src := .howlink, id := 1, session := 0, scope := 0, idleS := 60, drainMs := 100, touched := 0 }

/-- The device with that transaction. -/
def dTxn (t : Txn) : Dev := { dRun with cmd := { dRun.cmd with txns := [t] } }

/-- The device in BOOT. -/
def dBoot : Dev := dv .boot

/-- A self-test that repairs and loses nothing. -/
def selfTestOk (svFail : BitVec 4) : SelfTestResult :=
  { svFail := svFail, banks := [], rowsRepaired := 0, rowsFatal := 0, cores := [], lanes := [], lasers := [], rings := [],
    tCal := 25, g7Density := 16, g7Rate := 28, g7Fatal := false, g7Pages := [] }

/-- A configuration image that sets nothing. -/
def cfg0 : BootCfg :=
  { role := 1, fwMajor := 1, fwMinor := 0, system := 7, chassis := 1, slot := 1, addr := svcAddr 1 5 0, g7Density := 16,
    g7Rate := 28, expanders := [], portModes := [], laserRefs := [], plan := [], autoRemap := 0, requesters := [],
    hlOwner := true, mgMode0 := 0, mgMode1 := 0, mgMac0 := 0, mgMac1 := 0, regs := [], staged := [] }

/-- A pair of link messages of another major version. -/
def otherPair : List Byte :=
  let id := dRun.exchId 0x400 0
  let f : List Byte := [0x11, 0, 2, 0, 0, 0, 0, 0]
  LinkMsg.bytes (LinkMsg.ofBytes id) ++ LinkMsg.bytes (LinkMsg.ofBytes (f ++ beBytes 4 (exchCheck id f).toNat))

/-- The device with board memory, three expanders and a spare. -/
def dMem : Dev :=
  { dRun with mem := { dRun.mem with
    density := 16, regions := [(0, { kind := .host, base := 0x2000000000000, size := 0x6C0000000 })],
    exp0 := { role := 1, capGib := 256 }, exp1 := { role := 1, capGib := 256 }, exp2 := { role := 1, capGib := 256 },
    exp3 := { role := 2, capGib := 256 }, granCap := 256, stripes := [0, 1, 2] } }

/-- A command packet that arrives on Howlink. -/
def arrOf (opcode len bytes : Nat) : Arrival :=
  { src := .howlink, agent := 0, session := 0, secured := false,
    packet := packetHeader opcode 1 0 1 0 0 0 len 0 ++ List.replicate bytes 0 }
def arr0 : Arrival := arrOf 0x0101 0 0

/-- MG0 in ACTIVE after its negotiation, with sessions. -/
def dSpdm (cls : Option PrivClass) (n : Nat) : Dev :=
  { dRun with mg0 := { dRun.mg0 with
    st := 5, spdm := 3, sessions := (List.range n).map fun i => { id := BitVec.ofNat 8 (i + 1), cls := cls } } }

/-- A context in a state, as context 3. -/
def dCtx (c : Ctx) : Dev := { dRun with red := { dRun.red with ctxs := [(3, c)] } }

/-- A Thresh job. -/
def job0 : ThrJob :=
  { cfg := { gate := 1, mcl := 0, part := 1, job := 2, voteSheaf := 5, voteUp := 0, normUp := 0, normSheaf := 6,
             lossScale := 0x3F800000, clipMax := 0x3F800000, phase := 4 },
    phase := 4, own := .solo, both := false }

/-- A buffer that holds a header of zeros: no firmware and no configuration. -/
def wholeImage : Tab Byte := putImage [] 0 (List.replicate 512 0)

/-- A waiting transaction with one staged command. -/
def txnOf (x : Staged) : Txn := { txn1 with st := .waiting, staged := [x] }

/-- One that waits for port 511, which drains. -/
def txnDrain : Txn := txnOf (.optPortMode { port := 511, mode := 1, express := false, c := 0 })
def dDrain : Dev := { dPort (full .draining) with cmd := { dRun.cmd with txns := [txnDrain] } }
def heldCommit : HeldReply := { c := cTx 1, opcode := 0x0A02, what := .commit 1, at_ := 0, deferred := false }

/-- A PORT_RESTART of port 511 whose reply is held. -/
def heldRestart : HeldReply := { c := c0, opcode := 0x0206, what := .portRestart 511, at_ := 0, deferred := false }

/-- Port 511 to the mode it has. -/
def mode0 : OptPortModeP := { port := 511, mode := 1, express := false, c := 0 }

/-- One whose command names a partition that does not exist. -/
def txnBad : Txn := txnOf (.partSet { part := 4096, valid := true, learnEn := true, ports := 1 })

/-- A plan entry that names leaf 3's port 9. -/
def plan0 : PlanEntry := { valid := true, role := 0, addr := svcAddr 0 3 0, port := 0xFFFF, serial := 0, system := 7 }

/-- The pair that the partner of that entry sends. -/
def idBytes : List Byte :=
  [0x10, 1] ++ beBytes 4 7 ++ beBytes 2 1 ++ [1, 0] ++ beBytes 2 9 ++ beBytes 8 5 ++ beBytes 3 (svcAddr 0 3 0).toNat ++ [0]
def pairId : LinkMsg := LinkMsg.ofBytes idBytes
def pairFeat (major : Byte) : LinkMsg :=
  let f : List Byte := [0x11, 1, major, 0, 0, 0, 0, 0xF]
  LinkMsg.ofBytes (f ++ beBytes 4 (exchCheck idBytes f).toNat)

/-- Port 511's state in a training witness. -/
def x0 : PortSt := { full .train with rxReady := true, readySent := 8, readyGot := 2 }

/-- A laser swap of port 511. -/
def swap0 (t : SwapStep) : Swap := { port := 511, spare := 3, step := t, token := 0xFF }
def dSwap (t : SwapStep) (x : PortSt) : Dev :=
  { dPort x with opt := { dRun.opt with swaps := [(15, swap0 t)] } }

def fault0 : FaultRec :=
  { fseq := 0, sec := 0, ns := 0, cls := 1, unit_ := 1, index := 0, sub := 0, action := 1, left := 0, detail := 0 }

/-- A dynamic entry at position 0 of the exact-match table. -/
def entry0 : EmEntry := { key := 5, static := false, res := { rtype := 0, target := 511 } }
def dEm (e : EmEntry) : Dev := { dRun with fwd := { dRun.fwd with cur := { em := [(0, e)] }, other := { em := [(0, e)] } } }
def learn0 : LearnEv := { key := 5, kind := .create 0 511, peer := false }

/-- A frame taken for a service. -/
def taken0 (svc : Nat) : Taken :=
  let h : Header := { hdr 0 0 0 0 (BitVec.ofNat 64 (1 <<< 52 ||| 5 <<< 40 ||| (if svc = 2 then 0 else 1 <<< 48))) with dst := svcAddr 1 5 svc }
  { hdr := h, payload := [], e2e := e2eCheck h [], port := 3 }

/-- Sheaf settings with members 3 and 4, and a sheaf. -/
def sheafCfg (level : BitVec 2) : SheafCfg :=
  { valid := true, level := level, actThresh := false, actMcast := false, dop := 0, part := 1, job := 2, releaseGroup := 9,
    target := 2, phase := 4, up := 0, retryUs := 1, stuckMs := 1, members := 0x18 }
def dSheaf (n : Nat) (x : Sheaf) : Dev := { dRun with red := { dRun.red with sheaves := [(n, x)] } }
def sheafF (count : Nat) : Frame := frameOf (hdr 4 0 3 4 (BitVec.ofNat 64 (count <<< 32))) []
def rel0 : SheafRel := { sheaf := 3, part := 1, job := 2, phase := 4, count := 2, datum := 0, src := 0 }

/-- A frame that port 511 receives. -/
def rx0 (h : Header) : RxFrame := { hdr := h, cls := 7, fids := [], consumed := false, at_ := 0, stamp := 0 }

/-- A copy on the wire of port 511. -/
def send0 : Sending :=
  { copy := copyTo (.port 511) 7, hdr := hdr 0 0 0 0 0, cut := false, ceSet := false, tailMark := false, ended := true,
    stamp := 0, built := none, launch := false, late := false }
def dSend (f : Frame) : Dev :=
  { dPort (full .active) with store := { dRun.store with frames := [(0, f)], sending := [(511, [send0])] } }
/-- One of a length with some of its cells read. -/
def sendLen (len : BitVec 14) (read : Nat) : Sending := { send0 with hdr := { send0.hdr with len := len }, read := read }
def dSending (x : Sending) (f : Frame) : Dev :=
  { dSend f with store := { (dSend f).store with sending := [(511, [x])] } }
def launch0 : Launch := { t := 0, copy := copyTo (.port 511) 7, late := false, ready := false }

/-- A ring with one descriptor that the device owns. -/
def dRing (r : Nat) : Dev := (dRun.setReg (offRing r 8) 0x60001).setReg (offRing r 0xC) 1
def desc0 (len : Nat) : List Byte :=
  leBytes 8 0 ++ leBytes 2 len ++ leBytes 2 511 ++ [1, 0, 0, 0] ++ List.replicate 16 0
def rxDesc0 (len : Nat) : List Byte := leBytes 8 0 ++ leBytes 2 len ++ List.replicate 22 0

/-- The device as leaf 5 with ports 3 and 4 ACTIVE for partition 1. -/
def dLeaf : Dev :=
  { dRun with
    boot := { dRun.boot with role := 0, addr := svcAddr 0 5 0 },
    ports := [(3, full .active), (4, full .active)],
    fwd := { dRun.fwd with cur := { parts := [(1, { valid := true, learnEn := true, ports := 0x18 })] } } }

/-- A device whose ports 3 and 4 are those of `dLeaf`. -/
def onLeaf (d : Dev) : Dev := { d with ports := dLeaf.ports, fwd := dLeaf.fwd }

/-- Up-port 0 with spine 5 as its partner. -/
def dLeafPorts : Tab PortSt :=
  [(16, { full .active with hasPair := true, partnerId := LinkMsg.ofBytes (
    [0x10, 1] ++ beBytes 4 7 ++ beBytes 2 1 ++ [1, 1] ++ beBytes 2 9 ++ beBytes 8 5 ++ beBytes 3 (svcAddr 1 5 0).toNat ++ [0]) })]

/-- A contribution to chunk 7 of context 3 from port 3, and what may stand there. -/
def con0 : Frame :=
  frameOf { hdr 2 0 3 7 0 with fmt := 1, len := 4, dst := svcAddr 0 5 0, src := 0x500 } [0x3F, 0x80, 0, 0]
def redCtx (level : BitVec 2) (l : List Chunk) : Ctx := { e := ctxE level 0, st := .active, chunks := l }
def chunk0 (bits : PortMask) : Chunk := { seq := 7, rh := false, bits := bits, acc := [{ v := 0, hit := false }], att := (ctxE 1 0).arith false, opened := 0 }
def sentChunk : Chunk := { chunk0 0x18 with st := .sent }
def dRed (c : Ctx) (f : Frame) : Dev := atQueue { dLeaf with red := { ctxs := [(3, c)] } } (.cluster 0) 4 f

/-- A NACK that names chunk 7 of context 3. -/
def nack0 (sub : Byte) (reason : Nat) : Frame :=
  frameOf (hdr 7 sub 0 0 (BitVec.ofNat 64 (3 <<< 48 ||| 7 <<< 16 ||| reason <<< 8))) []
def linger0 : Linger := { payload := [0, 0, 0, 0], sub := 0, until_ := 0, order := 0 }
def lingerCtx : Ctx :=
  { e := ctxE 2 0, st := .active, fin := [{ seq := 7, isDone := true, rh := false, linger := some linger0 }] }

/-- A Thresh job with one shard, as shard 7 of context 3. -/
def thrCtx : Ctx := { e := ctxE 2 7, st := .active }
def parkCtx : Ctx := { e := ctxE 2 7, st := .active, chunks := [{ chunk0 8 with st := .waitPark }] }
def param0 : ThrParam :=
  { recipe := 0, mtype := false, biasCorr := false, jent := 63, lr := 0, beta1 := 0, beta2 := 0, eps := 0, wd := 0, step := 0 }
def shard0 : ThrShard :=
  { cfg := { jent := 63, param := 9, wfmt := 1, ctx := 3, wgroup := 9, cps := 2, seqBase := 0,
             stateBase := 0x4000000000000, mapBase := 0x2000000000000 }, seqBase := 0 }
def shardR : ThrShard := { shard0 with ready := true, home := 1, peer := 1, cursor := 2 }
def thrOf (x : ThrJob) (h : ThrShard) : Dev :=
  { dRun with
    red := { ctxs := [(3, thrCtx)] },
    thr := { jobs := [(63, x)], params := [(9, { f := param0 })], shards := [(7, h)] },
    mem := dMem.mem }
def dThr : Dev := thrOf job0 shard0
def thrRel (datum : Word) : SheafRel := { sheaf := 5, part := 1, job := 2, phase := 4, count := 2, datum := datum, src := 0 }

/-- A parked chunk of phase 4 whose slot holds phase `stamp`. -/
def parked0 : Parked := { ctx := 3, seq := 0, phase := 4, vals := [0], flags := 0, st := .staging }
def dUpd (stamp : Word) : Dev :=
  { (thrOf job0 shardR).setMapEnt shardR 0 { valid := true, peer := false, lost := false, stale := false, slot := 0, stamp := stamp }
    with thr := { (thrOf job0 shardR).thr with park := [parked0] } }
def wreq : Frame := frameOf (hdr 7 0x13 0 0 (BitVec.ofNat 64 (3 <<< 48))) []
def dLost : Dev :=
  (thrOf { job0 with own := .lost } shardR).setMapEnt shardR 0
    { valid := true, peer := false, lost := true, stale := false, slot := 0, stamp := 3 }
def dOwn (o : CopyState) : Dev := thrOf { job0 with own := o } shardR
def dBulk : Dev := thrOf { job0 with bulk := some (3, 0) } { shard0 with home := 1, peer := 1 }

def dBulkEnd : Dev := thrOf { job0 with bulk := some (3, 1) } { shard0 with home := 1, peer := 1 }

/-- A mirror frame of the job. -/
def mir (sub : Byte) (seq : Word) (off : Nat) (b : List Byte) : Frame :=
  frameOf (hdr 6 sub 0 seq (BitVec.ofNat 64 ((if sub = 2 then 0 else 3 <<< 48) ||| off))) b


/-- A dither window that finds the port's own channel alone, and one that finds none. -/
def toneOwn : ToneWindow :=
  { tones := (List.range 16).map fun i => if i = (dRun.port 511).chan 511 then 0 else 0xE000, floor := 0xE000, power := 0 }
def toneNone : ToneWindow := { tones := [], floor := 0, power := 0 }

/-- A SYNC block with an offset. -/
def syncBody (off : BitVec 16) : BitVec 256 := (1#8 ++ 0#8) ++ off ++ 0#224

/-- A LINK block of zeros. -/
def linkBody : BitVec 256 := 2#8 ++ 0#248

end Sys2Proof.Tests
end

