-- ==== Sys2Proof/WellFormed.lean ====
section
/-! DEFINITION. Which terms of `Instr` are commands of the block: the bounds that the operand types
do not carry already. -/

namespace Sys2Proof

/-- Payload bytes of a frame (R40). -/
def wfPayload (l : List Byte) : Bool := decide (l.length ≤ 8192)

/-- Parameter bytes of a command packet (R402). -/
def wfParam (l : List Byte) : Bool := decide (l.length ≤ 4096)

/-- A whole packet holds its 16-byte header (R402). -/
def wfPacket (a : Arrival) : Bool := decide (16 ≤ a.packet.length)

/-- A descriptor is 32 bytes (R444, R534). -/
def wfDesc (l : List Byte) : Bool := decide (l.length = 32)

/-- Image bytes of one IMAGE_LOAD (R477). -/
def wfImage (l : List Byte) : Bool := decide (l.length ≤ 4080)

/-- A companion access holds 1 to 4,096 bytes; a write carries them all. -/
def wfMem (m : MemAccess) : Bool :=
  decide (0 < m.len ∧ m.len ≤ 4096) && (!m.write || decide (m.data.length = m.len))

/-- A register access is 32 or 64 bits wide and lies in the 64 MiB window (R527, R528). -/
def wfRegWrite (off width : Nat) : Bool :=
  decide (off < 0x4000000) && (width == 32 || width == 64)

/-- The sixteen sensors of R544. -/
def wfTemps (l : List Int) : Bool := decide (l.length = 16)

/-- Sixteen tones (R336). -/
def wfTones (w : ToneWindow) : Bool := decide (w.tones.length = 16)

/-- The bounds on a command's operands. -/
def Instr.wf : Instr → Bool
  | .frameTailReceived _ payload _ _ => wfPayload payload
  | .devNop _ bytes => wfParam bytes
  | .imageLoad _ _ _ bytes => wfImage bytes
  | .howlinkMemAccess m => wfMem m
  | .registerWrite _ off width _ => wfRegWrite off width
  | .thermalSensorScan temps => wfTemps temps
  | .toneWindow _ _ w => wfTones w
  | .commandArrival a => wfPacket a
  | .txDescriptorTaken _ desc bytes => wfDesc desc && decide (bytes.length ≤ 8224)
  | .agentFrameDelivery _ desc => wfDesc desc
  | .flashImageReadComplete bytes => decide (bytes.length ≤ 0x1000000)
  | _ => true

end Sys2Proof
end

