-- ==== Sys2Proof/Tests/Slice0.lean ====
section
/-! SUPPORT. Tests: the bounds on operands each refuse an ill-formed command, the spec's worked examples,
and single steps on small states.  Every expected value comes from the spec's tables and examples, or from
the published check values of the two codes. -/

namespace Sys2Proof.Tests

open Sys2Proof Sys2Proof.Machine

set_option Elab.async false
set_option maxRecDepth 10000

/-! ### Well-formed commands -/

theorem test_wf_payload : (Instr.frameTailReceived p511 (List.replicate 8193 0) 0 0).wf = false := by decide +kernel
theorem test_wf_payload_ok : (Instr.frameTailReceived p511 [1] 0 0).wf = true := by decide +kernel
theorem test_wf_nop : (Instr.devNop c0 (List.replicate 4097 0)).wf = false := by decide +kernel
theorem test_wf_image : (Instr.imageLoad c0 0 false (List.replicate 4081 0)).wf = false := by decide +kernel
theorem test_wf_mem_empty : (Instr.howlinkMemAccess { addr := 0, len := 0, write := false, data := [], cache := false }).wf =
    false := by decide +kernel
theorem test_wf_mem_data : (Instr.howlinkMemAccess { addr := 0, len := 2, write := true, data := [1], cache := false }).wf =
    false := by decide +kernel
theorem test_wf_reg_width : (Instr.registerWrite (.agent 0) 0x108 16 0).wf = false := by decide +kernel
theorem test_wf_reg_window : (Instr.registerWrite (.agent 0) 0x4000000 32 0).wf = false := by decide +kernel
theorem test_wf_temps : (Instr.thermalSensorScan [25]).wf = false := by decide +kernel

/-! ### The worked example of a contribution header (chapter "Fabric frames, addresses and classes") -/

def exHeader : Header :=
  { ver := 1, kind := 2, tc := 5, ce := false, part := 0x02A, hops := 1, epoch := 2, es := true, r0 := false, job := 0x0311,
    len := 4092, r1 := 0, dst := svcAddr 1 77 0, fmt := 6, src := svcAddr 0 163 0, sub := 0, ctx := 0x2F07, tf := true,
    r4 := 0, seq := 0x00001C4B, ksf := 0 }

theorem test_addresses : svcAddr 1 77 0 = 0x141340 ∧ svcAddr 0 163 0 = 0x1028C0 := by decide +kernel
theorem test_header_words : exHeader.bytes = beBytes 4 0x12A02A1A ++ beBytes 4 0x03113FF0 ++ beBytes 4 0x14134006 ++
    beBytes 4 0x1028C000 ++ beBytes 4 0x2F078000 ++ beBytes 4 0x1C4B ++ beBytes 8 0 := by decide +kernel
theorem test_header_read : Header.ofBytes exHeader.bytes = exHeader := by decide +kernel
theorem test_header_frozen : exHeader.frozen.w0 = 0x12002A00 := by decide +kernel

/-- The bytes "123456789", whose check values are published with the codes. -/
def digits : List Byte := [0x31, 0x32, 0x33, 0x34, 0x35, 0x36, 0x37, 0x38, 0x39]
theorem test_crc32c : crc32c digits = 0xE3069283 := by decide +kernel
theorem test_crc32 : crc32 digits = 0xCBF43926 := by decide +kernel

/-! ### Reduction arithmetic (examples of chapter "Reduction arithmetic") -/

/-- 124 blocks of MXFP8 fill 4,092 bytes; their elements are 3,968. -/
theorem test_fmt_elems : fmtLenOk 6 4092 = true ∧ fmtElems 6 4092 = 3968 := by decide +kernel

/-- A block whose largest magnitude is 37.5 takes the scale byte 0x7C, and 37.5, -0.3 (the FP32 number next
to it) and 0.001 take 0x79, 0xC2 and 0x04. -/
theorem test_mxfp8 :
    (encodeUnit 6 (fun _ => .nearest) 0 (f32v 0x42160000 :: f32v 0xBE99999A :: f32v 0x3A83126F ::
      List.replicate 29 (.fin false 0 0))).1.take 4 = [0x7C, 0x79, 0xC2, 0x04] := by decide +kernel

/-- 460 rounds to 448 without a flag; 470 saturates. -/
theorem test_e4m3_saturates : satCode e4m3 .nearest (.fin false 460 0) = (0x7E, 0) ∧
    (satCode e4m3 .nearest (.fin false 470 0)).1 = 0x7E ∧ (satCode e4m3 .nearest (.fin false 470 0)).2 ≠ 0 := by
  decide +kernel

/-- The first half of the outlier block: 12 and fifteen times 0.375 rotate to 4.40625 and 2.90625. -/
theorem test_rotate : rotate (0x41400000 :: List.replicate 15 0x3EC00000) = 0x408D0000 :: List.replicate 15 0x403A0000 := by
  decide +kernel

/-- 4 and fifteen times 3 rotate to 12.25 and 0.25. -/
theorem test_rotate_back : rotate (0x40800000 :: List.replicate 15 0x40400000) =
    0x41440000 :: List.replicate 15 0x3E800000 := by decide +kernel

/-- Without rotation the outlier block takes X = 1: 12 is 6 at scale 2, and each 0.375 becomes 0. -/
theorem test_mxfp4 : (encodeUnit 0x0A (fun _ => .nearest) 0 (f32v 0x41400000 :: List.replicate 31 (f32v 0x3EC00000))).1 =
    [128, 0x70] ++ List.replicate 15 0 := by decide +kernel

/-! ### Slots, shares and weights -/

/-- The setups of the example "two jobs set up in opposite orders": 4 and 4 slot units a chunk, 640 and 512
in all. -/
theorem test_units :
    ({ ctxE 1 0 with fmt := 4, cap := 8192, window := 160 } : CtxEntry).units * 160 = 640 ∧
    ({ ctxE 1 0 with fmt := 2, wide := true, cap := 4096, window := 128 } : CtxEntry).units * 128 = 512 := by
  decide +kernel

/-- The shared pool at the reset values, and the last frame that 64 senders into one port get into it. -/
theorem test_shared_pool : alphaOf (dRun.alphaCode 2) (dRun.sharedSize - 16 * 14622) ≥ 16 * 14622 + 16 ∧
    alphaOf (dRun.alphaCode 2) (dRun.sharedSize - 16 * 14623) < 16 * 14623 + 16 := by decide +kernel

/-- The weights of the example "four up-ports toward leaf 400". -/
def dSpray : Dev :=
  { dLeaf with
    tm := { dRun.tm with levels := [(400 * 512 + 17, 3)] },
    store := { dRun.store with queues := [(qkey (.port 18) 1, [{ copyTo (.port 18) 1 with cells := 1500 }])] } }
theorem test_spray_weights :
    [16, 17, 18, 19].map (dSpray.sprayWeight 400 1) = [8, 1, 4, 8] := by decide +kernel

/-! ### Single steps -/

/-- After reset the device waits in POWER_ON; the idle clock advances. -/
theorem test_reset_idles : (match step State.reset with
    | .next t => decide (t.pending = [] ∧ t.d.boot.st = .powerOn ∧ t.d.now = 1)
    | _ => false) = true := by decide +kernel

/-- A queue of two commands runs the front one and keeps the other. -/
theorem test_queue_order : (match step { pending := [.decayTick, .replayEnd], d := dRun } with
    | .next t => decide (t.pending = [.replayEnd])
    | _ => false) = true := by decide +kernel

/-- The example "companion and firmware share MB2": SV1 takes the free lock, agent 3 reads its number. -/
theorem test_lock_taken : (dRun.readLock (.sv 1) 2).2 = 0 ∧
    ((dRun.readLock (.sv 1) 2).1.readLock (.agent 3) 2).2 = 0x21 ∧
    (((dRun.readLock (.sv 1) 2).1.writeLock (.sv 1) 2).readLock (.agent 3) 2).1.mbox 2 =
      { lock := 0x13, ptr := 4 } := by decide +kernel

/-- A popped word shows VALID and the sender 0x21. -/
theorem test_pop : ((dRun.postD2h (.sv 1) 2 5).popD2h (.agent 3) 2).2 = 0x8000002100000005 := by decide +kernel

/-- The state codes that the driver of the example "a driver's first transmit" reads. -/
theorem test_glb_dev_state : dRun.boot.st.code = 5 ∧ dReady.boot.st.code = 4 := by decide +kernel

/-- A command of operator class on a link without a session is discarded, and owner class on Howlink runs. -/
theorem test_gate : (dMg dRun 5).gate { cMg with session := 2 } 0x0101 .observer = .discard ∧
    dRun.gate c0 0x0B01 .owner = .run ∧ dSafe.gate c0 0x0201 .operator = .answer .denied := by decide +kernel

/-- The supply that leaves regulation while RESET_N is high stops the machine: R474 says nothing of its state. -/
theorem test_rail_stops : (match exec .railOutOfRegulation State.reset with
    | .fault .railUndefined => true
    | _ => false) = true := by decide +kernel

/-- R322: a SYNC block and a LINK block as the receiver reads them. -/
theorem test_blocks : ControlBlock.ofBody (ControlBlock.body (.sync 0xABCD)) = .sync 0xABCD ∧
    ControlBlock.ofBody (ControlBlock.body (.link 0x10FF)) = .link 0x10FF := by decide +kernel

/-- R320: the least frame bytes at full and at half rate, 400.01 and 200.005 Gbit/s rounded. -/
theorem test_line_rates : 400005000000000 ≤ frameRate false ∧ 200000000000000 ≤ frameRate true ∧
    frameRate true ≤ 200005000000000 := by decide +kernel

/-- K28.5 of the standard's table for negative and positive disparity (R382). -/
theorem test_comma : (codeGroup .comma false).1 = 0b0011111010 ∧ (codeGroup .comma true).1 = 0b1100000101 := by
  decide +kernel

end Sys2Proof.Tests
end

