-- ==== Sys2Proof/Tests/WitnessA.lean ====
section
/-! SUPPORT. Witnesses of the statements' hypotheses: for each clause of a statement a
concrete state and operands that meet all of its hypotheses together (first half of the statements). -/

namespace Sys2Proof.Tests

open Sys2Proof Sys2Proof.Machine

set_option Elab.async false
set_option maxRecDepth 10000
set_option linter.unusedVariables false
set_option linter.unusedSimpArgs false

theorem wit_EmptyQueueIdlesOneClock_1 : ∃ (s : State), s.pending = [] ∧ s.d.nextBehind = none ∧ s.d.loopQ = []
    :=
  ⟨mk dRun, by decide +kernel⟩

theorem wit_CommandsAnswer_2 : ∃ (i : Instr) (s : State), i ≠ .railOutOfRegulation :=
  ⟨.heartbeatTick, mk dRun, by decide +kernel⟩

theorem wit_CommandsAnswer_3 : ∃ (s : State), s.d.boot.resetN = true :=
  ⟨mk dRun, by decide +kernel⟩

theorem wit_CommandsAnswer_4 : ∃ (s : State), s.d.boot.resetN = false :=
  ⟨mk { dRun with boot := { dRun.boot with resetN := false } }, by decide +kernel⟩

theorem wit_WholeChipResetClears_1 : ∃ (s : State), s.d.boot.inReset = false :=
  ⟨mk dRun, by decide +kernel⟩

theorem wit_WholeChipResetClears_3 : ∃ (s : State), s.d.awake = true ∧ s.d.hl.up = true ∧ s.d.hl.trained =
    true :=
  ⟨mk dRun, by decide +kernel⟩

theorem wit_WholeChipResetClears_5 : ∃ (s : State), s.d.awake = true ∧ s.d.boot.resetAt.isSome = true :=
  ⟨mk { dRun with boot := { dRun.boot with resetAt := some 5 } }, by decide +kernel⟩

theorem wit_BootStages_1 : ∃ (s : State), s.d.boot.inReset = true ∧ s.d.boot.resetN = true :=
  ⟨mk { dRun with boot := { dRun.boot with inReset := true } }, by decide +kernel⟩

theorem wit_BootStages_2 : ∃ (s : State), s.d.boot.resetN = false :=
  ⟨mk { dRun with boot := { dRun.boot with resetN := false } }, by decide +kernel⟩

theorem wit_BootStages_3 : ∃ (s : State) (b : BitVec 2), s.d.awake = true ∧ s.d.boot.st = .powerOn ∧
    s.d.clk.refLost = false :=
  ⟨State.reset, 3, by decide +kernel⟩

theorem wit_BootStages_4 : ∃ (s : State) (r : HlTraining), s.d.awake = true ∧ s.d.boot.st = .selfTest ∧
    s.d.hl.trained = false  :=
  ⟨mk { State.reset.d with boot := { State.reset.d.boot with st := .selfTest } }, { majorDiffers := false, failedLanes := [] },
    by decide +kernel⟩

theorem wit_BootStages_5 : ∃ (s : State) (r : SelfTestResult), s.d.awake = true ∧ s.d.boot.st = .selfTest ∧
    s.d.hl.trained = true ∧ s.d.boot.testDone = false ∧ r.svFail = 0 :=
  ⟨mk (dv .selfTest), selfTestOk 0, by decide +kernel⟩

theorem wit_BootStages_6 : ∃ (s : State) (r : SelfTestResult), s.d.awake = true ∧ s.d.boot.st = .selfTest ∧
    s.d.hl.trained = true ∧ s.d.boot.testDone = false ∧ r.svFail ≠ 0 :=
  ⟨mk (dv .selfTest), selfTestOk 8, by decide +kernel⟩

theorem wit_BootStages_7 : ∃ (d : Dev), (d.boot.items.any fun e => e.2.fatal != 0) = true :=
  ⟨{ dRun with boot := { dRun.boot with items := [(7, { fatal := 1 })] } }, by decide +kernel⟩

theorem wit_BootStages_8 : ∃ (d : Dev), (d.boot.items.any fun e => e.2.fatal != 0) = false ∧
    d.fuses.validOwners = [] :=
  ⟨dRun, by decide +kernel⟩

theorem wit_BootStages_9 : ∃ (d : Dev), (d.boot.items.any fun e => e.2.fatal != 0) = false ∧
    d.fuses.validOwners ≠ [] :=
  ⟨{ dRun with fuses := { dRun.fuses with owner3 := (1, 9) } }, by decide +kernel⟩

theorem wit_ImageToReady_1 : ∃ (s : State) (b : List Byte), s.d.awake = true ∧ s.d.svRuns 0 = true ∧
    s.d.boot.bootSrc = 0 ∧ s.d.boot.st = .safeTalk ∧ s.d.boot.cause = 0 :=
  ⟨mk dSafe, [1, 2], by decide +kernel⟩

theorem wit_ImageToReady_2 : ∃ (s : State) (b : List Byte), s.d.awake = true ∧ s.d.svRuns 0 = true ∧
    s.d.boot.bootSrc = 0 ∧ s.d.boot.st = .boot ∧ s.d.boot.imgSlot = true ∧ s.d.boot.imgLast = false :=
  ⟨mk { dv .boot with boot := { (dv .boot).boot with imgSlot := true } }, [], by decide +kernel⟩

theorem wit_ImageToReady_3 : ∃ (s : State) (c : BootCfg), s.d.awake = true ∧ s.d.svRuns 0 = true ∧ s.d.boot.st
    = .boot ∧ s.d.boot.imgLast = true ∧ s.d.boot.imgOk = false ∧ s.d.fuses.validOwners ≠ [] :=
  ⟨mk { dBoot with fuses := { dBoot.fuses with owner0 := (1, 9) }, boot := { dBoot.boot with imgLast := true } }, cfg0,
    by decide +kernel⟩

theorem wit_ImageToReady_3_a : ∃ (s : State) (c : BootCfg), s.d.awake = true ∧ s.d.svRuns 0 = true ∧
    s.d.boot.st = .boot ∧ s.d.boot.imgLast = true ∧ s.d.boot.imgOk = false ∧ s.d.fuses.validOwners ≠ [] ∧
    firstFail (imageChecks s.d.fuses s.d.boot.image) ≠ 0 ∧ s.d.boot.bootSrc = 0 ∧ s.d.boot.imgSlot = false :=
  ⟨mk { dBoot with fuses := { dBoot.fuses with owner0 := (1, 9) }, boot := { dBoot.boot with imgLast := true } }, cfg0,
    by decide +kernel⟩

theorem wit_ImageToReady_3_b : ∃ (s : State) (c : BootCfg), s.d.awake = true ∧ s.d.svRuns 0 = true ∧
    s.d.boot.st = .boot ∧ s.d.boot.imgLast = true ∧ s.d.boot.imgOk = false ∧ s.d.fuses.validOwners ≠ [] ∧
    firstFail (imageChecks s.d.fuses s.d.boot.image) ≠ 0 ∧ (s.d.boot.bootSrc ≠ 0 ∨ s.d.boot.imgSlot = true) :=
  ⟨mk { dBoot with fuses := { dBoot.fuses with owner0 := (1, 9) }, boot := { dBoot.boot with imgLast := true, imgSlot := true } }, cfg0,
    by decide +kernel⟩

theorem wit_ImageToReady_4 : ∃ (s : State) (c : BootCfg), s.d.awake = true ∧ s.d.svRuns 0 = true ∧ s.d.boot.st
    = .boot ∧ s.d.boot.imgOk = true ∧ s.d.boot.cfg = some c :=
  ⟨mk { dBoot with boot := { dBoot.boot with imgOk := true, cfg := some cfg0 } }, cfg0,
    by decide +kernel⟩

theorem wit_ImageToReady_5 : ∃ (s : State) (c : BootCfg), s.d.awake = true ∧ s.d.svRuns 0 = true ∧ s.d.boot.st
    = .boot ∧ s.d.boot.imgOk = true ∧ s.d.boot.cfg = some c ∧ c.regs = [] ∧ c.staged = [] :=
  ⟨mk { dBoot with boot := { dBoot.boot with imgOk := true, cfg := some cfg0 } }, cfg0,
    by decide +kernel⟩

theorem wit_ImageToReady_6 : ∃ (s : State) (c : CmdCtx) (o : Word) (b : List Byte), s.d.Runs (.imageLoad c o
    false b) c 0x0B02 (if c.src = .howlink then .operator else .owner) ∧ s.d.svRuns 0 = true ∧ s.d.boot.st =
    .safeTalk ∧ imagePath s.d.boot.bootSrc c.src = true ∧ b.length ≤ 4080 ∧ o.toNat + b.length ≤ 0x1000000 ∧
    (s.d.boot.imgSource = none ∨ s.d.boot.imgSource = some c.src) :=
  ⟨mk { dSafe with boot := { dSafe.boot with bootSrc := 1 } }, c0, 0, [1, 2],
    by simp only [Dev.Runs]; decide +kernel⟩

theorem wit_ImageToReady_7 : ∃ (s : State) (c : CmdCtx) (o : Word) (b : List Byte), s.d.Runs (.imageLoad c o
    true b) c 0x0B02 (if c.src = .howlink then .operator else .owner) ∧ s.d.svRuns 0 = true ∧ s.d.boot.st =
    .safeTalk ∧ imagePath s.d.boot.bootSrc c.src = true ∧ b.length ≤ 4080 ∧ o.toNat + b.length ≤ 0x1000000 ∧
    (s.d.boot.imgSource = none ∨ s.d.boot.imgSource = some c.src) ∧ imageLoaded (putImage s.d.boot.image
    o.toNat b) = true ∧ s.d.bootable = true :=
  ⟨mk { dSafe with boot := { dSafe.boot with bootSrc := 1, image := wholeImage }, fuses := { dSafe.fuses with owner0 := (1, 9) } }, c0, 0, [0x41],
    by simp only [Dev.Runs]; decide +kernel⟩

theorem wit_ClocksAndPins_1 : ∃ (s : State), s.d.clk.refLost = false ∧ s.d.awake = true :=
  ⟨mk dRun, by decide +kernel⟩

theorem wit_ClocksAndPins_2 : ∃ (s : State), s.d.clk.refLost = true :=
  ⟨mk { dRun with clk := { dRun.clk with refLost := true } }, by decide +kernel⟩

theorem wit_ClocksAndPins_3 : ∃ (s : State) (p : Pll), s.d.awake = true ∧ s.d.clk.locks.getLsbD (pllBit p) =
    true :=
  ⟨mk { dRun with clk := { dRun.clk with locks := 0xFFFFFFFFFFFFFFFF } }, .oe 15, by decide +kernel⟩

theorem wit_ClocksAndPins_4 : ∃ (s : State), s.d.timeRuns = true :=
  ⟨mk dRun, by decide +kernel⟩

theorem wit_ClocksAndPins_7 : ∃ (s : State), s.d.awake = true ∧ s.d.boot.st ≠ .powerOn :=
  ⟨mk dRun, by decide +kernel⟩

theorem wit_ThermalSensors_1 : ∃ (s : State) (l : List Int), (∃ x ∈ l, 110 ≤ x)  :=
  ⟨mk dRun, [25, 110], by decide +kernel⟩

theorem wit_ThermalSensors_1_a : ∃ (s : State) (l : List Int), (∀ x ∈ l, x < 105)  :=
  ⟨mk dRun, [25, 104], by decide +kernel⟩

theorem wit_ThermalSensors_1_b : ∃ (s : State) (l : List Int), (∀ x ∈ l, x < 110) ∧ (∃ x ∈ l, 105 ≤ x)  :=
  ⟨mk dRun, [109, 105], by decide +kernel⟩

theorem wit_HostSteersTime_1 : ∃ (s : State) (c : CmdCtx) (sec : BitVec 48) (ns : Word), s.d.Runs (.timeStep c
    sec ns false) c 0x0802 .operator ∧ s.d.svRuns 3 = true ∧ ns.toNat < 1000000000 ∧ s.d.time.stepped = false
    :=
  ⟨mk dRun, c0, 7, 999999999, by simp only [Dev.Runs]; decide +kernel⟩

theorem wit_HostSteersTime_2 : ∃ (s : State) (c : CmdCtx) (sec : BitVec 48) (ns : Word), s.d.Runs (.timeStep c
    sec ns false) c 0x0802 .operator ∧ s.d.svRuns 3 = true ∧ ns.toNat < 1000000000 ∧ s.d.time.stepped = true
    :=
  ⟨mk { dRun with time := { dRun.time with stepped := true } }, c0, 7, 0,
    by simp only [Dev.Runs]; decide +kernel⟩

theorem wit_HostSteersTime_3 : ∃ (s : State) (c : CmdCtx) (o : Dword), s.d.Runs (.timeAdjust c o) c 0x0803
    .operator ∧ s.d.svRuns 3 = true ∧ s.d.servo = 2 ∧ o.toInt.natAbs ≤ s.d.jumpNs :=
  ⟨mk (dRun.setReg offTimeCtl 0x03E80A02), c0, 1000, by simp only [Dev.Runs]; decide +kernel⟩

theorem wit_HostSteersTime_6 : ∃ (s : State) (c : CmdCtx) (r : BitVec 40), s.d.Runs (.timeRateSet c r) c
    0x0804 .operator ∧ s.d.svRuns 3 = true ∧ s.d.servo = 2 :=
  ⟨mk (dRun.setReg offTimeCtl 0x03E80A02), c0, -1, by simp only [Dev.Runs]; decide +kernel⟩

theorem wit_PtpSteersTime_1 : ∃ (s : State) (r : PtpMeas), s.d.awake = true ∧ s.d.svRuns 3 = true ∧ (s.d.mg
    r.link.val).st = 5 ∧ s.d.ptpMode r.link.val ≠ .off ∧ r.supported = true ∧ r.domain = s.d.time.domA.num ∧
    s.d.time.domA.num ≠ s.d.time.domB.num ∧ s.d.time.selB = false ∧ s.d.servo = 1 ∧ s.d.clk.refLost = false ∧
    s.d.timeRuns = true ∧ s.d.time.stepped = false ∧ s.d.time.stepAt ≠ some s.d.now :=
  ⟨mk { dMg (dRun.setReg offTimeCtl 0x03E80A01) 5 with time := { dRun.time with mode0 := .ordinary } }, { link := 0, domain := 0, offset := -5, supported := true },
    by decide +kernel⟩

theorem wit_PtpSteersTime_3 : ∃ (s : State) (b : Bool), s.d.awake = true ∧ s.d.svRuns 3 = true ∧ b =
    s.d.time.selB ∧ s.d.regBit (baseTime) 3 = false ∧ s.d.boot.st ≠ .powerOn :=
  ⟨mk (dRun.setReg offTimeCtl 0x03E80A01), false, by decide +kernel⟩

theorem wit_PtpSteersTime_4 : ∃ (s : State) (m : Fin 2), s.d.awake = true ∧ s.d.svRuns 3 = true ∧ (s.d.mg
    m.val).st = 5 ∧ s.d.ptpMode m.val ≠ .off ∧ s.d.ptpState m.val = 2 :=
  ⟨mk { dMg dRun 5 with time := { dRun.time with mode0 := .boundary, ptp0 := 2 } }, 0, by decide +kernel⟩

theorem wit_PtpSteersTime_5 : ∃ (s : State) (c : CmdCtx) (l0 l1 : PtpMode) (a b : Byte) (w : Bool), s.d.Runs
    (.ptpSet c l0 l1 a b w) c 0x0805 .operator ∧ s.d.svRuns 3 = true ∧ a ≠ b :=
  ⟨mk dRun, c0, .boundary, .off, 0, 127, true, by simp only [Dev.Runs]; decide +kernel⟩

theorem wit_PtpSteersTime_6 : ∃ (s : State) (c : CmdCtx) (b : Bool), s.d.Runs (.ptpDomainSelect c b) c 0x0806
    .operator ∧ s.d.svRuns 3 = true ∧ b ≠ s.d.time.selB ∧ beyond (s.d.domain b).offset s.d.jumpNs = false :=
  ⟨mk dRun, c0, true, by simp only [Dev.Runs]; decide +kernel⟩

theorem wit_RegisterAndInterruptWrites_1 : ∃ (s : State) (a : RegActor) (v : Dword), s.d.Serves a 0x100 true
    :=
  ⟨mk dRun, .agent 15, 0, by simp only [Dev.Serves]; decide +kernel⟩

theorem wit_RegisterAndInterruptWrites_2 : ∃ (s : State) (a : RegActor) (v : Dword), s.d.Serves a 0x110 true
    :=
  ⟨mk dRun, .sv 3, 0, by simp only [Dev.Serves]; decide +kernel⟩

theorem wit_RegisterAndInterruptWrites_3 : ∃ (s : State) (a : RegActor) (v : Dword), s.d.Serves a 0x108 true
    :=
  ⟨mk dRun, .agent 0, 0, by simp only [Dev.Serves]; decide +kernel⟩

theorem wit_RegisterAndInterruptWrites_4 : ∃ (s : State) (a : RegActor) (off w : Nat) (v : Dword), s.d.Serves
    a off true ∧ regAt off = none :=
  ⟨mk dRun, .agent 0, 0x3FFFFF8, 64, 0, by simp only [Dev.Serves]; decide +kernel⟩

theorem wit_RegisterAndInterruptWrites_5 : ∃ (s : State) (a : RegActor) (off w : Nat) (v : Dword) (r : RegDef)
    (o : Nat), s.d.Serves a off true ∧ regAt off = some (r, o) ∧ r.width ≠ w :=
  ⟨mk dRun, .agent 0, 0x108, 32, 0, ((regAt 0x108).get rfl).1, ((regAt 0x108).get rfl).2,
    by simp only [Dev.Serves]; decide +kernel⟩

theorem wit_RegisterAndInterruptWrites_6 : ∃ (s : State) (a : RegActor) (off w : Nat) (v : Dword), s.d.window
    a off true = .drop :=
  ⟨mk { dv .selfTest with boot := (dv .selfTest).boot }, .agent 0, 0x108, 64, 0, by decide +kernel⟩

theorem wit_RegisterAndInterruptWrites_7 : ∃ (s : State) (a : RegActor) (p : Port) (v : Dword), s.d.Serves a
    (basePort p.val + 0x40) true :=
  ⟨mk dRun, .agent 0, p511, 0xFFF, by simp only [Dev.Serves]; decide +kernel⟩

theorem wit_MailboxQueues_1 : ∃ (s : State) (a : Fin 16) (n : Fin 16) (w : Word), s.d.Serves (.agent a)
    (baseMbx n.val) true ∧ (s.d.mbox n.val).h2d.length < 16 :=
  ⟨mk dRun, 15, 15, 5, by simp only [Dev.Serves]; decide +kernel⟩

theorem wit_MailboxQueues_2 : ∃ (s : State) (a : Fin 16) (n : Fin 16) (w : Word), s.d.Serves (.agent a)
    (baseMbx n.val) true ∧ 16 ≤ (s.d.mbox n.val).h2d.length :=
  ⟨mk (dRun.setMbox 15 { h2d := List.replicate 16 (0, 0) }), 0, 15, 5,
    by simp only [Dev.Serves]; decide +kernel⟩

theorem wit_MailboxQueues_3 : ∃ (s : State) (v : Fin 4) (n : Fin 16) (w : Word), s.d.Serves (.sv v) (baseMbx
    n.val + 0x10) true ∧ (s.d.mbox n.val).d2h.length < 16 :=
  ⟨mk (dRun.setMbox 0 { d2h := List.replicate 15 (0, 0) }), 3, 0, 5,
    by simp only [Dev.Serves]; decide +kernel⟩

theorem wit_MailboxQueues_4 : ∃ (s : State) (v : Fin 4) (n : Fin 16) (x : Byte × Word) (r : List (Byte ×
    Word)), s.d.Serves (.sv v) (baseMbx n.val + 8) false ∧ (s.d.mbox n.val).h2d = x :: r :=
  ⟨mk (dRun.setMbox 0 { h2d := [(0x10, 5)] }), 0, 0, (0x10, 5), [],
    by simp only [Dev.Serves]; decide +kernel⟩

theorem wit_MailboxQueues_5 : ∃ (s : State) (a : Fin 16) (n : Fin 16) (x : Byte × Word) (r : List (Byte ×
    Word)), s.d.Serves (.agent a) (baseMbx n.val + 0x18) false ∧ (s.d.mbox n.val).d2h = x :: r :=
  ⟨mk (dRun.setMbox 0 { d2h := [(0x20, 5)] }), 0, 0, (0x20, 5), [],
    by simp only [Dev.Serves]; decide +kernel⟩

theorem wit_MailboxQueues_6 : ∃ (s : State) (a : Fin 16) (n : Fin 16), s.d.Serves (.agent a) (baseMbx n.val +
    0x18) false ∧ (s.d.mbox n.val).d2h = [] :=
  ⟨mk dRun, 0, 0, by simp only [Dev.Serves]; decide +kernel⟩

theorem wit_MailboxLock_1 : ∃ (s : State) (a : RegActor) (n : Fin 16), s.d.Serves a (baseMbx n.val + 0x28)
    false ∧ (s.d.mbox n.val).lock = 0 :=
  ⟨mk dRun, .sv 3, 15, by simp only [Dev.Serves]; decide +kernel⟩

theorem wit_MailboxLock_2 : ∃ (s : State) (a : RegActor) (n : Fin 16), s.d.Serves a (baseMbx n.val + 0x28)
    false ∧ (s.d.mbox n.val).lock ≠ 0 :=
  ⟨mk (dRun.setMbox 15 { lock := 0x10 }), .agent 1, 15, by simp only [Dev.Serves]; decide +kernel⟩

theorem wit_MailboxLock_3 : ∃ (s : State) (a : RegActor) (n : Fin 16) (w : Word), s.d.Serves a (baseMbx n.val
    + 0x28) true ∧ (s.d.mbox n.val).lock.toNat = RegActor.num a :=
  ⟨mk (dRun.setMbox 15 { lock := 0x1F }), .agent 15, 15, 0, by simp only [Dev.Serves]; decide +kernel⟩

theorem wit_MailboxLock_4 : ∃ (s : State) (a : RegActor) (n : Fin 16) (w : Word), s.d.Serves a (baseMbx n.val
    + 0x28) true ∧ (s.d.mbox n.val).lock.toNat ≠ RegActor.num a :=
  ⟨mk (dRun.setMbox 15 { lock := 0x1F }), .agent 14, 15, 0, by simp only [Dev.Serves]; decide +kernel⟩

theorem wit_MailboxLock_5 : ∃ (s : State) (a : RegActor) (w : Word), s.d.Serves a 0x101008 true :=
  ⟨mk dRun, .agent 0, 0xFFFF, by simp only [Dev.Serves]; decide +kernel⟩

theorem wit_RegisterEffects_1 : ∃ (s : State) (a : RegActor), s.d.Serves a (baseTime + 0x10) false :=
  ⟨mk dRun, .agent 0, by simp only [Dev.Serves]; decide +kernel⟩

theorem wit_RegisterEffects_2 : ∃ (s : State) (a : RegActor), s.d.Serves a (baseTime + 0x30) false :=
  ⟨mk dRun, .sv 0, by simp only [Dev.Serves]; decide +kernel⟩

theorem wit_RegisterEffects_3 : ∃ (s : State) (a : RegActor) (p : Port) (tx : Bool), s.d.Serves a (basePort
    p.val + 0x310 + (if tx then 8 else 0)) false :=
  ⟨mk dRun, .agent 0, p511, true, by simp only [Dev.Serves]; decide +kernel⟩

theorem wit_RegisterEffects_4 : ∃ (s : State) (a : RegActor) (n : Fin 4) (v : Word), s.d.Serves a (0x100C +
    0x40 * n.val) true :=
  ⟨mk dRun, .agent 0, 3, 0xFFFF, by simp only [Dev.Serves]; decide +kernel⟩

theorem wit_RegisterEffects_5 : ∃ (s : State) (a : RegActor) (v : Word), s.d.Serves a 0x110C true :=
  ⟨mk dRun, .agent 0, 0xFFFF, by simp only [Dev.Serves]; decide +kernel⟩

theorem wit_RegisterEffects_6 : ∃ (s : State) (a : RegActor) (n : Fin 5) (v : Word), s.d.Serves a (0x1008 +
    0x40 * n.val) true ∧ s.d.regBit (0x1008 + 0x40 * n.val) 0 = false :=
  ⟨mk dRun, .agent 0, 4, 1, by simp only [Dev.Serves]; decide +kernel⟩

theorem wit_RegisterEffects_7 : ∃ (s : State) (a : RegActor) (n : Fin 5) (v : Word), s.d.Serves a (0x1008 +
    0x40 * n.val) true ∧ s.d.regBit (0x1008 + 0x40 * n.val) 0 = true ∧ bitsOf v.toNat 20 16 ≠ s.d.regBits
    (0x1008 + 0x40 * n.val) 20 16 :=
  ⟨mk (dRun.setReg 0x1108 1), .agent 0, 4, 0x30001, by simp only [Dev.Serves]; decide +kernel⟩

theorem wit_RegisterEffects_8 : ∃ (s : State) (a : RegActor) (p : Port) (v : Word), s.d.Serves a (basePort
    p.val + 0x4C) true ∧ s.d.boot.st = .boot :=
  ⟨mk dBoot, .sv 0, p511, 2, by simp only [Dev.Serves]; decide +kernel⟩

theorem wit_RegisterEffects_9 : ∃ (s : State) (a : RegActor) (n : Fin 64) (v : Word), s.d.Serves a (baseCnt +
    0x200 + 8 * n.val) true :=
  ⟨mk dRun, .agent 0, 63, 0, by simp only [Dev.Serves]; decide +kernel⟩

theorem wit_RegisterEffects_10 : ∃ (s : State) (a : RegActor) (v : Word), s.d.Serves a (baseStore + 4) true ∧
    s.d.fwd.oldLive = false :=
  ⟨mk dRun, .agent 0, 0, by simp only [Dev.Serves]; decide +kernel⟩

theorem wit_RegisterEffects_11 : ∃ (s : State) (a : RegActor) (v : Word), s.d.Serves a (baseStore + 4) true ∧
    s.d.fwd.oldLive = true :=
  ⟨mk { dRun with fwd := { dRun.fwd with oldLive := true } }, .agent 0, 0xFFFFFFFF,
    by simp only [Dev.Serves]; decide +kernel⟩

theorem wit_RegisterEffects_12 : ∃ (s : State) (a : RegActor) (c : Fin 8) (v : Word), s.d.Serves a (baseStore
    + 0x20 + 4 * c.val) true ∧ (s.d.plainWrite (baseStore + 0x20 + 4 * c.val) v.toNat).sharedSize < 1048576 :=
  ⟨mk dRun, .agent 0, 7, 0xFFFFFF, by simp only [Dev.Serves]; decide +kernel⟩

theorem wit_RegisterEffects_13 : ∃ (s : State) (a : RegActor) (c : Fin 8) (v : Word), s.d.Serves a (baseStore
    + 0x20 + 4 * c.val) true ∧ 1048576 ≤ (s.d.plainWrite (baseStore + 0x20 + 4 * c.val) v.toNat).sharedSize :=
  ⟨mk dRun, .agent 0, 7, 0, by simp only [Dev.Serves]; decide +kernel⟩

theorem wit_RegisterEffects_14 : ∃ (s : State) (a : RegActor) (v : Word), s.d.Serves a (baseFwd 0 + 0x10) true
    :=
  ⟨mk dRun, .agent 0, 0, by simp only [Dev.Serves]; decide +kernel⟩

theorem wit_RegisterEffects_15 : ∃ (d : Dev) (a : RegActor) (off w : Nat), (∀ r, regAt off = some r →
    r.1.width ≠ w) :=
  ⟨dRun, .agent 0, 0x3FFFFF8, 64, by decide +kernel⟩

theorem wit_RegisterEffects_16 : ∃ (d : Dev) (a : RegActor) (off w : Nat) (r : RegDef × Nat), regAt off = some
    r ∧ r.1.width = w :=
  ⟨dRun, .agent 0, 0x108, 64, (regAt 0x108).get rfl, by decide +kernel⟩

theorem wit_RegisterEffects_20 : ∃ (d : Dev) (a : RegActor), d.readReg a (baseThr + 4) < 2 :=
  ⟨State.reset.d, .agent 0, by decide +kernel⟩

theorem wit_CountersAndWindows_1 : ∃ (s : State) (p : Nat), s.d.awake = true ∧ s.d.svRuns 3 = true ∧
    s.d.cnt.curShort = false :=
  ⟨mk dRun, 511, by decide +kernel⟩

theorem wit_CountersAndWindows_2 : ∃ (s : State), s.d.awake = true ∧ s.d.svRuns 3 = true ∧ s.d.cnt.curShort =
    true :=
  ⟨mk { dRun with cnt := { dRun.cnt with curShort := true } }, by decide +kernel⟩

theorem wit_CountersAndWindows_3 : ∃ (s : State), s.d.svRuns 3 = false :=
  ⟨mk dNo3, by decide +kernel⟩

theorem wit_CountersAndWindows_4 : ∃ (s : State) (a : RegActor) (v : Word) (p : Nat), s.d.Serves a baseCnt
    true :=
  ⟨mk dRun, .agent 0, 31, 511, by simp only [Dev.Serves]; decide +kernel⟩

theorem wit_CountersAndWindows_5 : ∃ (s : State) (c : CmdCtx) (n : Byte) (l : Bool) (e : Byte) (ix : BitVec
    16), s.d.Runs (.cntPevSet c n l e ix) c 0x0906 .operator ∧ s.d.svRuns 3 = true ∧ n.toNat < 64 :=
  ⟨mk dRun, c0, 63, true, 1, 0xFFFF, by simp only [Dev.Runs]; decide +kernel⟩

theorem wit_CountersAndWindows_6 : ∃ (s : State) (c : CmdCtx) (w : Word) (f : Dword), s.d.Runs (.gleanSet c w
    f) c 0x0903 .operator ∧ s.d.svRuns 3 = true :=
  ⟨mk dRun, c0, 0xFFC0E, 0x8000, by simp only [Dev.Runs]; decide +kernel⟩

theorem wit_CountersAndWindows_7 : ∃ (s : State) (c : CmdCtx), s.d.Runs (.gleanArm c true) c 0x0904 .operator
    ∧ s.d.svRuns 3 = true :=
  ⟨mk dRun, c0, by simp only [Dev.Runs]; decide +kernel⟩

theorem wit_CountersAndWindows_8 : ∃ (s : State) (c : CmdCtx), s.d.Runs (.gleanArm c false) c 0x0904 .operator
    ∧ s.d.svRuns 3 = true :=
  ⟨mk dRun, c0, by simp only [Dev.Runs]; decide +kernel⟩

theorem wit_HowlinkEvents_1 : ∃ (s : State) (l : Fin 17), s.d.awake = true ∧ s.d.svRuns 2 = true ∧
    s.d.hl.trained = true ∧ s.d.hl.spareUsed = false ∧ s.d.hl.lanes = 16 ∧ l.val < 16 :=
  ⟨mk dRun, 15, by decide +kernel⟩

theorem wit_HowlinkEvents_2 : ∃ (s : State) (l : Fin 17), s.d.awake = true ∧ s.d.svRuns 2 = true ∧
    s.d.hl.trained = true ∧ s.d.hl.spareUsed = true ∧ s.d.hl.lanes = 16 ∧ s.d.hl.carries l.val = true :=
  ⟨mk { dRun with hl := { dRun.hl with spareUsed := true, failedLane := 15 } }, 16, by decide +kernel⟩

theorem wit_HowlinkEvents_3 : ∃ (s : State), s.d.awake = true ∧ s.d.hl.up = true :=
  ⟨mk dRun, by decide +kernel⟩

theorem wit_HowlinkEvents_4 : ∃ (s : State), s.d.awake = true ∧ s.d.hl.up = false ∧ s.d.hl.trained = true ∧
    s.d.hl.verMismatch = false ∧ s.d.hl.lanes ≠ 0 :=
  ⟨mk { dRun with hl := { dRun.hl with up := false } }, by decide +kernel⟩

theorem wit_MgBringUp_1 : ∃ (s : State) (m : Fin 2), s.d.awake = true ∧ (s.d.mg m.val).st = 1 :=
  ⟨mk (dMg dRun 1), 0, by decide +kernel⟩

theorem wit_MgBringUp_2 : ∃ (s : State) (m : Fin 2), s.d.awake = true ∧ (s.d.mg m.val).st = 2 :=
  ⟨mk (dMg dRun 2), 0, by decide +kernel⟩

theorem wit_MgBringUp_3 : ∃ (s : State) (m : Fin 2), s.d.awake = true ∧ (s.d.mg m.val).st = 3 :=
  ⟨mk (dMg dRun 3), 0, by decide +kernel⟩

theorem wit_MgBringUp_4 : ∃ (s : State) (m : Fin 2), s.d.awake = true ∧ (s.d.mg m.val).st ∈ [2, 3, 4] ∧
    s.d.mgMode m.val ≠ 0 ∧ s.d.boot.st ≠ .powerOn ∧ s.d.boot.st ≠ .selfTest :=
  ⟨mk ((dMg dRun 4).setReg (baseMgl 0) 1), 0, by decide +kernel⟩

theorem wit_MgBringUp_5 : ∃ (s : State) (m : Fin 2) (p : List Byte), s.d.awake = true ∧ (s.d.mg m.val).st = 4
    ∧ p.length = 48 ∧ pairValid (LinkMsg.ofBytes (p.take 24)) (LinkMsg.ofBytes (p.drop 24)) = true ∧ (s.d.mg
    m.val).ackSeen = true ∧ LinkMsg.field (LinkMsg.ofBytes (p.drop 24)) 2 1 = 1 :=
  ⟨mk { dRun with mg1 := { st := 4, ackSeen := true } }, 1, dRun.mgPair 0, by decide +kernel⟩

theorem wit_MgBringUp_6 : ∃ (s : State) (m : Fin 2) (p : List Byte), s.d.awake = true ∧ (s.d.mg m.val).st = 4
    ∧ p.length = 48 ∧ pairValid (LinkMsg.ofBytes (p.take 24)) (LinkMsg.ofBytes (p.drop 24)) = true ∧
    LinkMsg.field (LinkMsg.ofBytes (p.drop 24)) 2 1 ≠ 1 :=
  ⟨mk (dMg dRun 4), 0, otherPair, by decide +kernel⟩

theorem wit_MgBringUp_7 : ∃ (s : State) (m : Fin 2), s.d.awake = true ∧ (s.d.mg m.val).st = 5 :=
  ⟨mk { dRun with mg1 := { st := 5 } }, 1, by decide +kernel⟩

theorem wit_MgBringUp_8 : ∃ (s : State) (m : Fin 2) (typ seg : Byte) (len : BitVec 16) (r : Word) (p : List
    Byte) (crc : Word) (e : Bool), s.d.awake = true ∧ (s.d.mg m.val).st = 5 ∧ s.d.mgMode m.val = 1 ∧ (crc32
    (mgHeader typ seg len r ++ p) ≠ crc ∨ e = false ∨ p.length ≠ len.toNat) :=
  ⟨mk ((dMg dRun 5).setReg (baseMgl 0) 1), 0, 1, 0, 1, 0, [], 0, true, by decide +kernel⟩

theorem wit_MgBringUp_10 : ∃ (s : State) (m : Fin 2) (seg : Byte) (len : BitVec 16) (r : Word) (p : List
    Byte), s.d.awake = true ∧ (s.d.mg m.val).st = 5 ∧ s.d.mgMode m.val = 1 ∧ p.length = len.toNat ∧ p.length ≤
    4608 :=
  ⟨mk ((dMg dRun 5).setReg (baseMgl 0) 1), 0, 0, 0, 0, [], by decide +kernel⟩

theorem wit_MgLeavesActive_1 : ∃ (s : State) (m : Fin 2), (s.d.cmd.txns.filter fun t => t.src == mgSource
    m.val && decide (t.st = .isOpen)).length ≤ 1 ∧ s.d.awake = true ∧ (s.d.mg m.val).st = 5 ∧ (s.d.mg
    m.val).los = false ∧ (s.d.mg m.val).sync = true ∧ s.d.mgMode m.val = 2  :=
  ⟨mk { dMg (dRun.setReg (baseMgl 0) 2) 5 with cmd := { dRun.cmd with txns := [{ txn1 with src := .mg0 }] } }, 0,
    by decide +kernel⟩

theorem wit_CoresAndBanks_1 : ∃ (s : State) (k q : Fin 8), s.d.awake = true ∧ (s.d.corePos (8 * k.val +
    q.val)).st = .filled :=
  ⟨mk dRun, 7, 7, by decide +kernel⟩

theorem wit_CoresAndBanks_2 : ∃ (s : State) (k q : Fin 8), s.d.awake = true ∧ s.d.svRuns 2 = true ∧
    (s.d.corePos (8 * k.val + q.val)).st = .stopped ∧ (s.d.corePos (8 * k.val + q.val)).prevFail = none ∧
    s.d.forced (8 * k.val + q.val) = false ∧ s.d.faults.failures = [] :=
  ⟨mk (dRun.setCorePos 63 { st := .stopped }), 7, 7, by decide +kernel⟩

theorem wit_CoresAndBanks_3 : ∃ (s : State) (k q : Fin 8), s.d.awake = true ∧ s.d.svRuns 2 = true ∧
    (s.d.corePos (8 * k.val + q.val)).st = .stopped ∧ s.d.spareCore (k.val / 2) = 0 ∧ s.d.faults.failures = []
    ∧ s.d.store.replacing = none ∧ s.d.mem.copyExp = none :=
  ⟨mk (dRun.setCorePos 63 { st := .stopped }), 7, 7, by decide +kernel⟩

theorem wit_CoresAndBanks_4 : ∃ (s : State) (k q : Fin 8), s.d.awake = true ∧ s.d.svRuns 2 = true ∧
    (s.d.corePos (8 * k.val + q.val)).st = .stopped ∧ s.d.spareCore (k.val / 2) ≠ 0 ∧ s.d.faults.failures = []
    ∧ s.d.store.replacing = none ∧ s.d.mem.copyExp = none :=
  ⟨mk ((dRun.setCorePos 63 { st := .stopped }).setSpareCore 3 2), 7, 7, by decide +kernel⟩

theorem wit_CoresAndBanks_5 : ∃ (s : State) (k q : Fin 8), s.d.awake = true ∧ s.d.svRuns 2 = true ∧
    (s.d.corePos (8 * k.val + q.val)).st = .stopped ∧ s.d.faults.failures = [] ∧ (s.d.store.replacing.isSome =
    true ∨ s.d.mem.copyExp.isSome = true) :=
  ⟨mk { dRun.setCorePos 63 { st := .stopped } with store := { dRun.store with replacing := some 1023 } }, 7, 7,
    by decide +kernel⟩

theorem wit_CoresAndBanks_8 : ∃ (s : State) (n : Fin 4) (b : Bool), s.d.awake = true ∧ s.d.svRuns 2 = true ∧
    s.d.spareCore n.val ≠ 1 :=
  ⟨mk dRun, 3, false, by decide +kernel⟩

theorem wit_CoresAndBanks_9 : ∃ (s : State) (b : Fin 1024), s.d.awake = true ∧ s.d.svRuns 2 = true ∧
    s.d.store.replacing = none ∧ s.d.mem.copyExp = none ∧ s.d.faults.failures = [] ∧ s.d.store.closed.contains
    b.val = false ∧ s.d.bankSpares (b.val / 512) ≠ 0 :=
  ⟨mk dRun, 1023, by decide +kernel⟩

theorem wit_CoresAndBanks_10 : ∃ (s : State) (b : Fin 1024), s.d.awake = true ∧ s.d.svRuns 2 = true ∧
    s.d.store.replacing = none ∧ s.d.mem.copyExp = none ∧ s.d.faults.failures = [] ∧ s.d.store.closed.contains
    b.val = false ∧ s.d.bankSpares (b.val / 512) = 0 :=
  ⟨mk { dRun with store := { dRun.store with spare0 := 0 } }, 511, by decide +kernel⟩

theorem wit_CoresAndBanks_11 : ∃ (s : State) (b : Fin 1024), s.d.awake = true ∧ s.d.svRuns 2 = true ∧
    s.d.store.replacing.isSome = true ∧ s.d.store.closed.contains b.val = false ∧ s.d.faults.failures = [] :=
  ⟨mk { dRun with store := { dRun.store with replacing := some 1023 } }, 0, by decide +kernel⟩

theorem wit_CoresAndBanks_12 : ∃ (s : State) (b : Nat), s.d.awake = true ∧ s.d.svRuns 2 = true ∧
    s.d.store.replacing = some b ∧ (s.d.store.slots.liveIn (s.d.store.slots.bankBefore b)).isEmpty = false :=
  ⟨mk { dRun with store := { dRun.store with replacing := some 1023, slots := { dRun.store.slots with cells := [(0, [1023 * 4096])] } } }, 1023,
    by decide +kernel⟩

theorem wit_CoresAndBanks_13 : ∃ (s : State) (b : Nat), s.d.awake = true ∧ s.d.svRuns 2 = true ∧
    s.d.store.replacing = some b ∧ (s.d.store.slots.liveIn (s.d.store.slots.bankBefore b)).isEmpty = true ∧
    s.d.faults.failures = [] :=
  ⟨mk { dRun with store := { dRun.store with replacing := some 1023 } }, 1023, by decide +kernel⟩

theorem wit_CoresAndBanks_14 : ∃ (s : State) (c : CmdCtx) (ix : BitVec 16), s.d.Runs (.diagSpareForce c false
    ix) c 0x0C05 .operator ∧ s.d.svRuns 2 = true ∧ ix.toNat < 64 ∧ (∀ i, i < 64 → (s.d.corePos i).st ≠
    .stopped) ∧ (s.d.corePos ix.toNat).st = .filled ∧ s.d.spareCore (ix.toNat / 16) = 0 :=
  ⟨mk dRun, c0, 63, by simp only [Dev.Runs]; decide +kernel⟩

theorem wit_CoresAndBanks_15 : ∃ (s : State) (c : CmdCtx) (ix : BitVec 16), s.d.Runs (.diagSpareForce c true
    ix) c 0x0C05 .operator ∧ s.d.svRuns 2 = true ∧ s.d.faults.failures = [] ∧ s.d.mem.copyExp = none ∧
    ix.toNat < 1024 ∧ s.d.store.replacing = none ∧ s.d.store.closed.contains ix.toNat = false ∧ s.d.bankSpares
    (ix.toNat / 512) ≠ 0 :=
  ⟨mk dRun, c0, 1023, by simp only [Dev.Runs]; decide +kernel⟩

theorem wit_CoresAndBanks_16 : ∃ (s : State) (c : CmdCtx) (a : Byte) (ix : Word) (w : BitVec 16) (two : Bool),
    s.d.Runs (.diagInject c a ix w two) c 0x0C06 (if s.d.boot.st = .run then .owner else .operator) ∧ ix.toNat
    < injectSize a.toNat ∧ (0x10 ≤ a.toNat → a.toNat ≤ 0x14 → w.toNat < 16) ∧ (∀ y ∈ s.d.faults.injects,
    ¬(y.array = a.toNat ∧ y.index = ix.toNat ∧ y.word = w.toNat)) :=
  ⟨mk dRun, c0, 0x10, 4095, 15, true, by simp only [Dev.Runs]; decide +kernel⟩

theorem wit_CompanionMemoryAccess_1 : ∃ (s : State) (a : BitVec 52) (data : List Byte), s.d.awake = true ∧
    s.d.hl.up = true ∧ s.d.memRight a.toNat data.length = .full ∧ s.d.mem.waits = [] :=
  ⟨mk dMem, 0x2000000000000, [1, 2], by decide +kernel⟩

theorem wit_CompanionMemoryAccess_2 : ∃ (s : State) (a : BitVec 52) (n : Nat), s.d.awake = true ∧ s.d.hl.up =
    true ∧ (a.toNat < 0x1000004000000 ∨ 0x1000004001000 ≤ a.toNat) ∧ s.d.memRight a.toNat n ≠ .denied ∧
    ((linesOf a.toNat n).any fun l => s.d.lineBad l) = false :=
  ⟨mk dMem, 0x2000000000000, 64, by decide +kernel⟩

theorem wit_CompanionMemoryAccess_3 : ∃ (s : State) (a : BitVec 52) (data : List Byte), s.d.awake = true ∧
    s.d.hl.up = true ∧ s.d.memRight a.toNat data.length ≠ .full :=
  ⟨mk dMem, 0xFFFFFFFFFFFFF, [1], by decide +kernel⟩

theorem wit_CompanionMemoryAccess_4 : ∃ (s : State) (l : BitVec 52) (w : WaitWrite), s.d.awake = true ∧
    s.d.mem.waits = [w] ∧ w.line = l.toNat :=
  ⟨mk { dMem with mem := { dMem.mem with waits := [{ line := 5, addr := 320, data := [1], fromHost := false }] } }, 5, { line := 5, addr := 320, data := [1], fromHost := false },
    by decide +kernel⟩

theorem wit_PagesAndExpanders_1 : ∃ (s : State) (a : BitVec 52), s.d.awake = true ∧ s.d.svRuns 2 = true ∧
    s.d.inNear a.toNat 1 = true ∧ s.d.regBits (baseMem + 8) 15 0 ≠ 0 ∧ s.d.poolFree ≠ 0 ∧
    s.d.mem.copyPages.contains (pageOf a.toNat) = false :=
  ⟨mk dMem, 0x2000000000000, by decide +kernel⟩

theorem wit_PagesAndExpanders_2 : ∃ (s : State) (p : Nat) (r : List Nat), s.d.awake = true ∧ s.d.mem.copyPages
    = p :: r :=
  ⟨mk { dMem with mem := { dMem.mem with copyPages := [0x2000000000000] } }, 0x2000000000000, [],
    by decide +kernel⟩

theorem wit_PagesAndExpanders_3 : ∃ (s : State) (a : BitVec 52) (n : Nat) (r : Region), s.d.awake = true ∧
    s.d.inGran a.toNat 1 = false ∧ s.d.inNear a.toNat 1 = true ∧ s.d.regionOf a.toNat 1 = some (n, r) ∧ r.kind
    = .host ∧ (s.d.thr.shards = [] ∧ s.d.thr.jobs = [] ∧ s.d.thr.park = []) :=
  ⟨mk dMem, 0x2000000000000, 0, { kind := .host, base := 0x2000000000000, size := 0x6C0000000 },
    by decide +kernel⟩

theorem wit_PagesAndExpanders_4 : ∃ (s : State) (c : CmdCtx) (a : Dword), s.d.Runs (.memPageRetire c a) c
    0x0703 .operator ∧ s.d.svRuns 2 = true ∧ s.d.inNear a.toNat 1 = true ∧ s.d.mem.retiredPages.contains
    (pageOf a.toNat) = false ∧ s.d.mem.copyPages.contains (pageOf a.toNat) = false ∧ s.d.poolFree ≠ 0 :=
  ⟨mk dMem, c0, 0x2000000000000, by simp only [Dev.Runs]; decide +kernel⟩

theorem wit_PagesAndExpanders_5 : ∃ (s : State) (e : Fin 4) (f : Nat), s.d.awake = true ∧ s.d.svRuns 2 = true
    ∧ s.d.spareExpander = some f ∧ (s.d.expander e.val).role = 1 ∧ s.d.mem.copyExp = none ∧ s.d.regBit
    (baseMem + 0x40) 0 = true ∧ s.d.faults.failures = [] ∧ s.d.store.replacing = none :=
  ⟨mk (dMem.setReg (baseMem + 0x40) 1), 0, 3, by decide +kernel⟩

theorem wit_PagesAndExpanders_7 : ∃ (s : State) (c : CmdCtx) (p : Byte) (f : Nat), s.d.Runs (.memExpSwap c p)
    c 0x0705 .operator ∧ p.toNat < 4 ∧ s.d.svRuns 2 = true ∧ s.d.mem.copyExp = none ∧ s.d.faults.failures = []
    ∧ s.d.store.replacing = none ∧ s.d.spareExpander = some f ∧ (s.d.expander p.toNat).role = 1 :=
  ⟨mk dMem, c0, 0, 3, by simp only [Dev.Runs]; decide +kernel⟩

theorem wit_PagesAndExpanders_8 : ∃ (s : State) (e f : Fin 4), s.d.awake = true ∧ s.d.mem.copyExp = some
    (e.val, f.val) ∧ e ≠ f :=
  ⟨mk { dMem with mem := { dMem.mem with copyExp := some (0, 3) } }, 0, 3, by decide +kernel⟩

theorem wit_PagesAndExpanders_9 : ∃ (s : State) (e : Fin 4), s.d.awake = true ∧ (s.d.expander e.val).role = 1
    ∧ s.d.mem.copyExp = none ∧ s.d.spareExpander = none ∧ s.d.thr.shards = [] ∧ s.d.thr.jobs = [] ∧
    s.d.thr.park = [] :=
  ⟨mk { dMem with mem := { dMem.mem with exp3 := {} } }, 0, by decide +kernel⟩

theorem wit_PagesAndExpanders_10 : ∃ (s : State) (e : Nat), s.d.awake = true ∧ ([0, 1, 2, 3].find? fun e =>
    (s.d.expander e).role == 2 || (s.d.expander e).role == 3) = some e :=
  ⟨mk dMem, 3, by decide +kernel⟩

theorem wit_ArrivalAndGate_1 : ∃ (s : State) (a : Arrival), s.d.arrives a = true ∧ (a.src = .howlink ∨
    a.secured = true) ∧ a.typ = 1 ∧ s.d.placesHeld a.src < 64 ∧ a.len.toNat ≤ 4096 ∧ a.len.toNat = a.bytes ∧
    opcodeDefined a.opcode.toNat = true :=
  ⟨mk dRun, arr0, by decide +kernel⟩

theorem wit_ArrivalAndGate_2 : ∃ (s : State) (a : Arrival), s.d.arrives a = true ∧ (a.src = .howlink ∨
    a.secured = true) ∧ a.typ = 1 ∧ s.d.svRuns 1 = true ∧ s.d.boot.svFail = 0 ∧ 64 ≤ s.d.placesHeld a.src :=
  ⟨mk { dRun with cmd := { dRun.cmd with places := List.replicate 64 { src := .howlink, seq := 0, opcode := 0, session := 0 } } }, arr0,
    by decide +kernel⟩

theorem wit_ArrivalAndGate_3 : ∃ (s : State) (a : Arrival), s.d.arrives a = true ∧ (a.src = .howlink ∨
    a.secured = true) ∧ a.typ = 1 ∧ s.d.svRuns 1 = true ∧ s.d.boot.svFail = 0 ∧ s.d.placesHeld a.src < 64 ∧
    (4096 < a.len.toNat ∨ a.len.toNat ≠ a.bytes) :=
  ⟨mk dRun, arrOf 0x0101 4097 0, by decide +kernel⟩

theorem wit_ArrivalAndGate_4 : ∃ (s : State) (a : Arrival), s.d.arrives a = true ∧ (a.src = .howlink ∨
    a.secured = true) ∧ a.typ = 1 ∧ s.d.svRuns 1 = true ∧ s.d.boot.svFail = 0 ∧ s.d.placesHeld a.src < 64 ∧
    a.len.toNat ≤ 4096 ∧ a.len.toNat = a.bytes ∧ opcodeDefined a.opcode.toNat = false :=
  ⟨mk dRun, arrOf 0x0D00 0 0, by decide +kernel⟩

theorem wit_ArrivalAndGate_5 : ∃ (d : Dev) (c : CmdCtx) (op : Nat) (cls k : PrivClass), d.awake = true ∧
    d.svRuns 1 = true ∧ d.boot.svFail = 0 ∧ d.classOf c = some k ∧ (d.boot.st = .ready ∨ d.boot.st = .run) :=
  ⟨dRun, c0, 0x0101, .observer, .owner, by decide +kernel⟩

theorem wit_ArrivalAndGate_6 : ∃ (d : Dev) (c : CmdCtx) (op : Nat) (cls k : PrivClass), d.awake = true ∧
    d.svRuns 1 = true ∧ d.boot.svFail = 0 ∧ d.classOf c = some k ∧ (d.boot.st = .powerOn ∨ d.boot.st =
    .selfTest ∨ d.boot.st = .boot) :=
  ⟨dBoot, c0, 0x0101, .observer, .owner, by decide +kernel⟩

theorem wit_ArrivalAndGate_7 : ∃ (d : Dev) (c : CmdCtx) (op : Nat) (cls k : PrivClass), d.awake = true ∧
    d.svRuns 1 = true ∧ d.boot.svFail = 0 ∧ d.classOf c = some k ∧ d.boot.st = .safeTalk ∧ op / 256 ∉ [0x01,
    0x0B, 0x0C] ∧ cls ≠ .observer :=
  ⟨dSafe, c0, 0x0201, .operator, .owner, by decide +kernel⟩

theorem wit_ArrivalAndGate_8 : ∃ (d : Dev) (i : Instr) (c : CmdCtx) (op : Nat) (cls : PrivClass) (st : Status)
    (f : Dev → Dev × Option (Status × Res)), d.gate c op cls = .answer st :=
  ⟨dBoot, .devInfo c0, c0, 0x0101, .observer, .busy, fun d => answerOk d [], by decide +kernel⟩

theorem wit_ReplyFrame_1 : ∃ (d : Dev) (c : CmdCtx), d.pathUp c = true ∧ d.svRuns 1 = true  :=
  ⟨dRun, c0, by decide +kernel⟩

theorem wit_ReplyFrame_1_a : ∃ (d : Dev) (c : CmdCtx), d.pathUp c = false  :=
  ⟨dRun, cMg, by decide +kernel⟩

theorem wit_DeviceCommandsAct_1 : ∃ (s : State) (c : CmdCtx), s.d.Runs (.devReset c 0) c 0x0103 .owner :=
  ⟨mk dRun, c0, by simp only [Dev.Runs]; decide +kernel⟩

theorem wit_DeviceCommandsAct_2 : ∃ (s : State) (c : CmdCtx) (n : Word), s.d.Runs (.devReset c n) c 0x0103
    .owner ∧ n ≠ 0 ∧ n.toNat ≤ 1000000 :=
  ⟨mk dRun, c0, 1000000, by simp only [Dev.Runs]; decide +kernel⟩

theorem wit_DeviceCommandsAct_3 : ∃ (s : State) (c : CmdCtx) (r : BitVec 2), s.d.Runs (.devRole c (some r)) c
    0x0104 .owner ∧ r ≠ 3 ∧ s.d.boot.st = .safeTalk :=
  ⟨mk dSafe, c0, 2, by simp only [Dev.Runs]; decide +kernel⟩

theorem wit_DeviceCommandsAct_4 : ∃ (s : State) (c : CmdCtx) (r : BitVec 2), s.d.Runs (.devRole c (some r)) c
    0x0104 .owner ∧ r ≠ 3 ∧ (s.d.boot.st = .ready ∨ s.d.boot.st = .run) ∧ r ≠ s.d.boot.role :=
  ⟨mk dRun, c0, 2, by simp only [Dev.Runs]; decide +kernel⟩

theorem wit_DeviceCommandsAct_5 : ∃ (s : State) (c : CmdCtx), s.d.Runs (.devAdmit c) c 0x0105 .operator ∧
    s.d.boot.st = .ready :=
  ⟨mk dReady, c0, by simp only [Dev.Runs]; decide +kernel⟩

theorem wit_DeviceCommandsAct_6 : ∃ (s : State) (c : CmdCtx) (m : BitVec 16), s.d.Runs (.devEventMask c 2 m) c
    0x0106 .operator :=
  ⟨mk dRun, c0, 0xFFFF, by simp only [Dev.Runs]; decide +kernel⟩

theorem wit_OwnersAndFirmware_1 : ∃ (s : State) (c : CmdCtx) (h : BitVec 256), s.d.Runs (.secOwnerEnroll c h)
    c 0x0B03 .owner ∧ c.src ≠ .howlink ∧ s.d.svRuns 0 = true ∧ s.d.fuses.owner0.1 = 0 :=
  ⟨mk (dMg dRun 5), cMg, 9, by simp only [Dev.Runs]; decide +kernel⟩

theorem wit_OwnersAndFirmware_2 : ∃ (s : State) (c : CmdCtx) (n : Byte), s.d.Runs (.secOwnerRevoke c n) c
    0x0B04 .owner ∧ n.toNat < 4 ∧ s.d.svRuns 0 = true ∧ (s.d.fuses.owner n.toNat).1 = 1 ∧
    s.d.fuses.validOwners.length ≠ 1 ∧ s.d.boot.imgOk = false :=
  ⟨mk { dRun with fuses := { dRun.fuses with owner0 := (1, 8), owner3 := (1, 9) } }, c0, 3,
    by simp only [Dev.Runs]; decide +kernel⟩

theorem wit_OwnersAndFirmware_3 : ∃ (s : State) (c : CmdCtx) (n : Byte), s.d.Runs (.secOwnerRevoke c n) c
    0x0B04 .owner ∧ n.toNat < 4 ∧ s.d.svRuns 0 = true ∧ (s.d.fuses.owner n.toNat).1 = 1 ∧
    s.d.fuses.validOwners.length = 1 :=
  ⟨mk { dRun with fuses := { dRun.fuses with owner3 := (1, 9) } }, c0, 3,
    by simp only [Dev.Runs]; decide +kernel⟩

theorem wit_OwnersAndFirmware_4 : ∃ (s : State) (c : CmdCtx) (v : Byte), s.d.Runs (.secRollbackSet c v) c
    0x0B05 .owner ∧ s.d.boot.st = .run ∧ s.d.svRuns 0 = true ∧ v.toNat ≤ 64 ∧ v.toNat ≤ s.d.boot.svn.toNat ∧
    s.d.fuses.rollback < v.toNat :=
  ⟨mk { dRun with boot := { dRun.boot with svn := 64 } }, c0, 64,
    by simp only [Dev.Runs]; decide +kernel⟩

theorem wit_OwnersAndFirmware_5 : ∃ (s : State), s.d.awake = true ∧ s.d.svRuns 0 = true ∧ s.d.fuses.rollback <
    s.d.boot.rollTarget :=
  ⟨mk { dRun with boot := { dRun.boot with rollTarget := 1 } }, by decide +kernel⟩

theorem wit_OwnersAndFirmware_6 : ∃ (s : State), s.d.awake = true ∧ s.d.boot.st ≠ .powerOn ∧ s.d.boot.st ≠
    .selfTest ∧ s.d.boot.svStopped = 0 :=
  ⟨mk dRun, by decide +kernel⟩

theorem wit_OwnersAndFirmware_7 : ∃ (s : State) (v : Fin 4), s.d.awake = true ∧ s.d.svRuns v.val = true ∧
    s.d.svRuns 1 = true :=
  ⟨mk dRun, 3, by decide +kernel⟩

theorem wit_SpdmSessions_1 : ∃ (s : State) (x : SpdmCtx), s.d.spdmOpen x = true :=
  ⟨mk (dMg dRun 5), { link := 0, session := 0 }, by decide +kernel⟩

theorem wit_SpdmSessions_1_a : ∃ (s : State) (x : SpdmCtx), s.d.spdmOpen x = true ∧ (s.d.mg x.link.val).spdm <
    3 :=
  ⟨mk (dMg dRun 5), { link := 0, session := 0 }, by decide +kernel⟩

theorem wit_SpdmSessions_1_b : ∃ (s : State) (x : SpdmCtx), s.d.spdmOpen x = true ∧ 1 ≤ (s.d.mg
    x.link.val).spdm ∧ 2 ≤ (s.d.mg x.link.val).spdm ∧ 3 ≤ (s.d.mg x.link.val).spdm ∧ (s.d.mg
    x.link.val).sessions.length < 4 :=
  ⟨mk (dSpdm none 1), { link := 0, session := 1 }, by decide +kernel⟩

theorem wit_SpdmSessions_1_c : ∃ (s : State) (x : SpdmCtx), s.d.spdmOpen x = true ∧ 3 ≤ (s.d.mg
    x.link.val).spdm ∧ 4 ≤ (s.d.mg x.link.val).sessions.length :=
  ⟨mk (dSpdm none 4), { link := 0, session := 1 }, by decide +kernel⟩

theorem wit_SpdmSessions_1_d : ∃ (s : State) (x : SpdmCtx), s.d.spdmOpen x = true ∧ 3 ≤ (s.d.mg
    x.link.val).spdm ∧ (s.d.mg x.link.val).session? x.session = some { id := 1 } ∧ s.d.requesterClass 5 = some
    .owner :=
  ⟨mk { dSpdm none 1 with fuses := { dRun.fuses with owner0 := (1, sha256 (beBytes 64 5)) } }, { link := 0, session := 1 },
    by decide +kernel⟩

theorem wit_SpdmSessions_1_e : ∃ (s : State) (x : SpdmCtx), s.d.spdmOpen x = true ∧ 3 ≤ (s.d.mg
    x.link.val).spdm ∧ (s.d.mg x.link.val).session? x.session = some { id := 1, cls := some .owner } :=
  ⟨mk (dSpdm (some .owner) 1), { link := 0, session := 1 }, by decide +kernel⟩

theorem wit_TransactionLife_1 : ∃ (s : State) (c : CmdCtx) (scope idle drain : BitVec 16), s.d.Runs (.begin_ c
    scope idle drain) c 0x0A01 .operator ∧ scope.toNat ≤ 0xFFF ∧ idle.toNat ≤ 3600 ∧ drain.toNat ≤ 60000 ∧
    (s.d.touch c).openTxn c.src = none :=
  ⟨mk dRun, c0, 0xFFF, 3600, 60000, by simp only [Dev.Runs]; decide +kernel⟩

theorem wit_TransactionLife_2 : ∃ (s : State) (c : CmdCtx) (scope idle drain : BitVec 16) (u : Txn), s.d.Runs
    (.begin_ c scope idle drain) c 0x0A01 .operator ∧ scope.toNat ≤ 0xFFF ∧ idle.toNat ≤ 3600 ∧ drain.toNat ≤
    60000 ∧ (s.d.touch c).openTxn c.src = some u :=
  ⟨mk (dTxn txn1), c0, 0, 0, 0, txn1, by simp only [Dev.Runs]; decide +kernel⟩

theorem wit_TransactionLife_3 : ∃ (s : State) (c : CmdCtx) (u : Txn), s.d.Runs (.commit c) c 0x0A02 .operator
    ∧ (s.d.touch c).openTxn c.src = some u ∧ u.id = c.txn ∧ (s.d.touch c).mustWait u = false :=
  ⟨mk (dTxn txn1), cTx 1, txn1, by simp only [Dev.Runs]; decide +kernel⟩

theorem wit_TransactionLife_4 : ∃ (s : State) (c : CmdCtx) (u : Txn), s.d.Runs (.rollback c) c 0x0A03
    .operator ∧ (s.d.touch c).openTxn c.src = some u ∧ u.id = c.txn :=
  ⟨mk (dTxn txn1), cTx 1, txn1, by simp only [Dev.Runs]; decide +kernel⟩

theorem wit_TransactionLife_6 : ∃ (s : State) (src : Source) (u : Txn), s.d.awake = true ∧ s.d.svRuns 1 = true
    ∧ s.d.openTxn src = some u ∧ u.touched + u.idleS * 1600000000 ≤ s.d.now :=
  ⟨mk { dTxn txn1 with now := 96000000000 }, .howlink, txn1, by decide +kernel⟩

theorem wit_DrainWaitTimeout_1 : ∃ (s : State) (src : Source) (id : BitVec 16) (u : Txn), s.d.awake = true ∧
    s.d.svRuns 1 = true ∧ s.d.cmd.txns.find? (fun w => w.src == src && w.id == id && decide (w.st = .waiting))
    = some u ∧ s.d.drainWait u = true :=
  ⟨mk dDrain, .howlink, 1, txnDrain, by decide +kernel⟩

theorem wit_DrainWaitTimeout_1_a : ∃ (s : State) (src : Source) (id : BitVec 16) (u : Txn), s.d.awake = true ∧
    s.d.svRuns 1 = true ∧ s.d.cmd.txns.find? (fun w => w.src == src && w.id == id && decide (w.st = .waiting))
    = some u ∧ s.d.drainWait u = true ∧ s.d.cmd.held = [heldCommit] ∧ heldCommit.c.src = src ∧ heldCommit.what
    = .commit id ∧ heldCommit.deferred = false ∧ s.d.pathUp heldCommit.c = true :=
  ⟨mk { dDrain with cmd := { dDrain.cmd with held := [heldCommit] } }, .howlink, 1, txnDrain,
    by decide +kernel⟩

theorem wit_DrainWaitTimeout_2 : ∃ (s : State) (src : Source) (id : BitVec 16) (u : Txn), s.d.awake = true ∧
    s.d.svRuns 1 = true ∧ s.d.cmd.txns.find? (fun w => w.src == src && w.id == id && decide (w.st = .waiting))
    = some u ∧ s.d.drainWait u = false :=
  ⟨mk (dTxn { txn1 with st := .waiting }), .howlink, 1, { txn1 with st := .waiting }, by decide +kernel⟩

theorem wit_StagedCommandsJoin_1 : ∃ (s : State) (c : CmdCtx) (x : Staged) (u : Txn),
    let d := s.d.touch c;
    let now := u.staged.foldl (fun d y => d.applyStaged y) d.trial;
         s.d.Runs (Staged.instr c x) c (Staged.opcode x) .operator ∧ c.txn ≠ 0 ∧ d.openTxn c.src = some u ∧
    u.id = c.txn ∧ u.staged.length < 65536 ∧ now.inScope u.scope x = true ∧ d.trial.checkStaged now u.staged
    false x = none :=
  ⟨mk (dTxn txn1), cTx 1, .planGroup { engine := 15, autoRemap := true }, txn1,
    by simp only [Dev.Runs]; decide +kernel⟩

theorem wit_StagedCommandsJoin_2 : ∃ (s : State) (c : CmdCtx) (x : Staged), s.d.Runs (Staged.instr c x) c
    (Staged.opcode x) .operator ∧ c.txn = 0 ∧ Staged.opcode x ∉ [0x0427, 0x0428, 0x0429, 0x042A] :=
  ⟨mk dRun, c0, .planGroup { engine := 15, autoRemap := true }, by simp only [Dev.Runs]; decide +kernel⟩

theorem wit_StagedCommandsJoin_3 : ∃ (s : State) (c : CmdCtx) (x : Staged), s.d.Runs (Staged.instr c x) c
    (Staged.opcode x) .operator ∧ c.txn ≠ 0 ∧ (s.d.touch c).openTxn c.src = none :=
  ⟨mk dRun, cTx 1, .planGroup { engine := 15, autoRemap := true },
    by simp only [Dev.Runs]; decide +kernel⟩

theorem wit_ImmediateTrafficCommands_1 : ∃ (s : State) (c : CmdCtx) (p : ShaperSetP), s.d.Runs (.shaperSet c
    p) c 0x0427 .operator ∧ c.txn = 0 ∧ p.port.toNat < 512 ∧ p.cls.toNat < 8 ∧ p.level.toNat < 4 ∧
    s.d.claimedElse c.src (.shaper p.port.toNat p.cls.toNat) = false :=
  ⟨mk dRun, c0, { port := 511, cls := 7, enable := true, rate := 1, burst := 1, level := 3 },
    by simp only [Dev.Runs]; decide +kernel⟩

theorem wit_ImmediateTrafficCommands_2 : ∃ (s : State) (c : CmdCtx) (p : GroupShaperSetP), s.d.Runs
    (.groupShaperSet c p) c 0x0428 .operator ∧ c.txn = 0 ∧ p.group.toNat < 64 ∧ s.d.claimedElse c.src
    (.groupShaper p.group.toNat) = false :=
  ⟨mk dRun, c0, { group := 63, enable := true, rate := 1, burst := 1, ports := 1, classes := 0xFF },
    by simp only [Dev.Runs]; decide +kernel⟩

theorem wit_ImmediateTrafficCommands_3 : ∃ (s : State) (c : CmdCtx) (p : PolicerSetP), s.d.Runs (.policerSet c
    p) c 0x0429 .operator ∧ c.txn = 0 ∧ p.policer.toNat < 8192 ∧ s.d.claimedElse c.src (.policer
    p.policer.toNat) = false :=
  ⟨mk dRun, c0, { policer := 8191, enable := true, rate := 1, burst := 1 },
    by simp only [Dev.Runs]; decide +kernel⟩

theorem wit_ImmediateTrafficCommands_4 : ∃ (s : State) (c : CmdCtx) (l : BitVec 16) (k : Byte) (n : BitVec
    16), s.d.Runs (.policerMap c { key := .portClass l k, policer := n }) c 0x042A .operator ∧ c.txn = 0 ∧
    l.toNat < 512 ∧ k.toNat < 8 ∧ n.toNat < 8192 ∧ s.d.claimedElse c.src (.polMapPort l.toNat k.toNat) = false
    :=
  ⟨mk dRun, c0, 511, 7, 8191, by simp only [Dev.Runs]; decide +kernel⟩

theorem wit_ImmediateTrafficCommands_5 : ∃ (s : State) (g : Nat) (b : Policer), s.d.awake = true ∧ Tab.find
    s.d.tm.policers g = some b :=
  ⟨mk { dRun with tm := { dRun.tm with policers := [(8191, {})] } }, 8191, {}, by decide +kernel⟩

theorem wit_ImmediateTrafficCommands_6 : ∃ (b : Bucket) (v : BucketSet), b.pend = some v :=
  ⟨{ pend := some { en := true, rate := 5, burst := 6 } }, { en := true, rate := 5, burst := 6 },
    by decide +kernel⟩

theorem wit_ImmediateTrafficCommands_7 : ∃ (b : Bucket), b.pend = none :=
  ⟨{ en := true, rate := 5, burst := 6 }, by decide +kernel⟩

theorem wit_CommitValidates_1 : ∃ (s : State) (u : Txn) (d1 : Dev), s.d.awake = true ∧ s.d.svRuns 1 = true ∧
    s.d.cmd.txns = [u] ∧ u.st = .waiting ∧ s.d.mustWait u = false ∧ (∀ n, u.readyAt = some n → n ≤ s.d.now) ∧
    s.d.validate s.d.trial u = .pass d1 :=
  ⟨mk (dTxn { txn1 with st := .waiting }), { txn1 with st := .waiting }, _,
    ⟨by decide +kernel, by decide +kernel, by decide +kernel, by decide +kernel, by decide +kernel, by decide +kernel, rfl⟩⟩

theorem wit_CommitValidates_2 : ∃ (s : State) (u : Txn) (i op : Nat) (st : Status), s.d.awake = true ∧
    s.d.svRuns 1 = true ∧ s.d.cmd.txns = [u] ∧ u.st = .waiting ∧ s.d.mustWait u = false ∧ (∀ n, u.readyAt =
    some n → n ≤ s.d.now) ∧ s.d.validate s.d.trial u = .fail i op st :=
  ⟨mk (dTxn txnBad), txnBad, 0, _, .badParam,
    ⟨by decide +kernel, by decide +kernel, by decide +kernel, by decide +kernel, by decide +kernel, by decide +kernel, rfl⟩⟩

theorem wit_CommitFlips_1 : ∃ (s : State) (u : Txn), s.d.awake = true ∧ s.d.svRuns 1 = true ∧ s.d.cmd.txns =
    [u] ∧ u.st = .applying ∧ u.staged ≠ [] ∧ u.staged.all Staged.isTable = true ∧ s.d.red.ctxs = [] :=
  ⟨mk (dTxn { txn1 with st := .applying, staged := [.routeSet { leaf := 4095, rtype := 3, target := 0 }] }), { txn1 with st := .applying, staged := [.routeSet { leaf := 4095, rtype := 3, target := 0 }] },
    by decide +kernel⟩

theorem wit_CommitFlips_2 : ∃ (s : State) (u : Txn) (x : Staged), s.d.awake = true ∧ s.d.svRuns 1 = true ∧
    s.d.cmd.txns = [u] ∧ u.st = .applying ∧ u.staged = [x] ∧ Staged.isTable x = false ∧ Staged.modePort x =
    none ∧ Staged.opcode x ∉ [0x0201, 0x0204] :=
  ⟨mk (dTxn { txn1 with st := .applying, staged := [.sheafClose 0] }), { txn1 with st := .applying, staged := [.sheafClose 0] }, .sheafClose 0,
    by decide +kernel⟩

theorem wit_StagedChangesTakeEffect_2 : ∃ (d : Dev) (p : PlanGroupP), p.engine.toNat < 16 :=
  ⟨dRun, { engine := 15, autoRemap := true }, by decide +kernel⟩

theorem wit_StagedChangesTakeEffect_5 : ∃ (d : Dev) (p : MirrorSetP), p.enable = false :=
  ⟨dRun, { session := 3, enable := false, source := .ingress 511, analysis := 0, cls := 7 },
    by decide +kernel⟩

theorem wit_StagedChangesTakeEffect_6 : ∃ (d : Dev) (p : MirrorSetP), p.enable = true :=
  ⟨dRun, { session := 3, enable := true, source := .ingress 511, analysis := 0, cls := 7 },
    by decide +kernel⟩

theorem wit_StagedChangesTakeEffect_7 : ∃ (d : Dev) (p : CtxSetP), d.ctx? p.ctx.toNat = none ∧ p.e.level ≠ 0
    :=
  ⟨dRun, { ctx := 0xFFFF, e := ctxE 2 0 }, by decide +kernel⟩

theorem wit_StagedChangesTakeEffect_8 : ∃ (d : Dev) (p : CtxSetP), d.ctx? p.ctx.toNat = none ∧ p.e.level = 0
    :=
  ⟨dRun, { ctx := 0xFFFF, e := ctxE 0 0 }, by decide +kernel⟩

theorem wit_StagedChangesTakeEffect_9 : ∃ (d : Dev) (c : BitVec 16) (x : Ctx), d.ctx? c.toNat = some x ∧ x.st
    = .pending :=
  ⟨dCtx { e := ctxE 1 0, st := .pending }, 3, { e := ctxE 1 0, st := .pending }, by decide +kernel⟩

theorem wit_StagedChangesTakeEffect_10 : ∃ (d : Dev) (c : BitVec 16) (x : Ctx), d.ctx? c.toNat = some x ∧
    (x.st = .active ∨ x.st = .spill) :=
  ⟨dCtx { e := ctxE 1 0, st := .spill }, 3, { e := ctxE 1 0, st := .spill }, by decide +kernel⟩

theorem wit_StagedChangesTakeEffect_11 : ∃ (d : Dev) (p : CtxResizeP) (x : Ctx), d.ctx? p.ctx.toNat = some x
    :=
  ⟨dCtx { e := ctxE 1 0, st := .active }, { ctx := 3, membersNext := 1, meanNNext := 1, boundary := 9 }, { e := ctxE 1 0, st := .active },
    by decide +kernel⟩

theorem wit_StagedChangesTakeEffect_13 : ∃ (d : Dev) (p : ThrJobSetP), p.valid = false :=
  ⟨dRun, { j := 63, e := job0.cfg, init := .solo, valid := false }, by decide +kernel⟩

theorem wit_StagedChangesTakeEffect_14 : ∃ (d : Dev) (p : ThrJobSetP) (x : ThrJob), p.valid = true ∧ d.job?
    p.j.toNat = some x :=
  ⟨{ dRun with thr := { dRun.thr with jobs := [(63, job0)] } }, { j := 63, e := job0.cfg, init := .solo }, job0,
    by decide +kernel⟩

theorem wit_ClockAndPinEventsComplete_1 : ∃ (s : State), s.d.clk.refLost = true  :=
  ⟨mk { dRun with clk := { dRun.clk with refLost := true } }, by decide +kernel⟩

theorem wit_ClockAndPinEventsComplete_1_a : ∃ (s : State), s.d.clk.refLost = false ∧ s.d.awake = true  :=
  ⟨mk dRun, by decide +kernel⟩

theorem wit_ClockAndPinEventsComplete_2 : ∃ (s : State), s.d.clk.refLost = false  :=
  ⟨mk dRun, by decide +kernel⟩

theorem wit_ClockAndPinEventsComplete_3 : ∃ (s : State) (p : Pll), s.d.awake = true ∧ s.d.clk.locks.getLsbD
    (pllBit p) = true  :=
  ⟨mk { dRun with clk := { dRun.clk with locks := 0xFFFFFFFFFFFFFFFF } }, .oe 15, by decide +kernel⟩

theorem wit_ClockAndPinEventsComplete_3_a : ∃ (s : State) (p : Pll), s.d.awake = false ∨ s.d.clk.locks.getLsbD
    (pllBit p) = false  :=
  ⟨mk { dRun with boot := { dRun.boot with inReset := true } }, .oe 0, by decide +kernel⟩

theorem wit_ClockAndPinEventsComplete_4 : ∃ (s : State), s.d.timeRuns = false  :=
  ⟨State.reset, by decide +kernel⟩

theorem wit_ClockAndPinEventsComplete_4_a : ∃ (s : State), s.d.timeRuns = true  :=
  ⟨mk dRun, by decide +kernel⟩

theorem wit_ClockAndPinEventsComplete_6 : ∃ (s : State), s.d.awake = false  :=
  ⟨mk { dRun with boot := { dRun.boot with inReset := true } }, by decide +kernel⟩

theorem wit_ClockAndPinEventsComplete_6_a : ∃ (s : State), s.d.awake = true  :=
  ⟨mk dRun, by decide +kernel⟩

theorem wit_MgLeavesActive_2 : ∃ (s : State) (m : Fin 2) (a : RegActor) (v : Word), (s.d.cmd.txns.filter fun t
    => t.src == mgSource m.val && decide (t.st = .isOpen)).length ≤ 1 ∧ s.d.Serves a (baseMgl m.val) true ∧
    (s.d.mg m.val).st = 5  :=
  ⟨mk (dMg dRun 5), 0, .agent 0, 0, by simp only [Dev.Serves]; decide +kernel⟩

theorem wit_EmptyQueueIdlesOneClock_2 : ∃ (s t : State) (i : Instr) (r : List Instr), s.pending = [] ∧
    s.d.nextBehind = none ∧ s.d.loopQ = i :: r ∧ exec i (s.put { s.d with loopQ := r }) = .next t  :=
  ⟨mk { dRun with loopQ := [.decayTick] }, _, .decayTick, [],
    ⟨by decide +kernel, by decide +kernel, by decide +kernel, rfl⟩⟩

theorem wit_WholeChipResetClears_2 : ∃ (s : State), s.d.boot.inReset = true :=
  ⟨mk { dRun with boot := { dRun.boot with inReset := true } }, by decide +kernel⟩

theorem wit_WholeChipResetClears_4 : ∃ (s : State), (s.d.awake = false ∨ s.d.hl.up = false ∨ s.d.hl.trained =
    false) :=
  ⟨mk { dRun with hl := { dRun.hl with up := false } }, by decide +kernel⟩

theorem wit_WholeChipResetClears_6 : ∃ (s : State), (s.d.awake = false ∨ s.d.boot.resetAt = none) :=
  ⟨mk dRun, by decide +kernel⟩

theorem wit_WholeChipResetClears_7 : ∃ (s : State) (c : CmdCtx), s.d.Runs (.devReset c 0) c 0x0103 .owner :=
  ⟨mk dRun, c0, by simp only [Dev.Runs]; decide +kernel⟩

theorem wit_ClocksAndPins_6 : ∃ (s : State), s.d.boot.st = .powerOn :=
  ⟨mk (dv .powerOn), by decide +kernel⟩

theorem wit_HostSteersTime_4 : ∃ (s : State) (c : CmdCtx) (o : Dword), s.d.Runs (.timeAdjust c o) c 0x0803
    .operator ∧ s.d.svRuns 3 = true ∧ s.d.servo = 2 ∧ s.d.jumpNs < o.toInt.natAbs :=
  ⟨mk (dRun.setReg offTimeCtl 0x03E80A02), c0, 0x7FFFFFFFFFFFFFFF,
    by simp only [Dev.Runs]; decide +kernel⟩

theorem wit_HostSteersTime_5 : ∃ (s : State) (c : CmdCtx) (o : Dword), s.d.Runs (.timeAdjust c o) c 0x0803
    .operator ∧ s.d.svRuns 3 = false :=
  ⟨mk dNo3, c0, 7, by simp only [Dev.Runs]; decide +kernel⟩

theorem wit_PtpSteersTime_2 : ∃ (s : State) (r : PtpMeas), s.d.awake = true ∧ s.d.svRuns 3 = true ∧ (s.d.mg
    r.link.val).st = 5 ∧ s.d.ptpMode r.link.val ≠ .off ∧ r.supported = false :=
  ⟨mk { dMg (dRun.setReg offTimeCtl 0x03E80A01) 5 with time := { dRun.time with mode0 := .ordinary } }, { link := 0, domain := 0, offset := -5, supported := false },
    by decide +kernel⟩

theorem wit_PtpSteersTime_7 : ∃ (s : State) (c : CmdCtx) (b : Bool), s.d.Runs (.ptpDomainSelect c b) c 0x0806
    .operator ∧ s.d.svRuns 3 = true ∧ b ≠ s.d.time.selB ∧ beyond (s.d.domain b).offset s.d.jumpNs = true :=
  ⟨mk { dRun with time := { dRun.time with domB := { dRun.time.domB with offset := 2 ^ 70 } } }, c0, true,
    by simp only [Dev.Runs]; decide +kernel⟩

theorem wit_MgBringUp_9 : ∃ (s : State) (m : Fin 2) (typ seg : Byte) (len : BitVec 16) (r : Word) (p : List
    Byte) (crc : Word) (e : Bool), s.d.awake = true ∧ (s.d.mg m.val).st ≠ 0 ∧ (s.d.mg m.val).st ≠ 5 ∧
    s.d.mgMode m.val = 1 ∧ (crc32 (mgHeader typ seg len r ++ p) ≠ crc ∨ e = false ∨ p.length ≠ len.toNat) :=
  ⟨mk ((dMg dRun 4).setReg (baseMgl 0) 1), 0, 1, 0, 1, 0, [], 0, true, by decide +kernel⟩

theorem wit_CoresAndBanks_6 : ∃ (s : State) (k q : Fin 8) (row ctx : BitVec 16) (seq : Word) (b : Bool),
    s.d.awake = true ∧ s.d.svRuns 2 = true ∧ (s.d.corePos (8 * k.val + q.val)).st = .filled ∧ s.d.chunk?
    ctx.toNat seq = none ∧ s.d.faults.failures = [] ∧ Tab.find s.d.faults.sramAt ((8 * k.val + q.val) * 65536
    + row.toNat) = none :=
  ⟨mk dRun, 7, 7, 0xFFFF, 3, 7, false, by decide +kernel⟩

theorem wit_CoresAndBanks_7 : ∃ (s : State) (k q : Fin 8) (row ctx : BitVec 16) (seq : Word) (b : Bool) (n :
    Nat), s.d.awake = true ∧ s.d.svRuns 2 = true ∧ (s.d.corePos (8 * k.val + q.val)).st = .filled ∧ s.d.chunk?
    ctx.toNat seq = none ∧ s.d.faults.failures = [] ∧ s.d.store.replacing = none ∧ s.d.mem.copyExp = none ∧
    s.d.spareCore (k.val / 2) = 0 ∧ Tab.find s.d.faults.sramAt ((8 * k.val + q.val) * 65536 + row.toNat) =
    some n ∧ s.d.now ≤ n + 1600000000 :=
  ⟨mk { dRun with faults := { dRun.faults with sramAt := [(63 * 65536 + 0xFFFF, 0)] } }, 7, 7, 0xFFFF, 3, 7, false, 0,
    by decide +kernel⟩

theorem wit_CoresAndBanks_17 : ∃ (s : State) (c : CmdCtx) (a : Byte) (ix : Word) (w : BitVec 16) (two : Bool)
    (y : Inject), s.d.Runs (.diagInject c a ix w two) c 0x0C06 (if s.d.boot.st = .run then .owner else
    .operator) ∧ ix.toNat < injectSize a.toNat ∧ (0x10 ≤ a.toNat → a.toNat ≤ 0x14 → w.toNat < 16) ∧ y ∈
    s.d.faults.injects ∧ y.array = a.toNat ∧ y.index = ix.toNat ∧ y.word = w.toNat :=
  ⟨mk { dRun with faults := { dRun.faults with injects := [{ array := 0x10, index := 4095, word := 15, two := false }] } }, c0, 0x10, 4095, 15, false, { array := 0x10, index := 4095, word := 15, two := false },
    by simp only [Dev.Runs]; decide +kernel⟩

theorem wit_PagesAndExpanders_6 : ∃ (s : State) (e : Fin 4) (f : Nat), s.d.awake = true ∧ s.d.svRuns 2 = true
    ∧ s.d.spareExpander = some f ∧ (s.d.expander e.val).role = 1 ∧ s.d.mem.copyExp = none ∧ s.d.regBit
    (baseMem + 0x40) 0 = true ∧ s.d.faults.failures = [] ∧ s.d.store.replacing.isSome = true :=
  ⟨mk { dMem.setReg (baseMem + 0x40) 1 with store := { dRun.store with replacing := some 1023 } }, 0, 3,
    by decide +kernel⟩

theorem wit_TransactionLife_5 : ∃ (s : State) (src : Source) (u : Txn), s.d.awake = true ∧ s.d.svRuns 1 = true
    ∧ s.d.openTxn src = some u ∧ s.d.now < u.touched + u.idleS * 1600000000 :=
  ⟨mk (dTxn txn1), .howlink, txn1, by decide +kernel⟩

theorem wit_CommitFlips_3 : ∃ (s : State) (u : Txn) (p q : OptPortModeP), s.d.awake = true ∧ s.d.svRuns 1 =
    true ∧ s.d.cmd.txns = [u] ∧ u.st = .applying ∧ u.staged = [.optPortMode p, .optPortMode q] ∧ p.port =
    q.port ∧ p.express = false ∧ q.express = false ∧
    let m := (s.d.port q.port.toNat).modeSet;
         m.express = false ∧ m.mode = BitVec.ofNat 3 q.mode.toNat :=
  ⟨mk (let t := { txn1 with st := .applying, staged := [.optPortMode mode0, .optPortMode mode0] }; { dPort (full .active) with cmd := { dRun.cmd with txns := [t] } }), { txn1 with st := .applying, staged := [.optPortMode mode0, .optPortMode mode0] }, mode0, mode0,
    by dsimp only; decide +kernel⟩

theorem wit_EmptyQueueIdlesOneClock_3 : ∃ (s t : State) (d : Dev) (i : Instr), s.pending = [] ∧ s.d.nextBehind
    = some (d, i) ∧ exec i (s.put d) = .next t ∧ t.d.loopQ = []  :=
  ⟨mk { dRun with cmd := { dRun.cmd with behind := [.timeRateSet c0 0] } }, _, _, _,
    ⟨rfl, rfl, rfl, rfl⟩⟩

theorem wit_HostSteersTime_7 : ∃ (s : State) (c : CmdCtx) (sec : BitVec 48) (ns : Word) (f : Bool), s.d.Runs
    (.timeStep c sec ns f) c 0x0802 (if f then .owner else .operator) ∧ s.d.svRuns 3 = false :=
  ⟨mk dNo3, c0, 7, 0, true, by simp only [Dev.Runs]; decide +kernel⟩

theorem wit_HostSteersTime_8 : ∃ (s : State) (c : CmdCtx) (r : BitVec 40), s.d.Runs (.timeRateSet c r) c
    0x0804 .operator ∧ s.d.svRuns 3 = false :=
  ⟨mk dNo3, c0, 7, by simp only [Dev.Runs]; decide +kernel⟩

theorem wit_HostSteersTime_9 : ∃ (s : State) (c : CmdCtx) (sec : BitVec 48) (ns : Word), s.d.Runs (.timeStep c
    sec ns true) c 0x0802 .owner ∧ s.d.svRuns 3 = true ∧ ns.toNat < 1000000000 :=
  ⟨mk { dRun with time := { dRun.time with stepped := true } }, c0, 7, 999999999,
    by simp only [Dev.Runs]; decide +kernel⟩

theorem wit_RegisterAndInterruptWrites_8 : ∃ (s : State) (a : RegActor) (off w : Nat) (v : Dword) (r : RegDef)
    (o : Nat), s.d.Serves a off true ∧ regAt off = some (r, o) ∧ r.width = w ∧ plainOffset off = true ∧
    plainOffset o = true :=
  ⟨mk dRun, .agent 0, 0x87FC40, 32, 0xFFF, ((regAt 0x87FC40).get rfl).1, ((regAt 0x87FC40).get rfl).2,
    by simp only [Dev.Serves]; decide +kernel⟩

theorem wit_RegisterAndInterruptWrites_9 : ∃ (d : Dev) (off v i : Nat) (r : RegDef), regAt off = some (r, off)
    ∧ i < 64  :=
  ⟨dRun, 0x87FC40, 0xFFF, 31, ((regAt 0x87FC40).get rfl).1, by decide +kernel⟩

theorem wit_RegisterAndInterruptWrites_12 : ∃ (off o : Nat) (r : RegDef), regAt off = some (r, o)  :=
  ⟨0x23C0010, ((regAt 0x23C0010).get rfl).2, ((regAt 0x23C0010).get rfl).1, by decide +kernel⟩

theorem wit_RegisterAndInterruptWrites_10 : ∃ (d : Dev) (off v o : Nat), o ≠ off ∧ (∀ r p, regAt off = some
    (r, p) → p = off)  :=
  ⟨dRun, 0x87FC40, 5, 0x87FC44, ⟨by decide, fun _ _ h => by cases h; rfl⟩⟩

theorem wit_ResetValues_1 : ∃ (off o : Nat) (r : RegDef), regAt off = some (r, o)  :=
  ⟨0x87FC40, ((regAt 0x87FC40).get rfl).2, ((regAt 0x87FC40).get rfl).1, by decide +kernel⟩

theorem wit_BootStages_4_a : ∃ (a b : Fin 16), a < b  :=
  ⟨14, 15, by decide +kernel⟩

theorem wit_BootStages_4_b : ∃ (a b : Fin 16), a.val < 8 ∧ 8 ≤ b.val  :=
  ⟨7, 8, by decide +kernel⟩

theorem wit_CompanionMemoryAccess_5 : ∃ (s : State) (a : BitVec 52) (n : Nat), s.d.awake = true ∧ s.d.hl.up =
    true ∧ (a.toNat < 0x1000004000000 ∨ 0x1000004001000 ≤ a.toNat) ∧ s.d.memRight a.toNat n = .denied :=
  ⟨mk dMem, 0xFFFFFFFFFFFFF, 1, by decide +kernel⟩

theorem wit_CompanionMemoryAccess_6 : ∃ (s : State) (a : BitVec 52) (n : Nat), s.d.awake = true ∧ s.d.hl.up =
    true ∧ (a.toNat < 0x1000004000000 ∨ 0x1000004001000 ≤ a.toNat) ∧ s.d.memRight a.toNat n ≠ .denied ∧
    ((linesOf a.toNat n).any fun l => s.d.lineBad l) = true :=
  ⟨mk { dMem with mem := { dMem.mem with badLines := [0x2000000000000 / 64] } }, 0x2000000000000, 64,
    by decide +kernel⟩

end Sys2Proof.Tests
end

