-- ==== Sys2Proof/Tests/WitnessB.lean ====
section
/-! SUPPORT. Witnesses of the statements' hypotheses: for each clause of a statement a
concrete state and operands that meet all of its hypotheses together (second half of the statements). -/

namespace Sys2Proof.Tests

open Sys2Proof Sys2Proof.Machine

set_option Elab.async false
set_option maxRecDepth 10000
set_option linter.unusedVariables false
set_option linter.unusedSimpArgs false

theorem wit_PortStages_1 : ∃ (s : State) (p : Port), s.d.awake = true ∧ ((s.d.port p.val).st = .detect ∨
    (s.d.port p.val).st = .absent) ∧ s.d.ringsReady p.val = true :=
  ⟨mk { dPort (full .absent) with opt := { dRun.opt with rings := [(1022, { lock := .locked }), (1023, { lock := .locked })] } }, p511,
    by decide +kernel⟩

theorem wit_PortStages_2 : ∃ (s : State) (p : Port), s.d.awake = true ∧ s.d.ringsReady p.val = false :=
  ⟨mk (dPort (full .absent)), p511, by decide +kernel⟩

theorem wit_PortStages_3 : ∃ (s : State) (p : Port), s.d.awake = true ∧ (s.d.port p.val).st = .detect ∧
    (s.d.planOf (s.d.logical p.val)).valid = true :=
  ⟨mk { dPort (full .detect) with plan := [(511, plan0)] }, p511, by decide +kernel⟩

theorem wit_PortStages_4 : ∃ (s : State) (p : Port) (c0 c1 c2 : BitVec 16) (bits errs : Nat), s.d.awake = true
    ∧ (s.d.port p.val).st = .train :=
  ⟨mk (dPort (full .train)), p511, 1, 1, 0, 0, 0, by decide +kernel⟩

theorem wit_PortStages_4_a : ∃ (s : State) (p : Port) (c0 c1 c2 : BitVec 16) (bits errs : Nat), s.d.awake =
    true ∧ (s.d.port p.val).st = .train ∧ x0.rxReady = true ∧ 8 ≤ x0.readySent ∧ x0.readyGot = 2 ∧ s.d.port
    p.val = x0 :=
  ⟨mk (dPort { full .train with rxReady := true, readySent := 8, readyGot := 2 }), p511, 1, 1, 0, 0, 0,
    by decide +kernel⟩

theorem wit_PortStages_5 : ∃ (s : State) (p : Port), s.d.awake = true ∧ (s.d.port p.val).muted = true ∧
    s.d.loop p.val ≠ 1 :=
  ⟨mk (dPort { full .train with muted := true }), p511, by decide +kernel⟩

theorem wit_PortStages_6 : ∃ (s : State) (p : Port), s.d.awake = true ∧ (s.d.port p.val).muted = false ∧
    (s.d.port p.val).st = .train ∧ (s.d.port p.val).rxReady = false ∧ s.d.loopsBack p.val = false :=
  ⟨mk (dPort (full .train)), p511, by decide +kernel⟩

theorem wit_PortStages_7 : ∃ (s : State) (p : Port), s.d.awake = true ∧ (s.d.port p.val).muted = false ∧
    (s.d.port p.val).st = .train ∧ (s.d.port p.val).rxReady = true :=
  ⟨mk (dPort { full .train with rxReady := true, readySent := 7, readyGot := 3 }), p511,
    by decide +kernel⟩

theorem wit_PortStages_9 : ∃ (s : State) (p : Port), s.d.awake = true ∧ (s.d.port p.val).st = .lock :=
  ⟨mk (dPort (full .lock)), p511, by decide +kernel⟩

theorem wit_TrainingFailures_1 : ∃ (s : State) (p : Port) (i : Instr), ((i = .trainTimeout p ∧ (s.d.port
    p.val).st = .train) ∨ (i = .lockTimeout p ∧ (s.d.port p.val).st = .lock) ∨ (i = .exchangeTimeout p ∧
    (s.d.port p.val).st = .exchange)) ∧ s.d.awake = true ∧ (s.d.port p.val).rx = none ∧ (s.d.port
    p.val).trainFails < 255 ∧ (s.d.port p.val).mode ≠ 0 ∧ (s.d.port p.val).badHalf ≠ 3 ∧ s.d.loop p.val = 0 :=
  ⟨mk (dPort { full .train with trainFails := 254 }), p511, .trainTimeout p511, by decide +kernel⟩

theorem wit_TrainingFailures_1_a : ∃ (s : State) (p : Port) (i : Instr), ((i = .trainTimeout p ∧ (s.d.port
    p.val).st = .train) ∨ (i = .lockTimeout p ∧ (s.d.port p.val).st = .lock) ∨ (i = .exchangeTimeout p ∧
    (s.d.port p.val).st = .exchange)) ∧ s.d.awake = true ∧ (s.d.port p.val).rx = none ∧ (s.d.port
    p.val).trainFails < 255 ∧ (s.d.port p.val).mode ≠ 0 ∧ (s.d.port p.val).badHalf ≠ 3 ∧ s.d.loop p.val = 0 ∧
    s.d.regBits (basePort p.val + 4) 7 0 = 1 :=
  ⟨mk ((dPort (full .lock)).setReg (basePort 511 + 4) 1), p511, .lockTimeout p511, by decide +kernel⟩

theorem wit_TrainingFailures_1_b : ∃ (s : State) (p : Port) (i : Instr), ((i = .trainTimeout p ∧ (s.d.port
    p.val).st = .train) ∨ (i = .lockTimeout p ∧ (s.d.port p.val).st = .lock) ∨ (i = .exchangeTimeout p ∧
    (s.d.port p.val).st = .exchange)) ∧ s.d.awake = true ∧ (s.d.port p.val).rx = none ∧ (s.d.port
    p.val).trainFails < 255 ∧ (s.d.port p.val).mode ≠ 0 ∧ (s.d.port p.val).badHalf ≠ 3 ∧ s.d.loop p.val = 0 ∧
    s.d.regBits (basePort p.val + 4) 7 0 = 0 :=
  ⟨mk ((dPort (full .exchange)).setReg (basePort 511 + 4) 0), p511, .exchangeTimeout p511,
    by decide +kernel⟩

theorem wit_PortExchange_1 : ∃ (s : State) (p : Port) (id feat : LinkMsg), s.d.awake = true ∧ (s.d.port
    p.val).fecLock = true ∧ s.d.loop p.val = 0 ∧ (s.d.port p.val).st = .exchange ∧ pairValid id feat = true ∧
    LinkMsg.field feat 2 1 = 1 ∧ planMatches (s.d.planOf (s.d.logical p.val)) id = true :=
  ⟨mk { dPort (full .exchange) with plan := [(511, plan0)] }, p511, pairId, pairFeat 1,
    by decide +kernel⟩

theorem wit_PortExchange_2 : ∃ (s : State) (p : Port) (id feat : LinkMsg), s.d.awake = true ∧ (s.d.port
    p.val).fecLock = true ∧ s.d.loop p.val = 0 ∧ (s.d.port p.val).st = .exchange ∧ pairValid id feat = true ∧
    LinkMsg.field feat 2 1 = 1 ∧ (s.d.planOf (s.d.logical p.val)).valid = false :=
  ⟨mk (dPort (full .exchange)), p511, pairId, pairFeat 1, by decide +kernel⟩

theorem wit_PortExchange_3 : ∃ (s : State) (p : Port) (id feat : LinkMsg), s.d.awake = true ∧ (s.d.port
    p.val).fecLock = true ∧ s.d.loop p.val = 0 ∧ (s.d.port p.val).st = .exchange ∧ pairValid id feat = true ∧
    LinkMsg.field feat 2 1 ≠ 1 :=
  ⟨mk (dPort (full .exchange)), p511, pairId, pairFeat 2, by decide +kernel⟩

theorem wit_PortExchange_4 : ∃ (s : State) (p : Port) (id feat : LinkMsg), s.d.awake = true ∧ (s.d.port
    p.val).fecLock = true ∧ s.d.loop p.val ≠ 2 ∧ (s.d.port p.val).st = .active ∧ pairValid id feat = true ∧
    pairIdentity id feat = pairIdentity (s.d.port p.val).partnerId (s.d.port p.val).partnerFeat :=
  ⟨mk (dPort { full .active with partnerId := pairId, partnerFeat := pairFeat 1 }), p511, pairId, pairFeat 1,
    by decide +kernel⟩

theorem wit_PortExchange_5 : ∃ (s : State) (p : Port), s.d.awake = true ∧ (s.d.port p.val).fecLock = true ∧
    s.d.loop p.val ≠ 2 ∧ (s.d.port p.val).st = .exchange :=
  ⟨mk (dPort (full .exchange)), p511, by decide +kernel⟩

theorem wit_PortExchange_6 : ∃ (s : State) (p : Port), s.d.awake = true ∧ (s.d.port p.val).st ∈ [.exchange,
    .active, .unplanned, .crossed, .incompatible] :=
  ⟨mk (dPort (full .incompatible)), p511, by decide +kernel⟩

theorem wit_PortLossesAndDrains_1 : ∃ (s : State) (p : Port), s.d.awake = true ∧ (s.d.port p.val).st = .active
    ∧ (s.d.port p.val).rx = none ∧ (s.d.port p.val).hold = none ∧ s.d.swapOfPort p.val = none ∧ s.d.red.ctxs =
    [] ∧ (s.d.port p.val).mode ≠ 0 ∧ (s.d.port p.val).badHalf ≠ 3 ∧ s.d.loop p.val = 0 :=
  ⟨mk (dPort (full .active)), p511, by decide +kernel⟩

theorem wit_PortLossesAndDrains_1_a : ∃ (s : State) (p : Port), s.d.awake = true ∧ (s.d.port p.val).st =
    .active ∧ (s.d.port p.val).rx = none ∧ (s.d.port p.val).hold = none ∧ s.d.swapOfPort p.val = none ∧
    s.d.red.ctxs = [] ∧ (s.d.port p.val).mode ≠ 0 ∧ (s.d.port p.val).badHalf ≠ 3 ∧ s.d.loop p.val = 0 ∧
    (s.d.port p.val).los = false ∧ (s.d.port p.val).fecLock = true :=
  ⟨mk (dPort (full .active)), p511, by decide +kernel⟩

theorem wit_PortLossesAndDrains_2 : ∃ (s : State) (p : Port), s.d.awake = true ∧ (s.d.port p.val).fecLock =
    true ∧ (s.d.port p.val).rx = none ∧ (s.d.port p.val).hunting = false :=
  ⟨mk (dPort (full .active)), p511, by decide +kernel⟩

theorem wit_PortLossesAndDrains_3 : ∃ (s : State) (p : Port) (b : BitVec 256) (off : BitVec 16), s.d.awake =
    true ∧ (s.d.port p.val).fecLock = true ∧ (s.d.port p.val).hunting = true ∧ s.d.loop p.val ≠ 2 ∧
    ControlBlock.ofBody b = .sync off ∧ off ≠ 0xFFFF :=
  ⟨mk (dPort { full .active with hunting := true }), p511, syncBody 0, 0, by decide +kernel⟩

theorem wit_PortLossesAndDrains_4 : ∃ (s : State) (p : Port) (b : BitVec 256), s.d.loop p.val ≠ 2 ∧ (s.d.port
    p.val).st ≠ .lock ∧ (∀ off : BitVec 16, ControlBlock.ofBody b = .sync off → off = 0xFFFF) ∧ (∀ m,
    ControlBlock.ofBody b ≠ .link m) :=
  ⟨mk dRun, p511, 0,
    ⟨by decide +kernel, by decide +kernel, by intro off h; simp [ControlBlock.ofBody] at h, by intro m h; simp [ControlBlock.ofBody] at h⟩⟩

theorem wit_PortLossesAndDrains_8 : ∃ (s : State) (p : Port), s.d.awake = true ∧ (s.d.port p.val).st =
    .draining ∧ (s.d.port p.val).drain = some .restart ∧ s.d.queuesEmpty (s.d.logical p.val) = true ∧
    (s.d.port p.val).rx = none ∧ s.d.swapOfPort p.val = none ∧ s.d.red.ctxs = [] ∧ (s.d.port p.val).mode ≠ 0 ∧
    (s.d.port p.val).badHalf ≠ 3 ∧ s.d.loop p.val = 0 :=
  ⟨mk (dPort { full .draining with drain := some .restart }), p511, by decide +kernel⟩

theorem wit_PortLossesAndDrains_9 : ∃ (s : State) (p : Port) (c : Nat), s.d.awake = true ∧ (s.d.port p.val).st
    = .draining ∧ c < 8 :=
  ⟨mk (dPort (full .draining)), p511, 7, by decide +kernel⟩

theorem wit_PortLossesAndDrains_10 : ∃ (s : State) (p : Port), s.d.awake = true ∧ (s.d.port p.val).st =
    .detect ∧ s.d.cmd.held.any (fun h => decide (h.what = .portRestart (s.d.logical p.val))) = true :=
  ⟨mk { dPort (full .detect) with cmd := { dRun.cmd with held := [heldRestart] } }, p511,
    by decide +kernel⟩

theorem wit_PortLossesAndDrains_11 : ∃ (s : State) (p : Port) (h : HeldReply), s.d.awake = true ∧ (s.d.port
    p.val).st = .draining ∧ s.d.cmd.held.find? (fun h => h.what == .portRestart (s.d.logical p.val)) = some h
    :=
  ⟨mk { dPort (full .draining) with cmd := { dRun.cmd with held := [heldRestart] } }, p511, heldRestart,
    by decide +kernel⟩

theorem wit_PortCommands_1 : ∃ (s : State) (c : CmdCtx) (l : BitVec 16), s.d.Runs (.portRestart c l false) c
    0x0206 .operator ∧ c.noWait = false ∧ l.toNat < 512 ∧ (s.d.touch c).claimedElse c.src (.port (s.d.physical
    l.toNat)) = false ∧ s.d.red.ctxs = [] ∧ (s.d.port (s.d.physical l.toNat)).st = .active :=
  ⟨mk (dPort (full .active)), c0, 511, by simp only [Dev.Runs]; decide +kernel⟩

theorem wit_PortCommands_2 : ∃ (s : State) (c : CmdCtx) (l : BitVec 16), s.d.Runs (.portRestart c l true) c
    0x0206 .operator ∧ l.toNat < 512 ∧ (s.d.touch c).claimedElse c.src (.port (s.d.physical l.toNat)) = false
    ∧ s.d.red.ctxs = [] ∧
    let p := s.d.physical l.toNat;
         (s.d.port p).st = .active ∧ (s.d.port p).rx = none ∧ s.d.swapOfPort p = none ∧ (s.d.port p).mode ≠ 0
    ∧ (s.d.port p).badHalf ≠ 3 ∧ s.d.loop p = 0 :=
  ⟨mk (dPort (full .active)), c0, 511, by simp only [Dev.Runs]; decide +kernel⟩

theorem wit_PortCommands_3 : ∃ (s : State) (c : CmdCtx) (p : BitVec 16) (pat : PrbsPattern), s.d.Runs
    (.portPrbs c p pat) c 0x0207 .operator ∧ p.toNat < 512 ∧ (s.d.touch c).claimedElse c.src (.port p.toNat) =
    false ∧ s.d.loop p.toNat ≠ 2 ∧ (s.d.port p.toNat).st ∈ [.detect, .train, .lock, .exchange, .unplanned,
    .absent, .crossed, .incompatible] ∧ pat ≠ .none :=
  ⟨mk (dPort (full .incompatible)), c0, 511, .prbs13, by simp only [Dev.Runs]; decide +kernel⟩

theorem wit_PortCommands_4 : ∃ (s : State) (p : Port), s.d.awake = true ∧ (s.d.port p.val).st = .test ∧
    (s.d.port p.val).prbs ≠ .none :=
  ⟨mk (dPort { full .test with prbs := .prbs31 }), p511, by decide +kernel⟩

theorem wit_PortCommands_5 : ∃ (s : State) (c : CmdCtx) (p : BitVec 16), s.d.Runs (.optRelock c p) c 0x0307
    .operator ∧ p.toNat < 512 ∧ (s.d.port p.toNat).st = .down ∧ (s.d.port p.toNat).reason = 1 ∧ (s.d.touch
    c).claimedElse c.src (.port p.toNat) = false ∧ (s.d.port p.toNat).mode ≠ 0 ∧ (s.d.port p.toNat).badHalf ≠
    3 ∧ s.d.loop p.toNat = 0 :=
  ⟨mk (dPort { full .down with reason := 1 }), c0, 511, by simp only [Dev.Runs]; decide +kernel⟩

theorem wit_RingsAndLasers_2 : ∃ (s : State) (p : Port) (r : Ring) (w : ToneWindow), s.d.awake = true ∧
    ((s.d.ring p.val r).lock = .sweep ∨ (s.d.ring p.val r).lock = .muted) ∧ (s.d.ring p.val r).passed < 4 ∧
    (s.d.ring p.val r).windows = 0 :=
  ⟨mk { dPort (full .train) with opt := { dRun.opt with rings := [(1023, { lock := .muted, passed := 3 })] } }, p511, .rx, toneOwn,
    by decide +kernel⟩

theorem wit_RingsAndLasers_3 : ∃ (s : State) (p : Port) (r : Ring) (w : ToneWindow), s.d.awake = true ∧
    ((s.d.ring p.val r).lock = .sweep ∨ (s.d.ring p.val r).lock = .muted) ∧ (s.d.ring p.val r).passed < 4 ∧
    (s.d.ring p.val r).windows ≠ 0 ∧ (s.d.ring p.val r).matches_ < 2 ∧ ((s.d.ring p.val r).matches_ = 0 ∨
    toneHits w ((s.d.port p.val).chan p.val) = false) :=
  ⟨mk { dPort (full .detect) with opt := { dRun.opt with rings := [(1022, { lock := .sweep, windows := 1, matches_ := 1, passed := 3 })] } }, p511, .tx, toneNone,
    by decide +kernel⟩

theorem wit_RingsAndLasers_4 : ∃ (s : State) (p : Port) (r : Ring) (w : ToneWindow), s.d.awake = true ∧
    ((s.d.ring p.val r).lock = .sweep ∨ (s.d.ring p.val r).lock = .muted) ∧ (s.d.ring p.val r).passed < 4 ∧
    (s.d.ring p.val r).windows ≠ 0 ∧ (s.d.ring p.val r).matches_ = 1 ∧ (s.d.ring p.val r).fails = 0 ∧ toneHits
    w ((s.d.port p.val).chan p.val) = true :=
  ⟨mk { dPort (full .detect) with opt := { dRun.opt with rings := [(1022, { lock := .sweep, windows := 1, matches_ := 1, passed := 3 })] } }, p511, .tx, toneOwn,
    by decide +kernel⟩

theorem wit_RingsAndLasers_5 : ∃ (s : State) (p : Port) (r : Ring) (w : ToneWindow), s.d.awake = true ∧
    (s.d.ring p.val r).lock = .locked ∧ toneHits w ((s.d.port p.val).chan p.val) = true :=
  ⟨mk { dPort (full .detect) with opt := { dRun.opt with rings := [(1022, { lock := .locked })] } }, p511, .tx, toneOwn,
    by decide +kernel⟩

theorem wit_RingsAndLasers_6 : ∃ (s : State) (p : Port) (r : Ring) (w : ToneWindow), s.d.awake = true ∧
    (s.d.ring p.val r).lock = .locked ∧ (s.d.ring p.val r).misses = 0 ∧ toneHits w ((s.d.port p.val).chan
    p.val) = false ∧ (r = .tx ∨ -18 * 256 ≤ w.power.toInt) :=
  ⟨mk { dPort (full .detect) with opt := { dRun.opt with rings := [(1023, { lock := .locked })] } }, p511, .rx, toneNone,
    by decide +kernel⟩

theorem wit_RingsAndLasers_7 : ∃ (s : State) (p : Port) (w : ToneWindow), s.d.awake = true ∧ (s.d.ring p.val
    .rx).lock = .locked ∧ (s.d.ring p.val .rx).misses = 1 ∧ (s.d.ring p.val .rx).fails < 2 ∧ toneHits w
    ((s.d.port p.val).chan p.val) = false ∧ -18 * 256 ≤ w.power.toInt ∧ (s.d.port p.val).st ∈ [.detect,
    .train, .lock, .exchange] :=
  ⟨mk { dPort (full .exchange) with opt := { dRun.opt with rings := [(1023, { lock := .locked, misses := 1, fails := 1 })] } }, p511, toneNone,
    by decide +kernel⟩

theorem wit_RingsAndLasers_8 : ∃ (s : State) (p : Port) (r : Ring), s.d.awake = true ∧ (s.d.ring p.val r).lock
    = .sweep ∧ (s.d.ring p.val r).windows = 0 ∧ (s.d.ring p.val r).fails < 2 :=
  ⟨mk { dPort (full .detect) with opt := { dRun.opt with rings := [(1022, { lock := .sweep, fails := 1 })] } }, p511, .tx,
    by decide +kernel⟩

theorem wit_RingsAndLasers_9 : ∃ (s : State) (p : Port) (r : Ring), s.d.awake = true ∧ (s.d.ring p.val r).lock
    = .sweep ∧ (s.d.ring p.val r).windows = 0 ∧ (s.d.ring p.val r).fails = 2 ∧ (s.d.port p.val).st = .detect ∧
    s.d.swapOfPort p.val = none :=
  ⟨mk { dPort (full .detect) with opt := { dRun.opt with rings := [(1023, { lock := .sweep, fails := 2 })] } }, p511, .rx,
    by decide +kernel⟩

theorem wit_RingsAndLasers_10 : ∃ (s : State) (p : Port) (r : Ring), s.d.awake = true ∧ (s.d.ring p.val
    r).lock = .locked :=
  ⟨mk { dPort (full .detect) with opt := { dRun.opt with rings := [(1022, { lock := .locked })] } }, p511, .tx,
    by decide +kernel⟩

theorem wit_RingsAndLasers_11 : ∃ (s : State) (p : Port) (r : Ring) (m : BitVec 16), s.d.awake = true ∧
    (s.d.ring p.val r).lock ≠ .unlocked :=
  ⟨mk { dPort (full .detect) with opt := { dRun.opt with rings := [(1022, { lock := .muted })] } }, p511, .tx, 0xFFFF,
    by decide +kernel⟩

theorem wit_RingsAndLasers_12 : ∃ (s : State) (e : Fin 16) (l : LaserIx) (v : BitVec 16), s.d.awake = true ∧
    s.d.serving = true ∧ (s.d.laser e.val l.val).lit = true ∧ (s.d.laser e.val l.val).hasRef = false ∧
    (s.d.laser e.val l.val).refN < 99 :=
  ⟨mk (dRun.setLaser 15 35 { lit := true }), 15, 35, 0x8000, by decide +kernel⟩

theorem wit_RingsAndLasers_14 : ∃ (s : State) (e : Fin 16) (l : LaserIx) (v : BitVec 16), s.d.awake = true ∧
    s.d.serving = true ∧ (s.d.laser e.val l.val).lit = true ∧ (s.d.laser e.val l.val).hasRef = false ∧
    (s.d.laser e.val l.val).refN = 99 :=
  ⟨mk (dRun.setLaser 15 35 { lit := true, refN := 99 }), 15, 35, 0x8000, by decide +kernel⟩

theorem wit_RingsAndLasers_15 : ∃ (s : State) (e : Fin 16) (l : LaserIx) (v : BitVec 16) (p : Nat), s.d.awake
    = true ∧ s.d.serving = true ∧ (s.d.laser e.val l.val).lit = true ∧ (s.d.laser e.val l.val).hasRef = true ∧
    (s.d.laser e.val l.val).level = 0 ∧ (s.d.laser e.val l.val).halfOwed = false ∧ s.d.laserPort e.val l.val =
    some p ∧
    let fade := v.toInt - (s.d.laser e.val l.val).ref.toInt;
         fade ≤ s.d.fadeAt e.val 1 ∧ (∀ k, 2 ≤ k → k ≤ 4 → s.d.fadeAt e.val k < fade) ∧ atLeast1 (s.d.regBits
    (offLightCtl e.val) 15 8) ≤ (s.d.laser e.val l.val).nWarn + 1 :=
  ⟨mk (dRun.setLaser 15 31 { lit := true, hasRef := true, nWarn := 254 }), 15, 31, BitVec.ofInt 16 (dRun.fadeAt 15 1), 511,
    by dsimp only; decide +kernel⟩

theorem wit_RingsAndLasers_16 : ∃ (s : State) (p : Port) (v : BitVec 16), s.d.awake = true ∧ s.d.serving =
    true ∧ s.d.onSpare p.val = false ∧ isCampus (s.d.port p.val).mode = false ∧ (s.d.laser (p.val / 32) (p.val
    % 32)).lit = true ∧ (s.d.port p.val).st = .detect ∧ (s.d.port p.val).rx = none ∧ s.d.canSwap p.val = true
    ∧ (s.d.port p.val).mode ≠ 0 ∧ (s.d.port p.val).badHalf ≠ 3 ∧ s.d.loop p.val = 0 :=
  ⟨mk ((dPort (full .detect)).setLaser 15 31 { lit := true }), p511, 0, by decide +kernel⟩

theorem wit_RingsAndLasers_17 : ∃ (s : State) (p : Port) (v : BitVec 16), s.d.awake = true ∧ s.d.serving =
    true ∧ s.d.onSpare p.val = false ∧ isCampus (s.d.port p.val).mode = false ∧ (s.d.laser (p.val / 32) (p.val
    % 32)).lit = true ∧ (s.d.port p.val).st = .detect ∧ s.d.swapOfPort p.val = none ∧ (s.d.spare (p.val / 32)
    (spareOf p.val (s.d.port p.val).mode)).st ≠ 0 :=
  ⟨mk (((dPort (full .detect)).setLaser 15 31 { lit := true }).setSpare 15 3 { st := 3 }), p511, 0,
    by decide +kernel⟩

theorem wit_RingsAndLasers_18 : ∃ (s : State) (p : Port) (v : BitVec 16), s.d.awake = true ∧ s.d.serving =
    true ∧ s.d.onSpare p.val = false ∧ isCampus (s.d.port p.val).mode = false ∧ (s.d.laser (p.val / 32) (p.val
    % 32)).lit = true ∧ (s.d.laser (p.val / 32) (p.val % 32)).hasRef = false :=
  ⟨mk ((dPort (full .active)).setLaser 15 31 { lit := true }), p511, 0, by decide +kernel⟩

theorem wit_RingsAndLasers_19 : ∃ (s : State) (c : CmdCtx) (e l : Byte) (v : BitVec 16), s.d.Runs
    (.optLaserRef c e l (some v)) c 0x0305 .operator ∧ e.toNat < 16 ∧ l.toNat < 37 ∧ (l.toNat = 36 → e.toNat =
    0 ∨ e.toNat = 15) :=
  ⟨mk dRun, c0, 15, 35, 0x8000, by simp only [Dev.Runs]; decide +kernel⟩

theorem wit_RingsAndLasers_20 : ∃ (d : Dev) (e i : Nat), (32 ≤ i ∨ isCampus (d.port (32 * e + i)).mode =
    false) ∧ e < 16 ∧ i < 37 :=
  ⟨dRun, 15, 31, by decide +kernel⟩

theorem wit_RingsAndLasers_21 : ∃ (d : Dev) (e i : Nat), i < 32 ∧ isCampus (d.port (32 * e + i)).mode = true
    :=
  ⟨dRun.setPort 511 { full .active with mode := 4 }, 15, 31, by decide +kernel⟩

theorem wit_LaserSwaps_1 : ∃ (s : State) (c : CmdCtx) (p : BitVec 16), s.d.Runs (.optSwap c p) c 0x0306
    .operator ∧ p.toNat < 512 ∧ (s.d.touch c).claimedElse c.src (.port p.toNat) = false ∧ (s.d.port
    p.toNat).st ≠ .off ∧ (s.d.port p.toNat).st ≠ .down ∧ s.d.canSwap p.toNat = true :=
  ⟨mk (dPort (full .active)), c0, 511, by simp only [Dev.Runs]; decide +kernel⟩

theorem wit_LaserSwaps_2 : ∃ (s : State) (e : Fin 16) (w : Swap), s.d.awake = true ∧ s.d.swapIn e.val = some w
    ∧ w.step = .tuning ∧ (s.d.port w.port).st = .active ∧ w.dead = false ∧ (s.d.port w.port).feat.getLsbD 0 =
    true ∧ (s.d.port w.port).hold = none ∧ (s.d.port w.port).muted = false :=
  ⟨mk (dSwap .tuning { full .active with feat := 1 }), 15, swap0 .tuning, by decide +kernel⟩

theorem wit_LaserSwaps_3 : ∃ (s : State) (e : Fin 16) (w : Swap), s.d.awake = true ∧ s.d.swapIn e.val = some w
    ∧ w.step = .tuning ∧ w.dead = false :=
  ⟨mk (dSwap .tuning (full .detect)), 15, swap0 .tuning, by decide +kernel⟩

theorem wit_LaserSwaps_3_a : ∃ (s : State) (e : Fin 16) (w : Swap), s.d.awake = true ∧ s.d.swapIn e.val = some
    w ∧ w.step = .tuning ∧ w.dead = false ∧ (s.d.port w.port).st ≠ .active :=
  ⟨mk (dSwap .tuning (full .detect)), 15, swap0 .tuning, by decide +kernel⟩

theorem wit_LaserSwaps_4 : ∃ (s : State) (e : Fin 16) (w : Swap), s.d.awake = true ∧ s.d.swapIn e.val = some w
    ∧ w.step = .requested 1 ∧ (s.d.port w.port).st = .active ∧ (s.d.port w.port).muted = false :=
  ⟨mk (dSwap (.requested 1) (full .active)), 15, swap0 (.requested 1), by decide +kernel⟩

theorem wit_LaserSwaps_5 : ∃ (s : State) (p : Port) (w : Swap), s.d.awake = true ∧ (s.d.port p.val).fecLock =
    true ∧ s.d.loop p.val ≠ 2 ∧ s.d.swapOfPort p.val = some w ∧ w.step = .requested 1 ∧ (s.d.port p.val).st =
    .active :=
  ⟨mk (dSwap (.requested 1) (full .active)), p511, swap0 (.requested 1), by decide +kernel⟩

theorem wit_LaserSwaps_6 : ∃ (s : State) (e : Fin 16) (w : Swap), s.d.awake = true ∧ s.d.swapIn e.val = some w
    ∧ w.step = .paused ∧ s.d.sendingOn (s.d.logical w.port) = [] :=
  ⟨mk (dSwap .paused (full .active)), 15, swap0 .paused, by decide +kernel⟩

theorem wit_LaserSwaps_7 : ∃ (s : State) (p : Port) (w : Swap), s.d.awake = true ∧ (s.d.port p.val).fecLock =
    true ∧ s.d.loop p.val ≠ 2 ∧ s.d.swapOfPort p.val = some w ∧ w.step = .shuttered ∧ (s.d.port p.val).reqWait
    = none ∧ (s.d.port p.val).drain ≠ some .mode ∧ w.spare = spareOf p.val (s.d.port p.val).mode :=
  ⟨mk (dSwap .shuttered (full .active)), p511, swap0 .shuttered, by decide +kernel⟩

theorem wit_LaserSwaps_8 : ∃ (s : State) (p : Port) (w : Swap), s.d.awake = true ∧ (s.d.port p.val).fecLock =
    true ∧ s.d.loop p.val ≠ 2 ∧ s.d.swapOfPort p.val = some w ∧ w.step = .requested 1 ∧ (s.d.port p.val).st =
    .active ∧ s.d.regBit (offLightCtl (p.val / 32)) 1 = true ∧ s.d.red.ctxs = [] :=
  ⟨mk ((dSwap (.requested 1) (full .active)).setReg (offLightCtl 15) 3), p511, swap0 (.requested 1),
    by decide +kernel⟩

theorem wit_LaserSwaps_9 : ∃ (s : State) (e : Fin 16) (p : Port) (w : Swap) (o : Bool), s.d.awake = true ∧
    s.d.swapIn e.val = some w ∧ w.port = p.val ∧ p.val / 32 = e.val ∧ w.spare = spareOf p.val (s.d.port
    p.val).mode ∧ (s.d.port p.val).st ≠ .draining ∧ (w.step = .paused ∨ w.step = .shuttered) ∧ (s.d.port
    p.val).rx = none ∧ s.d.red.ctxs = [] ∧ (s.d.port p.val).mode ≠ 0 ∧ (s.d.port p.val).badHalf ≠ 3 ∧ s.d.loop
    p.val = 0 :=
  ⟨mk (dSwap .shuttered (full .active)), 15, p511, swap0 .shuttered, true, by decide +kernel⟩

theorem wit_LaserSwaps_10 : ∃ (s : State) (p : Port) (k : Byte) (both : Bool), s.d.awake = true ∧ s.d.loop
    p.val ≠ 2 ∧ (s.d.port p.val).st = .active ∧ (s.d.port p.val).fecLock = true ∧ s.d.swapOfPort p.val = none
    :=
  ⟨mk (dPort (full .active)), p511, 0xFF, true, by decide +kernel⟩

theorem wit_LaserSwaps_11 : ∃ (s : State) (p : Port) (h : PartnerHold), s.d.awake = true ∧ s.d.loop p.val ≠ 2
    ∧ (s.d.port p.val).fecLock = true ∧ (s.d.port p.val).hold = some h :=
  ⟨mk (dPort { full .active with hold := some { token := 0xFF, both := true } }), p511, { token := 0xFF, both := true },
    by decide +kernel⟩

theorem wit_LaserSwaps_12 : ∃ (s : State) (p : Port) (h : PartnerHold), s.d.awake = true ∧ (s.d.port
    p.val).hold = some h ∧ h.nowSeen = true ∧ h.ended = false ∧ (s.d.port p.val).fecLock = true ∧ (s.d.port
    p.val).hunting = false ∧ s.d.swapOfPort p.val = none ∧ (s.d.port p.val).muted = false :=
  ⟨mk (dPort { full .active with hold := some { token := 0xFF, both := true, nowSeen := true } }), p511, { token := 0xFF, both := true, nowSeen := true },
    by decide +kernel⟩

theorem wit_LaserSwaps_13 : ∃ (s : State) (p : Port) (h : PartnerHold), s.d.awake = true ∧ (s.d.port
    p.val).hold = some h ∧ h.ended = false ∧ s.d.swapOfPort p.val = none :=
  ⟨mk (dPort { full .active with hold := some { token := 0xFF, both := true } }), p511, { token := 0xFF, both := true },
    by decide +kernel⟩

theorem wit_LaserSwaps_14 : ∃ (d : Dev) (p : Nat) (h : PartnerHold), (d.port p).hold = some h ∧ h.both = true
    ∧ h.nowSeen = true ∧ h.data = false ∧ h.ended = true ∧ d.swapOfPort p = none :=
  ⟨dPort { full .active with hold := some { token := 0xFF, both := true, nowSeen := true, ended := true } }, 511, { token := 0xFF, both := true, nowSeen := true, ended := true },
    by decide +kernel⟩

theorem wit_LaserSwaps_15 : ∃ (s : State) (p : Port), s.d.awake = true ∧ (s.d.port p.val).fecLock = true ∧
    s.d.loop p.val ≠ 2 ∧ (s.d.port p.val).st = .active ∧ (s.d.port p.val).feat.getLsbD 1 = true ∧ isHalf
    (s.d.port p.val).mode = false ∧ s.d.red.ctxs = [] :=
  ⟨mk (dPort { full .active with feat := 2 }), p511, by decide +kernel⟩

theorem wit_BandsAndOpticsReads_1 : ∃ (s : State) (c : CmdCtx) (e : Byte), s.d.Runs (.optBandSet c e true) c
    0x0302 .owner ∧ e.toNat < 16 ∧ Tab.find s.d.opt.moving e.toNat = none :=
  ⟨mk dRun, c0, 15, by simp only [Dev.Runs]; decide +kernel⟩

theorem wit_BandsAndOpticsReads_2 : ∃ (s : State) (e : Fin 16) (b : Bool), s.d.awake = true ∧ Tab.find
    s.d.opt.moving e.val = some b :=
  ⟨mk { dRun with opt := { dRun.opt with moving := [(15, true)] } }, 15, true, by decide +kernel⟩

theorem wit_BandsAndOpticsReads_3 : ∃ (s : State) (c : CmdCtx) (l : BitVec 16), s.d.Runs (.planRead c l) c
    0x0202 .observer ∧ l.toNat < 512 :=
  ⟨mk dRun, c0, 511, by simp only [Dev.Runs]; decide +kernel⟩

theorem wit_BandsAndOpticsReads_4 : ∃ (s : State) (c : CmdCtx) (e : Byte), s.d.Runs (.portMapRead c e) c
    0x0205 .observer ∧ e.toNat < 16 :=
  ⟨mk dRun, c0, 15, by simp only [Dev.Runs]; decide +kernel⟩

theorem wit_BandsAndOpticsReads_5 : ∃ (s : State) (c : CmdCtx) (l : BitVec 16), s.d.Runs (.portRead c l) c
    0x0208 .observer ∧ l.toNat < 512 :=
  ⟨mk dRun, c0, 511, by simp only [Dev.Runs]; decide +kernel⟩

theorem wit_BandsAndOpticsReads_6 : ∃ (s : State) (c : CmdCtx) (e : Byte), s.d.Runs (.optRead c e) c 0x0304
    .observer ∧ e.toNat < 16 :=
  ⟨mk dRun, c0, 15, by simp only [Dev.Runs]; decide +kernel⟩

theorem wit_BandsAndOpticsReads_7 : ∃ (s : State) (c : CmdCtx) (e : Byte), s.d.Runs (.optLightRead c e) c
    0x0308 .observer ∧ e.toNat < 16 :=
  ⟨mk dRun, c0, 15, by simp only [Dev.Runs]; decide +kernel⟩

theorem wit_StatusReads_1 : ∃ (s : State) (c : CmdCtx), s.d.Runs (.devInfo c) c 0x0101 .observer :=
  ⟨mk dSafe, c0, by simp only [Dev.Runs]; decide +kernel⟩

theorem wit_StatusReads_2 : ∃ (s : State) (c : CmdCtx), s.d.Runs (.devState c) c 0x0102 .observer ∧
    s.d.cmd.txns = [] :=
  ⟨mk dRun, c0, by simp only [Dev.Runs]; decide +kernel⟩

theorem wit_StatusReads_3 : ∃ (s : State) (c : CmdCtx) (b : List Byte), s.d.Runs (.devNop c b) c 0x0107
    .observer ∧ b.length ≤ 4096 :=
  ⟨mk dRun, c0, [1], by simp only [Dev.Runs]; decide +kernel⟩

theorem wit_StatusReads_4 : ∃ (s : State) (c : CmdCtx), s.d.Runs (.devRole c none) c 0x0104 .observer :=
  ⟨mk dRun, c0, by simp only [Dev.Runs]; decide +kernel⟩

theorem wit_StatusReads_5 : ∃ (s : State) (c : CmdCtx), s.d.Runs (.secRead c) c 0x0B01 .observer :=
  ⟨mk dSafe, c0, by simp only [Dev.Runs]; decide +kernel⟩

theorem wit_StatusReads_6 : ∃ (s : State) (c : CmdCtx) (a : Bool) (o n : BitVec 16), s.d.Runs (.secCertRead c
    a o n) c 0x0B06 .observer ∧ n.toNat ≤ 4096 :=
  ⟨mk dSafe, c0, true, 0, 4096, by simp only [Dev.Runs]; decide +kernel⟩

theorem wit_StatusReads_7 : ∃ (s : State) (c : CmdCtx) (u : Txn), s.d.Runs (.txnStatus c none) c 0x0A04
    .observer ∧ (s.d.touch c).shownTxn c.src = some u :=
  ⟨mk (dTxn txn1), c0, txn1, by simp only [Dev.Runs]; decide +kernel⟩

theorem wit_StatusReads_8 : ∃ (s : State) (c : CmdCtx), s.d.Runs (.timeRead c) c 0x0801 .observer :=
  ⟨mk dRun, c0, by simp only [Dev.Runs]; decide +kernel⟩

theorem wit_StatusReads_9 : ∃ (s : State) (c : CmdCtx) (l : BitVec 16), s.d.Runs (.launchRead c l) c 0x0807
    .observer ∧ l.toNat < 512 ∧ Tab.get s.d.store.launch l.toNat [] = [] :=
  ⟨mk dRun, c0, 511, by simp only [Dev.Runs]; decide +kernel⟩

theorem wit_StatusReads_10 : ∃ (s : State) (c : CmdCtx) (f : Word) (n : BitVec 16), s.d.Runs (.diagFaultRead c
    f n) c 0x0C01 .observer ∧ n.toNat ≤ 64 ∧
    let l := s.d.faults.log.reverse.filter fun r => decide (0 ≤ seqDist r.fseq f);
         l ≠ [] :=
  ⟨mk { dRun with faults := { dRun.faults with log := [fault0] } }, c0, 0, 64,
    by simp only [Dev.Runs]; decide +kernel⟩

theorem wit_StatusReads_11 : ∃ (s : State) (c : CmdCtx), s.d.Runs (.diagSpareRead c) c 0x0C02 .observer :=
  ⟨mk dRun, c0, by simp only [Dev.Runs]; decide +kernel⟩

theorem wit_StatusReads_12 : ∃ (s : State) (c : CmdCtx) (n : Byte), s.d.Runs (.diagSelftestRead c n) c 0x0C03
    .observer ∧ n.toNat < 8 :=
  ⟨mk dRun, c0, 7, by simp only [Dev.Runs]; decide +kernel⟩

theorem wit_StatusReads_13 : ∃ (s : State) (c : CmdCtx), s.d.Runs (.diagEolRead c) c 0x0C04 .observer :=
  ⟨mk dRun, c0, by simp only [Dev.Runs]; decide +kernel⟩

theorem wit_TableReads_1 : ∃ (s : State) (c : CmdCtx) (k : BitVec 48), s.d.Runs (.search c (.emKey k)) c
    0x0401 .observer ∧ s.d.fwd.cur.emFind k = none :=
  ⟨mk dRun, c0, 5, by simp only [Dev.Runs]; decide +kernel⟩

theorem wit_TableReads_2 : ∃ (s : State) (c : CmdCtx) (k : BitVec 48) (n : Nat) (e : EmEntry), s.d.Runs
    (.search c (.emKey k)) c 0x0401 .observer ∧ s.d.faults.injects = [] ∧ s.d.fwd.bad = [] ∧
    s.d.fwd.cur.emFind k = some (n, e) :=
  ⟨mk (dEm entry0), c0, 0x5, 0, entry0, by simp only [Dev.Runs]; decide +kernel⟩

theorem wit_TableReads_3 : ∃ (s : State) (c : CmdCtx) (l : BitVec 16), s.d.Runs (.search c (.route l)) c
    0x0401 .observer ∧ s.d.faults.injects = [] ∧ s.d.fwd.bad = [] ∧ l.toNat < 4096 :=
  ⟨mk dRun, c0, 4095, by simp only [Dev.Runs]; decide +kernel⟩

theorem wit_TableReads_4 : ∃ (s : State) (c : CmdCtx) (t : TableId) (n : BitVec 16), s.d.Runs (.nextWalk c t 0
    0xFFFF n) c 0x0402 .observer ∧ n ≠ 0 ∧ n.toNat ≤ 64 ∧ s.d.faults.injects = [] ∧ s.d.fwd.bad = [] ∧
    (s.d.fwd.cur.walk t).length ≤ n.toNat :=
  ⟨mk (dEm entry0), c0, .em, 64, by simp only [Dev.Runs]; decide +kernel⟩

theorem wit_TableReads_5 : ∃ (s : State) (c : CmdCtx) (t : TableId) (cur : Word) (p n : BitVec 16), s.d.Runs
    (.nextWalk c t cur p n) c 0x0402 .observer ∧ n ≠ 0 ∧ n.toNat ≤ 64 ∧ bitsOf cur.toNat 29 0 ≠ 0 ∧ (bitsOf
    cur.toNat 31 30 ≠ s.d.fwd.epoch.toNat ∨ s.d.fwd.cursors.contains cur = false) :=
  ⟨mk dRun, c0, .em, 0x40000001, 0, 1, by simp only [Dev.Runs]; decide +kernel⟩

theorem wit_TableReads_6 : ∃ (s : State) (c : CmdCtx) (n : BitVec 16), s.d.Runs (.policerRead c n) c 0x042B
    .observer ∧ n.toNat < 8192 :=
  ⟨mk dRun, c0, 8191, by simp only [Dev.Runs]; decide +kernel⟩

theorem wit_TableReads_7 : ∃ (s : State) (c : CmdCtx) (n : BitVec 16) (x : Ctx) (h : Word), s.d.Runs (.ctxRead
    c n) c 0x0505 .observer ∧ s.d.ctx? n.toNat = some x ∧ x.highest = some h :=
  ⟨mk (dCtx { e := ctxE 2 0, st := .active, highest := some 9 }), c0, 3, { e := ctxE 2 0, st := .active, highest := some 9 }, 9,
    by simp only [Dev.Runs]; decide +kernel⟩

theorem wit_TableReads_8 : ∃ (s : State) (c : CmdCtx) (n : BitVec 16) (x : Sheaf), s.d.Runs (.sheafRead c n) c
    0x0511 .observer ∧ n.toNat < 8192 ∧ s.d.sheaf? n.toNat = some x :=
  ⟨mk (dSheaf 1 {  cfg := sheafCfg 2 }), c0, 1, { cfg := sheafCfg 2 },
    by simp only [Dev.Runs]; decide +kernel⟩

theorem wit_TableReads_9 : ∃ (s : State) (c : CmdCtx) (n : BitVec 16) (x : ThrShard), s.d.Runs (.thrRead c
    true n) c 0x0607 .observer ∧ n.toNat < 16384 ∧ Tab.find s.d.thr.shards n.toNat = some x :=
  ⟨mk dThr, c0, 7, shard0, by simp only [Dev.Runs]; decide +kernel⟩

theorem wit_TableReads_10 : ∃ (s : State) (c : CmdCtx) (n : BitVec 16), s.d.Runs (.thrRead c false n) c 0x0607
    .observer ∧ n.toNat < 64 ∧ s.d.job? n.toNat = none :=
  ⟨mk dRun, c0, 63, by simp only [Dev.Runs]; decide +kernel⟩

theorem wit_TableReads_11 : ∃ (s : State) (c : CmdCtx) (n : BitVec 16) (f : Word) (k : BitVec 16) (x :
    ThrShard), s.d.Runs (.thrMapRead c n f k) c 0x0608 .observer ∧ n.toNat < 16384 ∧ k.toNat ≤ 512 ∧ Tab.find
    s.d.thr.shards n.toNat = some x ∧ f.toNat + k.toNat ≤ x.cfg.cps.toNat :=
  ⟨mk dThr, c0, 7, 0, 2, shard0, by simp only [Dev.Runs]; decide +kernel⟩

theorem wit_TableReads_12 : ∃ (s : State) (c : CmdCtx), s.d.Runs (.memRegionRead c) c 0x0702 .observer :=
  ⟨mk dRun, c0, by simp only [Dev.Runs]; decide +kernel⟩

theorem wit_TableReads_13 : ∃ (s : State) (c : CmdCtx) (f n : BitVec 16), s.d.Runs (.memPageList c f n) c
    0x0704 .observer ∧ n.toNat ≤ 256 :=
  ⟨mk dRun, c0, 0, 256, by simp only [Dev.Runs]; decide +kernel⟩

theorem wit_TableReads_14 : ∃ (s : State) (c : CmdCtx), s.d.Runs (.memStatus c) c 0x0707 .observer :=
  ⟨mk dRun, c0, by simp only [Dev.Runs]; decide +kernel⟩

theorem wit_TableReads_15 : ∃ (s : State) (c : CmdCtx) (q : QueueName) (t : Dest) (k : Nat), s.d.Runs
    (.cntQueueRead c q) c 0x0901 .observer ∧ queueOf q = some (t, k) :=
  ⟨mk dRun, c0, .port 511 7, .port 511, 7, by simp only [Dev.Runs]; decide +kernel⟩

theorem wit_TableReads_16 : ∃ (s : State) (c : CmdCtx) (n : BitVec 16) (e : PartEntry), s.d.Runs (.cntPartRead
    c n) c 0x0902 .observer ∧ n.toNat < 4096 ∧ Tab.find s.d.fwd.cur.parts n.toNat = some e ∧ e.valid = true :=
  ⟨mk { dRun with fwd := { dRun.fwd with cur := { parts := [(4095, { valid := true, learnEn := true, ports := 1 })] } } }, c0, 4095, { valid := true, learnEn := true, ports := 1 },
    by simp only [Dev.Runs]; decide +kernel⟩

theorem wit_TableReads_17 : ∃ (s : State) (c : CmdCtx) (f : Word) (n : BitVec 16), s.d.Runs (.gleanRead c f n)
    c 0x0905 .observer ∧ s.d.svRuns 3 = true ∧ n.toNat ≤ 63 ∧ s.d.faults.injects = [] :=
  ⟨mk dRun, c0, 0, 63, by simp only [Dev.Runs]; decide +kernel⟩

theorem wit_FramesIn_1 : ∃ (s : State) (p : Port) (h : Header), s.d.awake = true ∧ (s.d.port p.val).hunting =
    false ∧ (s.d.port p.val).rx = none ∧ s.d.loop p.val ≠ 2 ∧ (s.d.port p.val).st ≠ .active ∧ (s.d.port
    p.val).st ≠ .draining :=
  ⟨mk (dPort (full .train)), p511, hdr 0 0 0 0 0, by decide +kernel⟩

theorem wit_FramesIn_2 : ∃ (s : State) (p : Port) (h : Header), s.d.awake = true ∧ (s.d.port p.val).hunting =
    false ∧ (s.d.port p.val).rx = none ∧ s.d.loop p.val ≠ 2 ∧ ((s.d.port p.val).st = .active ∨ (s.d.port
    p.val).st = .draining) ∧ headerPlausible h = false :=
  ⟨mk (dPort (full .active)), p511, { hdr 0 0 0 0 0 with kind := 8 }, by decide +kernel⟩

theorem wit_FramesIn_5 : ∃ (s : State) (p : Port) (h : Header), s.d.awake = true ∧ (s.d.port p.val).hunting =
    false ∧ (s.d.port p.val).rx = none ∧ s.d.loop p.val ≠ 2 ∧ ((s.d.port p.val).st = .active ∨ (s.d.port
    p.val).st = .draining) ∧ headerPlausible h = true :=
  ⟨mk (dPort (full .draining)), p511, hdr 0 0 0 0 0, by decide +kernel⟩

theorem wit_FramesIn_6 : ∃ (s : State) (p : Port), s.d.awake = true ∧ ((s.d.port p.val).st = .active ∨
    (s.d.port p.val).st = .draining) :=
  ⟨mk (dPort (full .active)), p511, by decide +kernel⟩

theorem wit_FramesIn_7 : ∃ (s : State) (k : Fin 16) (n : TableId) (ix : Nat), s.d.awake = true ∧ s.d.tableBad
    k.val n ix = true ∧ s.d.tableBad (if k.val = 0 then 1 else 0) n ix = false :=
  ⟨mk { dRun with fwd := { dRun.fwd with bad := [{ pipeline := 0, bank := false, table := .em, index := 264191 }] } }, 0, .em, 264191,
    by decide +kernel⟩

theorem wit_FramesIn_8 : ∃ (s : State) (p : Port) (b : List Byte) (e2e : Word) (r : RxFrame), s.d.awake = true
    ∧ (s.d.port p.val).rx = some r ∧ s.d.loop p.val ≠ 2 ∧ b.length = r.hdr.len.toNat ∧ r.consumed = false ∧ (∀
    n ∈ r.fids, ∀ f, s.d.frame? n = some f → f.ptp = false) :=
  ⟨mk (dPort { full .active with rx := some (rx0 (hdr 0 0 0 0 0)) }), p511, [], 0, rx0 (hdr 0 0 0 0 0),
    by decide +kernel⟩

theorem wit_FramesIn_9 : ∃ (s : State) (p : Port) (b : List Byte) (e2e link : Word) (r : RxFrame), s.d.awake =
    true ∧ (s.d.port p.val).rx = some r ∧ s.d.loop p.val ≠ 2 ∧ b.length = r.hdr.len.toNat ∧ link =
    ~~~(linkCheck r.hdr b e2e) :=
  ⟨mk (dPort { full .active with rx := some (rx0 (hdr 0 0 0 0 0)) }), p511, [], 0, ~~~(linkCheck (hdr 0 0 0 0 0) [] 0), rx0 (hdr 0 0 0 0 0),
    by decide +kernel⟩

theorem wit_FramesIn_10 : ∃ (s : State) (p : Port) (b : List Byte) (e2e link : Word) (r : RxFrame), s.d.awake
    = true ∧ (s.d.port p.val).rx = some r ∧ s.d.loop p.val ≠ 2 ∧ link ≠ linkCheck r.hdr b e2e ∧ (b.length ≠
    r.hdr.len.toNat ∨ link ≠ ~~~(linkCheck r.hdr b e2e)) :=
  ⟨mk (dPort { full .active with rx := some (rx0 (hdr 0 0 0 0 0)) }), p511, [], 0, linkCheck (hdr 0 0 0 0 0) [] 0 + 1, rx0 (hdr 0 0 0 0 0),
    by decide +kernel⟩

theorem wit_FramesOut_1 : ∃ (d : Dev) (l c : Nat), d.selectClass l = some c  :=
  ⟨atQueue dRun (.port 511) 7 (frameOf (hdr 0 0 0 0 0) []), 511, 7, by decide +kernel⟩

theorem wit_FramesOut_2 : ∃ (s : State) (p : Port) (c : Nat) (x : Copy) (r : List Copy) (f : Frame),
    let l := s.d.logical p.val;
         s.d.awake = true ∧ (s.d.port p.val).st = .active ∧ (s.d.port p.val).held = false ∧ s.d.mayRead l =
    true ∧ Tab.get s.d.store.launch l [] = [] ∧ s.d.selectClass l = some c ∧ s.d.queue (.port l) c = x :: r ∧
    s.d.expired x = false ∧ s.d.frame? x.fid = some f ∧ f.bad = false ∧ s.d.faults.injects = [] :=
  ⟨mk (atQueue (dPort (full .active)) (.port 511) 7 (frameOf (hdr 0 0 0 0 0) [])), p511, 7, copyTo (.port 511) 7, [], frameOf (hdr 0 0 0 0 0) [],
    by dsimp only; decide +kernel⟩

theorem wit_FramesOut_3 : ∃ (s : State) (p : Port) (c : Nat) (x : Copy) (r : List Copy),
    let l := s.d.logical p.val;
         s.d.awake = true ∧ (s.d.port p.val).st = .active ∧ (s.d.port p.val).held = false ∧ s.d.mayRead l =
    true ∧ Tab.get s.d.store.launch l [] = [] ∧ s.d.selectClass l = some c ∧ s.d.queue (.port l) c = x :: r ∧
    s.d.expired x = true :=
  ⟨mk { atQueue (dPort (full .active)) (.port 511) 7 (frameOf (hdr 0 0 0 0 0) []) with now := 3200001 }, p511, 7, copyTo (.port 511) 7, [],
    by dsimp only; decide +kernel⟩

theorem wit_FramesOut_4 : ∃ (s : State) (p : Port), s.d.mayRead (s.d.logical p.val) = false :=
  ⟨mk { dRun with store := { dRun.store with sending := [(511, [sendLen 1 0])] } }, p511,
    by decide +kernel⟩

theorem wit_FramesOut_5 : ∃ (s : State) (k : Nat) (l : List Copy), s.d.awake = true ∧ s.d.store.queues.filter
    (fun e => e.1 == k) = [(k, l)] :=
  ⟨mk (atQueue dRun (.port 511) 7 (frameOf (hdr 0 0 0 0 0) [])), 4095, [copyTo (.port 511) 7],
    by decide +kernel⟩

theorem wit_FramesOut_6 : ∃ (s : State) (p : Port) (x : Sending) (r : List Sending) (f : Frame),
    let l := s.d.logical p.val;
         s.d.awake = true ∧ s.d.sendingOn l = x :: r ∧ x.ended = true ∧ s.d.frame? x.copy.fid = some f ∧ f.ptp
    = false ∧ f.bad = false ∧ s.d.faults.injects = [] ∧ x.built = none ∧ (x.tailMark = true → x.hdr.len.toNat
    ≤ f.payload.length) :=
  ⟨mk (dSend (frameOf (hdr 0 0 0 0 0) [])), p511, send0, [], frameOf (hdr 0 0 0 0 0) [],
    by dsimp only; decide +kernel⟩

theorem wit_FramesOut_6_a : ∃ (s : State) (p : Port) (x : Sending) (r : List Sending) (f : Frame),
    let l := s.d.logical p.val;
         s.d.awake = true ∧ s.d.sendingOn l = x :: r ∧ x.ended = true ∧ s.d.frame? x.copy.fid = some f ∧ f.ptp
    = false ∧ f.bad = false ∧ s.d.faults.injects = [] ∧ x.built = none ∧ (x.tailMark = true → x.hdr.len.toNat
    ≤ f.payload.length) ∧ send0.tailMark = false :=
  ⟨mk (dSend (frameOf (hdr 0 0 0 0 0) [])), p511, send0, [], frameOf (hdr 0 0 0 0 0) [],
    by dsimp only; decide +kernel⟩

theorem wit_FramesOut_6_b : ∃ (s : State) (p : Port) (x : Sending) (r : List Sending) (f : Frame),
    let l := s.d.logical p.val;
         s.d.awake = true ∧ s.d.sendingOn l = x :: r ∧ x.ended = true ∧ s.d.frame? x.copy.fid = some f ∧ f.ptp
    = false ∧ f.bad = false ∧ s.d.faults.injects = [] ∧ x.built = none ∧ (x.tailMark = true → x.hdr.len.toNat
    ≤ f.payload.length) ∧ x.tailMark = true :=
  ⟨mk { dSend (frameOf (hdr 0 0 0 0 0) []) with store := { (dSend (frameOf (hdr 0 0 0 0 0) [])).store with sending := [(511, [{ send0 with tailMark := true }])] } }, p511, { send0 with tailMark := true }, [], frameOf (hdr 0 0 0 0 0) [],
    by dsimp only; decide +kernel⟩

theorem wit_FramesOut_7 : ∃ (s : State) (p : Port) (x : Sending) (r : List Sending) (f : Frame),
    let l := s.d.logical p.val;
         s.d.awake = true ∧ s.d.sendingOn l = x :: r ∧ s.d.frame? x.copy.fid = some f ∧ f.ptp = true ∧ x.built
    = none ∧ x.copy.mirror = false ∧ f.bad = false ∧ s.d.faults.injects = [] :=
  ⟨mk (dSend { frameOf (hdr 0 0 0 0 0) [] with ptp := true }), p511, send0, [], { frameOf (hdr 0 0 0 0 0) [] with ptp := true },
    by dsimp only; decide +kernel⟩

theorem wit_FramesOut_8 : ∃ (s : State) (p : Port) (e : Launch) (r : List Launch),
    let l := s.d.logical p.val;
         s.d.awake = true ∧ Tab.get s.d.store.launch l [] = e :: r ∧ e.ready = false ∧ e.t ≤ s.d.timeNs ∧
    s.d.activeL l = true :=
  ⟨mk { dPort (full .active) with store := { dRun.store with launch := [(511, [launch0])] } }, p511, launch0, [],
    by dsimp only; decide +kernel⟩

theorem wit_FramesOut_9 : ∃ (s : State) (p : Port), s.d.awake = true ∧ (∀ e ∈ Tab.get s.d.store.launch
    (s.d.logical p.val) [], e.ready = true ∨ s.d.timeNs < e.t) :=
  ⟨mk dRun, p511, by decide +kernel⟩

theorem wit_FramesOut_10 : ∃ (s : State) (p : Port) (x : Sending) (r : List Sending) (f : Frame),
    let l := s.d.logical p.val;
         s.d.awake = true ∧ s.d.sendingOn l = x :: r ∧ x.ended = true ∧ s.d.frame? x.copy.fid = some f ∧ f.ptp
    = false ∧ f.bad = false ∧ s.d.faults.injects = [] ∧ x.built = none ∧ x.tailMark = true ∧ f.payload.length
    < x.hdr.len.toNat :=
  ⟨mk { dSend (frameOf (hdr 0 0 0 0 0) []) with store := { (dSend (frameOf (hdr 0 0 0 0 0) [])).store with sending := [(511, [{ send0 with tailMark := true, hdr := { hdr 0 0 0 0 0 with len := 1 } }])] } }, p511, { send0 with tailMark := true, hdr := { hdr 0 0 0 0 0 with len := 1 } }, [], frameOf (hdr 0 0 0 0 0) [],
    by dsimp only; decide +kernel⟩

theorem wit_FramesOut_11 : ∃ (s : State) (p : Port) (x : Sending) (r : List Sending) (f : Frame),
    let l := s.d.logical p.val;
         s.d.awake = true ∧ s.d.sendingOn l = x :: r ∧ x.ended = true ∧ s.d.frame? x.copy.fid = some f ∧ f.ptp
    = false ∧ f.bad = true ∧ x.begun = true ∧ x.unread ≠ 0 ∧ x.built = none ∧ x.tailMark = false ∧
    x.hdr.len.toNat ≤ f.payload.length :=
  ⟨mk (dSending { sendLen 1 0 with cut := true } { frameOf (hdr 0 0 0 0 0) [7] with bad := true }), p511, { sendLen 1 0 with cut := true }, [], { frameOf (hdr 0 0 0 0 0) [7] with bad := true },
    by dsimp only; decide +kernel⟩

theorem wit_AgentRings_1 : ∃ (s : State) (n : Fin 4) (raw b : List Byte), s.d.awake = true ∧ s.d.serving =
    true ∧ s.d.ringOwned n.val = true :=
  ⟨mk (dRing 3), 3, desc0 8224, [], by decide +kernel⟩

theorem wit_AgentRings_2 : ∃ (s : State) (n : Fin 4) (raw b : List Byte), s.d.awake = true ∧ s.d.serving =
    true ∧ s.d.ringOwned n.val = true ∧ ((TxDesc.ofBytes raw).len.toNat < 32 ∨ 8224 < (TxDesc.ofBytes
    raw).len.toNat) ∧ s.d.reg (0x1000 + 0x40 * n.val) / 32 * 32 + 32 * s.d.ringSize n.val ≤ 2 ^ 48 :=
  ⟨mk (dRing 3), 3, desc0 31, [], by decide +kernel⟩

theorem wit_AgentRings_2_a : ∃ (s : State) (n : Fin 4) (raw b : List Byte), s.d.awake = true ∧ s.d.serving =
    true ∧ s.d.ringOwned n.val = true ∧ ((TxDesc.ofBytes raw).len.toNat < 32 ∨ 8224 < (TxDesc.ofBytes
    raw).len.toNat) ∧ s.d.reg (0x1000 + 0x40 * n.val) / 32 * 32 + 32 * s.d.ringSize n.val ≤ 2 ^ 48 ∧ 8224 <
    (TxDesc.ofBytes raw).len.toNat :=
  ⟨mk (dRing 3), 3, desc0 8225, [], by decide +kernel⟩

theorem wit_AgentRings_3 : ∃ (s : State) (n : Fin 4) (raw b : List Byte), s.d.awake = true ∧ s.d.serving =
    true ∧
    let x := TxDesc.ofBytes raw;
         s.d.ringOwned n.val = true ∧ 32 ≤ x.len.toNat ∧ x.len.toNat ≤ 8224 ∧ b.length = x.len.toNat ∧
    x.launch = false :=
  ⟨mk (dRing 0), 0, desc0 32, List.replicate 32 0, by dsimp only; decide +kernel⟩

theorem wit_AgentRings_4 : ∃ (s : State) (tc : Fin 8) (raw : List Byte) (c : Copy) (r : List Copy) (f :
    Frame), s.d.awake = true ∧ s.d.queue .agent tc.val = c :: r ∧ s.d.frame? c.fid = some f ∧ f.whole = true ∧
    s.d.expired c = false ∧ f.bad = false ∧ s.d.faults.injects = [] ∧ s.d.store.slots.fetchBad = [] ∧ e2eCheck
    f.hdr f.payload = f.e2e ∧ s.d.ringOwned 4 = true ∧
    let x := RxDesc.ofBytes raw;
         32 + f.hdr.len.toNat ≤ x.len.toNat ∧ x.buf.toNat + (f.hdr.bytes ++ f.payload).length ≤ 2 ^ 48 ∧ (∀ w,
    f.wb = some w → w.1 < 4) :=
  ⟨mk (atQueue (dRing 4) .agent 7 (frameOf (hdr 0 0 0 0 0) [])), 7, rxDesc0 32, copyTo .agent 7, [], frameOf (hdr 0 0 0 0 0) [],
    by dsimp only; decide +kernel⟩

theorem wit_AgentRings_5 : ∃ (s : State) (tc : Fin 8) (raw : List Byte) (c : Copy) (r : List Copy) (f :
    Frame), s.d.awake = true ∧ s.d.queue .agent tc.val = c :: r ∧ s.d.frame? c.fid = some f ∧ f.whole = true ∧
    s.d.expired c = false ∧ f.bad = false ∧ s.d.faults.injects = [] ∧ s.d.store.slots.fetchBad = [] ∧ e2eCheck
    f.hdr f.payload ≠ f.e2e :=
  ⟨mk (atQueue dRun .agent 7 { frameOf (hdr 0 0 0 0 0) [] with e2e := e2eCheck (hdr 0 0 0 0 0) [] + 1 }), 7, rxDesc0 0, copyTo .agent 7, [], { frameOf (hdr 0 0 0 0 0) [] with e2e := e2eCheck (hdr 0 0 0 0 0) [] + 1 },
    by decide +kernel⟩

theorem wit_LearningAndAgeing_1 : ∃ (s : State) (k : Fin 16) (e : LearnEv) (p : Nat) (r : List (LearnEv ×
    Nat)), s.d.awake = true ∧ Tab.get s.d.fwd.learnQ k.val [] = (e, p) :: r :=
  ⟨mk { dRun with fwd := { dRun.fwd with learnQ := [(15, [(learn0, 511)])] } }, 15, learn0, 511, [],
    by decide +kernel⟩

theorem wit_LearningAndAgeing_2 : ∃ (s : State) (k p : Nat) (key : BitVec 48) (rt : BitVec 3) (tg : BitVec 12)
    (peer : Bool) (r : List RingEv), s.d.awake = true ∧ s.d.fwd.ring = .learn k
    { key := key, kind := .create rt tg, peer := peer } p :: r ∧ s.d.committing key = false ∧ (∀ x,
    s.d.fwd.cur.emFind key = some x → x.2.static = false) ∧
    let e : EmEntry := { key := key, static := false, res := { rtype := rt, target := tg } };
         (s.d.fwd.cur.emFind key = none → (s.d.fwd.cur.emInsert e).isSome = true) :=
  ⟨mk { dRun with fwd := { dRun.fwd with ring := [.learn 15 learn0 511] } }, 15, 511, 5, 0, 511, false, [],
    by dsimp only; decide +kernel⟩

theorem wit_LearningAndAgeing_4 : ∃ (s : State) (k p : Nat) (e : LearnEv) (r : List RingEv), s.d.awake = true
    ∧ s.d.fwd.ring = .learn k e p :: r ∧ s.d.committing e.key = true :=
  ⟨mk { dTxn { txnOf (.emDelete 5) with st := .applying } with fwd := { dRun.fwd with ring := [.learn 15 learn0 511] } }, 15, 511, learn0, [],
    by decide +kernel⟩

theorem wit_LearningAndAgeing_5 : ∃ (s : State) (k p : Nat) (e : LearnEv) (r : List RingEv), s.d.awake = true
    ∧ s.d.fwd.ring = .learn k e p :: r ∧ s.d.committing e.key = true ∧ e.peer = true :=
  ⟨mk { dTxn { txnOf (.emDelete 5) with st := .applying } with fwd := { dRun.fwd with ring := [.learn 15 { learn0 with peer := true } 511] } }, 15, 511, { learn0 with peer := true }, [],
    by decide +kernel⟩

theorem wit_LearningAndAgeing_6 : ∃ (s : State) (key : BitVec 48) (r : List RingEv) (n : Nat) (x : EmEntry),
    s.d.awake = true ∧ s.d.fwd.ring = .sweep key :: r ∧ s.d.committing key = false ∧ s.d.fwd.cur.emFind key =
    some (n, x) ∧ x.static = false ∧ (s.d.fwd.relearned.contains key = false ∨ Tab.get s.d.fwd.hits key.toNat
    0 = 0) :=
  ⟨mk { dEm entry0 with fwd := { (dEm entry0).fwd with ring := [.sweep 5] } }, 5, [], 0, entry0,
    by decide +kernel⟩

theorem wit_LearningAndAgeing_7 : ∃ (s : State) (key : BitVec 48) (r : List RingEv), s.d.awake = true ∧
    s.d.fwd.ring = .sweep key :: r ∧ s.d.fwd.relearned.contains key = true ∧ Tab.get s.d.fwd.hits key.toNat 0
    ≠ 0 :=
  ⟨mk { dEm entry0 with fwd := { (dEm entry0).fwd with ring := [.sweep 5], relearned := [5], hits := [(5, 1)] } }, 5, [],
    by decide +kernel⟩

theorem wit_LearningAndAgeing_8 : ∃ (s : State) (k : Fin 16) (x : Taken) (r : List Taken), s.d.awake = true ∧
    Tab.get s.d.fwd.taken k.val [] = x :: r ∧ addrSvc x.hdr.dst = 3 ∧ x.ok = true ∧ s.d.regBit (baseFwd 0 +
    0x14) 2 = true ∧
    let key := keyEndpoint (BitVec.ofNat 12 (bitsOf x.hdr.ksf.toNat 63 52)) (BitVec.ofNat 24 (bitsOf
        x.hdr.ksf.toNat 47 24));
    let via := bitsOf x.hdr.ksf.toNat 23 12;
         s.d.fwd.cur.emFind key = none ∧ (s.d.isLeaf = true → via ≠ s.d.devNum) ∧ bitsOf x.hdr.ksf.toNat 51 48
    = 1 ∧ Tab.get s.d.fwd.learnQ k.val [] = [] :=
  ⟨mk ({ dRun with fwd := { dRun.fwd with taken := [(15, [taken0 3])] } }.setReg (baseFwd 0 + 0x14) 4), 15, taken0 3, [],
    by dsimp only; decide +kernel⟩

theorem wit_LearningAndAgeing_9 : ∃ (s : State) (e : EmEntry), s.d.awake = true ∧ s.d.regBit (baseFwd 0 +
    0x10) 0 = true ∧ Tab.find s.d.fwd.cur.em s.d.fwd.sweepPos = some e :=
  ⟨mk (dEm entry0), entry0, by decide +kernel⟩

theorem wit_LearningAndAgeing_9_a : ∃ (s : State) (e : EmEntry), s.d.awake = true ∧ s.d.regBit (baseFwd 0 +
    0x10) 0 = true ∧ Tab.find s.d.fwd.cur.em s.d.fwd.sweepPos = some e ∧ Tab.get s.d.fwd.hits e.key.toNat 0 ≠
    0 :=
  ⟨mk { dEm entry0 with fwd := { (dEm entry0).fwd with hits := [(5, 0x8000)] } }, entry0,
    by decide +kernel⟩

theorem wit_LearningAndAgeing_9_b : ∃ (s : State) (e : EmEntry), s.d.awake = true ∧ s.d.regBit (baseFwd 0 +
    0x10) 0 = true ∧ Tab.find s.d.fwd.cur.em s.d.fwd.sweepPos = some e ∧ Tab.get s.d.fwd.hits e.key.toNat 0 =
    0 ∧ s.d.fwd.idle.contains e.key = true :=
  ⟨mk { dEm entry0 with fwd := { (dEm entry0).fwd with idle := [5] } }, entry0, by decide +kernel⟩

theorem wit_LearningAndAgeing_10 : ∃ (s : State) (c : CmdCtx) (l n : BitVec 16), s.d.Runs (.flushByPort c l n)
    c 0x0403 .operator ∧ l.toNat < 512 ∧ (n = 0xFFFF ∨ n.toNat < 4096) :=
  ⟨mk dRun, c0, 511, 4095, by simp only [Dev.Runs]; decide +kernel⟩

theorem wit_CongestionAndEpochs_1 : ∃ (s : State) (k : Fin 16) (x : Taken) (r : List Taken) (l : Nat),
    s.d.awake = true ∧ Tab.get s.d.fwd.taken k.val [] = x :: r ∧ addrSvc x.hdr.dst = 2 ∧ x.ok = true ∧
    s.d.regBit baseTm 1 = true ∧ s.d.upPortTo (bitsOf x.hdr.ksf.toNat 51 40) = some l :=
  ⟨mk ({ dLeaf with fwd := { dRun.fwd with taken := [(15, [taken0 2])] }, ports := dLeafPorts }.setReg baseTm 2), 15, taken0 2, [], upPort 0,
    by decide +kernel⟩

theorem wit_CongestionAndEpochs_2 : ∃ (s : State) (k : Fin 16) (x : Taken) (r : List Taken), s.d.awake = true
    ∧ Tab.get s.d.fwd.taken k.val [] = x :: r ∧ addrSvc x.hdr.dst = 2 ∧ x.ok = false :=
  ⟨mk { dRun with fwd := { dRun.fwd with taken := [(15, [{ taken0 2 with e2e := 0 }])] } }, 15, { taken0 2 with e2e := 0 }, [],
    by decide +kernel⟩

theorem wit_CongestionAndEpochs_3 : ∃ (s : State) (n v : Nat), s.d.awake = true ∧ s.d.tm.levels.filter (fun e
    => e.1 == n) = [(n, v)] :=
  ⟨mk { dRun with tm := { dRun.tm with levels := [(9, 1)] } }, 9, 1, by decide +kernel⟩

theorem wit_CongestionAndEpochs_4 : ∃ (s : State), s.d.awake = true ∧ s.d.fwd.oldLive = true :=
  ⟨mk { dRun with fwd := { dRun.fwd with oldLive := true } }, by decide +kernel⟩

theorem wit_CongestionAndEpochs_5 : ∃ (s : State), s.d.awake = true ∧ s.d.fwd.replay = true :=
  ⟨mk { dRun with fwd := { dRun.fwd with replay := true } }, by decide +kernel⟩

theorem wit_Contributions_1 : ∃ (s : State) (k tc : Fin 8) (f : Frame) (c : Ctx), s.d.AtHead k.val tc.val f ∧
    f.hdr.kind = 2 ∧
    let cid := f.hdr.ctx.toNat;
    let seq := f.hdr.seq;
         s.d.ctx? cid = some c ∧ c.e.part = f.hdr.part ∧ c.e.job = f.hdr.job ∧ (c.st = .active ∨ c.st =
    .spill) ∧ s.d.clusterClosed k.val = false ∧ c.isThresh = false ∧ c.e.op ≠ 7 ∧ c.e.level ≠ 0 ∧ s.d.onPath
    c.e cid seq (f.hdr.sub.getLsbD 7) f.hdr.src = true ∧ hasPort (c.membership seq) f.port = true ∧ (∀ l ∈
    members (c.membership seq), s.d.memberUp c.e.part.toNat l = true) :=
  ⟨mk (dRed (redCtx 1 []) con0), 0, 4, con0, redCtx 1 [],
    atHead_intro (copyTo (.cluster 0) 4) [] (by decide +kernel), by dsimp only; decide +kernel⟩

theorem wit_Contributions_1_a : ∃ (s : State) (k tc : Fin 8) (f : Frame) (c : Ctx), s.d.AtHead k.val tc.val f
    ∧ f.hdr.kind = 2 ∧
    let cid := f.hdr.ctx.toNat;
    let seq := f.hdr.seq;
         s.d.ctx? cid = some c ∧ c.e.part = f.hdr.part ∧ c.e.job = f.hdr.job ∧ (c.st = .active ∨ c.st =
    .spill) ∧ s.d.clusterClosed k.val = false ∧ c.isThresh = false ∧ c.e.op ≠ 7 ∧ c.e.level ≠ 0 ∧ s.d.onPath
    c.e cid seq (f.hdr.sub.getLsbD 7) f.hdr.src = true ∧ hasPort (c.membership seq) f.port = true ∧ (∀ l ∈
    members (c.membership seq), s.d.memberUp c.e.part.toNat l = true) ∧ c.chunk? f.hdr.seq = none ∧ c.record?
    f.hdr.seq = none ∧ formatOk (c.e.arith false) f.hdr = true ∧ c.chunks.length < c.slots ∧ portBit f.port ≠
    c.membership f.hdr.seq :=
  ⟨mk (dRed (redCtx 1 []) con0), 0, 4, con0, redCtx 1 [],
    atHead_intro (copyTo (.cluster 0) 4) [] (by decide +kernel), by dsimp only; decide +kernel⟩

theorem wit_Contributions_1_b : ∃ (s : State) (k tc : Fin 8) (f : Frame) (c : Ctx), s.d.AtHead k.val tc.val f
    ∧ f.hdr.kind = 2 ∧
    let cid := f.hdr.ctx.toNat;
    let seq := f.hdr.seq;
         s.d.ctx? cid = some c ∧ c.e.part = f.hdr.part ∧ c.e.job = f.hdr.job ∧ (c.st = .active ∨ c.st =
    .spill) ∧ s.d.clusterClosed k.val = false ∧ c.isThresh = false ∧ c.e.op ≠ 7 ∧ c.e.level ≠ 0 ∧ s.d.onPath
    c.e cid seq (f.hdr.sub.getLsbD 7) f.hdr.src = true ∧ hasPort (c.membership seq) f.port = true ∧ (∀ l ∈
    members (c.membership seq), s.d.memberUp c.e.part.toNat l = true) ∧ c.chunk? f.hdr.seq = none ∧ c.record?
    f.hdr.seq = none ∧ formatOk (c.e.arith false) f.hdr = true ∧ c.slots ≤ c.chunks.length :=
  ⟨mk (dRed (redCtx 1 [{ chunk0 0x10 with seq := 8 }]) con0), 0, 4, con0, redCtx 1 [{ chunk0 0x10 with seq := 8 }],
    atHead_intro (copyTo (.cluster 0) 4) [] (by decide +kernel), by dsimp only; decide +kernel⟩

theorem wit_Contributions_1_c : ∃ (s : State) (k tc : Fin 8) (f : Frame) (c : Ctx), s.d.AtHead k.val tc.val f
    ∧ f.hdr.kind = 2 ∧
    let cid := f.hdr.ctx.toNat;
    let seq := f.hdr.seq;
         s.d.ctx? cid = some c ∧ c.e.part = f.hdr.part ∧ c.e.job = f.hdr.job ∧ (c.st = .active ∨ c.st =
    .spill) ∧ s.d.clusterClosed k.val = false ∧ c.isThresh = false ∧ c.e.op ≠ 7 ∧ c.e.level ≠ 0 ∧ s.d.onPath
    c.e cid seq (f.hdr.sub.getLsbD 7) f.hdr.src = true ∧ hasPort (c.membership seq) f.port = true ∧ (∀ l ∈
    members (c.membership seq), s.d.memberUp c.e.part.toNat l = true) ∧ c.chunk? f.hdr.seq = some (chunk0 8) ∧
    formatOk (chunk0 8).att f.hdr = true ∧ hasPort (chunk0 8).bits f.port = true :=
  ⟨mk (dRed (redCtx 1 [chunk0 8]) con0), 0, 4, con0, redCtx 1 [chunk0 8],
    atHead_intro (copyTo (.cluster 0) 4) [] (by decide +kernel), by dsimp only; decide +kernel⟩

theorem wit_Contributions_1_d : ∃ (s : State) (k tc : Fin 8) (f : Frame) (c : Ctx), s.d.AtHead k.val tc.val f
    ∧ f.hdr.kind = 2 ∧
    let cid := f.hdr.ctx.toNat;
    let seq := f.hdr.seq;
         s.d.ctx? cid = some c ∧ c.e.part = f.hdr.part ∧ c.e.job = f.hdr.job ∧ (c.st = .active ∨ c.st =
    .spill) ∧ s.d.clusterClosed k.val = false ∧ c.isThresh = false ∧ c.e.op ≠ 7 ∧ c.e.level ≠ 0 ∧ s.d.onPath
    c.e cid seq (f.hdr.sub.getLsbD 7) f.hdr.src = true ∧ hasPort (c.membership seq) f.port = true ∧ (∀ l ∈
    members (c.membership seq), s.d.memberUp c.e.part.toNat l = true) ∧ c.chunk? f.hdr.seq = some (chunk0 0) ∧
    formatOk (chunk0 0).att f.hdr = true ∧ hasPort (chunk0 0).bits f.port = false ∧ (chunk0 0).bits |||
    portBit f.port ≠ c.membership f.hdr.seq :=
  ⟨mk (dRed (redCtx 1 [chunk0 0]) con0), 0, 4, con0, redCtx 1 [chunk0 0],
    atHead_intro (copyTo (.cluster 0) 4) [] (by decide +kernel), by dsimp only; decide +kernel⟩

theorem wit_Contributions_1_e : ∃ (s : State) (k tc : Fin 8) (f : Frame) (c : Ctx), s.d.AtHead k.val tc.val f
    ∧ f.hdr.kind = 2 ∧
    let cid := f.hdr.ctx.toNat;
    let seq := f.hdr.seq;
         s.d.ctx? cid = some c ∧ c.e.part = f.hdr.part ∧ c.e.job = f.hdr.job ∧ (c.st = .active ∨ c.st =
    .spill) ∧ s.d.clusterClosed k.val = false ∧ c.isThresh = false ∧ c.e.op ≠ 7 ∧ c.e.level ≠ 0 ∧ s.d.onPath
    c.e cid seq (f.hdr.sub.getLsbD 7) f.hdr.src = true ∧ hasPort (c.membership seq) f.port = true ∧ (∀ l ∈
    members (c.membership seq), s.d.memberUp c.e.part.toNat l = true) ∧ c.chunk? f.hdr.seq = some (chunk0
    0x10) ∧ formatOk (chunk0 0x10).att f.hdr = true ∧ hasPort (chunk0 0x10).bits f.port = false ∧ (chunk0
    0x10).seq = f.hdr.seq ∧ (chunk0 0x10).bits ||| portBit f.port = c.membership f.hdr.seq ∧ c.e.level = 2 ∧
    (chunk0 0x10).att.op ≠ 7 ∧ c.e.window ≠ 0 :=
  ⟨mk (dRed (redCtx 2 [chunk0 0x10]) con0), 0, 4, con0, redCtx 2 [chunk0 0x10],
    atHead_intro (copyTo (.cluster 0) 4) [] (by decide +kernel), by dsimp only; decide +kernel⟩

theorem wit_ChunkEvents_1 : ∃ (s : State) (k tc : Fin 8) (f : Frame) (c : Ctx) (x : Chunk), s.d.AtHead k.val
    tc.val f ∧ f.hdr.kind = 7 ∧ f.hdr.sub = 0x12 ∧ s.d.ctx? (ksfCtx f.hdr) = some c ∧ c.chunk? (ksfSeq f.hdr)
    = some x ∧ c.e.part = f.hdr.part ∧ x.st = .sent ∧ x.rh = bitOf f.hdr.ksf.toNat 7 :=
  ⟨mk (dRed (redCtx 1 [sentChunk]) (nack0 0x12 2)), 0, 4, nack0 0x12 2, redCtx 1 [sentChunk], sentChunk,
    atHead_intro (copyTo (.cluster 0) 4) [] (by decide +kernel), by decide +kernel⟩

theorem wit_ChunkEvents_1_a : ∃ (s : State) (k tc : Fin 8) (f : Frame) (c : Ctx) (x : Chunk), s.d.AtHead k.val
    tc.val f ∧ f.hdr.kind = 7 ∧ f.hdr.sub = 0x12 ∧ s.d.ctx? (ksfCtx f.hdr) = some c ∧ c.chunk? (ksfSeq f.hdr)
    = some x ∧ c.e.part = f.hdr.part ∧ x.st = .sent ∧ x.rh = bitOf f.hdr.ksf.toNat 7 ∧ bitsOf f.hdr.ksf.toNat
    15 8 = 2 :=
  ⟨mk (dRed (redCtx 1 [sentChunk]) (nack0 0x12 2)), 0, 4, nack0 0x12 2, redCtx 1 [sentChunk], sentChunk,
    atHead_intro (copyTo (.cluster 0) 4) [] (by decide +kernel), by decide +kernel⟩

theorem wit_ChunkEvents_1_b : ∃ (s : State) (k tc : Fin 8) (f : Frame) (c : Ctx) (x : Chunk), s.d.AtHead k.val
    tc.val f ∧ f.hdr.kind = 7 ∧ f.hdr.sub = 0x12 ∧ s.d.ctx? (ksfCtx f.hdr) = some c ∧ c.chunk? (ksfSeq f.hdr)
    = some x ∧ c.e.part = f.hdr.part ∧ x.st = .sent ∧ x.rh = bitOf f.hdr.ksf.toNat 7 ∧ bitsOf f.hdr.ksf.toNat
    15 8 = 6 ∧ c.e.window ≠ 0 :=
  ⟨mk (dRed (redCtx 1 [sentChunk]) (nack0 0x12 6)), 0, 4, nack0 0x12 6, redCtx 1 [sentChunk], sentChunk,
    atHead_intro (copyTo (.cluster 0) 4) [] (by decide +kernel), by decide +kernel⟩

theorem wit_ChunkEvents_2 : ∃ (s : State) (k tc : Fin 8) (f : Frame) (c : Ctx) (x : Linger), s.d.AtHead k.val
    tc.val f ∧ f.hdr.kind = 7 ∧ f.hdr.sub = 0x10 ∧ f.arr.isSome = true ∧ s.d.ctx? (ksfCtx f.hdr) = some c ∧
    c.st ≠ .pending ∧ c.e.level = 2 ∧ s.d.clusterClosed k.val = false ∧ c.e.part = f.hdr.part ∧ c.e.job =
    f.hdr.job ∧ s.d.lingerOf c (ksfSeq f.hdr) = some x :=
  ⟨mk (dRed lingerCtx (nack0 0x10 0)), 0, 4, nack0 0x10 0, lingerCtx, linger0,
    atHead_intro (copyTo (.cluster 0) 4) [] (by decide +kernel), by decide +kernel⟩

theorem wit_ChunkEvents_3 : ∃ (s : State) (k : Fin 8) (n : Notice) (r : List Notice) (c : Ctx) (x : Chunk),
    s.d.awake = true ∧ Tab.get s.d.red.notices k.val [] = n :: r ∧ s.d.ctx? n.ctx.toNat = some c ∧ c.chunk?
    n.seq = some x ∧ x.st = .sent ∧ c.e.window ≠ 0 :=
  ⟨mk { dRed (redCtx 1 [sentChunk]) con0 with red := { ctxs := [(3, redCtx 1 [sentChunk])], notices := [(0, [{ ctx := 3, seq := 7, rh := false }])] } }, 0, { ctx := 3, seq := 7, rh := false }, [], redCtx 1 [sentChunk], sentChunk,
    by decide +kernel⟩

theorem wit_ChunkEvents_4 : ∃ (s : State) (cid : BitVec 16) (q : Word) (c : Ctx) (x : Chunk), s.d.awake = true
    ∧ s.d.ctx? cid.toNat = some c ∧ c.chunk? q = some x ∧ c.e.window ≠ 0 :=
  ⟨mk (dCtx (redCtx 1 [chunk0 8])), 3, 7, redCtx 1 [chunk0 8], chunk0 8, by decide +kernel⟩

theorem wit_ChunkEvents_4_a : ∃ (s : State) (cid : BitVec 16) (q : Word) (c : Ctx) (x : Chunk), s.d.awake =
    true ∧ s.d.ctx? cid.toNat = some c ∧ c.chunk? q = some x ∧ c.e.window ≠ 0 ∧ x.st = .sent ∧ 2 ≤ x.expiries
    :=
  ⟨mk (dCtx (redCtx 1 [{ sentChunk with expiries := 2 }])), 3, 7, redCtx 1 [{ sentChunk with expiries := 2 }], { sentChunk with expiries := 2 },
    by decide +kernel⟩

theorem wit_ChunkEvents_4_b : ∃ (s : State) (cid : BitVec 16) (q : Word) (c : Ctx) (x : Chunk), s.d.awake =
    true ∧ s.d.ctx? cid.toNat = some c ∧ c.chunk? q = some x ∧ c.e.window ≠ 0 ∧ x.st = .sent ∧ x.expiries = 0
    ∧ x.resend = true ∧ x.waitCredit = true :=
  ⟨mk (dCtx (redCtx 1 [{ sentChunk with resend := true, waitCredit := true }])), 3, 7, redCtx 1 [{ sentChunk with resend := true, waitCredit := true }], { sentChunk with resend := true, waitCredit := true },
    by decide +kernel⟩

theorem wit_ChunkEvents_4_c : ∃ (s : State) (cid : BitVec 16) (q : Word) (c : Ctx) (x : Chunk), s.d.awake =
    true ∧ s.d.ctx? cid.toNat = some c ∧ c.chunk? q = some x ∧ c.e.window ≠ 0 ∧ x.st = .hold ∧
    s.d.firstWaiting cid.toNat c x = true ∧ s.d.creditFree c cid.toNat q x.rh = true ∧ s.d.reaches c.e
    (s.d.destOf c.e cid.toNat q x.rh) = true :=
  ⟨mk (dCtx (redCtx 2 [{ chunk0 8 with st := .hold }])), 3, 7, redCtx 2 [{ chunk0 8 with st := .hold }], { chunk0 8 with st := .hold },
    by decide +kernel⟩

theorem wit_ChunkEvents_4_d : ∃ (s : State) (cid : BitVec 16) (q : Word) (c : Ctx) (x : Chunk), s.d.awake =
    true ∧ s.d.ctx? cid.toNat = some c ∧ c.chunk? q = some x ∧ c.e.window ≠ 0 ∧ x.st = .sent ∧ x.waitCredit =
    true ∧ s.d.firstWaiting cid.toNat c x = true ∧ s.d.creditFree c cid.toNat q x.rh = true :=
  ⟨mk (dCtx (redCtx 1 [{ sentChunk with waitCredit := true }])), 3, 7, redCtx 1 [{ sentChunk with waitCredit := true }], { sentChunk with waitCredit := true },
    by decide +kernel⟩

theorem wit_ChunkEvents_5 : ∃ (s : State) (cid : BitVec 16) (q : Word) (c : Ctx) (r : FinRec), s.d.awake =
    true ∧ s.d.ctx? cid.toNat = some c ∧ c.record? q = some r :=
  ⟨mk (dCtx lingerCtx), 3, 7, lingerCtx, { seq := 7, isDone := true, rh := false, linger := some linger0 },
    by decide +kernel⟩

theorem wit_ContextLife_1 : ∃ (s : State) (cid : Nat) (c : Ctx), s.d.awake = true ∧ s.d.setupHead = some (cid,
    c) ∧ s.d.now < c.since + s.d.regBits (baseRed 0 + 0xB14) 31 16 * 1600 :=
  ⟨mk (dCtx { e := ctxE 1 0, st := .pending }), 3, { e := ctxE 1 0, st := .pending }, by decide +kernel⟩

theorem wit_ContextLife_2 : ∃ (s : State) (cid : Nat) (c : Ctx), s.d.awake = true ∧ s.d.setupHead = some (cid,
    c) ∧ c.since + s.d.regBits (baseRed 0 + 0xB14) 31 16 * 1600 ≤ s.d.now ∧ 2 * c.e.window.toNat ≤
    s.d.freeRecords (clusterOf cid) :=
  ⟨mk { dCtx { e := ctxE 1 0, st := .pending } with now := 10000000 }, 3, { e := ctxE 1 0, st := .pending },
    by decide +kernel⟩

theorem wit_ContextLife_2_a : ∃ (s : State) (cid : Nat) (c : Ctx), s.d.awake = true ∧ s.d.setupHead = some
    (cid, c) ∧ c.since + s.d.regBits (baseRed 0 + 0xB14) 31 16 * 1600 ≤ s.d.now ∧ 2 * c.e.window.toNat ≤
    s.d.freeRecords (clusterOf cid) ∧ c.e.window.toNat * c.e.units ≤ s.d.freeUnits (clusterOf cid) :=
  ⟨mk { dCtx { e := ctxE 1 0, st := .pending } with now := 10000000 }, 3, { e := ctxE 1 0, st := .pending },
    by decide +kernel⟩

theorem wit_ContextLife_2_b : ∃ (s : State) (cid : Nat) (c : Ctx), s.d.awake = true ∧ s.d.setupHead = some
    (cid, c) ∧ c.since + s.d.regBits (baseRed 0 + 0xB14) 31 16 * 1600 ≤ s.d.now ∧ 2 * c.e.window.toNat ≤
    s.d.freeRecords (clusterOf cid) ∧ s.d.freeUnits (clusterOf cid) < c.e.window.toNat * c.e.units ∧
    c.e.spillOk = true ∧ c.e.window.toNat * c.e.units ≤ s.d.freeSpill :=
  ⟨mk { dCtx { e := ctxE 1 0, st := .pending } with now := 10000000, red := { ctxs := [(3, { e := ctxE 1 0, st := .pending })], retired := [(0, 2048)] }, mem := { dRun.mem with regions := [(1, { kind := .spill, base := 0x2000000000000, size := 8192 })] } }, 3, { e := ctxE 1 0, st := .pending },
    by decide +kernel⟩

theorem wit_ContextLife_2_c : ∃ (s : State) (cid : Nat) (c : Ctx), s.d.awake = true ∧ s.d.setupHead = some
    (cid, c) ∧ c.since + s.d.regBits (baseRed 0 + 0xB14) 31 16 * 1600 ≤ s.d.now ∧ 2 * c.e.window.toNat ≤
    s.d.freeRecords (clusterOf cid) ∧ s.d.freeUnits (clusterOf cid) < c.e.window.toNat * c.e.units ∧
    c.e.spillOk = false :=
  ⟨mk { dRun with now := 10000000, red := { ctxs := [(3, { e := { ctxE 1 0 with spillOk := false }, st := .pending })], retired := [(0, 2048)] } }, 3, { e := { ctxE 1 0 with spillOk := false }, st := .pending },
    by decide +kernel⟩

theorem wit_ContextLife_3 : ∃ (s : State) (cid : Nat) (c : Ctx), s.d.awake = true ∧ s.d.setupHead = some (cid,
    c) ∧ c.stallSent = false ∧ s.d.regBits offSetupCtl 15 0 ≠ 0 ∧ c.since + s.d.regBits offSetupCtl 15 0 *
    1600000 < s.d.now :=
  ⟨mk { dCtx { e := ctxE 1 0, st := .pending } with now := 200000000000 }, 3, { e := ctxE 1 0, st := .pending },
    by decide +kernel⟩

theorem wit_ContextLife_4 : ∃ (s : State) (n : BitVec 16) (c : Ctx), s.d.awake = true ∧ s.d.ctx? n.toNat =
    some c ∧ c.resizePend = true ∧ (∀ x ∈ c.chunks, 0 ≤ seqDist x.seq c.e.boundary) ∧ (∀ x ∈ c.fin, 0 ≤
    seqDist x.seq c.e.boundary) :=
  ⟨mk (dCtx { e := ctxE 1 0, st := .active, resizePend := true, fin := [{ seq := 5, isDone := true, rh := false }] }), 3, { e := ctxE 1 0, st := .active, resizePend := true, fin := [{ seq := 5, isDone := true, rh := false }] },
    by decide +kernel⟩

theorem wit_ContextLife_5 : ∃ (s : State) (n : BitVec 16) (c : Ctx), s.d.awake = true ∧ s.d.ctx? n.toNat =
    some c ∧ c.st = .draining ∧ c.chunks = [] ∧ (∀ r ∈ c.fin, r.linger = none) :=
  ⟨mk (dCtx { e := ctxE 1 0, st := .draining }), 3, { e := ctxE 1 0, st := .draining },
    by decide +kernel⟩

theorem wit_Sheaves_1 : ∃ (s : State) (k tc : Fin 8) (f : Frame) (x : Sheaf), s.d.AtHead k.val tc.val f ∧
    f.hdr.kind = 4 ∧
    let n := f.hdr.ctx.toNat;
    let more := bitsOf f.hdr.ksf.toNat 52 32;
         s.d.sheaf? n = some x ∧ x.cfg.part = f.hdr.part ∧ x.cfg.job = f.hdr.job ∧ hasPort x.cfg.members
    f.port = true ∧ f.hdr.seq = x.cfg.phase :=
  ⟨mk (atQueue (dSheaf 3 { cfg := sheafCfg 2 }) (.cluster 0) 4 (sheafF 1)), 0, 4, sheafF 1, { cfg := sheafCfg 2 },
    atHead_intro (copyTo (.cluster 0) 4) [] (by decide +kernel), by dsimp only; decide +kernel⟩

theorem wit_Sheaves_1_a : ∃ (s : State) (k tc : Fin 8) (f : Frame) (x : Sheaf), s.d.AtHead k.val tc.val f ∧
    f.hdr.kind = 4 ∧
    let n := f.hdr.ctx.toNat;
    let more := bitsOf f.hdr.ksf.toNat 52 32;
         s.d.sheaf? n = some x ∧ x.cfg.part = f.hdr.part ∧ x.cfg.job = f.hdr.job ∧ hasPort x.cfg.members
    f.port = true ∧ f.hdr.seq = x.cfg.phase ∧ hasPort x.arrived f.port = true :=
  ⟨mk (atQueue (dSheaf 3 { cfg := sheafCfg 2, arrived := 8 }) (.cluster 0) 4 (sheafF 1)), 0, 4, sheafF 1, { cfg := sheafCfg 2, arrived := 8 },
    atHead_intro (copyTo (.cluster 0) 4) [] (by decide +kernel), by dsimp only; decide +kernel⟩

theorem wit_Sheaves_1_b : ∃ (s : State) (k tc : Fin 8) (f : Frame) (x : Sheaf), s.d.AtHead k.val tc.val f ∧
    f.hdr.kind = 4 ∧
    let n := f.hdr.ctx.toNat;
    let more := bitsOf f.hdr.ksf.toNat 52 32;
         s.d.sheaf? n = some x ∧ x.cfg.part = f.hdr.part ∧ x.cfg.job = f.hdr.job ∧ hasPort x.cfg.members
    f.port = true ∧ f.hdr.seq = x.cfg.phase ∧ s.d.memberUp f.hdr.part.toNat f.port = false :=
  ⟨mk (atQueue (dSheaf 3 { cfg := sheafCfg 2 }) (.cluster 0) 4 (sheafF 1)), 0, 4, sheafF 1, { cfg := sheafCfg 2 },
    atHead_intro (copyTo (.cluster 0) 4) [] (by decide +kernel), by dsimp only; decide +kernel⟩

theorem wit_Sheaves_1_c : ∃ (s : State) (k tc : Fin 8) (f : Frame) (x : Sheaf), s.d.AtHead k.val tc.val f ∧
    f.hdr.kind = 4 ∧
    let n := f.hdr.ctx.toNat;
    let more := bitsOf f.hdr.ksf.toNat 52 32;
         s.d.sheaf? n = some x ∧ x.cfg.part = f.hdr.part ∧ x.cfg.job = f.hdr.job ∧ hasPort x.cfg.members
    f.port = true ∧ f.hdr.seq = x.cfg.phase ∧ hasPort x.arrived f.port = false ∧ s.d.memberUp f.hdr.part.toNat
    f.port = true ∧ x.cfg.level = 2 ∧ x.count + bitsOf f.hdr.ksf.toNat 52 32 < x.cfg.target.toNat :=
  ⟨mk (atQueue (onLeaf (dSheaf 3 { cfg := sheafCfg 2 })) (.cluster 0) 4 (sheafF 1)), 0, 4, sheafF 1, { cfg := sheafCfg 2 },
    atHead_intro (copyTo (.cluster 0) 4) [] (by decide +kernel), by dsimp only; decide +kernel⟩

theorem wit_Sheaves_1_d : ∃ (s : State) (k tc : Fin 8) (f : Frame) (x : Sheaf), s.d.AtHead k.val tc.val f ∧
    f.hdr.kind = 4 ∧
    let n := f.hdr.ctx.toNat;
    let more := bitsOf f.hdr.ksf.toNat 52 32;
         s.d.sheaf? n = some x ∧ x.cfg.part = f.hdr.part ∧ x.cfg.job = f.hdr.job ∧ hasPort x.cfg.members
    f.port = true ∧ f.hdr.seq = x.cfg.phase ∧ hasPort x.arrived f.port = false ∧ s.d.memberUp f.hdr.part.toNat
    f.port = true ∧ x.cfg.level = 2 ∧ x.cfg.target.toNat ≤ x.count + bitsOf f.hdr.ksf.toNat 52 32 ∧ x.count +
    bitsOf f.hdr.ksf.toNat 52 32 < 2 ^ 21 :=
  ⟨mk (atQueue (onLeaf (dSheaf 3 { cfg := sheafCfg 2, count := 1 })) (.cluster 0) 4 (sheafF 1)), 0, 4, sheafF 1, { cfg := sheafCfg 2, count := 1 },
    atHead_intro (copyTo (.cluster 0) 4) [] (by decide +kernel), by dsimp only; decide +kernel⟩

theorem wit_Sheaves_2 : ∃ (s : State) (k : Fin 8) (r : SheafRel) (l : List SheafRel) (x : Sheaf), s.d.awake =
    true ∧ Tab.get s.d.red.passing k.val [] = r :: l ∧ s.d.sheaf? r.sheaf = some x ∧ x.cfg.level = 1 ∧
    x.cfg.part = r.part ∧ x.cfg.job = r.job ∧ x.cfg.phase = r.phase ∧ x.cfg.members ≠ 0 :=
  ⟨mk { dRun with red := { sheaves := [(3, { cfg := sheafCfg 1 })], passing := [(0, [rel0])] } }, 0, rel0, [], { cfg := sheafCfg 1 },
    by decide +kernel⟩

theorem wit_Sheaves_4 : ∃ (s : State) (n : Fin 8192) (x : Sheaf), s.d.awake = true ∧ s.d.sheaf? n.val = some x
    ∧ x.cfg.level = 1 ∧ x.sentUp = true :=
  ⟨mk (dSheaf 8191 { cfg := sheafCfg 1, sentUp := true }), 8191, { cfg := sheafCfg 1, sentUp := true },
    by decide +kernel⟩

theorem wit_Sheaves_5 : ∃ (s : State) (n : Fin 8192) (x : Sheaf), s.d.awake = true ∧ s.d.sheaf? n.val = some x
    ∧ x.firstAt.isSome = true ∧ x.stuckSent = false :=
  ⟨mk (dSheaf 8191 { cfg := sheafCfg 1, firstAt := some 0 }), 8191, { cfg := sheafCfg 1, firstAt := some 0 },
    by decide +kernel⟩

theorem wit_Sheaves_6 : ∃ (s : State) (n : Fin 8192) (x : Sheaf), s.d.awake = true ∧ s.d.sheaf? n.val = some x
    ∧ x.stuckSent = true :=
  ⟨mk (dSheaf 8191 { cfg := sheafCfg 1, stuckSent := true }), 8191, { cfg := sheafCfg 1, stuckSent := true },
    by decide +kernel⟩

theorem wit_Thresh_1 : ∃ (s : State) (n : Fin 16384) (h : ThrShard) (c : Ctx) (x : ThrJob), s.d.awake = true ∧
    Tab.find s.d.thr.shards n.val = some h ∧ s.d.ctx? h.cfg.ctx.toNat = some c ∧ s.d.job? h.cfg.jent.toNat =
    some x ∧ h.ready = false ∧ h.draining = false ∧ (∀ e ∈ s.d.thr.jobs, e.2.runs = []) :=
  ⟨mk dThr, 7, shard0, thrCtx, job0, by decide +kernel⟩

theorem wit_Thresh_1_a : ∃ (s : State) (n : Fin 16384) (h : ThrShard) (c : Ctx) (x : ThrJob), s.d.awake = true
    ∧ Tab.find s.d.thr.shards n.val = some h ∧ s.d.ctx? h.cfg.ctx.toNat = some c ∧ s.d.job? h.cfg.jent.toNat =
    some x ∧ h.ready = false ∧ h.draining = false ∧ (∀ e ∈ s.d.thr.jobs, e.2.runs = []) ∧ h.doomed = true :=
  ⟨mk (thrOf job0 { shard0 with doomed := true }), 7, { shard0 with doomed := true }, thrCtx, job0,
    by decide +kernel⟩

theorem wit_Thresh_1_b : ∃ (s : State) (n : Fin 16384) (h : ThrShard) (c : Ctx) (x : ThrJob), s.d.awake = true
    ∧ Tab.find s.d.thr.shards n.val = some h ∧ s.d.ctx? h.cfg.ctx.toNat = some c ∧ s.d.job? h.cfg.jent.toNat =
    some x ∧ h.ready = false ∧ h.draining = false ∧ (∀ e ∈ s.d.thr.jobs, e.2.runs = []) ∧ x.own = .lost ∧
    h.doomed = false ∧ s.d.mem.granClosed = false :=
  ⟨mk (thrOf { job0 with own := .lost } shard0), 7, shard0, thrCtx, { job0 with own := .lost },
    by decide +kernel⟩

theorem wit_Thresh_2 : ∃ (s : State) (j : Fin 64) (x : ThrJob), s.d.awake = true ∧ s.d.job? j.val = some x ∧
    x.arrivalsSent = true :=
  ⟨mk { dThr with thr := { dThr.thr with jobs := [(63, { job0 with arrivalsSent := true })] } }, 63, { job0 with arrivalsSent := true },
    by decide +kernel⟩

theorem wit_Thresh_3 : ∃ (s : State) (r : SheafRel) (l : List SheafRel) (j : Nat) (x : ThrJob), s.d.awake =
    true ∧ s.d.thr.posts = r :: l ∧ s.d.thr.jobs = [(j, x)] ∧ x.cfg.part = r.part ∧ x.cfg.job = r.job ∧
    x.phase = r.phase ∧ x.cfg.voteSheaf.toNat = r.sheaf :=
  ⟨mk { dThr with thr := { dThr.thr with posts := [thrRel 0] } }, thrRel 0, [], 63, job0,
    by decide +kernel⟩

theorem wit_Thresh_3_a : ∃ (s : State) (r : SheafRel) (l : List SheafRel) (j : Nat) (x : ThrJob), s.d.awake =
    true ∧ s.d.thr.posts = r :: l ∧ s.d.thr.jobs = [(j, x)] ∧ x.cfg.part = r.part ∧ x.cfg.job = r.job ∧
    x.phase = r.phase ∧ x.cfg.voteSheaf.toNat = r.sheaf ∧ x.cfg.gate = 1 ∧ bitsOf r.datum.toNat 3 0 = 0 :=
  ⟨mk { dThr with thr := { dThr.thr with posts := [thrRel 0] } }, thrRel 0, [], 63, job0,
    by decide +kernel⟩

theorem wit_Thresh_3_b : ∃ (s : State) (r : SheafRel) (l : List SheafRel) (j : Nat) (x : ThrJob), s.d.awake =
    true ∧ s.d.thr.posts = r :: l ∧ s.d.thr.jobs = [(j, x)] ∧ x.cfg.part = r.part ∧ x.cfg.job = r.job ∧
    x.phase = r.phase ∧ x.cfg.voteSheaf.toNat = r.sheaf ∧ x.cfg.gate ≠ 0 ∧ bitsOf r.datum.toNat 3 0 ≠ 0 :=
  ⟨mk { dThr with thr := { dThr.thr with posts := [thrRel 8] } }, thrRel 8, [], 63, job0,
    by decide +kernel⟩

theorem wit_Thresh_3_c : ∃ (s : State) (r : SheafRel) (l : List SheafRel) (j : Nat) (x : ThrJob), s.d.awake =
    true ∧ s.d.thr.posts = r :: l ∧ s.d.thr.jobs = [(j, x)] ∧ x.cfg.part = r.part ∧ x.cfg.job = r.job ∧
    x.phase = r.phase ∧ x.cfg.voteSheaf.toNat = r.sheaf ∧ x.cfg.gate = 2 ∧ bitsOf r.datum.toNat 3 0 = 0 ∧
    x.normSeen = none ∧ x.cfg.normSheaf.toNat ≠ r.sheaf :=
  ⟨mk { dThr with thr := { dThr.thr with posts := [thrRel 0], jobs := [(63, { job0 with cfg := { job0.cfg with gate := 2 } })] } }, thrRel 0, [], 63, { job0 with cfg := { job0.cfg with gate := 2 } },
    by decide +kernel⟩

theorem wit_Thresh_4 : ∃ (s : State) (n : BitVec 16) (q : Word) (c : Ctx) (x : Chunk) (m : Nat) (h : ThrShard)
    (j : ThrJob), s.d.awake = true ∧ s.d.ctx? n.toNat = some c ∧ c.chunk? q = some x ∧ x.st = .waitPark ∧
    c.e.window ≠ 0 ∧ s.d.shardOfCtx n.toNat = some (m, h) ∧ s.d.job? h.cfg.jent.toNat = some j ∧ s.d.parkFits
    c.e.cap.toNat = true ∧ j.log.length < 4096 :=
  ⟨mk { dThr with red := { ctxs := [(3, parkCtx)] }, mem := { dRun.mem with regions := [(3, { kind := .park, base := 0x2000000000000, size := 4 })] } }, 3, 7, parkCtx, { chunk0 8 with st := .waitPark }, 7, shard0, job0,
    by decide +kernel⟩

theorem wit_Thresh_5 : ∃ (s : State) (k : Fin 8) (p : Parked) (n : Nat) (h : ThrShard) (c : Ctx) (x : ThrJob)
    (f : ThrParam)     (a b e : Word) (w : List Byte), s.d.awake = true ∧ s.d.nextUpdate k.val = some p ∧
    s.d.shardOfCtx p.ctx.toNat = some (n, h) ∧ s.d.ctx? p.ctx.toNat = some c ∧ s.d.job? h.cfg.jent.toNat =
    some x ∧ s.d.updateConsts x h p.phase = (f, a, b, e) ∧
    let ix := (h.place x.phase p.seq).1;
    let m := s.d.mapEnt h ix;
         m.lost = false ∧ m.stamp ≠ p.phase ∧ ThrParam.slot f (rndFor c.e.rnd c.e.seed p.seq) c.e.cap.toNat a
    b e p.vals p.state = some w ∧ (∀ e ∈ s.d.thr.jobs, e.2.runs = []) :=
  ⟨mk (dUpd 3), 0, parked0, 7, shardR, thrCtx, job0, param0, 1, 0x3F800000, 0x3F800000, List.replicate 4 0,
    by dsimp only; decide +kernel⟩

theorem wit_Thresh_6 : ∃ (s : State) (k : Fin 8) (p : Parked) (n : Nat) (h : ThrShard) (c : Ctx) (x : ThrJob)
    (f : ThrParam)     (a b e : Word), s.d.awake = true ∧ s.d.nextUpdate k.val = some p ∧ s.d.shardOfCtx
    p.ctx.toNat = some (n, h) ∧ s.d.ctx? p.ctx.toNat = some c ∧ s.d.job? h.cfg.jent.toNat = some x ∧
    s.d.updateConsts x h p.phase = (f, a, b, e) ∧ (s.d.mapEnt h (h.place x.phase p.seq).1).lost = false ∧
    (s.d.mapEnt h (h.place x.phase p.seq).1).stamp = p.phase ∧ (∀ e ∈ s.d.thr.jobs, e.2.runs = []) :=
  ⟨mk (dUpd 4), 0, parked0, 7, shardR, thrCtx, job0, param0, 1, 0x3F800000, 0x3F800000,
    by decide +kernel⟩

theorem wit_Thresh_7 : ∃ (s : State) (k tc : Fin 8) (f : Frame) (c : Ctx) (n : Nat) (h : ThrShard) (x :
    ThrJob), s.d.AtHead k.val tc.val f ∧ f.hdr.kind = 7 ∧ f.hdr.sub = 0x13 ∧ s.d.ctx? (ksfCtx f.hdr) = some c
    ∧ s.d.shardOfCtx (ksfCtx f.hdr) = some (n, h) ∧ c.e.part = f.hdr.part ∧ -1 ≤ seqDist (h.place x.phase
    (ksfSeq f.hdr)).2 x.phase ∧ s.d.job? h.cfg.jent.toNat = some x ∧ h.ready = true ∧ x.own ≠ .rebuild ∧
    x.nackUntil = false ∧
    let m := s.d.mapEnt h (h.place x.phase (ksfSeq f.hdr)).1;
         m.valid = true ∧ m.lost = false ∧ m.stamp = (h.place x.phase (ksfSeq f.hdr)).2 :=
  ⟨mk (atQueue (dUpd 4) (.cluster 0) 4 wreq), 0, 4, wreq, thrCtx, 7, shardR, job0,
    atHead_intro (copyTo (.cluster 0) 4) [] (by decide +kernel), by dsimp only; decide +kernel⟩

theorem wit_Thresh_8 : ∃ (s : State) (c : CmdCtx) (n : BitVec 16) (j q : Word) (h : ThrShard),
    let d := s.d.touch c;
         s.d.Runs (.memSlotRestored c n j q) c 0x0706 .operator ∧ Tab.find s.d.thr.shards n.toNat = some h ∧
    d.claimedElse c.src (.shard n.toNat) = false ∧ s.d.mem.granClosed = false ∧ j.toNat < h.cfg.cps.toNat ∧
    (s.d.mapEnt h j.toNat).valid = true ∧ (s.d.mapEnt h j.toNat).lost = true ∧ (∀ x, s.d.job? h.cfg.jent.toNat
    = some x → x.own = .lost) :=
  ⟨mk dLost, c0, 7, 0, 4, shardR, by simp only [Dev.Runs]; decide +kernel⟩

theorem wit_MirrorStream_1 : ∃ (s : State) (k tc : Fin 8) (f : Frame) (j : Nat) (x : ThrJob), s.d.AtHead k.val
    tc.val f ∧ f.hdr.kind = 6 ∧ s.d.mirrorJob f.hdr = some (j, x) ∧ s.d.job? j = some x ∧ (∀ e ∈ s.d.thr.jobs,
    e.2.runs = []) :=
  ⟨mk (atQueue (dUpd 3) (.cluster 0) 4 (mir 1 0 0 [])), 0, 4, mir 1 0 0 [], 63, job0,
    atHead_intro (copyTo (.cluster 0) 4) [] (by decide +kernel), by decide +kernel⟩

theorem wit_MirrorStream_1_a : ∃ (s : State) (k tc : Fin 8) (f : Frame) (j : Nat) (x : ThrJob), s.d.AtHead
    k.val tc.val f ∧ f.hdr.kind = 6 ∧ s.d.mirrorJob f.hdr = some (j, x) ∧ s.d.job? j = some x ∧ (∀ e ∈
    s.d.thr.jobs, e.2.runs = []) ∧ f.hdr.seq = x.rxNext ∧ f.hdr.sub = 1 ∧ s.d.mirrorShard j f.hdr = some (7,
    shardR) ∧ bitsOf f.hdr.ksf.toNat 47 0 + f.payload.length ≤ (shardR.home + shardR.peer) *
    s.d.shardSlotBytes shardR :=
  ⟨mk (atQueue (dUpd 3) (.cluster 0) 4 (mir 1 0 0 [1, 2, 3, 4])), 0, 4, mir 1 0 0 [1, 2, 3, 4], 63, job0,
    atHead_intro (copyTo (.cluster 0) 4) [] (by decide +kernel), by decide +kernel⟩

theorem wit_MirrorStream_1_b : ∃ (s : State) (k tc : Fin 8) (f : Frame) (j : Nat) (x : ThrJob), s.d.AtHead
    k.val tc.val f ∧ f.hdr.kind = 6 ∧ s.d.mirrorJob f.hdr = some (j, x) ∧ s.d.job? j = some x ∧ (∀ e ∈
    s.d.thr.jobs, e.2.runs = []) ∧ f.hdr.seq = x.rxNext ∧ f.hdr.sub = 3 ∧ s.d.mirrorShard j f.hdr = some (7,
    shardR) ∧ s.d.shardSlotBytes shardR ≠ 0 ∧ s.d.indexOfSlot shardR (bitsOf f.hdr.ksf.toNat 47 0 /
    s.d.shardSlotBytes shardR) = some 0 :=
  ⟨mk (atQueue (dUpd 3) (.cluster 0) 4 (mir 3 0 0 [0, 0, 0, 4])), 0, 4, mir 3 0 0 [0, 0, 0, 4], 63, job0,
    atHead_intro (copyTo (.cluster 0) 4) [] (by decide +kernel), by decide +kernel⟩

theorem wit_MirrorStream_1_c : ∃ (s : State) (k tc : Fin 8) (f : Frame) (j : Nat) (x : ThrJob), s.d.AtHead
    k.val tc.val f ∧ f.hdr.kind = 6 ∧ s.d.mirrorJob f.hdr = some (j, x) ∧ s.d.job? j = some x ∧ (∀ e ∈
    s.d.thr.jobs, e.2.runs = []) ∧ f.hdr.seq = x.rxNext ∧ f.hdr.sub = 4 ∧ s.d.mirrorShard j f.hdr = some (7,
    shardR) ∧ (shardR.place x.phase (BitVec.ofNat 32 f.hdr.ksf.toNat)).2 = x.phase :=
  ⟨mk (atQueue (dUpd 3) (.cluster 0) 4 (mir 4 0 0 [])), 0, 4, mir 4 0 0 [], 63, job0,
    atHead_intro (copyTo (.cluster 0) 4) [] (by decide +kernel), by decide +kernel⟩

theorem wit_MirrorStream_1_d : ∃ (s : State) (k tc : Fin 8) (f : Frame) (j : Nat) (x : ThrJob), s.d.AtHead
    k.val tc.val f ∧ f.hdr.kind = 6 ∧ s.d.mirrorJob f.hdr = some (j, x) ∧ s.d.job? j = some x ∧ (∀ e ∈
    s.d.thr.jobs, e.2.runs = []) ∧ f.hdr.sub = 2 ∧ x.endSeq = none ∧ (x.own = .rebuild → x.reqSent = true) ∧
    seqDist (BitVec.ofNat 32 (bitsOf f.hdr.ksf.toNat 63 32)) x.txNext ≤ 0 :=
  ⟨mk (atQueue (dUpd 3) (.cluster 0) 4 (mir 2 0 0 [])), 0, 4, mir 2 0 0 [], 63, job0,
    atHead_intro (copyTo (.cluster 0) 4) [] (by decide +kernel), by decide +kernel⟩

theorem wit_MirrorStream_1_e : ∃ (s : State) (k tc : Fin 8) (f : Frame) (j : Nat) (x : ThrJob), s.d.AtHead
    k.val tc.val f ∧ f.hdr.kind = 6 ∧ s.d.mirrorJob f.hdr = some (j, x) ∧ s.d.job? j = some x ∧ (∀ e ∈
    s.d.thr.jobs, e.2.runs = []) ∧ f.hdr.seq = 0 ∧ f.hdr.sub = 5 ∧ x.own = .inSync :=
  ⟨mk (atQueue (dOwn .inSync) (.cluster 0) 4 (mir 5 0 0 [])), 0, 4, mir 5 0 0 [], 63, { job0 with own := .inSync },
    atHead_intro (copyTo (.cluster 0) 4) [] (by decide +kernel), by decide +kernel⟩

theorem wit_MirrorStream_1_f : ∃ (s : State) (k tc : Fin 8) (f : Frame) (j : Nat) (x : ThrJob), s.d.AtHead
    k.val tc.val f ∧ f.hdr.kind = 6 ∧ s.d.mirrorJob f.hdr = some (j, x) ∧ s.d.job? j = some x ∧ (∀ e ∈
    s.d.thr.jobs, e.2.runs = []) ∧ f.hdr.seq = x.rxNext ∧ f.hdr.sub = 6 ∧ x.own = .rebuild :=
  ⟨mk (atQueue (dOwn .rebuild) (.cluster 0) 4 (mir 6 0 0 [])), 0, 4, mir 6 0 0 [], 63, { job0 with own := .rebuild },
    atHead_intro (copyTo (.cluster 0) 4) [] (by decide +kernel), by decide +kernel⟩

theorem wit_MirrorStream_1_g : ∃ (s : State) (k tc : Fin 8) (f : Frame) (j : Nat) (x : ThrJob), s.d.AtHead
    k.val tc.val f ∧ f.hdr.kind = 6 ∧ s.d.mirrorJob f.hdr = some (j, x) ∧ s.d.job? j = some x ∧ (∀ e ∈
    s.d.thr.jobs, e.2.runs = []) ∧ f.hdr.seq ≠ x.rxNext ∧ (f.hdr.sub = 1 ∨ f.hdr.sub = 3 ∨ f.hdr.sub = 4 ∨
    f.hdr.sub = 6) :=
  ⟨mk (atQueue (dOwn .inSync) (.cluster 0) 4 (mir 6 1 0 [])), 0, 4, mir 6 1 0 [], 63, { job0 with own := .inSync },
    atHead_intro (copyTo (.cluster 0) 4) [] (by decide +kernel), by decide +kernel⟩

theorem wit_MirrorTimers_1 : ∃ (s : State) (j : Fin 64) (x : ThrJob), s.d.awake = true ∧ s.d.job? j.val = some
    x :=
  ⟨mk (dOwn .inSync), 63, { job0 with own := .inSync }, by decide +kernel⟩

theorem wit_MirrorTimers_1_a : ∃ (s : State) (j : Fin 64) (x : ThrJob), s.d.awake = true ∧ s.d.job? j.val =
    some x ∧ x.log ≠ [] :=
  ⟨mk { dThr with thr := { dThr.thr with jobs := [(63, { job0 with log := [{ seq := 0, sub := 1, ksf := 0, payload := [] }] })] } }, 63, { job0 with log := [{ seq := 0, sub := 1, ksf := 0, payload := [] }] },
    by decide +kernel⟩

theorem wit_MirrorTimers_1_b : ∃ (s : State) (j : Fin 64) (x : ThrJob), s.d.awake = true ∧ s.d.job? j.val =
    some x ∧ x.own = .rebuild :=
  ⟨mk (dOwn .rebuild), 63, { job0 with own := .rebuild }, by decide +kernel⟩

theorem wit_MirrorTimers_1_c : ∃ (s : State) (j : Fin 64) (x : ThrJob), s.d.awake = true ∧ s.d.job? j.val =
    some x ∧ x.own = .solo :=
  ⟨mk dThr, 63, job0, by decide +kernel⟩

theorem wit_MirrorTimers_1_d : ∃ (s : State) (j : Fin 64) (x : ThrJob), s.d.awake = true ∧ s.d.job? j.val =
    some x ∧ x.bulk = some (3, 0) ∧ s.d.bulkAt j.val (3, 0) = some (7, { shard0 with home := 1, peer := 1 },
    0) ∧ Tab.find s.d.thr.shards 7 = some { shard0 with home := 1, peer := 1 } ∧ s.d.mem.granClosed = false ∧
    s.d.bulkAt j.val (3, 1) ≠ none ∧ x.log.length + slotFrames (s.d.shardSlotBytes
    { shard0 with home := 1, peer := 1 }) ≤ 4096 :=
  ⟨mk dBulk, 63, { job0 with bulk := some (3, 0) }, by decide +kernel⟩

theorem wit_MirrorTimers_1_e : ∃ (s : State) (j : Fin 64) (x : ThrJob), s.d.awake = true ∧ s.d.job? j.val =
    some x ∧ x.bulk = some (3, 1) ∧ s.d.bulkAt j.val (3, 1) = some (7, { shard0 with home := 1, peer := 1 },
    1) ∧ Tab.find s.d.thr.shards 7 = some { shard0 with home := 1, peer := 1 } ∧ s.d.mem.granClosed = false ∧
    s.d.bulkAt j.val (3, 2) = none ∧ x.log.length + slotFrames (s.d.shardSlotBytes
    { shard0 with home := 1, peer := 1 }) < 4096 :=
  ⟨mk dBulkEnd, 63, { job0 with bulk := some (3, 1) }, by decide +kernel⟩

theorem wit_MirrorTimers_1_f : ∃ (s : State) (j : Fin 64) (x : ThrJob), s.d.awake = true ∧ s.d.job? j.val =
    some x ∧ x.bulk = some (3, 0) ∧ s.d.bulkAt j.val (3, 0) = some (7, { shard0 with home := 1, peer := 1 },
    0) ∧ Tab.find s.d.thr.shards 7 = some { shard0 with home := 1, peer := 1 } ∧ s.d.mem.granClosed = true :=
  ⟨mk { dBulk with mem := { dBulk.mem with granClosed := true } }, 63, { job0 with bulk := some (3, 0) },
    by decide +kernel⟩

theorem wit_AdmissionOrder_1 : ∃ (d : Dev), True  :=
  ⟨dRun, by decide +kernel⟩

theorem wit_PortStages_8 : ∃ (s : State) (p : Port) (b : BitVec 256), s.d.awake = true ∧ (s.d.port p.val).st =
    .lock :=
  ⟨mk (dPort { full .lock with fecLock := false }), p511, syncBody 0, by decide +kernel⟩

theorem wit_PortLossesAndDrains_5 : ∃ (s : State) (p : Port) (b : BitVec 256) (m : LinkMsg), s.d.awake = true
    ∧ s.d.loop p.val ≠ 2 ∧ (s.d.port p.val).fecLock = true ∧ ControlBlock.ofBody b = .link m :=
  ⟨mk (dPort (full .exchange)), p511, linkBody, 0, by decide +kernel⟩

theorem wit_PortLossesAndDrains_6 : ∃ (s : State) (p : Port) (b : BitVec 256), s.d.returns p.val = true :=
  ⟨mk ((dPort (full .test)).setReg (basePort 511 + 0x4C) 2), p511, syncBody 0, by decide +kernel⟩

theorem wit_RingsAndLasers_13 : ∃ (w : WinAvg) (k : Nat) (v : Int), w.n + 1 = k :=
  ⟨{ n := 9, sum := 7 }, 10, 3, by decide +kernel⟩

theorem wit_FramesIn_3 : ∃ (s : State) (p : Port) (h : Header), s.d.awake = true ∧ (s.d.port p.val).hunting =
    false ∧ (s.d.port p.val).rx = none ∧ s.d.loop p.val = 2 :=
  ⟨mk ((dPort (full .test)).setReg (basePort 511 + 0x4C) 2), p511, hdr 0 0 0 0 0, by decide +kernel⟩

theorem wit_FramesIn_3_a : ∃ (s : State) (p : Port) (h : Header), s.d.awake = true ∧ (s.d.port p.val).hunting
    = false ∧ (s.d.port p.val).rx = none ∧ s.d.loop p.val = 2 ∧ ((s.d.port p.val).st ≠ .test ∨ (s.d.port
    p.val).muted = true) :=
  ⟨mk ((dPort { full .test with muted := true }).setReg (basePort 511 + 0x4C) 2), p511, hdr 0 0 0 0 0,
    by decide +kernel⟩

theorem wit_FramesIn_4 : ∃ (s : State) (p : Port) (b : List Byte) (e2e link : Word) (r : RxFrame), s.d.awake =
    true ∧ (s.d.port p.val).rx = some r ∧ s.d.loop p.val = 2 :=
  ⟨mk ((dPort { full .test with rx := some (rx0 (hdr 0 0 0 0 0)) }).setReg (basePort 511 + 0x4C) 2), p511, [], 0, 0, rx0 (hdr 0 0 0 0 0),
    by decide +kernel⟩

theorem wit_FramesOut_12 : ∃ (s : State) (p : Port) (x : Sending) (r : List Sending) (f : Frame),
    let l := s.d.logical p.val;
         s.d.awake = true ∧ s.d.sendingOn l = x :: r ∧ x.ended = true ∧ s.d.frame? x.copy.fid = some f ∧ f.bad
    = true ∧ x.begun = false :=
  ⟨mk (dSending (sendLen 1 0) { frameOf (hdr 0 0 0 0 0) [7] with bad := true }), p511, sendLen 1 0, [], { frameOf (hdr 0 0 0 0 0) [7] with bad := true },
    by dsimp only; decide +kernel⟩

theorem wit_LearningAndAgeing_3 : ∃ (s : State) (k p : Nat) (key : BitVec 48) (rt : BitVec 3) (tg : BitVec 12)
    (r : List RingEv), s.d.awake = true ∧ s.d.fwd.ring = .learn k
    { key := key, kind := .remove rt tg, peer := true } p :: r ∧ s.d.committing key = false ∧ (∀ x,
    s.d.fwd.cur.emFind key = some x → x.2.static = false) :=
  ⟨mk { dEm entry0 with fwd := { (dEm entry0).fwd with ring := [.learn 15 { key := 5, kind := .remove 0 511, peer := true } 511] } }, 15, 511, 5, 0, 511, [],
    by decide +kernel⟩

theorem wit_Sheaves_3 : ∃ (s : State) (k : Fin 8) (r : SheafRel) (l : List SheafRel) (x : Sheaf), s.d.awake =
    true ∧ Tab.get s.d.red.passing k.val [] = r :: l ∧ s.d.sheaf? r.sheaf = some x ∧ x.cfg.level = 1 ∧
    x.cfg.part = r.part ∧ x.cfg.job = r.job ∧ x.cfg.phase = r.phase ∧ x.cfg.members = 0 :=
  ⟨mk { dRun with red := { sheaves := [(3, { cfg := { sheafCfg 1 with members := 0 } })], passing := [(0, [rel0])] } }, 0, rel0, [], { cfg := { sheafCfg 1 with members := 0 } },
    by decide +kernel⟩

theorem wit_MemoryStaysCanonical_1 : ∃ s t : State, memWf s.d.mem.cells = true ∧ step s = .next t :=
  ⟨{ pending := [.decayTick], d := { dRun with mem := { dRun.mem with cells := [(5, 1)] } } }, _,
    by decide +kernel, rfl⟩

theorem wit_FusesOnlyMoveForward_1 : ∃ s t : State, step s = .next t :=
  ⟨{ pending := [.decayTick], d := dRun }, _, rfl⟩

end Sys2Proof.Tests
end

section
/-! PROOF. The register layout and the stored registers: which register starts at an offset, what a register reads
after a write, bit by bit, and what a plain write leaves alone (R9, R10, R100, R245, R527, R528). -/

namespace Sys2Proof

/-! ### Bits of numbers -/

/-- Taking a number's common bits with a mask away borrows nothing from the half above. -/
theorem sub_and_div_two (x m : Nat) : (x - (x &&& m)) / 2 = x / 2 - (x / 2 &&& m / 2) ∧
    (x - (x &&& m)) % 2 = x % 2 - (x % 2 &&& m % 2) := by
  have low : (x &&& m) % 2 = x % 2 &&& m % 2 := Nat.and_mod_two_pow (n := 1)
  have high : (x &&& m) / 2 = x / 2 &&& m / 2 := Nat.and_div_two
  have lowLe : x % 2 &&& m % 2 ≤ x % 2 := Nat.and_le_left
  have highLe : x / 2 &&& m / 2 ≤ x / 2 := Nat.and_le_left
  omega

/-- Taking a number's common bits with a mask away clears the mask's bits. -/
theorem testBit_sub_and (x m i : Nat) : (x - (x &&& m)).testBit i = (x.testBit i && !m.testBit i) := by
  induction i generalizing x m with
  | zero =>
    simp only [Nat.testBit_zero, (sub_and_div_two x m).2]
    obtain hx | hx := Nat.mod_two_eq_zero_or_one x <;> obtain hm | hm := Nat.mod_two_eq_zero_or_one m <;>
      simp [hx, hm]
  | succ i ih => simp only [Nat.testBit_succ, (sub_and_div_two x m).1, ih]

/-- A field is its bits. -/
theorem bitsOf_congr {v w hi lo : Nat} (h : ∀ i, lo ≤ i → i ≤ hi → v.testBit i = w.testBit i) :
    bitsOf v hi lo = bitsOf w hi lo := by
  apply Nat.eq_of_testBit_eq
  intro j
  simp only [bitsOf, Nat.testBit_mod_two_pow, Nat.testBit_shiftRight]
  by_cases hj : j < hi + 1 - lo
  · simp only [hj, decide_true, Bool.true_and]
    exact h (lo + j) (by omega) (by omega)
  · simp only [hj, decide_false, Bool.false_and]

/-- Every bit of a field that reads as all ones is set. -/
theorem testBit_of_bitsOf_full {m hi lo i : Nat} (h : bitsOf m hi lo = 2 ^ (hi + 1 - lo) - 1) (hlo : lo ≤ i)
    (hhi : i ≤ hi) : m.testBit i = true := by
  have hbit : (bitsOf m hi lo).testBit (i - lo) = true := by
    rw [h, Nat.testBit_two_pow_sub_one]
    exact decide_eq_true (by omega)
  simp only [bitsOf, Nat.testBit_mod_two_pow, Nat.testBit_shiftRight, Bool.and_eq_true] at hbit
  rw [← hbit.2]
  congr 1
  omega

theorem bitsOf_low (v hi : Nat) : bitsOf v hi 0 = v % 2 ^ (hi + 1) := rfl

theorem Tab.find_set_other {α : Type} [DecidableEq α] (t : Tab α) {n m : Nat} (v d : α) (h : m ≠ n) :
    Tab.find (Tab.set t n v d) m = Tab.find t m := by
  unfold Tab.set
  split_ifs
  · exact Tab.find_del_other t h
  · exact Tab.find_put_other t v h

namespace Machine

/-! ### The layout of the window (R527) -/

/-- Two blocks of the window do not share an offset. -/
theorem blocks_disjoint : ∀ b ∈ blocks, ∀ c ∈ blocks, b = c ∨ b.base + b.stride * b.count ≤ c.base ∨
    c.base + c.stride * c.count ≤ b.base := by decide +kernel

theorem Block.holds_iff (b : Block) (off : Nat) :
    b.holds off = true ↔ b.base ≤ off ∧ off < b.base + b.stride * b.count := by
  simp [Block.holds]

theorem find_block {b : Block} {off : Nat} (hb : b ∈ blocks) (hh : b.holds off = true) :
    blocks.find? (fun c => c.holds off) = some b := by
  cases hf : blocks.find? (fun c => c.holds off) with
  | none => exact absurd hh (by simpa using List.find?_eq_none.mp hf b hb)
  | some c =>
    have hc : c.holds off = true := by simpa using List.find?_some hf
    rw [Block.holds_iff] at hh hc
    obtain rfl | h | h := blocks_disjoint c (List.mem_of_find?_eq_some hf) b hb
    · rfl
    · omega
    · omega

/-- The register that starts at an offset of a block. -/
theorem regAt_of_block {b : Block} {off o : Nat} {r : RegDef} (hb : b ∈ blocks) (hh : b.holds off = true)
    (ho : (off - b.base) % b.stride = o) (hr : b.defs.find? (fun r => r.at_ o) = some r) :
    regAt off = some (r, if r.wide then b.base + o else off) := by
  simp only [regAt, find_block hb hh, ho, hr]

/-- A register that every unit of its block has for itself is stored under its own offset. -/
theorem regAt_own {b : Block} {off o : Nat} {r : RegDef} (hb : b ∈ blocks) (hh : b.holds off = true)
    (ho : (off - b.base) % b.stride = o) (hr : b.defs.find? (fun r => r.at_ o) = some r) (hw : r.wide = false) :
    regAt off = some (r, off) := by
  rw [regAt_of_block hb hh ho hr, hw]
  rfl

/-- A register of a port's block. -/
theorem regAt_port (p : Port) {o : Nat} {r : RegDef} (ho : o < 0x400)
    (hr : portDefs.find? (fun r => r.at_ o) = some r) (hw : r.wide = false) :
    regAt (basePort p.val + o) = some (r, basePort p.val + o) := by
  have hp := p.isLt
  refine regAt_own (b := ⟨0x800000, 0x400, 512, portDefs⟩) (by decide) ?_ ?_ hr hw
  · rw [Block.holds_iff]
    simp only [basePort]
    omega
  · simp only [basePort]
    omega

/-- A register of a mailbox. -/
theorem regAt_mbx (n : Fin 16) {o : Nat} {r : RegDef} (ho : o < 0x100)
    (hr : mbxDefs.find? (fun r => r.at_ o) = some r) (hw : r.wide = false) :
    regAt (baseMbx n.val + o) = some (r, baseMbx n.val + o) := by
  have hn := n.isLt
  refine regAt_own (b := ⟨0x100000, 0x100, 16, mbxDefs⟩) (by decide) ?_ ?_ hr hw
  · rw [Block.holds_iff]
    simp only [baseMbx]
    omega
  · simp only [baseMbx]
    omega

/-- Where a register starts, its block and its row. -/
theorem regAt_eq_some {off : Nat} {r : RegDef} {o : Nat} (h : regAt off = some (r, o)) :
    ∃ b ∈ blocks, b.holds off = true ∧ b.defs.find? (fun r => r.at_ ((off - b.base) % b.stride)) = some r ∧
      o = if r.wide then b.base + (off - b.base) % b.stride else off := by
  unfold regAt at h
  split at h
  · cases h
  next b hf =>
    dsimp only at h
    split at h
    · cases h
    next r' hr =>
      cases h
      exact ⟨b, List.mem_of_find?_eq_some hf, by simpa using List.find?_some hf, hr, rfl⟩

/-- Every reset value fits its register. -/
theorem reset_lt {off : Nat} {r : RegDef} {o : Nat} (h : regAt off = some (r, o)) : r.reset < 2 ^ 64 := by
  have all : ∀ b ∈ blocks, ∀ r ∈ b.defs, r.reset < 2 ^ 64 := by decide +kernel
  obtain ⟨b, hb, -, hr, -⟩ := regAt_eq_some h
  exact all b hb r (List.mem_of_find?_eq_some hr)

/-- A register is stored under an offset of its own: that of a device-wide register is the one of block 0 (R100,
R245). -/
theorem regAt_stored {off o : Nat} {r : RegDef} (h : regAt off = some (r, o)) : regAt o = some (r, o) := by
  obtain ⟨b, hb, hh, hr, ho⟩ := regAt_eq_some h
  by_cases hw : r.wide = true
  · rw [if_pos hw] at ho
    have hin := (b.holds_iff off).mp hh
    have hpos : 0 < b.stride * b.count := by omega
    have hstride : 0 < b.stride := Nat.pos_of_mul_pos_right hpos
    have hlt : (off - b.base) % b.stride < b.stride := Nat.mod_lt _ hstride
    have hle : b.stride ≤ b.stride * b.count := Nat.le_mul_of_pos_right _ (Nat.pos_of_mul_pos_left hpos)
    have hhold : b.holds o = true := (b.holds_iff o).mpr (by omega)
    have hoff : (o - b.base) % b.stride = (off - b.base) % b.stride := by
      rw [ho, Nat.add_sub_cancel_left, Nat.mod_mod]
    rw [regAt_of_block hb hhold hoff hr, if_pos hw, ← ho]
  · rw [if_neg hw] at ho
    rw [ho] at h ⊢
    exact h

/-! ### Reading a stored register after a write -/

theorem Dev.reg_congr {d e : Dev} (h : d.regs = e.regs) (off : Nat) : d.reg off = e.reg off := by
  unfold Dev.reg; rw [h]

theorem Dev.regBit_congr {d e : Dev} (h : d.regs = e.regs) (off i : Nat) : d.regBit off i = e.regBit off i := by
  unfold Dev.regBit; rw [Dev.reg_congr h]

theorem Dev.regBits_congr {d e : Dev} (h : d.regs = e.regs) (off hi lo : Nat) :
    d.regBits off hi lo = e.regBits off hi lo := by
  unfold Dev.regBits; rw [Dev.reg_congr h]

theorem Dev.reg_setReg_other (d : Dev) {off o : Nat} (v : Nat) (h : o ≠ off) : (d.setReg off v).reg o = d.reg o := by
  unfold Dev.reg Dev.setReg
  dsimp only
  rw [Tab.find_set_other _ _ _ h]

/-- A word that equals the reset value is not stored, and reads as that value all the same. -/
theorem Dev.reg_setReg_same (d : Dev) (off v : Nat) : (d.setReg off v).reg off = v % 2 ^ 64 := by
  unfold Dev.reg Dev.setReg Tab.set
  dsimp only
  split_ifs with hv
  · rw [Tab.find_del_same]
    have word := congrArg BitVec.toNat hv
    cases hr : regAt off with
    | none => simpa [hr] using word.symm
    | some x =>
      rw [hr, BitVec.toNat_ofNat, BitVec.toNat_ofNat, Nat.mod_eq_of_lt (reset_lt hr)] at word
      exact word.symm
  · rw [Tab.find_put_same]
    simp

theorem Dev.regBit_setReg_same (d : Dev) (off v : Nat) {i : Nat} (hi : i < 64) :
    (d.setReg off v).regBit off i = v.testBit i := by
  rw [Dev.regBit, bitOf, Dev.reg_setReg_same, Nat.testBit_mod_two_pow, decide_eq_true hi, Bool.true_and]

/-! ### A plain write -/

theorem Dev.plainWrite_of_regAt (d : Dev) {off o : Nat} {r : RegDef} (v : Nat) (h : regAt off = some (r, o)) :
    d.plainWrite off v = d.writeReg r o v := by
  simp only [Dev.plainWrite, h]

/-- A plain write changes the stored registers alone. -/
theorem Dev.plainWrite_eq (d : Dev) (off v : Nat) :
    d.plainWrite off v = { d with regs := (d.plainWrite off v).regs } := by
  cases h : regAt off with
  | none => simp only [Dev.plainWrite, h]
  | some x => rw [d.plainWrite_of_regAt v h]; rfl

@[simp] theorem Dev.plainWrite_intPend (d : Dev) (off v : Nat) : (d.plainWrite off v).intPend = d.intPend := by
  rw [Dev.plainWrite_eq]
@[simp] theorem Dev.plainWrite_heads (d : Dev) (off v : Nat) : (d.plainWrite off v).heads = d.heads := by
  rw [Dev.plainWrite_eq]
@[simp] theorem Dev.plainWrite_fwd (d : Dev) (off v : Nat) : (d.plainWrite off v).fwd = d.fwd := by
  rw [Dev.plainWrite_eq]
@[simp] theorem Dev.plainWrite_store (d : Dev) (off v : Nat) : (d.plainWrite off v).store = d.store := by
  rw [Dev.plainWrite_eq]
@[simp] theorem Dev.plainWrite_ports (d : Dev) (off v : Nat) : (d.plainWrite off v).ports = d.ports := by
  rw [Dev.plainWrite_eq]
@[simp] theorem Dev.plainWrite_ctrs (d : Dev) (off v : Nat) : (d.plainWrite off v).ctrs = d.ctrs := by
  rw [Dev.plainWrite_eq]

/-- R9, R10: an RW1C bit that is written 1 is cleared, an RW bit takes the value, every other keeps its own. -/
theorem Dev.regBit_plainWrite (d : Dev) {off : Nat} {r : RegDef} (v : Nat) {i : Nat} (h : regAt off = some (r, off))
    (hi : i < 64) : (d.plainWrite off v).regBit off i =
      (if r.w1c.testBit i && v.testBit i then false else if r.rw.testBit i then v.testBit i else d.regBit off i) := by
  rw [d.plainWrite_of_regAt v h, Dev.writeReg, Dev.regBit_setReg_same _ _ _ hi, testBit_sub_and]
  simp only [Nat.testBit_or, Nat.testBit_and, testBit_sub_and, Dev.regBit, bitOf]
  cases r.w1c.testBit i <;> cases v.testBit i <;> cases r.rw.testBit i <;> simp

/-- A plain write leaves the words of the other offsets. -/
theorem Dev.reg_plainWrite_other (d : Dev) {off o : Nat} (v : Nat) (h : o ≠ off)
    (own : ∀ r p, regAt off = some (r, p) → p = off) : (d.plainWrite off v).reg o = d.reg o := by
  cases hr : regAt off with
  | none => simp only [Dev.plainWrite, hr]
  | some x =>
    obtain ⟨r, p⟩ := x
    obtain rfl := own r p hr
    rw [d.plainWrite_of_regAt v hr]
    exact d.reg_setReg_other _ h

/-- At the offset starts a register that is stored under it, with these RW bits and no RW1C bit. -/
def rwRow (off rw : Nat) : Bool :=
  match regAt off with
  | some (r, o) => o == off && r.rw == rw && r.w1c == 0
  | none => false

theorem rwRow_iff {off rw : Nat} :
    rwRow off rw = true ↔ ∃ r, regAt off = some (r, off) ∧ r.rw = rw ∧ r.w1c = 0 := by
  cases h : regAt off with
  | none => simp [rwRow, h]
  | some x =>
    obtain ⟨r, o⟩ := x
    simp only [rwRow, h, Bool.and_eq_true, beq_iff_eq, Option.some.injEq, Prod.mk.injEq]
    constructor
    · rintro ⟨⟨rfl, hrw⟩, hc⟩
      exact ⟨r, ⟨rfl, rfl⟩, hrw, hc⟩
    · rintro ⟨r, ⟨rfl, rfl⟩, hrw, hc⟩
      exact ⟨⟨rfl, hrw⟩, hc⟩

/-- An RW bit takes the value. -/
theorem Dev.regBit_plainWrite_rw (d : Dev) {off rw : Nat} (v : Nat) {i : Nat} (h : rwRow off rw = true) (hi : i < 64)
    (hrw : rw.testBit i = true) : (d.plainWrite off v).regBit off i = v.testBit i := by
  obtain ⟨r, hr, rfl, hc⟩ := rwRow_iff.mp h
  rw [d.regBit_plainWrite v hr hi, hc, hrw]
  simp

/-- An RW field takes its bits of the value. -/
theorem Dev.regBits_plainWrite_rw (d : Dev) {off rw : Nat} (v : Nat) {hi lo : Nat} (h : rwRow off rw = true)
    (hhi : hi < 64) (hrw : bitsOf rw hi lo = 2 ^ (hi + 1 - lo) - 1) :
    (d.plainWrite off v).regBits off hi lo = bitsOf v hi lo :=
  bitsOf_congr fun _ hl hh => d.regBit_plainWrite_rw v h (by omega) (testBit_of_bitsOf_full hrw hl hh)

end Machine
end Sys2Proof
end

section
/-! PROOF. Accesses that the window serves or drops, and what a write of a register does (R528, R529, R533). -/

namespace Sys2Proof.Machine

/-! ### The gate of the window -/

theorem Dev.winWrite_serves {d : Dev} {a : RegActor} {off : Nat} (f : Dev → Dev) (h : d.Serves a off true) :
    d.winWrite a off f = f d := by
  rw [Dev.Serves] at h
  simp only [Dev.winWrite, h]

theorem Dev.winRead_serves {d : Dev} {a : RegActor} {off : Nat} (f : Dev → Dev × Nat) (h : d.Serves a off false) :
    d.winRead a off f = (f d).1.send (.regValue (BitVec.ofNat 64 (f d).2)) := by
  rw [Dev.Serves] at h
  simp only [Dev.winRead, h]

/-- A register write that the window serves. -/
theorem goto_winWrite {s : State} {a : RegActor} {off : Nat} {f : Dev → Dev} (h : s.d.Serves a off true) :
    goto s (s.d.winWrite a off f) = .next (s.put (f s.d)) := by
  rw [Dev.winWrite_serves f h, goto_eq]

/-- A register read that the window serves. -/
theorem goto_winRead {s : State} {a : RegActor} {off : Nat} {f : Dev → Dev × Nat} (h : s.d.Serves a off false) :
    goto s (s.d.winRead a off f) = .next (s.put ((f s.d).1.send (.regValue (BitVec.ofNat 64 (f s.d).2)))) := by
  rw [Dev.winRead_serves f h, goto_eq]

/-! ### Interrupts (R533) -/

/-- A source sets the bit of its vector, which may be set already. -/
theorem Dev.raiseInt_getLsbD (d : Dev) {v : Nat} (hv : v < 64) (i : Nat) :
    (d.raiseInt v).intPend.getLsbD i = (d.intPend.getLsbD i || decide (v = i)) := by
  have raised : (d.intPend ||| BitVec.ofNat 64 (1 <<< v)).getLsbD i = (d.intPend.getLsbD i || decide (v = i)) := by
    rw [BitVec.getLsbD_or, BitVec.getLsbD_ofNat, Nat.one_shiftLeft, Nat.testBit_two_pow]
    by_cases hi : v = i
    · simp [← hi, hv]
    · simp [hi]
  unfold Dev.raiseInt
  dsimp only
  split_ifs with pending
  · by_cases hi : v = i
    · simp [← hi, pending]
    · simp [hi]
  · exact raised
  · rw [Dev.sendInt_intPend, raised]

/-- After the first `n` vectors of GLB_INT_TEST, their bits that were written 1 are pending. -/
theorem Dev.raiseTested_getLsbD (d : Dev) (v : Dword) {n : Nat} (hn : n ≤ 48) (i : Nat) :
    ((List.range n).foldl (fun (x : Dev) (k : Nat) => if v.getLsbD (16 + k) then x.raiseInt (16 + k) else x)
      d).intPend.getLsbD i = (d.intPend.getLsbD i || (decide (16 ≤ i ∧ i < 16 + n) && v.getLsbD i)) := by
  induction n with
  | zero =>
    have none : ¬(16 ≤ i ∧ i < 16 + 0) := by omega
    simp [none]
  | succ n ih =>
    have one : decide (16 ≤ i ∧ i < 16 + (n + 1)) = (decide (16 ≤ i ∧ i < 16 + n) || decide (16 + n = i)) := by
      rw [← Bool.decide_or]
      exact decide_eq_decide.mpr (by omega)
    rw [List.range_succ, List.foldl_append, one]
    simp only [List.foldl_cons, List.foldl_nil]
    by_cases hi : 16 + n = i
    · subst hi
      split_ifs with hb
      · simp [Dev.raiseInt_getLsbD _ (show 16 + n < 64 by omega), hb]
      · simp [ih (by omega), hb]
    · split_ifs
      · simp [Dev.raiseInt_getLsbD _ (show 16 + n < 64 by omega), ih (by omega), hi]
      · simp [ih (by omega), hi]

theorem highVectors_getLsbD (v : Dword) {i : Nat} (hi : i < 64) :
    (highVectors v).getLsbD i = (decide (16 ≤ i) && v.getLsbD i) := by
  have mask : ∀ i : Fin 64, (0xFFFFFFFFFFFF0000#64).getLsbD i = decide (16 ≤ i.val) := by decide
  rw [highVectors, BitVec.getLsbD_and, mask ⟨i, hi⟩, Bool.and_comm]

theorem Dev.writeIntTest_intPend (d : Dev) (v : Dword) :
    (d.writeIntTest v).intPend = d.intPend ||| highVectors v := by
  refine BitVec.eq_of_getLsbD_eq fun i hi => ?_
  rw [Dev.writeIntTest, Dev.raiseTested_getLsbD d v le_rfl, BitVec.getLsbD_or, highVectors_getLsbD v hi]
  simp [hi]

theorem Dev.writeIntTest_regs (d : Dev) (v : Dword) : (d.writeIntTest v).regs = d.regs := by
  unfold Dev.writeIntTest
  refine List.foldlRecOn (motive := fun x : Dev => x.regs = d.regs) _ _ rfl fun x hx k _ => ?_
  split_ifs
  · rw [Dev.raiseInt_regs, hx]
  · exact hx

/-- A write of GLB_INT_MASK sends the messages that it uncovers; it sets the mask and leaves the pending bits. -/
theorem Dev.writeIntMask_keeps (d : Dev) (v : Dword) : (d.writeIntMask v).intPend = d.intPend ∧
    (d.writeIntMask v).regs = (d.plainWrite offIntMask v.toNat).regs := by
  unfold Dev.writeIntMask
  refine List.foldlRecOn (motive := fun x : Dev => x.intPend = d.intPend ∧
    x.regs = (d.plainWrite offIntMask v.toNat).regs) _ _ ⟨d.plainWrite_intPend _ _, rfl⟩ fun x hx k _ => ?_
  split_ifs
  · rwa [Dev.sendInt_intPend, Dev.sendInt_regs]
  · exact hx

theorem rwRow_intMask : rwRow offIntMask 0xFFFFFFFFFFFF0000 = true := by decide +kernel

/-- The mask takes bits 63 to 16. -/
theorem Dev.writeIntMask_regBit (d : Dev) (v : Dword) {i : Nat} (h16 : 16 ≤ i) (hi : i < 64) :
    (d.writeIntMask v).regBit offIntMask i = v.getLsbD i := by
  rw [Dev.regBit_congr (d.writeIntMask_keeps v).2, d.regBit_plainWrite_rw v.toNat rwRow_intMask hi
    (testBit_of_bitsOf_full (hi := 63) (lo := 16) (by decide) h16 (by omega))]
  rfl

/-! ### The write of any register (R24, R528) -/

/-- A write where no register starts is dropped and counted. -/
theorem Dev.writeWindow_of_none (d : Dev) (a : RegActor) {off : Nat} (w : Nat) (v : Dword) (h : regAt off = none) :
    d.writeWindow a off w v = d.bump ctrRegDrop := by
  simp only [Dev.writeWindow, h]

/-- A write of the wrong width is dropped and counted. -/
theorem Dev.writeWindow_of_width (d : Dev) (a : RegActor) {off w o : Nat} {r : RegDef} (v : Dword)
    (h : regAt off = some (r, o)) (hw : r.width ≠ w) : d.writeWindow a off w v = d.bump ctrRegDrop := by
  simp only [Dev.writeWindow, h, if_pos hw]

/-- The registers that are only set bit by bit, as conditions on the offset. -/
theorem plainOffset_iff {off : Nat} : plainOffset off = true ↔
    0x200000 ≤ off ∧ off ≠ baseTime ∧ off ≠ baseTime + 0x48 ∧
    ¬((basePort 0 ≤ off ∧ off < basePort 512) ∧ (off - basePort 0) % 0x400 = 0x4C) ∧ off ≠ baseStore + 4 ∧
    ¬(baseStore + 0x20 ≤ off ∧ off < baseStore + 0x40) ∧ off ≠ baseCnt ∧
    ¬(baseCnt + 0x200 ≤ off ∧ off < baseCnt + 0x400) ∧ off ≠ baseMgl 0 ∧ off ≠ baseMgl 1 := by
  simp only [plainOffset, Bool.and_eq_true, bne_iff_ne, Bool.not_eq_true', ← Bool.not_eq_true, decide_eq_true_iff,
    beq_iff_eq, and_assoc]

/-- Outside the registers whose write has an effect of its own, a write is plain. -/
theorem Dev.writeOther_of_plainOffset (d : Dev) {o : Nat} (v : Nat) (h : plainOffset o = true) :
    d.writeOther o v = d.plainWrite o v := by
  obtain ⟨-, hTimeCtl, hPpsCtl, hLoop, hLimit, hClass, hBw, hPev, hMgl0, hMgl1⟩ := plainOffset_iff.mp h
  unfold Dev.writeOther
  exact (if_neg hTimeCtl).trans <| (if_neg hPpsCtl).trans <| (if_neg (by simpa using hLoop)).trans <|
    (if_neg hLimit).trans <| (if_neg (mt of_decide_eq_true hClass)).trans <| (if_neg hBw).trans <|
    (if_neg (mt of_decide_eq_true hPev)).trans <| (if_neg hMgl0).trans <| if_neg hMgl1

/-- A write that is served, of a register that is only set bit by bit. -/
theorem Dev.writeWindow_of_plain (d : Dev) (a : RegActor) {off w o : Nat} {r : RegDef} (v : Dword)
    (h : regAt off = some (r, o)) (hw : r.width = w) (hoff : plainOffset off = true) (ho : plainOffset o = true) :
    d.writeWindow a off w v = d.plainWrite o v.toNat := by
  have above := (plainOffset_iff.mp hoff).1
  have hGlb : inGlb off = false := decide_eq_false (by omega)
  have hMbx : inMbx off = false := decide_eq_false (by omega)
  simp only [Dev.writeWindow, h, hw, ne_eq, not_true_eq_false, if_false, hGlb, hMbx, Bool.false_eq_true]
  exact d.writeOther_of_plainOffset _ ho

/-- A write of the window that is dropped. -/
theorem goto_winWrite_drop {s : State} {a : RegActor} {off : Nat} {f : Dev → Dev}
    (h : s.d.window a off true = .drop) :
    goto s (s.d.winWrite a off f) = .next (s.put (s.d.bump ctrRegDrop)) := by
  simp only [Dev.winWrite, h, goto_eq]

/-- PORT_CTL: bits 11 to 4 and bit 0. -/
def portCtlDef : RegDef := { first := 0x0040, width := 32, rw := 0xFF1, reset := 0x350 }

theorem regAt_portCtl (p : Port) : regAt (basePort p.val + 0x40) = some (portCtlDef, basePort p.val + 0x40) :=
  regAt_port p (by decide) (by decide) rfl

theorem plainOffset_portCtl (p : Port) : plainOffset (basePort p.val + 0x40) = true := by
  have hp := p.isLt
  simp only [plainOffset_iff, basePort, baseTime, baseStore, baseCnt, baseMgl]
  omega

theorem Dev.writeWindow_portCtl (d : Dev) (a : RegActor) (p : Port) (v : Dword) :
    d.writeWindow a (basePort p.val + 0x40) 32 v = d.plainWrite (basePort p.val + 0x40) v.toNat :=
  d.writeWindow_of_plain a v (regAt_portCtl p) rfl (plainOffset_portCtl p) (plainOffset_portCtl p)

end Sys2Proof.Machine

open Sys2Proof Sys2Proof.Machine

/-- Settles O15: each kind of write by what the window does with it, and the bits of a plain write one by one. -/
theorem registerAndInterruptWrites : Obligations.RegisterAndInterruptWrites := by
  refine ⟨fun s a v h => goto_winWrite h, fun s a v h => ?_, fun s a v h => ?_, fun s a off w v h hr => ?_,
    fun s a off w v r o h hr hw => ?_, fun s a off w v h => goto_winWrite_drop h, fun s a p v h => ?_,
    fun s a off w v r o h hr hw hoff ho => ?_, fun d off v i r hr hi => d.regBit_plainWrite v hr hi,
    fun d off v o h own => d.reg_plainWrite_other v h own, fun d off v => d.plainWrite_eq off v,
    fun off o r h => regAt_stored h⟩
  · exact ⟨_, goto_winWrite h, s.d.writeIntTest_intPend v, s.d.writeIntTest_regs v⟩
  · exact ⟨_, goto_winWrite h, (s.d.writeIntMask_keeps v).1, fun i h16 hi => s.d.writeIntMask_regBit v h16 hi⟩
  · exact (goto_winWrite h).trans (by rw [Dev.writeWindow_of_none _ _ _ _ hr]; rfl)
  · exact (goto_winWrite h).trans (by rw [Dev.writeWindow_of_width _ _ _ hr hw]; rfl)
  · refine ⟨_, goto_winWrite h, fun i hi => ?_, ?_⟩ <;> rw [State.put_d, Dev.writeWindow_portCtl]
    · rw [Dev.regBit_plainWrite _ _ (regAt_portCtl p) (by omega)]
      rw [show portCtlDef.w1c = 0 from rfl, Nat.zero_testBit, Bool.false_and, if_neg Bool.false_ne_true]
      rfl
    · exact ⟨Dev.plainWrite_ports .., Dev.plainWrite_ctrs ..⟩
  · exact (goto_winWrite h).trans (by rw [Dev.writeWindow_of_plain _ _ _ hr hw hoff ho])
end

section
/-! PROOF. Register writes with an effect of their own: frame rings, loopback, the store, the sweeper and the
programmable counters (R84, R118, R120, R507, R523, R534). -/

namespace Sys2Proof.Machine

/-! ### Frame rings (R534) -/

theorem offRing_tail (r : Nat) : offRing r 0xC = 0x100C + 0x40 * r := by
  simp only [offRing]
  omega

theorem offRing_ctl (r : Nat) : offRing r 8 = 0x1008 + 0x40 * r := by
  simp only [offRing]
  omega

theorem rwRow_ringTail : ∀ r : Fin 5, rwRow (offRing r.val 0xC) 0xFFFF = true := by decide +kernel

theorem rwRow_ringCtl : ∀ r : Fin 5, rwRow (offRing r.val 8) 0x1F0003 = true := by decide +kernel

/-- While EN is 0, the control of a ring is a register as any other. -/
theorem Dev.writeRingCtl_stopped (d : Dev) (r v : Nat) (h : d.regBit (offRing r 8) 0 = false) :
    d.writeRingCtl r v = d.plainWrite (offRing r 8) v := by
  simp [Dev.writeRingCtl, h]

/-- While EN is 1, a write that would change LOG2_SIZE is dropped whole. -/
theorem Dev.writeRingCtl_resized (d : Dev) (r v : Nat) (h : d.regBit (offRing r 8) 0 = true)
    (hsize : bitsOf v 20 16 ≠ d.regBits (offRing r 8) 20 16) : d.writeRingCtl r v = d.bump ctrRegDrop := by
  simp [Dev.writeRingCtl, h, hsize]

/-! ### Loopback (R523) -/

theorem rwRow_portLoop (p : Port) : rwRow (basePort p.val + 0x4C) 0x3 = true :=
  rwRow_iff.mpr ⟨_, regAt_port (o := 0x4C) p (by decide) rfl rfl, rfl, rfl⟩

/-- Before READY the setting is held. -/
theorem Dev.writeLoop_held (d : Dev) (p v : Nat) (h : d.serving = false) :
    d.writeLoop p v = d.plainWrite (basePort p + 0x4C) v := by
  simp [Dev.writeLoop, h]

/-! ### The store's registers (R118, R120) -/

theorem clampLimit_eq (v : Nat) : clampLimit v = max 1000 (min 0x3B9ACA00 v) := by
  unfold clampLimit
  split_ifs <;> omega

theorem rwRow_classCfg : ∀ c : Fin 8, rwRow (offClassCfg c.val) 0xFFFFFF = true := by decide +kernel

theorem Dev.writeClassCfg_fits (d : Dev) (c v : Nat) (h : minShared ≤ (d.plainWrite (offClassCfg c) v).sharedSize) :
    d.writeClassCfg c v = d.plainWrite (offClassCfg c) v := by
  simp [Dev.writeClassCfg, Nat.not_lt.mpr h]

theorem Dev.writeClassCfg_short (d : Dev) (c v : Nat) (h : (d.plainWrite (offClassCfg c) v).sharedSize < minShared) :
    d.writeClassCfg c v = d.setRegBit (baseStore + 8) 63 true := by
  simp [Dev.writeClassCfg, h]

theorem Dev.regBit_setRegBit_true (d : Dev) (off : Nat) {i : Nat} (hi : i < 64) :
    (d.setRegBit off i true).regBit off i = true := by
  rw [Dev.setRegBit, Dev.regBit_setReg_same _ _ _ hi]
  simp [withBit]

/-! ### Programmable counters (R507) -/

theorem rwRow_pevSel : ∀ n : Fin 64, rwRow (offPevSel n.val) 0x80FFFFFF = true := by decide +kernel

/-- A write to a selection register sets it and clears its counter. -/
theorem Dev.writePevSel_effect (d : Dev) {n : Nat} (v : Nat) (hn : n < 64) :
    Tab.get (d.writePevSel n v).cnt.pev n 0 = 0 ∧ (d.writePevSel n v).regBits (offPevSel n) 23 0 = v % 2 ^ 24 ∧
    (d.writePevSel n v).regBit (offPevSel n) 31 = v.testBit 31 := by
  have regs : (d.writePevSel n v).regs = (d.plainWrite (offPevSel n) v).regs := rfl
  have row : rwRow (offPevSel n) 0x80FFFFFF = true := rwRow_pevSel ⟨n, hn⟩
  refine ⟨Tab.get_del_same .., ?_, ?_⟩
  · rw [Dev.regBits_congr regs]
    exact d.regBits_plainWrite_rw v row (by decide) (by decide)
  · rw [Dev.regBit_congr regs]
    exact d.regBit_plainWrite_rw v row (by decide) (by decide)

/-! ### The sweeper (R84) -/

theorem rwRow_ageCtl : rwRow (baseFwd 0 + 0x10) 0xFFFFF001 = true := by decide +kernel

end Sys2Proof.Machine
end

section
/-! PROOF. Reads of the register window: a read where a register of the width starts, and where none does, the
mailboxes' and the ports' registers, and the values at reset (R9, R393, R395, R434, R519, R528). -/

namespace Sys2Proof.Machine

/-! ### A read access (R528) -/

/-- A read where no register of the width starts is dropped and counted, and returns zero. -/
theorem Dev.readWindow_drop (d : Dev) (a : RegActor) {off w : Nat} (h : ∀ r, regAt off = some r → r.1.width ≠ w) :
    d.readWindow a off w = (d.bump ctrRegDrop, 0) := by
  cases hr : regAt off with
  | none => simp only [Dev.readWindow, hr]
  | some x => simp only [Dev.readWindow, hr, if_pos (h x hr)]

/-- A read of a register returns its value and does what the read of it changes. -/
theorem Dev.readWindow_reg (d : Dev) (a : RegActor) {off w : Nat} {r : RegDef × Nat} (hr : regAt off = some r)
    (hw : r.1.width = w) : d.readWindow a off w = (d.afterRead a off, d.readReg a off) := by
  simp only [Dev.readWindow, hr, hw, ne_eq, not_true_eq_false, if_false]

/-- The width of the register that starts at an offset. -/
def regWidth (off : Nat) : Option Nat := (regAt off).map fun r => r.1.width

/-- A read that the opcode table lists is the read of its register. -/
theorem goto_winRead_eq_registerRead (s : State) (a : RegActor) {off w : Nat} {f : Dev → Dev × Nat}
    (hw : regWidth off = some w) (hf : ∀ d : Dev, f d = (d.afterRead a off, d.readReg a off)) :
    goto s (s.d.winRead a off f) = .next (s.put (s.d.registerRead a off w)) := by
  obtain ⟨r, hr, hrw⟩ := Option.map_eq_some_iff.mp hw
  have same : f = fun d => d.readWindow a off w := funext fun d => by rw [hf, d.readWindow_reg a hr hrw]
  rw [same]
  rfl

/-! ### Mailboxes and ports (R393, R395, R519) -/

/-- What the registers of a mailbox read as: nothing of POST, and what POP, STATUS and LOCK answer. -/
theorem Dev.readReg_mbx (d : Dev) (a : RegActor) (n : Fin 16) {o : Nat} (ho : o < 0x100) :
    d.readReg a (baseMbx n.val + o) =
      if o = 0 || o = 0x10 then 0 else if o = 8 then (d.popH2d a n.val).2 else if o = 0x18 then (d.popD2h a n.val).2
      else if o = 0x20 then d.mbxStatusReg n.val else (d.readLock a n.val).2 := by
  have hn := n.isLt
  have notGlb : ¬ baseMbx n.val + o < 0x100000 := by simp only [baseMbx]; omega
  have inBlock : baseMbx n.val + o < 0x200000 := by simp only [baseMbx]; omega
  have own : ¬ baseMbxShared ≤ baseMbx n.val + o := by simp only [baseMbx, baseMbxShared]; omega
  have index : (baseMbx n.val + o - 0x100000) / 0x100 = n.val := by simp only [baseMbx]; omega
  have place : (baseMbx n.val + o - 0x100000) % 0x100 = o := by simp only [baseMbx]; omega
  rw [Dev.readReg, if_neg notGlb, if_pos inBlock, Dev.readMbx]
  simp only [if_neg own, index, place]

/-- What a read of a mailbox's register changes: a POP takes its word, and a read of LOCK may take the lock. -/
theorem Dev.afterRead_mbx (d : Dev) (a : RegActor) (n : Fin 16) {o : Nat} (ho : o < 0x100) :
    d.afterRead a (baseMbx n.val + o) =
      if o = 8 then (d.popH2d a n.val).1 else if o = 0x18 then (d.popD2h a n.val).1
      else if o = 0x28 then (d.readLock a n.val).1 else d := by
  have hn := n.isLt
  have own : (inMbx (baseMbx n.val + o) && decide (baseMbx n.val + o < baseMbxShared)) = true := by
    rw [Bool.and_eq_true]
    constructor <;> refine decide_eq_true ?_ <;> simp only [baseMbx, baseMbxShared] <;> omega
  have index : (baseMbx n.val + o - 0x100000) / 0x100 = n.val := by simp only [baseMbx]; omega
  have place : (baseMbx n.val + o - 0x100000) % 0x100 = o := by simp only [baseMbx]; omega
  rw [Dev.afterRead, if_pos own]
  simp only [index, place]

theorem Dev.readReg_port (d : Dev) (a : RegActor) (p : Port) {o : Nat} (ho : o < 0x400) :
    d.readReg a (basePort p.val + o) = d.readPort p.val o := by
  have hp := p.isLt
  have index : (basePort p.val + o - basePort 0) / 0x400 = p.val := by simp only [basePort]; omega
  have place : (basePort p.val + o - basePort 0) % 0x400 = o := by simp only [basePort]; omega
  rw [Dev.readReg, if_neg (by simp only [basePort]; omega), if_neg (by simp only [basePort]; omega),
    if_neg (by simp only [basePort, baseTime]; omega), if_neg (by simp only [basePort]; omega),
    if_pos (by simp only [basePort, baseOpt]; omega), index, place]

/-- A read of a port's register changes something only where it is a peak, which it clears. -/
theorem Dev.afterRead_port (d : Dev) (a : RegActor) (p : Port) {o : Nat} (ho : o < 0x400) :
    d.afterRead a (basePort p.val + o) =
      if o = 0x310 then (d.readPeak p.val false).1 else if o = 0x318 then (d.readPeak p.val true).1 else d := by
  have hp := p.isLt
  have notMbx : inMbx (basePort p.val + o) = false := decide_eq_false (by simp only [basePort]; omega)
  have here : decide (basePort 0 ≤ basePort p.val + o ∧ basePort p.val + o < basePort 512) = true :=
    decide_eq_true (by simp only [basePort]; omega)
  have index : (basePort p.val + o - basePort 0) / 0x400 = p.val := by simp only [basePort]; omega
  have place : (basePort p.val + o - basePort 0) % 0x400 = o := by simp only [basePort]; omega
  rw [Dev.afterRead, notMbx, Bool.false_and, if_neg Bool.false_ne_true,
    if_neg (by simp only [basePort, baseTime]; omega), if_neg (by simp only [basePort, baseTime]; omega), if_pos here]
  simp only [index, place]

theorem regWidth_timeNow : regWidth (baseTime + 0x10) = some 64 := by decide +kernel

theorem regWidth_timePpsIn : regWidth (baseTime + 0x30) = some 64 := by decide +kernel

theorem regWidth_mbx : ∀ n : Fin 16, regWidth (baseMbx n.val + 8) = some 64 ∧
    regWidth (baseMbx n.val + 0x18) = some 64 ∧ regWidth (baseMbx n.val + 0x28) = some 32 := by decide +kernel

theorem regWidth_portPeak (p : Port) : regWidth (basePort p.val + 0x310) = some 64 ∧
    regWidth (basePort p.val + 0x318) = some 64 :=
  ⟨Option.map_eq_some_iff.mpr ⟨_, regAt_port (o := 0x310) p (by decide) rfl rfl, rfl⟩,
    Option.map_eq_some_iff.mpr ⟨_, regAt_port (o := 0x318) p (by decide) rfl rfl, rfl⟩⟩

/-- The six rows of the opcode table for reads that change state are the reads of their registers. -/
theorem exec_reads_eq_registerRead (s : State) (a : RegActor) (n : Fin 16) (p : Port) (tx : Bool) :
    exec (.timeNowNsRead a) s = .next (s.put (s.d.registerRead a (baseTime + 0x10) 64)) ∧
    exec (.timePpsInNsRead a) s = .next (s.put (s.d.registerRead a (baseTime + 0x30) 64)) ∧
    exec (.mbxH2dPopRead a n) s = .next (s.put (s.d.registerRead a (baseMbx n.val + 8) 64)) ∧
    exec (.mbxD2hPopRead a n) s = .next (s.put (s.d.registerRead a (baseMbx n.val + 0x18) 64)) ∧
    exec (.mbxLockRead a n) s = .next (s.put (s.d.registerRead a (baseMbx n.val + 0x28) 32)) ∧
    exec (.portBwPeakRead a p tx) s =
      .next (s.put (s.d.registerRead a (basePort p.val + 0x310 + (if tx then 8 else 0)) 64)) := by
  refine ⟨goto_winRead_eq_registerRead s a regWidth_timeNow fun d => rfl,
    goto_winRead_eq_registerRead s a regWidth_timePpsIn fun d => rfl,
    goto_winRead_eq_registerRead s a (regWidth_mbx n).1 fun d => ?_,
    goto_winRead_eq_registerRead s a (regWidth_mbx n).2.1 fun d => ?_,
    goto_winRead_eq_registerRead s a (regWidth_mbx n).2.2 fun d => ?_, ?_⟩
  · rw [d.afterRead_mbx a n (by decide), d.readReg_mbx a n (by decide)]; rfl
  · rw [d.afterRead_mbx a n (by decide), d.readReg_mbx a n (by decide)]; rfl
  · rw [d.afterRead_mbx a n (by decide), d.readReg_mbx a n (by decide)]; rfl
  cases tx with
  | false =>
    refine goto_winRead_eq_registerRead s a (off := basePort p.val + 0x310) (regWidth_portPeak p).1 fun d => ?_
    rw [d.afterRead_port a p (by decide), d.readReg_port a p (by decide)]; rfl
  | true =>
    refine goto_winRead_eq_registerRead s a (off := basePort p.val + 0x318) (regWidth_portPeak p).2 fun d => ?_
    rw [d.afterRead_port a p (by decide), d.readReg_port a p (by decide)]; rfl

/-! ### Values (R9, R10, R100, R280) -/

/-- With bits 31 to 1 of THR_STATUS at zero, no shard and no job is held. -/
theorem Dev.thrStatusReg_lt_two (d : Dev) (h : d.thrStatusReg < 2) : d.thr.shards = [] ∧ d.thr.jobs = [] := by
  unfold Dev.thrStatusReg at h
  dsimp only at h
  have shards : d.thr.shards.length <<< 17 < 2 := lt_of_le_of_lt
    ((Nat.left_le_or.trans Nat.left_le_or).trans Nat.left_le_or) h
  have jobs : (d.thr.jobs.map Prod.snd).length <<< 10 < 2 := lt_of_le_of_lt
    ((Nat.right_le_or.trans Nat.left_le_or).trans Nat.left_le_or) h
  rw [Nat.shiftLeft_eq] at shards jobs
  rw [List.length_map] at jobs
  exact ⟨List.eq_nil_of_length_eq_zero (by omega), List.eq_nil_of_length_eq_zero (by omega)⟩

/-- PORT_STORE_CTL (R112, R128). -/
theorem Dev.portStoreReg_eq (d : Dev) (p : Nat) :
    d.portStoreReg p = d.reg (basePort p + 0x44) % 2 + 2 * (d.port p).held.toNat := by
  rw [Dev.portStoreReg, Nat.and_one_is_mod, Nat.or_comm, ← Nat.shiftLeft_add_eq_or_of_lt (by omega), Nat.shiftLeft_eq]
  omega

/-- The status registers at reset, as any party reads them. -/
theorem readReg_reset (a : RegActor) : ∀ e ∈ [(baseFwd 0, 4), (baseFwd 0 + 0x10, 0x3C001), (baseFwd 0 + 0x14, 1),
      (baseFwd 1, 4), (baseStore + 8, 3977568), (baseStore + 0x18, 1024 * 65536 + 16 * 256 + 16),
      (baseRed 3 + 0xB00, 32768 * 65536 + 2048), (baseRed 0 + 0x800, 0xFF003FFE), (baseMem + 0x10, 0x10021F),
      (basePort 5 + 8, 1), (baseMgl 1 + 8, 0x10), (baseTime + 0x40, 2 ^ 56)],
    Dev.reset.readReg a e.1 = e.2 := by
  simp only [List.forall_mem_cons, List.not_mem_nil, false_imp_iff, forall_const, and_true]
  exact ⟨rfl, rfl, rfl, rfl, rfl, rfl, rfl, rfl, rfl, rfl, rfl, rfl⟩

end Sys2Proof.Machine

open Sys2Proof Sys2Proof.Machine

/-- Settles O18: each read and write by what it does on a device that serves it. -/
theorem registerEffects : Obligations.RegisterEffects := by
  refine ⟨fun s a h => ⟨_, goto_winRead h, rfl, Tab.find_put_same .., rfl⟩,
    fun s a h => ⟨_, goto_winRead h, rfl, Tab.find_put_same ..⟩,
    fun s a p tx h => ⟨_, goto_winRead h, ⟨rfl, Tab.get_set_same ..⟩, fun q hq => Tab.get_set_other _ _ _ _ hq⟩,
    fun s a n v h => ?_, fun s a v h => ?_, fun s a n v h hEn => ?_, fun s a n v h hEn hSize => ?_,
    fun s a p v h hst => ?_, fun s a n v h => ?_, fun s a v h hOld => ?_, fun s a v h hOld => ?_,
    fun s a c v h hShort => ?_, fun s a c v h hFits => ?_, fun s a v h => ?_,
    fun d a off w h => d.readWindow_drop a h, fun d a off w r hr hw => d.readWindow_reg a hr hw,
    exec_reads_eq_registerRead, fun d a n => ?_, fun d a p => ?_, fun d a h => d.thrStatusReg_lt_two h, readReg_reset⟩
  · rw [← offRing_tail] at h ⊢
    exact ⟨_, goto_winWrite h, Dev.regBits_plainWrite_rw _ _ (rwRow_ringTail n.castSucc) (by decide) (by decide),
      Dev.plainWrite_heads ..⟩
  · exact ⟨_, goto_winWrite (off := offRing 4 0xC) h,
      Dev.regBits_plainWrite_rw _ _ (rwRow_ringTail 4) (by decide) (by decide), Dev.plainWrite_heads ..⟩
  · rw [← offRing_ctl] at h hEn ⊢
    refine ⟨_, goto_winWrite h, ?_⟩
    rw [State.put_d, Dev.writeRingCtl_stopped _ _ _ hEn]
    exact ⟨Dev.regBits_plainWrite_rw _ _ (rwRow_ringCtl n) (by decide) (by decide),
      Dev.regBit_plainWrite_rw _ _ (rwRow_ringCtl n) (by decide) (by decide)⟩
  · rw [← offRing_ctl] at h hEn hSize
    exact (goto_winWrite h).trans (by rw [Dev.writeRingCtl_resized _ _ _ hEn hSize]; rfl)
  · have held : s.d.serving = false := by simp [Dev.serving, hst]
    refine ⟨_, goto_winWrite h, ?_⟩
    rw [State.put_d, Dev.writeLoop_held _ _ _ held]
    exact ⟨Dev.regBits_plainWrite_rw _ _ (rwRow_portLoop p) (by decide) (by decide), Dev.plainWrite_ports ..⟩
  · obtain ⟨hpev, hsel, -⟩ := s.d.writePevSel_effect v.toNat n.isLt
    exact ⟨_, goto_winWrite (off := offPevSel n.val) h, hpev, hsel⟩
  · refine ⟨_, goto_winWrite h, ?_⟩
    simp [Dev.writeResLimit, hOld, clampLimit_eq]
  · refine ⟨_, goto_winWrite h, ?_⟩
    simp [Dev.writeResLimit, hOld, clampLimit_eq]
  · refine ⟨_, goto_winWrite (off := offClassCfg c.val) h, ?_⟩
    rw [State.put_d, Dev.writeClassCfg_short _ _ _ hShort]
    exact ⟨Dev.reg_setReg_other _ _ (by omega), Dev.regBit_setRegBit_true _ _ (by decide)⟩
  · refine ⟨_, goto_winWrite (off := offClassCfg c.val) h, ?_⟩
    rw [State.put_d, Dev.writeClassCfg_fits _ _ _ hFits]
    exact Dev.regBits_plainWrite_rw _ _ (rwRow_classCfg c) (by decide) (by decide)
  · refine ⟨_, goto_winWrite h, Dev.regBit_plainWrite_rw _ _ rwRow_ageCtl (by decide) (by decide), ?_,
      Dev.plainWrite_fwd ..⟩
    refine (Dev.regBits_plainWrite_rw _ _ rwRow_ageCtl (by decide) (by decide)).trans ?_
    rw [bitsOf, Nat.shiftRight_eq_div_pow]
    omega
  · refine ⟨rfl, rfl, ?_, ?_⟩
    · exact (d.readReg_mbx a n (o := 0) (by decide)).trans rfl
    · exact (d.readReg_mbx a n (o := 0x10) (by decide)).trans rfl
  · rw [d.readReg_port a p (by decide)]
    exact d.portStoreReg_eq p.val
end

section
/-! PROOF. Bandwidth windows and the commands of the counters (R509, R510, R512, R517, R520). -/

namespace Sys2Proof.Machine

/-! ### Bandwidth windows (R509, R510) -/

theorem find_bwMap (t : Tab Bw) (f : Bw → Bw) (p : Nat) : Tab.find (bwMap t f) p = (Tab.find t p).map f := by
  induction t with
  | nil => rfl
  | cons e r ih =>
    obtain ⟨k, w⟩ := e
    rw [show bwMap ((k, w) :: r) f = (k, f w) :: bwMap r f from rfl, Tab.find_cons, Tab.find_cons, ih]
    split_ifs <;> rfl

/-- A change that keeps an empty window reaches every port's window, listed or not. -/
theorem get_bwMap (t : Tab Bw) {f : Bw → Bw} (hf : f {} = {}) (p : Nat) :
    Tab.get (bwMap t f) p {} = f (Tab.get t p {}) := by
  rw [Tab.get, Tab.get, find_bwMap]
  cases Tab.find t p with
  | none => exact hf.symm
  | some w => rfl

/-- A full window becomes the last one, and a peak is the greatest window so far. -/
theorem Bw.finish_counts (w : Bw) (seq : BitVec 15) :
    (w.finish seq).rxLast = w.rxAcc ∧ (w.finish seq).txLast = w.txAcc ∧
    (w.finish seq).rxAcc = 0 ∧ (w.finish seq).txAcc = 0 ∧ (w.finish seq).rxPeak = max w.rxPeak w.rxAcc ∧
    (w.finish seq).txPeak = max w.txPeak w.txAcc := by
  refine ⟨rfl, rfl, rfl, rfl, ?_, ?_⟩ <;> simp only [Bw.finish, decide_eq_true_eq] <;> split_ifs <;> omega

/-- The boundary at or before the device's time, by W (R509). -/
def Dev.windowStart (d : Dev) : Nat := d.timeNs - d.time.ns % (windowUs (d.regBits baseCnt 4 0) * 1000)

/-- A boundary that ends a full window: the counts are written together under the next WSEQ. -/
theorem exec_bwWindowEnd_full {s : State} (hAwake : s.d.awake = true) (hRuns : s.d.svRuns 3 = true)
    (hFull : s.d.cnt.curShort = false) : exec .bwWindowEnd s = .next (s.put { s.d with cnt := { s.d.cnt with
      bw := bwMap s.d.cnt.bw fun x => x.finish (s.d.cnt.wseq + 1), bwStart := s.d.windowStart,
      bwPrev := s.d.cnt.bwStart, wseq := s.d.cnt.wseq + 1, lastShort := false } }) := by
  show execBwWindowEnd s = _
  simp [execBwWindowEnd, hAwake, hRuns, hFull, goto_eq, Dev.windowStart]

/-- A boundary after a cut: the next window begins with no counts. -/
theorem exec_bwWindowEnd_cut {s : State} (hAwake : s.d.awake = true) (hRuns : s.d.svRuns 3 = true)
    (hCut : s.d.cnt.curShort = true) : exec .bwWindowEnd s = .next (s.put { s.d with cnt := { s.d.cnt with
      bw := bwMap s.d.cnt.bw fun x => { x with rxAcc := 0, txAcc := 0 }, bwStart := s.d.windowStart,
      bwPrev := s.d.cnt.bwStart, curShort := false } }) := by
  show execBwWindowEnd s = _
  simp [execBwWindowEnd, hAwake, hRuns, hCut, goto_eq, Dev.windowStart]

/-- No window ends while SV3 does not run (R23). -/
theorem exec_bwWindowEnd_stopped {s : State} (h : s.d.svRuns 3 = false) : exec .bwWindowEnd s = .next s := by
  show execBwWindowEnd s = _
  simp [execBwWindowEnd, h, goto_eq]

/-- A window that is cut is SHORT from then on. -/
theorem Dev.cutWindow_curShort (d : Dev) : d.cutWindow.cnt.curShort = true := by
  unfold Dev.cutWindow
  dsimp only
  split_ifs with h
  · exact h
  · rfl

/-- A write of WIN sets it, cuts the window and clears every peak. -/
theorem Dev.writeBwCtl_effect (d : Dev) (v p : Nat) : (d.writeBwCtl v).regBits baseCnt 4 0 = v % 32 ∧
    (d.writeBwCtl v).cnt.curShort = true ∧ (Tab.get (d.writeBwCtl v).cnt.bw p {}).rxPeak = 0 ∧
    (Tab.get (d.writeBwCtl v).cnt.bw p {}).txPeak = 0 := by
  have win : (d.writeBwCtl v).regBits baseCnt 4 0 = v % 32 := by
    refine (Dev.regBits_congr (e := d.cutWindow.setReg baseCnt (v % 32)) rfl _ _ _).trans ?_
    rw [Dev.regBits, Dev.reg_setReg_same, bitsOf_low]
    omega
  have peaks := get_bwMap d.cutWindow.cnt.bw
    (f := fun x => { x with rxPeak := 0, txPeak := 0, rxPeakSeq := 0, txPeakSeq := 0 }) rfl p
  exact ⟨win, d.cutWindow_curShort, congrArg Bw.rxPeak peaks, congrArg Bw.txPeak peaks⟩

/-! ### Commands that need a supervisor core -/

theorem Dev.svRuns_touch (d : Dev) (c : CmdCtx) (n : Nat) : (d.touch c).svRuns n = d.svRuns n := by
  rw [Dev.svRuns, Dev.touch_boot]
  rfl

/-- A command that is let in while its core runs: its effect, then its reply. -/
theorem Dev.runCmd_needs {d d1 : Dev} {i : Instr} {c : CmdCtx} {op : Nat} {cls : PrivClass} {n : Nat}
    {f : Dev → Dev × Option (Status × Res)} {st : Status} {r : Res} (h : d.Runs i c op cls) (hn : d.svRuns n = true)
    (hf : f (d.touch c) = (d1, some (st, r))) : d.runCmd i c op cls (needs n f) = d1.reply c op st r :=
  Dev.runCmd_answers h (by rw [needs, Dev.svRuns_touch, hn, if_pos rfl, hf])

/-! ### The glean buffer (R512, R515, R517) -/

/-- GLEAN_SET's two registers, without what is reserved or RO in them. -/
def Dev.writeGlean (d : Dev) (w : Word) (f : Dword) : Dev :=
  (d.setReg offGleanCtl (w.toNat &&& gleanCtlBits)).setReg offGleanFilt (f.toNat - f.toNat % 2 ^ 15)

theorem exec_gleanSet {s : State} {c : CmdCtx} {w : Word} {f : Dword}
    (h : s.d.Runs (.gleanSet c w f) c 0x0903 .operator) (hRuns : s.d.svRuns 3 = true) :
    exec (.gleanSet c w f) s = .next (s.put (((s.d.touch c).writeGlean w f).reply c 0x0903 .ok .empty)) := by
  refine congrArg (goto s) (Dev.runCmd_needs h hRuns ?_)
  rfl

theorem Dev.gleanRegs_written (d : Dev) (w : Word) (f : Dword) :
    (d.writeGlean w f).reg (baseCnt + 8) = w.toNat &&& 0xFFC0E ∧
    (d.writeGlean w f).reg (baseCnt + 0x10) = f.toNat - f.toNat % 2 ^ 15 := by
  have hf := f.isLt
  have ctl : w.toNat &&& gleanCtlBits < 2 ^ 64 :=
    lt_of_le_of_lt Nat.and_le_right (show gleanCtlBits < 2 ^ 64 by decide)
  constructor
  · refine (Dev.reg_setReg_other _ _ (by decide)).trans ?_
    exact (Dev.reg_setReg_same ..).trans (Nat.mod_eq_of_lt ctl)
  · exact (Dev.reg_setReg_same ..).trans (Nat.mod_eq_of_lt (by omega))

/-! ### The selection of a programmable counter by command (R512) -/

/-- The word that CNT_PEV_SET writes: LEVEL in bit 31, the event in bits 23 to 16, the index below. -/
def pevWord (l : Bool) (e : Byte) (ix : BitVec 16) : Nat := l.toNat <<< 31 ||| e.toNat <<< 16 ||| ix.toNat

theorem exec_cntPevSet {s : State} {c : CmdCtx} {n : Byte} {l : Bool} {e : Byte} {ix : BitVec 16}
    (h : s.d.Runs (.cntPevSet c n l e ix) c 0x0906 .operator) (hRuns : s.d.svRuns 3 = true) (hn : n.toNat < 64) :
    exec (.cntPevSet c n l e ix) s =
      .next (s.put (((s.d.touch c).writePevSel n.toNat (pevWord l e ix)).reply c 0x0906 .ok .empty)) := by
  refine congrArg (goto s) (Dev.runCmd_needs h hRuns ?_)
  exact if_neg (Nat.not_le.mpr hn)

theorem pevWord_fields (l : Bool) (e : Byte) (ix : BitVec 16) :
    pevWord l e ix % 2 ^ 24 = e.toNat * 65536 + ix.toNat ∧ (pevWord l e ix).testBit 31 = l := by
  have he := e.isLt
  have hix := ix.isLt
  have low : e.toNat <<< 16 ||| ix.toNat = e.toNat * 65536 + ix.toNat := by
    rw [← Nat.shiftLeft_add_eq_or_of_lt hix, Nat.shiftLeft_eq]
  have word : pevWord l e ix = l.toNat * 2 ^ 31 + (e.toNat * 65536 + ix.toNat) := by
    rw [pevWord, Nat.or_assoc, low, ← Nat.shiftLeft_add_eq_or_of_lt (by omega), Nat.shiftLeft_eq]
  rw [word]
  refine ⟨by omega, ?_⟩
  rw [Nat.testBit_eq_decide_div_mod_eq]
  cases l <;> simp <;> omega

end Sys2Proof.Machine

open Sys2Proof Sys2Proof.Machine

/-- Settles O19: the windows port by port, and each command of the counters by its effect before its reply. -/
theorem countersAndWindows : Obligations.CountersAndWindows := by
  refine ⟨fun s p hAwake hRuns hCut => ?_, fun s hAwake hRuns hCut => ?_, fun s hRuns => ?_, fun s a v p h => ?_,
    fun s c n l e ix h hRuns hn => ?_, fun s c w f h hRuns => ?_, fun s c h hRuns => ?_, fun s c h hRuns => ?_⟩
  · refine ⟨_, exec_bwWindowEnd_full hAwake hRuns hCut, rfl, rfl, ?_⟩
    dsimp only [State.put_d]
    rw [get_bwMap _ rfl]
    exact Bw.finish_counts _ _
  · exact ⟨_, exec_bwWindowEnd_cut hAwake hRuns hCut, rfl, rfl⟩
  · exact exec_bwWindowEnd_stopped hRuns
  · exact ⟨_, goto_winWrite h, s.d.writeBwCtl_effect v.toNat p⟩
  · obtain ⟨hpev, hsel, hlevel⟩ := (s.d.touch c).writePevSel_effect (pevWord l e ix) hn
    have regs := Dev.reply_regs ((s.d.touch c).writePevSel n.toNat (pevWord l e ix)) c 0x0906 .ok .empty
    exact ⟨_, exec_cntPevSet h hRuns hn, by rw [State.put_d, Dev.reply_cnt, hpev],
      (Dev.regBits_congr regs _ _ _).trans (hsel.trans (pevWord_fields l e ix).1),
      (Dev.regBit_congr regs _ _).trans (hlevel.trans (pevWord_fields l e ix).2)⟩
  · obtain ⟨hctl, hfilt⟩ := (s.d.touch c).gleanRegs_written w f
    have regs := Dev.reply_regs ((s.d.touch c).writeGlean w f) c 0x0903 .ok .empty
    exact ⟨_, exec_gleanSet h hRuns, (Dev.reg_congr regs _).trans hctl,
      (Dev.reg_congr regs _).trans hfilt, by simp [Dev.writeGlean]⟩
  · exact ⟨_, congrArg (goto s) (Dev.runCmd_needs h hRuns (if_pos rfl)), by simp⟩
  · exact ⟨_, congrArg (goto s) (Dev.runCmd_needs h hRuns (if_neg Bool.false_ne_true)), by simp⟩
end

section
/-! PROOF. Device commands (R3, R412, R467). -/

namespace Sys2Proof.Machine

theorem Dev.mayBegin_of_runs {d : Dev} {i : Instr} {c : CmdCtx} {op : Nat} {cls : PrivClass}
    (h : d.Runs i c op cls) : d.mayBegin c i = true := by
  obtain ⟨-, hFlip, hBehind⟩ := h
  simp [Dev.mayBegin, hFlip, hBehind]

/-- The reset that a delay arms. -/
def Dev.armReset (d : Dev) (us : Word) : Dev :=
  { d with boot := { d.boot with resetAt := some (d.now + us.toNat * clkUs) } }

/-- A DEV_RESET in range arms the reset and answers; with no delay whole-chip reset follows the reply (R412). -/
theorem exec_devReset {s : State} {c : CmdCtx} {n : Word} (h : s.d.Runs (.devReset c n) c 0x0103 .owner)
    (hn : n.toNat ≤ 1000000) : exec (.devReset c n) s =
      let d := ((s.d.touch c).armReset n).reply c 0x0103 .ok .empty
      .next (s.put (if n = 0 then d.enterReset else d)) := by
  have begins : (decide (s.d.gate c 0x0103 .owner = .run) && s.d.mayBegin c (.devReset c n)) = true := by
    rw [Dev.mayBegin_of_runs h, decide_eq_true h.1]
    rfl
  show execDevReset c n s = _
  rw [execDevReset, begins, Dev.runCmd_answers h (if_neg (Nat.not_lt.mpr hn)), goto_eq]
  simp [Dev.armReset]

/-- In SAFE_TALK the role is set. -/
theorem exec_devRole_sets {s : State} {c : CmdCtx} {r : BitVec 2} (h : s.d.Runs (.devRole c (some r)) c 0x0104 .owner)
    (h3 : r ≠ 3) (hst : s.d.boot.st = .safeTalk) : exec (.devRole c (some r)) s =
      .next (s.put ({ s.d.touch c with boot := { (s.d.touch c).boot with roleOverride := some r } }.reply c 0x0104 .ok
        (.fields [r.toNat]))) := by
  refine congrArg (goto s) (Dev.runCmd_answers h ?_)
  exact (if_neg h3).trans (if_pos (by rw [Dev.touch_boot, hst]))

/-- In READY and RUN no other role is taken. -/
theorem exec_devRole_denied {s : State} {c : CmdCtx} {r : BitVec 2} (h : s.d.Runs (.devRole c (some r)) c 0x0104 .owner)
    (h3 : r ≠ 3) (hst : s.d.boot.st ≠ .safeTalk) (hr : r ≠ s.d.boot.role) :
    exec (.devRole c (some r)) s = .next (s.put ((s.d.touch c).reply c 0x0104 .denied .empty)) := by
  refine congrArg (goto s) (Dev.runCmd_answers h ?_)
  exact (if_neg h3).trans ((if_neg (by rwa [Dev.touch_boot])).trans (if_neg (by rwa [Dev.touch_boot])))

/-- DEV_ADMIT takes READY to RUN (R467). -/
theorem exec_devAdmit_ready {s : State} {c : CmdCtx} (h : s.d.Runs (.devAdmit c) c 0x0105 .operator)
    (hst : s.d.boot.st = .ready) : exec (.devAdmit c) s = .next (s.put
      ({ s.d.touch c with boot := { (s.d.touch c).boot with st := .run } }.reply c 0x0105 .ok .empty)) := by
  refine congrArg (goto s) (Dev.runCmd_answers h ?_)
  exact if_pos (by rw [Dev.touch_boot, hst])

/-- Destination code 2 is MG0 (log entry 122). -/
theorem exec_devEventMask_mg0 {s : State} {c : CmdCtx} {m : BitVec 16}
    (h : s.d.Runs (.devEventMask c 2 m) c 0x0106 .operator) : exec (.devEventMask c 2 m) s =
      .next (s.put (((s.d.touch c).setEvDest .mg0 { (s.d.touch c).evDest .mg0 with mask := m }).reply c 0x0106 .ok
        .empty)) := by
  refine congrArg (goto s) (Dev.runCmd_answers h ?_)
  rfl

/-- Of the command path a reply changes the places alone (R405). -/
theorem Dev.reply_cmd (d : Dev) (c : CmdCtx) (op : Nat) (st : Status) (r : Res) :
    ∃ l, (d.reply c op st r).cmd = { d.cmd with places := l } := by
  refine ⟨_, (?_ : _ = (d.freePlace c op).cmd)⟩
  unfold Dev.reply
  dsimp only
  split_ifs
  · cases c.src
    · exact Dev.raiseInt_cmd _ _
    · rfl
    · rfl
  · rfl

end Sys2Proof.Machine

open Sys2Proof Sys2Proof.Machine

/-- Settles O28: the state that each command leaves, taken apart by field. -/
theorem deviceCommandsAct : Obligations.DeviceCommandsAct := by
  refine ⟨fun s c h => ?_, fun s c n h h0 hn => ?_, fun s c r h h3 hst => ?_, fun s c r h h3 hst hr => ?_,
    fun s c h hst => ?_, fun s c m h => ?_⟩
  · exact ⟨_, exec_devReset h (by decide), rfl, rfl, rfl⟩
  · refine ⟨_, exec_devReset h hn, ?_⟩
    rw [if_neg h0]
    simp [Dev.armReset, clkUs]
  · exact ⟨_, exec_devRole_sets h h3 hst, by simp⟩
  · have left : s.d.boot.st ≠ .safeTalk := by
      obtain hst | hst := hst <;> simp [hst]
    exact exec_devRole_denied h h3 left hr
  · exact ⟨_, exec_devAdmit_ready h hst, by simp⟩
  · obtain ⟨l, hcmd⟩ := Dev.reply_cmd
      ((s.d.touch c).setEvDest .mg0 { (s.d.touch c).evDest .mg0 with mask := m }) c 0x0106 .ok .empty
    refine ⟨_, exec_devEventMask_mg0 h, ?_⟩
    rw [State.put_d, hcmd]
    exact ⟨rfl, rfl, rfl⟩
end

section
/-! PROOF. Counters under a count and under a reply, and the time base's change of state (R65, R409, R438). -/

namespace Sys2Proof.Machine

/-! ### Counters (R65, R409) -/

theorem Dev.ctr_congr {d e : Dev} (h : d.ctrs = e.ctrs) (off : Nat) : d.ctr off = e.ctr off := by
  unfold Dev.ctr; rw [h]

theorem Dev.ctr_bump_same (d : Dev) (off : Nat) : (d.bump off).ctr off = (d.ctr off + 1) % 2 ^ 64 := by
  simp [Dev.ctr, Dev.bump, Dev.bumpBy, BitVec.toNat_add]

theorem Dev.ctr_bump_other (d : Dev) {off o : Nat} (h : o ≠ off) : (d.bump off).ctr o = d.ctr o := by
  simp only [Dev.ctr, Dev.bump, Dev.bumpBy, Tab.get_set_other _ _ _ _ h]

/-- The counter is not one of the two that count a management link's packets. -/
def notPacketCtr (off : Nat) : Prop := off ≠ ctrMgl 0 0x108 ∧ off ≠ ctrMgl 1 0x108

/-- Of the counters a reply changes its link's packet count alone. -/
theorem Dev.reply_ctr (d : Dev) (c : CmdCtx) (op : Nat) (st : Status) (r : Res) {off : Nat} (h : notPacketCtr off) :
    (d.reply c op st r).ctr off = d.ctr off := by
  unfold Dev.reply
  dsimp only
  split_ifs
  · cases c.src with
    | howlink => exact Dev.ctr_congr (by simp) off
    | mg0 => exact Dev.ctr_bump_other _ h.1
    | mg1 => exact Dev.ctr_bump_other _ h.2
  · rfl

/-! ### The state of the time base (R438) -/

/-- The time base in a state: on entry to ACQUIRING it has locked no measurement yet. -/
def TimeBase.enter (t : TimeBase) (st : TimeState) : TimeBase :=
  { t with st := st, lockRun := if st = .acquiring then 0 else t.lockRun }

/-- Entry to LOCKED is TIME_LOCKED, every other change TIME_UNLOCKED with its cause or a free one. -/
theorem Dev.timeState_eq (d : Dev) (st : TimeState) (cause : Nat) : d.timeState st cause =
    if d.time.st = st then d.setTime (d.time.enter st)
    else if st = .locked then (d.setTime (d.time.enter st)).event (.timeLocked d.time.selB)
    else if cause = 0 then (d.setTime (d.time.enter st)).draw.2.event
      (.timeUnlocked st ((d.setTime (d.time.enter st)).draw.1.toNat % 256))
    else (d.setTime (d.time.enter st)).event (.timeUnlocked st cause) := rfl

/-- A change of state changes the time base, what its event changes, and the count of free values. -/
theorem Dev.timeState_shape (d : Dev) (st : TimeState) (cause : Nat) :
    ∃ c' n', d.timeState st cause = { d with time := d.time.enter st, cmd := c', free := n' } := by
  rw [Dev.timeState_eq]
  split_ifs
  · exact ⟨_, _, rfl⟩
  · obtain ⟨_, h⟩ := Dev.event_shape (d.setTime (d.time.enter st)) (.timeLocked d.time.selB)
    exact ⟨_, _, h⟩
  · obtain ⟨_, h⟩ := Dev.event_shape (d.setTime (d.time.enter st)).draw.2
      (.timeUnlocked st ((d.setTime (d.time.enter st)).draw.1.toNat % 256))
    exact ⟨_, _, h⟩
  · obtain ⟨_, h⟩ := Dev.event_shape (d.setTime (d.time.enter st)) (.timeUnlocked st cause)
    exact ⟨_, _, h⟩

@[simp] theorem Dev.timeState_time (d : Dev) (st : TimeState) (cause : Nat) :
    (d.timeState st cause).time = d.time.enter st := by
  obtain ⟨_, _, h⟩ := Dev.timeState_shape d st cause; rw [h]
@[simp] theorem Dev.timeState_cnt (d : Dev) (st : TimeState) (cause : Nat) :
    (d.timeState st cause).cnt = d.cnt := by
  obtain ⟨_, _, h⟩ := Dev.timeState_shape d st cause; rw [h]

end Sys2Proof.Machine
end

section
/-! PROOF. The reference clock, the PLLs, the pulse pins and the boundary-scan controller (R33, R448, R531, R545). -/

namespace Sys2Proof.Machine

/-! ### The reference clock (R33) -/

/-- The reference clock is lost. -/
def Dev.dropRef (d : Dev) : Dev := { d with clk := { d.clk with refLost := true } }

/-- An awake device flags the loss, raises vector 22 and reports it. -/
def Dev.flagRefLoss (d : Dev) : Dev := ((d.dropRef.setRegBit offClkStatus 1 true).raiseInt 22).event .refclkLost

/-- What the loss does to an awake device: SV3 takes the time base to HOLDOVER. -/
def Dev.seeRefLoss (d : Dev) : Dev := if d.svRuns 3 then d.flagRefLoss.holdover 1 else d.flagRefLoss

theorem exec_refclkLoss_again {s : State} (h : s.d.clk.refLost = true) : exec .refclkLoss s = .next s := by
  show execRefclkLoss s = _
  rw [execRefclkLoss, if_pos h]
  rfl

theorem exec_refclkLoss_asleep {s : State} (h : s.d.clk.refLost = false) (ha : s.d.awake = false) :
    exec .refclkLoss s = .next (s.put s.d.dropRef) := by
  show execRefclkLoss s = _
  simp [execRefclkLoss, h, ha, goto_eq, Dev.dropRef]

theorem Dev.flagRefLoss_boot (d : Dev) : d.flagRefLoss.boot = d.boot := by
  simp [Dev.flagRefLoss, Dev.setRegBit, Dev.dropRef]

theorem exec_refclkLoss_awake {s : State} (h : s.d.clk.refLost = false) (ha : s.d.awake = true) :
    exec .refclkLoss s = .next (s.put s.d.seeRefLoss) := by
  have runs : s.d.flagRefLoss.svRuns 3 = s.d.svRuns 3 := by rw [Dev.svRuns, Dev.flagRefLoss_boot]; rfl
  show execRefclkLoss s = _
  rw [Dev.seeRefLoss, ← runs]
  simp only [execRefclkLoss, h, ha, goto_eq, Bool.not_true, Bool.false_eq_true, if_false]
  rfl

theorem Dev.holdover_shape (d : Dev) (cause : Nat) :
    ∃ t' c' n', d.holdover cause = { d with time := t', cmd := c', free := n' } := by
  unfold Dev.holdover
  split_ifs
  · obtain ⟨_, _, h⟩ := Dev.timeState_shape d .holdover cause
    exact ⟨_, _, _, h⟩
  · exact ⟨_, _, _, rfl⟩

theorem Dev.flagRefLoss_shape (d : Dev) : ∃ c' o',
    d.flagRefLoss = { d.dropRef.setRegBit offClkStatus 1 true with
      intPend := ((d.dropRef.setRegBit offClkStatus 1 true).raiseInt 22).intPend, cmd := c', out := o' } := by
  obtain ⟨_, _, hi⟩ := Dev.raiseInt_shape (d.dropRef.setRegBit offClkStatus 1 true) 22
  obtain ⟨_, he⟩ := Dev.event_shape ((d.dropRef.setRegBit offClkStatus 1 true).raiseInt 22) .refclkLost
  exact ⟨_, _, by rw [Dev.flagRefLoss, he, hi]⟩

/-- The loss changes the flag, the registers, the interrupts, the events and the time base alone. -/
theorem Dev.seeRefLoss_shape (d : Dev) : ∃ t' c' n' o',
    d.seeRefLoss = { d.dropRef.setRegBit offClkStatus 1 true with
      intPend := ((d.dropRef.setRegBit offClkStatus 1 true).raiseInt 22).intPend,
      time := t', cmd := c', free := n', out := o' } := by
  obtain ⟨_, _, hf⟩ := d.flagRefLoss_shape
  obtain ⟨_, _, _, hh⟩ := d.flagRefLoss.holdover_shape 1
  rw [Dev.seeRefLoss]
  split_ifs
  · exact ⟨_, _, _, _, by rw [hh, hf]⟩
  · exact ⟨_, _, _, _, hf⟩

/-- The loss stands in GLB_CLK_STATUS and vector 22 is pending (R531). -/
theorem Dev.seeRefLoss_flags (d : Dev) :
    d.seeRefLoss.regBit offClkStatus 1 = true ∧ d.seeRefLoss.intPend.getLsbD 22 = true := by
  obtain ⟨_, _, _, _, h⟩ := d.seeRefLoss_shape
  rw [h]
  refine ⟨Dev.regBit_setRegBit_true d.dropRef offClkStatus (by decide), ?_⟩
  rw [Dev.raiseInt_getLsbD _ (by decide)]
  simp

theorem Dev.seeRefLoss_clk (d : Dev) : d.seeRefLoss.clk = { d.clk with refLost := true } := by
  obtain ⟨_, _, _, _, h⟩ := d.seeRefLoss_shape; rw [h]; rfl

/-- The planes of the device do not see the loss. -/
theorem Dev.seeRefLoss_planes (d : Dev) : d.seeRefLoss.fwd = d.fwd ∧ d.seeRefLoss.store = d.store ∧
    d.seeRefLoss.ports = d.ports ∧ d.seeRefLoss.red = d.red := by
  obtain ⟨_, _, _, _, h⟩ := d.seeRefLoss_shape; rw [h]; exact ⟨rfl, rfl, rfl, rfl⟩

/-- From SELF_TEST on the time base of a device that SV3 serves goes to HOLDOVER. -/
theorem Dev.seeRefLoss_holdover {d : Dev} (ha : d.awake = true) (hst : d.boot.st ≠ .powerOn)
    (hRuns : d.svRuns 3 = true) : d.seeRefLoss.time.st = .holdover := by
  have awake : d.flagRefLoss.awake = true := by rw [Dev.awake, Dev.flagRefLoss_boot]; exact ha
  rw [Dev.seeRefLoss, if_pos hRuns, Dev.holdover, awake, Dev.flagRefLoss_boot, decide_eq_true hst]
  simp [TimeBase.enter]

theorem Dev.seeRefLoss_time {d : Dev} (h : d.svRuns 3 = false) : d.seeRefLoss.time = d.time := by
  obtain ⟨_, _, hf⟩ := d.flagRefLoss_shape
  rw [Dev.seeRefLoss, h, if_neg Bool.false_ne_true, hf]
  rfl

/-- The reference clock is back. -/
def Dev.regainRef (d : Dev) : Dev := { d with clk := { d.clk with refLost := false } }

theorem exec_refclkReturn_unlost {s : State} (h : s.d.clk.refLost = false) : exec .refclkReturn s = .next s := by
  show execRefclkReturn s = _
  simp [execRefclkReturn, h, goto_eq]

/-- Its return clears the flag; an awake device writes a record (log entry 112). -/
theorem exec_refclkReturn_lost {s : State} (h : s.d.clk.refLost = true) : exec .refclkReturn s =
    .next (s.put (if s.d.awake then s.d.regainRef.faultRec 2 0x0E 0 0 0 0 0 else s.d.regainRef)) := by
  show execRefclkReturn s = _
  simp only [execRefclkReturn, h, goto_eq, Bool.not_true, Bool.false_eq_true, if_false]
  rfl

/-- The return leaves the clocks' other fields, the time base and the planes. -/
theorem refclkReturn_keeps (s : State) : ∃ t, exec .refclkReturn s = .next t ∧
    t.d.clk = { s.d.clk with refLost := false } ∧ t.d.time = s.d.time ∧ t.d.fwd = s.d.fwd ∧
    t.d.store = s.d.store ∧ t.d.ports = s.d.ports ∧ t.d.red = s.d.red ∧ t.pending = s.pending := by
  cases h : s.d.clk.refLost with
  | false =>
    refine ⟨s, exec_refclkReturn_unlost h, ?_, rfl, rfl, rfl, rfl, rfl, rfl⟩
    rw [← h]
  | true =>
    refine ⟨_, exec_refclkReturn_lost h, ?_⟩
    cases s.d.awake <;> simp [Dev.regainRef]

/-! ### The PLLs (R531) -/

/-- PLL `p` has lost its lock. -/
def Dev.unlock (d : Dev) (p : Pll) : Dev :=
  { d with clk := { d.clk with locks := d.clk.locks &&& ~~~(BitVec.ofNat 64 (1 <<< pllBit p)) } }

/-- A lock bit is cleared and the others stay. -/
theorem Dev.unlock_getLsbD (d : Dev) (p : Pll) (n : Nat) :
    (d.unlock p).clk.locks.getLsbD n = (d.clk.locks.getLsbD n && decide (pllBit p ≠ n)) := by
  rw [Dev.unlock, BitVec.getLsbD_and, BitVec.getLsbD_not, BitVec.getLsbD_ofNat, Nat.one_shiftLeft, Nat.testBit_two_pow]
  by_cases hn : n < 64
  · simp [hn]
  · simp [BitVec.getLsbD_of_ge d.clk.locks n (Nat.not_lt.mp hn)]

theorem exec_pllLockLoss_locked {s : State} {p : Pll} (ha : s.d.awake = true)
    (h : s.d.clk.locks.getLsbD (pllBit p) = true) :
    exec (.pllLockLoss p) s = .next (s.put ((s.d.unlock p).raiseInt 22)) := by
  show execPllLockLoss p s = _
  simp only [execPllLockLoss, ha, h, goto_eq]
  rfl

theorem exec_pllLockLoss_idle {s : State} {p : Pll}
    (h : s.d.awake = false ∨ s.d.clk.locks.getLsbD (pllBit p) = false) : exec (.pllLockLoss p) s = .next s := by
  have idle : (!s.d.awake || !s.d.clk.locks.getLsbD (pllBit p)) = true := by
    obtain h | h := h <;> simp [h]
  show execPllLockLoss p s = _
  rw [execPllLockLoss, if_pos idle]
  rfl

theorem Dev.raiseInt_pending (d : Dev) {v : Nat} (hv : v < 64) : (d.raiseInt v).intPend.getLsbD v = true := by
  rw [Dev.raiseInt_getLsbD d hv]
  simp

/-! ### The pulse pins (R448) -/

theorem exec_secondsCarry_runs {s : State} (h : s.d.timeRuns = true) :
    exec .secondsCarry s = .next (s.put (s.d.carry 0 0)) := by
  show execSecondsCarry s = _
  rw [execSecondsCarry, if_pos h, goto_eq]

theorem exec_secondsCarry_stopped {s : State} (h : s.d.timeRuns = false) : exec .secondsCarry s = .next s := by
  show execSecondsCarry s = _
  simp [execSecondsCarry, h, goto_eq]

theorem exec_ppsInEdge_ignored {s : State} (h : s.d.awake = false ∨ s.d.boot.st = .powerOn) :
    exec .ppsInEdge s = .next s := by
  have ignored : (!s.d.awake || decide (s.d.boot.st = .powerOn)) = true := by
    obtain h | h := h <;> simp [h]
  show execPpsInEdge s = _
  rw [execPpsInEdge, if_pos ignored]
  rfl

/-- An edge that counts: its instant is stamped, and nothing else of the time base but the time of its event
changes. -/
theorem exec_ppsInEdge_stamps {s : State} (ha : s.d.awake = true) (hst : s.d.boot.st ≠ .powerOn) :
    ∃ t e, exec .ppsInEdge s = .next t ∧
      t.d.time = { s.d.time with ppsInSec := s.d.time.sec, ppsInNs := s.d.time.ns, ppsEvtAt := e } ∧
      t.d.ctrs = (s.d.bump (ctrTime 0x130)).ctrs ∧ t.d.fwd = s.d.fwd ∧ t.d.ports = s.d.ports := by
  have counts : (!s.d.awake || decide (s.d.boot.st = .powerOn)) = false := by simp [ha, hst]
  show ∃ t e, execPpsInEdge s = .next t ∧ _
  simp only [execPpsInEdge, counts, Bool.false_eq_true, if_false, goto_eq]
  split_ifs
  · exact ⟨_, some s.d.now, rfl, Dev.event_time .., Dev.event_ctrs .., Dev.event_fwd .., Dev.event_ports ..⟩
  · exact ⟨_, _, rfl, rfl, rfl, rfl, rfl⟩

/-! ### The boundary-scan controller (R545) -/

theorem tapNext_lt (st : Nat) (tms : Bool) : tapNext st tms < 16 := by
  unfold tapNext
  split <;> cases tms <;> decide

/-- The clocks and pins after an edge of TCK: TRST_N low wins over the edge. -/
def Clk.tck (k : Clk) (now : Nat) (trstN rising tms tdi : Bool) : Clk :=
  if !trstN then { k with tap := 0, tapIr := tapBypass, lands := none }
  else if rising then k.tapRise now tms tdi else k.tapFall

theorem exec_tckEdge (s : State) (trstN rising tms tdi : Bool) : exec (.tckEdge trstN rising tms tdi) s =
    .next (s.put { s.d with clk := s.d.clk.tck s.d.now trstN rising tms tdi }) := rfl

theorem Clk.tck_tap (k : Clk) (now : Nat) (trstN rising tms tdi : Bool) :
    (k.tck now trstN rising tms tdi).tap.toNat = if trstN = false then 0 else if rising = true then
      tapNext k.tap.toNat tms else k.tap.toNat := by
  cases trstN with
  | false => rfl
  | true =>
    cases rising with
    | false => rfl
    | true => exact Nat.mod_eq_of_lt (tapNext_lt _ _)

/-- TDO moves on a falling edge alone. -/
theorem Clk.tck_tdo (k : Clk) (now : Nat) (trstN tms tdi : Bool) : (k.tck now trstN true tms tdi).tdo = k.tdo := by
  cases trstN <;> rfl

/-- The pins' other state does not see TCK. -/
theorem Clk.tck_keeps (k : Clk) (now : Nat) (trstN rising tms tdi : Bool) :
    (k.tck now trstN rising tms tdi).refLost = k.refLost ∧ (k.tck now trstN rising tms tdi).locks = k.locks ∧
    (k.tck now trstN rising tms tdi).temps = k.temps := by
  cases trstN <;> cases rising <;> exact ⟨rfl, rfl, rfl⟩

end Sys2Proof.Machine

open Sys2Proof Sys2Proof.Machine

/-- Settles O10: the state that each event leaves, taken apart by field. -/
theorem clocksAndPins : Obligations.ClocksAndPins := by
  refine ⟨fun s h ha => ?_, fun s _ => ?_, fun s p ha h => ?_, fun s h => ?_, fun s => rfl,
    fun s h => exec_ppsInEdge_ignored (.inr h), fun s ha hst => ?_, fun s r tms tdi => ?_, fun s tms tdi => ?_⟩
  · obtain ⟨hreg, hint⟩ := s.d.seeRefLoss_flags
    exact ⟨_, exec_refclkLoss_awake h ha, by rw [State.put_d, Dev.seeRefLoss_clk], hreg, hint,
      Dev.seeRefLoss_holdover ha, Dev.seeRefLoss_time, s.d.seeRefLoss_planes⟩
  · obtain ⟨t, ht, hclk, htime, -⟩ := refclkReturn_keeps s
    exact ⟨t, ht, hclk, htime⟩
  · exact ⟨_, exec_pllLockLoss_locked ha h, by simp [Dev.unlock], Dev.raiseInt_pending _ (by decide)⟩
  · rw [exec_secondsCarry_runs h]
    simp [Dev.carry, Dev.setTime, Dev.pastBoot, Dev.serving, offPpsCtl, Bool.or_assoc]
  · obtain ⟨t, e, ht, htime, hctrs, hfwd, hports⟩ := exec_ppsInEdge_stamps ha hst
    exact ⟨t, ht, by rw [htime], by rw [htime], (Dev.ctr_congr hctrs _).trans (Dev.ctr_bump_same ..), by rw [htime],
      by rw [htime], hfwd, hports⟩
  · exact ⟨_, exec_tckEdge .., rfl, rfl⟩
  · exact ⟨_, exec_tckEdge .., rfl, rfl, rfl⟩

/-- Settles O11: each event in the states that give it its effect and in those that give it none. -/
theorem clockAndPinEventsComplete : Obligations.ClockAndPinEventsComplete := by
  refine ⟨fun s => ?_, fun s => ?_, fun s p => ?_, fun s => ?_, fun s => ⟨_, rfl, rfl, rfl⟩, fun s => ?_,
    fun s trstN rising tms tdi => ?_⟩
  · cases h : s.d.clk.refLost with
    | true =>
      exact ⟨s, exec_refclkLoss_again h, by rw [← h], fun _ => rfl, nofun, rfl, rfl, rfl, rfl, rfl⟩
    | false =>
      cases ha : s.d.awake with
      | false => exact ⟨_, exec_refclkLoss_asleep h ha, rfl, nofun, fun _ => nofun, rfl, rfl, rfl, rfl, rfl⟩
      | true =>
        obtain ⟨hfwd, hstore, hports, hred⟩ := s.d.seeRefLoss_planes
        exact ⟨_, exec_refclkLoss_awake h ha, s.d.seeRefLoss_clk, nofun, fun _ _ => s.d.seeRefLoss_flags, hfwd,
          hstore, hports, hred, rfl⟩
  · obtain ⟨t, ht, hclk, hkeeps⟩ := refclkReturn_keeps s
    refine ⟨t, ht, hclk, fun h => ?_, hkeeps⟩
    rw [exec_refclkReturn_unlost h] at ht
    injection ht with ht
    exact ht.symm
  · by_cases idle : s.d.awake = false ∨ s.d.clk.locks.getLsbD (pllBit p) = false
    · refine ⟨s, exec_pllLockLoss_idle idle, fun ha => ?_, fun _ _ => rfl, fun _ => rfl, fun ha h => ?_, rfl, rfl, rfl,
        rfl, rfl⟩
      · simpa [ha] using idle
      · simp [ha, h] at idle
    · obtain ⟨ha, h⟩ : s.d.awake = true ∧ s.d.clk.locks.getLsbD (pllBit p) = true := by simpa using idle
      refine ⟨_, exec_pllLockLoss_locked ha h, fun _ => ?_, fun n hn => ?_, fun hi => absurd hi idle,
        fun _ _ => Dev.raiseInt_pending _ (by decide), ?_⟩
      · simp [Dev.unlock_getLsbD]
      · simp [Dev.unlock_getLsbD, hn.symm]
      · simp [Dev.unlock]
  · cases h : s.d.timeRuns with
    | false => exact ⟨s, exec_secondsCarry_stopped h, fun _ => rfl, nofun, rfl⟩
    | true => exact ⟨_, exec_secondsCarry_runs h, nofun, fun _ => ⟨rfl, rfl, rfl⟩, rfl⟩
  · by_cases ignored : s.d.awake = false ∨ s.d.boot.st = .powerOn
    · refine ⟨s, exec_ppsInEdge_ignored ignored, fun _ => rfl, fun ha hst => ?_, rfl, rfl, rfl, rfl, rfl, rfl⟩
      simp [ha, hst] at ignored
    · obtain ⟨ha, hst⟩ : s.d.awake = true ∧ s.d.boot.st ≠ .powerOn := by simpa using ignored
      obtain ⟨t, e, ht, htime, hctrs, hfwd, hports⟩ := exec_ppsInEdge_stamps ha hst
      refine ⟨t, ht, fun hi => absurd hi ignored, fun _ _ => ⟨by rw [htime], by rw [htime], ?_⟩, by rw [htime],
        by rw [htime], by rw [htime], by rw [htime], hfwd, hports⟩
      exact (Dev.ctr_congr hctrs _).trans (Dev.ctr_bump_same ..)
  · obtain ⟨href, hlocks, htemps⟩ := s.d.clk.tck_keeps s.d.now trstN rising tms tdi
    refine ⟨_, exec_tckEdge .., Clk.tck_tap .., fun h => ?_, href, hlocks, htemps, rfl⟩
    rw [h]
    exact Clk.tck_tdo ..
end

section
/-! PROOF. Host steering of the time base (R23, R437, R438, R450, R489). -/

namespace Sys2Proof.Machine

/-! ### A supervisor core that has stopped (R489) -/

/-- Of the faults a raised vector 23 may change the messages owed alone. -/
theorem Dev.raiseFault_faults (d : Dev) (n : Word) (waits : Bool) :
    ∃ o, (d.raiseFault n waits).faults = { d.faults with intOwed := o } := by
  unfold Dev.raiseFault
  split_ifs
  · exact ⟨_, rfl⟩
  · exact ⟨_, Dev.raiseInt_faults ..⟩

/-- Of the faults a record takes the next sequence number, joins the log, and may owe its message. -/
theorem Dev.recordFault_faults (d : Dev) (cls unit_ index sub action left detail : Nat) : ∃ l o,
    (d.recordFault cls unit_ index sub action left detail).faults =
      { d.faults with fseq := d.faults.fseq + 1, log := l, intOwed := o } := by
  unfold Dev.recordFault
  generalize (if left > 255 then 255 else left) = n
  dsimp only
  obtain ⟨_, h⟩ := Dev.raiseFault_faults _ _ _
  rw [h, Dev.event_faults]
  exact ⟨_, _, rfl⟩

theorem Dev.recordFault_time (d : Dev) (cls unit_ index sub action left detail : Nat) :
    (d.recordFault cls unit_ index sub action left detail).time = d.time := by
  obtain ⟨_, _, _, _, h⟩ := Dev.recordFault_shape d cls unit_ index sub action left detail; rw [h]

/-- A command whose core has stopped writes a FIRMWARE record and answers INTERNAL (log entry 142). -/
theorem Dev.runCmd_stopped {d : Dev} {i : Instr} {c : CmdCtx} {op : Nat} {cls : PrivClass} {n : Nat}
    {f : Dev → Dev × Option (Status × Res)} (h : d.Runs i c op cls) (hn : d.svRuns n = false) :
    d.runCmd i c op cls (needs n f) =
      ((d.touch c).recordFault 6 0x0D n 0 0 0 0).reply c op .internal .empty :=
  Dev.runCmd_answers h (by rw [needs, Dev.svRuns_touch, hn, if_neg Bool.false_ne_true]; rfl)

/-- A time command with SV3 stopped leaves the time base, and the record takes its number. -/
theorem goto_runCmd_stopped {s : State} {i : Instr} {c : CmdCtx} {op : Nat} {cls : PrivClass} {n : Nat}
    {f : Dev → Dev × Option (Status × Res)} (h : s.d.Runs i c op cls) (hn : s.d.svRuns n = false) :
    ∃ t, goto s (s.d.runCmd i c op cls (needs n f)) = .next t ∧ t.d.time = s.d.time ∧
      t.d.faults.fseq = s.d.faults.fseq + 1 := by
  obtain ⟨_, _, hf⟩ := Dev.recordFault_faults (s.d.touch c) 6 0x0D n 0 0 0 0
  refine ⟨_, congrArg (goto s) (Dev.runCmd_stopped h hn), ?_, ?_⟩
  · rw [Dev.reply_time, Dev.recordFault_time, Dev.touch_time]
  · rw [Dev.reply_faults, hf, Dev.touch_faults]

/-! ### TIME_STEP (R437) -/

theorem Dev.cutWindow_time (d : Dev) : d.cutWindow.time = d.time := by
  unfold Dev.cutWindow
  dsimp only
  split_ifs <;> rfl

/-- A step sets the time, ends a slew and starts to acquire. -/
theorem Dev.stepTime_time (d : Dev) (sec : BitVec 48) (ns frac cause : Nat) : (d.stepTime sec ns frac cause).time =
    { d.time with sec := sec, ns := ns, frac := frac, slewLeft := 0, stepped := true, hostFresh := true,
                  st := .acquiring, lockRun := 0 } := by
  rw [Dev.stepTime, Dev.timeState_time]
  dsimp only [Dev.setTime]
  rw [Dev.cutWindow_time]
  rfl

/-- A step cuts the bandwidth window (R510). -/
theorem Dev.stepTime_curShort (d : Dev) (sec : BitVec 48) (ns frac cause : Nat) :
    (d.stepTime sec ns frac cause).cnt.curShort = true := by
  rw [Dev.stepTime, Dev.timeState_cnt]
  exact d.cutWindow_curShort

/-- The class of a TIME_STEP follows its FORCE. -/
def stepClass (force : Bool) : PrivClass := if force then .owner else .operator

/-- A step is taken where it is the first, or with FORCE. -/
theorem exec_timeStep_taken {s : State} {c : CmdCtx} {sec : BitVec 48} {ns : Word} {force : Bool}
    (h : s.d.Runs (.timeStep c sec ns force) c 0x0802 (stepClass force)) (hRuns : s.d.svRuns 3 = true)
    (hns : ns.toNat < 1000000000) (hTaken : s.d.time.stepped = false ∨ force = true) :
    exec (.timeStep c sec ns force) s = .next (s.put
      ((((s.d.touch c).setTime { s.d.time with stepAt := some s.d.now }).stepTime sec ns.toNat 0
        (if force then 4 else 0)).reply c 0x0802 .ok .empty)) := by
  have taken : ((s.d.touch c).time.stepped && !force) = false := by
    rw [Dev.touch_time]
    obtain h | h := hTaken <;> simp [h]
  refine congrArg (goto s) (Dev.runCmd_needs h hRuns ?_)
  rw [if_neg (Nat.not_le.mpr hns), taken]
  simp [answer]

/-- A second step without FORCE is refused. -/
theorem exec_timeStep_again {s : State} {c : CmdCtx} {sec : BitVec 48} {ns : Word}
    (h : s.d.Runs (.timeStep c sec ns false) c 0x0802 .operator) (hRuns : s.d.svRuns 3 = true)
    (hns : ns.toNat < 1000000000) (hStepped : s.d.time.stepped = true) :
    exec (.timeStep c sec ns false) s = .next (s.put ((s.d.touch c).reply c 0x0802 .conflict .empty)) := by
  refine congrArg (goto s) (Dev.runCmd_needs h hRuns ?_)
  rw [if_neg (Nat.not_le.mpr hns), Dev.touch_time, hStepped]
  rfl

/-! ### TIME_ADJUST (R437, R438) -/

theorem Dev.servo_touch (d : Dev) (c : CmdCtx) : (d.touch c).servo = d.servo :=
  Dev.regBits_congr (Dev.touch_regs d c) _ _ _

theorem Dev.jumpNs_touch (d : Dev) (c : CmdCtx) : (d.touch c).jumpNs = d.jumpNs :=
  congrArg atLeast1 (Dev.regBits_congr (Dev.touch_regs d c) _ _ _)

/-- An adjustment by `o` ns slews; the first after a step locks. -/
def Dev.adjustTime (d : Dev) (o : Int) : Dev :=
  if d.time.hostFresh then (d.setTime { d.time with slewLeft := o * 2 ^ 32, hostFresh := false }).timeState .locked 0
  else d.setTime { d.time with slewLeft := o * 2 ^ 32, hostFresh := false }

theorem Dev.adjustTime_time (d : Dev) (o : Int) : (d.adjustTime o).time =
    { d.time with slewLeft := o * 2 ^ 32, hostFresh := false,
                  st := if d.time.hostFresh then .locked else d.time.st } := by
  unfold Dev.adjustTime
  split_ifs
  · rw [Dev.timeState_time]
    rfl
  · rfl

theorem exec_timeAdjust_within {s : State} {c : CmdCtx} {o : Dword}
    (h : s.d.Runs (.timeAdjust c o) c 0x0803 .operator) (hRuns : s.d.svRuns 3 = true) (hServo : s.d.servo = 2)
    (ho : o.toInt.natAbs ≤ s.d.jumpNs) : exec (.timeAdjust c o) s =
      .next (s.put (((s.d.touch c).adjustTime o.toInt).reply c 0x0803 .ok .empty)) := by
  refine congrArg (goto s) (Dev.runCmd_needs h hRuns ?_)
  dsimp only
  rw [Dev.servo_touch, if_neg (not_not.mpr hServo), Dev.jumpNs_touch, if_neg (Nat.not_lt.mpr ho)]
  rfl

theorem exec_timeAdjust_beyond {s : State} {c : CmdCtx} {o : Dword}
    (h : s.d.Runs (.timeAdjust c o) c 0x0803 .operator) (hRuns : s.d.svRuns 3 = true) (hServo : s.d.servo = 2)
    (ho : s.d.jumpNs < o.toInt.natAbs) : exec (.timeAdjust c o) s =
      .next (s.put (((s.d.touch c).jumpRefused 2 o.toInt).reply c 0x0803 .badParam .empty)) := by
  refine congrArg (goto s) (Dev.runCmd_needs h hRuns ?_)
  dsimp only
  rw [Dev.servo_touch, if_neg (not_not.mpr hServo), Dev.jumpNs_touch, if_pos ho]
  rfl

/-- A refused correction is flagged and counted, and leaves the time base. -/
theorem Dev.jumpRefused_effect (d : Dev) (src : Nat) (offset : Int) :
    (d.jumpRefused src offset).time = d.time ∧ (d.jumpRefused src offset).regBit (baseTime + 8) 4 = true ∧
    (d.jumpRefused src offset).ctr (ctrTime 0x118) = (d.ctr (ctrTime 0x118) + 1) % 2 ^ 64 := by
  obtain ⟨_, h⟩ := Dev.event_shape ((d.setRegBit offTimeStatus 4 true).bump (ctrTime 0x118))
    (.timeJumpRefused src offset)
  rw [Dev.jumpRefused, h]
  exact ⟨rfl, d.regBit_setRegBit_true offTimeStatus (by decide),
    (d.setRegBit offTimeStatus 4 true).ctr_bump_same (ctrTime 0x118)⟩

/-! ### TIME_RATE_SET (R432, R436) -/

theorem exec_timeRateSet {s : State} {c : CmdCtx} {r : BitVec 40}
    (h : s.d.Runs (.timeRateSet c r) c 0x0804 .operator) (hRuns : s.d.svRuns 3 = true) (hServo : s.d.servo = 2) :
    exec (.timeRateSet c r) s = .next (s.put (({ s.d.touch c with
      time := { s.d.time with rate := clampInt maxRate r.toInt } }).reply c 0x0804 .ok .empty)) := by
  refine congrArg (goto s) (Dev.runCmd_needs h hRuns ?_)
  rw [Dev.servo_touch, if_neg (not_not.mpr hServo), Dev.touch_time]
  rfl

theorem clampInt_bounds {m : Int} (hm : 0 ≤ m) (x : Int) : -m ≤ clampInt m x ∧ clampInt m x ≤ m := by
  unfold clampInt
  split_ifs <;> omega

end Sys2Proof.Machine

open Sys2Proof Sys2Proof.Machine

/-- Settles O13: each command by the time base that it leaves, and by its record where SV3 has stopped. -/
theorem hostSteersTime : Obligations.HostSteersTime := by
  refine ⟨fun s c sec ns h hRuns hns hFirst => ?_, fun s c sec ns h hRuns hns hStepped => ?_,
    fun s c o h hRuns hServo ho => ?_, fun s c o h hRuns hServo ho => ?_,
    fun s c o h hStop => goto_runCmd_stopped h hStop,
    fun s c r h hRuns hServo => ⟨exec_timeRateSet h hRuns hServo, clampInt_bounds (by decide) _⟩,
    fun s c sec ns f h hStop => goto_runCmd_stopped h hStop, fun s c r h hStop => goto_runCmd_stopped h hStop,
    fun s c sec ns h hRuns hns => ?_⟩
  · refine ⟨_, exec_timeStep_taken h hRuns hns (.inl hFirst), ?_⟩
    rw [State.put_d, Dev.reply_time, Dev.reply_cnt, Dev.stepTime_time]
    exact ⟨rfl, rfl, rfl, rfl, rfl, rfl, Dev.stepTime_curShort ..⟩
  · exact exec_timeStep_again h hRuns hns hStepped
  · refine ⟨_, exec_timeAdjust_within h hRuns hServo ho, ?_⟩
    rw [State.put_d, Dev.reply_time, Dev.adjustTime_time, Dev.touch_time]
    exact ⟨rfl, rfl, rfl, rfl, fun hFresh => if_pos hFresh⟩
  · obtain ⟨htime, hflag, hcount⟩ := (s.d.touch c).jumpRefused_effect 2 o.toInt
    refine ⟨_, exec_timeAdjust_beyond h hRuns hServo ho, ?_, ?_, ?_⟩
    · rw [State.put_d, Dev.reply_time, htime, Dev.touch_time]
    · exact (Dev.regBit_congr (Dev.reply_regs ..) _ _).trans hflag
    · rw [State.put_d, Dev.reply_ctr _ _ _ _ _ (by unfold notPacketCtr; decide), hcount,
        Dev.ctr_congr (Dev.touch_ctrs s.d c)]
  · refine ⟨_, exec_timeStep_taken h hRuns hns (.inr rfl), ?_⟩
    rw [State.put_d, Dev.reply_time, Dev.stepTime_time]
    exact ⟨rfl, rfl, rfl, rfl⟩
end

section
/-! PROOF. What a fault record, a held command's end and a floor leave of the faults, and how SV2 serves a failure
(R29, R480, R481, R491). -/

namespace Sys2Proof.Machine

/-! ### Fault records (R480, R481) -/

/-- Of the faults a record that SV2 writes changes the sequence, the log and the messages owed alone. -/
theorem Dev.faultRec_faults (d : Dev) (cls unit_ index sub action left detail : Nat) : ∃ f l o,
    (d.faultRec cls unit_ index sub action left detail).faults =
      { d.faults with fseq := f, log := l, intOwed := o } := by
  unfold Dev.faultRec
  split_ifs
  · obtain ⟨_, _, h⟩ := d.recordFault_faults cls unit_ index sub action left detail
    exact ⟨_, _, _, h⟩
  · exact ⟨_, _, _, rfl⟩

@[simp] theorem Dev.faultRec_corePos (d : Dev) (cls unit_ index sub action left detail n : Nat) :
    (d.faultRec cls unit_ index sub action left detail).corePos n = d.corePos n := by
  obtain ⟨_, _, _, h⟩ := d.faultRec_faults cls unit_ index sub action left detail
  rw [Dev.corePos, h, Dev.corePos]
@[simp] theorem Dev.faultRec_spareCores (d : Dev) (cls unit_ index sub action left detail : Nat) :
    (d.faultRec cls unit_ index sub action left detail).faults.spareCores = d.faults.spareCores := by
  obtain ⟨_, _, _, h⟩ := d.faultRec_faults cls unit_ index sub action left detail; rw [h]
@[simp] theorem Dev.faultRec_failures (d : Dev) (cls unit_ index sub action left detail : Nat) :
    (d.faultRec cls unit_ index sub action left detail).faults.failures = d.faults.failures := by
  obtain ⟨_, _, _, h⟩ := d.faultRec_faults cls unit_ index sub action left detail; rw [h]
@[simp] theorem Dev.faultRec_sramAt (d : Dev) (cls unit_ index sub action left detail : Nat) :
    (d.faultRec cls unit_ index sub action left detail).faults.sramAt = d.faults.sramAt := by
  obtain ⟨_, _, _, h⟩ := d.faultRec_faults cls unit_ index sub action left detail; rw [h]

/-- While SV2 runs, a record takes the next sequence number. -/
theorem Dev.faultRec_fseq {d : Dev} (h : d.svRuns 2 = true) (cls unit_ index sub action left detail : Nat) :
    (d.faultRec cls unit_ index sub action left detail).faults.fseq = d.faults.fseq + 1 := by
  obtain ⟨_, _, hf⟩ := d.recordFault_faults cls unit_ index sub action left detail
  rw [Dev.faultRec, if_pos h, hf]

theorem Dev.corePos_congr {d e : Dev} (h : d.faults = e.faults) (n : Nat) : d.corePos n = e.corePos n := by
  unfold Dev.corePos; rw [h]

theorem Dev.spareCore_congr {d e : Dev} (h : d.faults.spareCores = e.faults.spareCores) (n : Nat) :
    d.spareCore n = e.spareCore n := by
  unfold Dev.spareCore; rw [h]

@[simp] theorem Dev.event_corePos (d : Dev) (e : Ev) (n : Nat) : (d.event e).corePos n = d.corePos n :=
  Dev.corePos_congr (Dev.event_faults d e) n

/-- A floor that is crossed leaves the positions. -/
@[simp] theorem Dev.crossFloor_corePos (d : Dev) (floor value unit_ index n : Nat) :
    (d.crossFloor floor value unit_ index).corePos n = d.corePos n := by
  unfold Dev.crossFloor
  dsimp only
  split_ifs
  · rfl
  · rw [Dev.faultRec_corePos, Dev.event_corePos]
    rfl

@[simp] theorem Dev.crossFloor_store (d : Dev) (floor value unit_ index : Nat) :
    (d.crossFloor floor value unit_ index).store = d.store := by
  unfold Dev.crossFloor
  dsimp only
  split_ifs
  · rfl
  · rw [Dev.faultRec_store, Dev.event_store]

/-! ### The end of held commands (R406, R426) -/

/-- The end of the held commands for a unit changes what replies and events change. -/
theorem Dev.finishFor_shape (d : Dev) (w : HeldFor) (st : Status) (r : Res) :
    ∃ c' i' k' o', d.finishFor w st r = { d with cmd := c', intPend := i', ctrs := k', out := o' } := by
  unfold Dev.finishFor
  refine List.foldlRecOn (motive := fun x : Dev => ∃ c' i' k' o',
    x = { d with cmd := c', intPend := i', ctrs := k', out := o' }) _ _ ⟨_, _, _, _, rfl⟩ fun x hx h _ => ?_
  obtain ⟨_, _, _, _, rfl⟩ := hx
  obtain ⟨_, _, _, _, hf⟩ := Dev.finishHeld_shape _ h st r
  exact ⟨_, _, _, _, hf⟩

@[simp] theorem Dev.finishFor_store (d : Dev) (w : HeldFor) (st : Status) (r : Res) :
    (d.finishFor w st r).store = d.store := by
  obtain ⟨_, _, _, _, h⟩ := d.finishFor_shape w st r; rw [h]
@[simp] theorem Dev.finishFor_faults (d : Dev) (w : HeldFor) (st : Status) (r : Res) :
    (d.finishFor w st r).faults = d.faults := by
  obtain ⟨_, _, _, _, h⟩ := d.finishFor_shape w st r; rw [h]

theorem Dev.finishHeld_ctr (d : Dev) (h : HeldReply) (st : Status) (r : Res) {off : Nat} (ho : notPacketCtr off) :
    (d.finishHeld h st r).ctr off = d.ctr off := by
  unfold Dev.finishHeld
  dsimp only
  split_ifs
  · exact Dev.ctr_congr (Dev.event_ctrs ..) off
  · exact Dev.reply_ctr _ _ _ _ _ ho

/-- Of the counters the end of held commands changes the links' packet counts alone. -/
theorem Dev.finishFor_ctr (d : Dev) (w : HeldFor) (st : Status) (r : Res) {off : Nat} (ho : notPacketCtr off) :
    (d.finishFor w st r).ctr off = d.ctr off := by
  unfold Dev.finishFor
  refine List.foldlRecOn (motive := fun x : Dev => x.ctr off = d.ctr off) _ _ rfl fun x hx h _ => ?_
  rw [Dev.finishHeld_ctr x h st r ho, hx]

/-! ### One spare swap at a time (R29) -/

/-- The failure that is detected now. -/
def Dev.newFailure (d : Dev) (isBank : Bool) (ix : Nat) (limit : Bool) : Failure :=
  { isBank := isBank, ix := ix, mgmt := d.mgmtClk, limit := limit }

/-- With no failure waiting, the one detected is the only one that waits. -/
theorem Dev.detect_first {d : Dev} (h : d.faults.failures = []) (isBank : Bool) (ix : Nat) (limit : Bool) :
    d.detect isBank ix limit =
      { d with faults := { d.faults with failures := [d.newFailure isBank ix limit] } } := by
  simp [Dev.detect, h, Dev.newFailure]


/-- The only failure that waits is the next one, wherever the pointer stands. -/
theorem FaultSt.nextFailure_single {s : FaultSt} {f : Failure} (h : s.failures = [f]) : s.nextFailure = some f := by
  rw [FaultSt.nextFailure, h]
  dsimp only [List.filter_nil]
  split
  next i hi =>
    have here := List.find?_some hi
    simp only [List.any_cons, List.any_nil, Bool.or_false] at here
    simp only [List.find?_cons, here]
  next => rfl

/-- Nothing waits. -/
theorem Dev.serveFailures_nil {d : Dev} (h : d.faults.failures = []) : d.serveFailures = d := by
  rw [Dev.serveFailures, h]
  rfl

/-- A swap runs: what waits goes on waiting. -/
theorem Dev.serveFailures_swapping {d : Dev} (h : d.swapping = true) : d.serveFailures = d := by
  rw [Dev.serveFailures]
  cases d.faults.failures.length with
  | zero => rfl
  | succ n => simp [Dev.nextSwaps, h]

/-- SV2's pointer stands at the block that it served last. -/
def Dev.pointTo (d : Dev) (block : Nat) : Dev := { d with faults := { d.faults with failPtr := block } }

/-- With no failure waiting and no swap running, SV2 serves a failure as it is detected. -/
theorem Dev.detect_served {d : Dev} (hWaits : d.faults.failures = []) (hSwap : d.swapping = false)
    (hRuns : d.svRuns 2 = true) (isBank : Bool) (ix : Nat) (limit : Bool) :
    (d.detect isBank ix limit).serveFailures =
      (d.pointTo (d.newFailure isBank ix limit).block).serveFailure (d.newFailure isBank ix limit) := by
  generalize hf : d.newFailure isBank ix limit = f
  rw [Dev.detect_first hWaits, hf]
  generalize he : ({ d with faults := { d.faults with failures := [f] } } : Dev) = e
  have waits : e.faults.failures = [f] := by rw [← he]
  have free : (e.swapping || !e.svRuns 2) = false := by
    rw [← he]
    show (d.swapping || !d.svRuns 2) = false
    rw [hSwap, hRuns]
    rfl
  have served : ({ e with faults := { e.faults with failures := [], failPtr := f.block } } : Dev) =
      d.pointTo f.block := by
    rw [← he, ← hWaits]
    rfl
  rw [Dev.serveFailures, waits]
  show Dev.nextSwaps 1 e = _
  rw [Dev.nextSwaps, free, if_neg Bool.false_ne_true, FaultSt.nextFailure_single waits]
  dsimp only
  rw [waits, List.erase_cons_head, served]
  rfl

theorem Dev.not_swapping {d : Dev} (hBank : d.store.replacing = none) (hExp : d.mem.copyExp = none) :
    d.swapping = false := by
  rw [Dev.swapping, hBank, hExp]
  rfl

/-- While a swap runs, a failure that is detected waits. -/
theorem Dev.detect_waits {d : Dev} (hWaits : d.faults.failures = []) (hSwap : d.swapping = true) (isBank : Bool)
    (ix : Nat) (limit : Bool) : (d.detect isBank ix limit).serveFailures =
      { d with faults := { d.faults with failures := [d.newFailure isBank ix limit] } } := by
  rw [Dev.detect_first hWaits]
  exact Dev.serveFailures_swapping hSwap

end Sys2Proof.Machine
end

section
/-! PROOF. Reduction cores: a failed check, the retest, the spare or the empty position, and a row of core SRAM
(R485 to R487). -/

namespace Sys2Proof.Machine

/-! ### Positions and spares -/

@[simp] theorem Dev.corePos_setCorePos_same (d : Dev) (n : Nat) (x : CorePos) : (d.setCorePos n x).corePos n = x :=
  Tab.get_set_same ..

theorem Dev.corePos_setCorePos_other (d : Dev) {n m : Nat} (x : CorePos) (h : m ≠ n) :
    (d.setCorePos n x).corePos m = d.corePos m :=
  Tab.get_set_other _ _ _ _ h

@[simp] theorem Dev.corePos_setSpareCore (d : Dev) (n v m : Nat) : (d.setSpareCore n v).corePos m = d.corePos m := rfl

@[simp] theorem Dev.spareCore_setSpareCore_same (d : Dev) (n v : Nat) : (d.setSpareCore n v).spareCore n = v :=
  Tab.get_set_same ..

/-- The position of core `q` of cluster `k`. -/
def posOf (k q : Fin 8) : Nat := 8 * k.val + q.val

theorem posOf_lt (k q : Fin 8) : posOf k q < 64 := by
  simp only [posOf]
  omega

theorem spareOfPos_posOf (k q : Fin 8) : spareOfPos (posOf k q) = k.val / 2 := by
  simp only [spareOfPos, posOf]
  omega

/-- A failed position whose spare is idle and good gives way to it (R486). -/
theorem Dev.swapCore_idle {d : Dev} {n : Nat} (h : d.spareCore (spareOfPos n) = 0) :
    (d.swapCore n).corePos n = { st := .filled, spare := spareOfPos n + 1 } ∧
    (d.swapCore n).spareCore (spareOfPos n) = 1 := by
  have faults : (d.swapCore n).faults = (d.fillPosition n).faults := by
    rw [Dev.swapCore, if_pos h, Dev.finishFor_faults]
  constructor
  · rw [Dev.corePos_congr faults, Dev.fillPosition, Dev.faultRec_corePos, Dev.event_corePos,
      Dev.corePos_setSpareCore, Dev.corePos_setCorePos_same]
  · rw [Dev.spareCore_congr (congrArg FaultSt.spareCores faults), Dev.fillPosition]
    refine (Dev.spareCore_congr ((Dev.faultRec_spareCores ..).trans ?_) _).trans
      (Dev.spareCore_setSpareCore_same (d.setCorePos n { st := .filled, spare := spareOfPos n + 1 }) _ 1)
    rw [Dev.event_faults]

@[simp] theorem Dev.closeCluster_corePos (d : Dev) (k n : Nat) : (d.closeCluster k).corePos n = d.corePos n := by
  unfold Dev.closeCluster
  split_ifs
  · exact Dev.event_corePos ..
  · rfl

@[simp] theorem Dev.checkCores_corePos (d : Dev) (i n : Nat) : (d.checkCores i).corePos n = d.corePos n := by
  unfold Dev.checkCores
  split_ifs
  · exact Dev.crossFloor_corePos ..
  · rfl

/-- A failed position whose spare is in use, or has failed its test, is left empty (R486). -/
theorem Dev.swapCore_spent {d : Dev} {n : Nat} (h : d.spareCore (spareOfPos n) ≠ 0) :
    ((d.swapCore n).corePos n).st = .empty := by
  rw [Dev.swapCore, if_neg h, Dev.corePos_congr (Dev.finishFor_faults ..), Dev.emptyPosition]
  simp

/-- SV2 serves a stopped position at once where no swap runs and no failure waits (R29). -/
theorem Dev.detect_core {d : Dev} {n : Nat} (hWaits : d.faults.failures = []) (hSwap : d.swapping = false)
    (hRuns : d.svRuns 2 = true) (hn : n < 64) (hst : (d.corePos n).st = .stopped) :
    (d.detect false n false).serveFailures = (d.pointTo (d.newFailure false n false).block).swapCore n := by
  rw [Dev.detect_served hWaits hSwap hRuns]
  exact (if_neg Bool.false_ne_true).trans ((if_neg (Nat.not_le.mpr hn)).trans (if_pos hst))

/-! ### The check, the retest and core SRAM -/

/-- R485: a core whose check fails stops. -/
theorem exec_coreCheckFailure_idle {s : State} {k q : Fin 8} {ok : Bool} (ha : s.d.awake = true)
    (hst : (s.d.corePos (posOf k q)).st = .filled) :
    exec (.coreCheckFailure k q .idle ok) s = .next (s.put (s.d.stopCore (posOf k q))) := by
  show execCoreCheckFailure k q .idle ok s = _
  simp only [posOf] at hst
  simp [execCoreCheckFailure, ha, hst, goto_eq, posOf]

/-- R487: a word of core SRAM goes to its own handling, then SV2 serves what waits. -/
theorem exec_coreCheckFailure_sram {s : State} {k q : Fin 8} {row ctx : BitVec 16} {seq : Word} {ok : Bool}
    (ha : s.d.awake = true) (hst : (s.d.corePos (posOf k q)).st = .filled) :
    exec (.coreCheckFailure k q (.sram row ctx seq) ok) s =
      .next (s.put (s.d.coreSramFault (posOf k q) row.toNat ctx seq).serveFailures) := by
  show execCoreCheckFailure k q (.sram row ctx seq) ok s = _
  simp only [posOf] at hst
  simp [execCoreCheckFailure, ha, hst, goto_eq, posOf]

/-- A core that passes its retest, and has not failed within the second before, runs again (R485). -/
theorem exec_coreRetestComplete_pass {s : State} {k q : Fin 8} (ha : s.d.awake = true) (hRuns : s.d.svRuns 2 = true)
    (hst : (s.d.corePos (posOf k q)).st = .stopped) (hPrev : (s.d.corePos (posOf k q)).prevFail = none)
    (hForced : s.d.forced (posOf k q) = false) (hWaits : s.d.faults.failures = []) :
    exec (.coreRetestComplete k q true) s = .next (s.put
      ((s.d.setCorePos (posOf k q) { s.d.corePos (posOf k q) with st := .filled }).faultRec 2 1 (posOf k q) 0 1
        (s.d.coreLeft (posOf k q)) 0)) := by
  show execCoreRetestComplete k q true s = _
  simp only [posOf] at hst hPrev hForced
  simp [execCoreRetestComplete, ha, hRuns, hst, hPrev, hForced, hWaits, goto_eq, posOf]

/-- A core that fails its retest has failed, and SV2 serves what waits (R486). -/
theorem exec_coreRetestComplete_fail {s : State} {k q : Fin 8} (ha : s.d.awake = true) (hRuns : s.d.svRuns 2 = true)
    (hst : (s.d.corePos (posOf k q)).st = .stopped) (hWaits : s.d.faults.failures = []) :
    exec (.coreRetestComplete k q false) s =
      .next (s.put (s.d.detect false (posOf k q) false).serveFailures) := by
  show execCoreRetestComplete k q false s = _
  simp only [posOf] at hst
  simp [execCoreRetestComplete, ha, hRuns, hst, hWaits, goto_eq, posOf]

/-- The device remembers when a row failed (log entry 175). -/
def Dev.markRow (d : Dev) (n row : Nat) : Dev :=
  { d with faults := { d.faults with sramAt := Tab.put d.faults.sramAt (n * 65536 + row) d.now } }

/-- A row's failure as SV2 notes it, with no open chunk in the row. -/
def Dev.noteRow (d : Dev) (n row : Nat) (ctx : BitVec 16) (seq : Word) : Dev :=
  (d.markRow n row).faultRec 2 1 n row 6 (d.coreLeft n) (ctx.toNat <<< 32 ||| seq.toNat)

/-- The row has failed within the second before (R487). -/
def Dev.rowFailedSoon (d : Dev) (n row : Nat) : Bool :=
  match Tab.find d.faults.sramAt (n * 65536 + row) with
  | some t => decide (d.now ≤ t + 1000 * clkMs)
  | none => false

/-- With no open chunk in the row, its failure is noted, and a second one within 1 s stops the core and fails its
position. -/
theorem Dev.coreSramFault_eq {d : Dev} {ctx : BitVec 16} {seq : Word} (hChunk : d.chunk? ctx.toNat seq = none)
    (n row : Nat) : d.coreSramFault n row ctx seq =
      if d.rowFailedSoon n row then ((d.noteRow n row ctx seq).stopCore n).detect false n false
      else d.noteRow n row ctx seq := by
  have marked : Dev.chunk? { d with faults := { d.faults with
      sramAt := Tab.put d.faults.sramAt (n * 65536 + row) d.now } } ctx.toNat seq = none := hChunk
  simp only [Dev.coreSramFault, marked]
  rfl

theorem Dev.rowFailedSoon_of_none {d : Dev} {n row : Nat}
    (h : Tab.find d.faults.sramAt (n * 65536 + row) = none) : d.rowFailedSoon n row = false := by
  rw [Dev.rowFailedSoon, h]

theorem Dev.rowFailedSoon_of_some {d : Dev} {n row t : Nat}
    (h : Tab.find d.faults.sramAt (n * 65536 + row) = some t) (hSoon : d.now ≤ t + 1600000000) :
    d.rowFailedSoon n row = true := by
  rw [Dev.rowFailedSoon, h]
  exact decide_eq_true hSoon

/-- A row's failure is remembered with its time, takes a record, and leaves the positions. -/
theorem Dev.noteRow_effect {d : Dev} (hRuns : d.svRuns 2 = true) (n row : Nat) (ctx : BitVec 16) (seq : Word) :
    (∀ i, (d.noteRow n row ctx seq).corePos i = d.corePos i) ∧
    (d.noteRow n row ctx seq).faults.fseq = d.faults.fseq + 1 ∧
    Tab.find (d.noteRow n row ctx seq).faults.sramAt (n * 65536 + row) = some d.now := by
  refine ⟨fun i => ?_, ?_, ?_⟩
  · rw [Dev.noteRow, Dev.faultRec_corePos]
    rfl
  · exact Dev.faultRec_fseq (d := d.markRow n row) hRuns ..
  · rw [Dev.noteRow, Dev.faultRec_sramAt, Dev.markRow, Tab.find_put_same]

theorem Dev.noteRow_failures (d : Dev) (n row : Nat) (ctx : BitVec 16) (seq : Word) :
    (d.noteRow n row ctx seq).faults.failures = d.faults.failures := by
  rw [Dev.noteRow, Dev.faultRec_failures]
  rfl

/-- A core that stops changes its own position alone. -/
theorem Dev.stopCore_effect (d : Dev) (n : Nat) : ((d.stopCore n).corePos n).st = .stopped ∧
    ((d.stopCore n).corePos n).failAt = some d.now ∧ ∀ m, m ≠ n → (d.stopCore n).corePos m = d.corePos m := by
  simp only [Dev.stopCore, Dev.corePos_setCorePos_same, true_and]
  exact fun m hm => d.corePos_setCorePos_other _ hm

/-- A row that fails again within 1 s gives its position to an idle spare. -/
theorem Dev.coreSramFault_swaps {d : Dev} {n row t : Nat} {ctx : BitVec 16} {seq : Word} (hRuns : d.svRuns 2 = true)
    (hChunk : d.chunk? ctx.toNat seq = none) (hWaits : d.faults.failures = []) (hSwap : d.swapping = false)
    (hn : n < 64) (hSpare : d.spareCore (spareOfPos n) = 0)
    (hRow : Tab.find d.faults.sramAt (n * 65536 + row) = some t) (hSoon : d.now ≤ t + 1600000000) :
    ((d.coreSramFault n row ctx seq).serveFailures.corePos n).spare = spareOfPos n + 1 ∧
    (d.coreSramFault n row ctx seq).serveFailures.spareCore (spareOfPos n) = 1 := by
  rw [Dev.coreSramFault_eq hChunk, if_pos (Dev.rowFailedSoon_of_some hRow hSoon)]
  generalize he : (d.noteRow n row ctx seq).stopCore n = e
  obtain ⟨_, _, _, _, hNote⟩ := Dev.faultRec_shape (d.markRow n row) 2 1 n row 6 (d.coreLeft n)
    (ctx.toNat <<< 32 ||| seq.toNat)
  have waits : e.faults.failures = [] := by rw [← he, ← hWaits, ← d.noteRow_failures n row ctx seq]; rfl
  have swap : e.swapping = false := by rw [← he, Dev.noteRow, hNote]; exact hSwap
  have runs : e.svRuns 2 = true := by rw [← he, Dev.noteRow, hNote]; exact hRuns
  have stopped : (e.corePos n).st = .stopped := by rw [← he]; exact (Dev.stopCore_effect _ n).1
  have spare : e.spareCore (spareOfPos n) = 0 := by
    rw [← he, ← hSpare]
    exact Dev.spareCore_congr (Dev.faultRec_spareCores ..) _
  rw [Dev.detect_core waits swap runs hn stopped]
  obtain ⟨hpos, hspare⟩ := Dev.swapCore_idle (d := e.pointTo (e.newFailure false n false).block) spare
  exact ⟨by rw [hpos], hspare⟩

/-- SPARE_IDLE_TEST of a spare that is not in use (R486). -/
theorem exec_spareIdleTest_idle {s : State} {n : Fin 4} {b : Bool} (ha : s.d.awake = true)
    (hRuns : s.d.svRuns 2 = true) (h : s.d.spareCore n.val ≠ 1) :
    exec (.spareIdleTest n b) s = .next (s.put (s.d.setSpareCore n.val (if b then 0 else 2))) := by
  show execSpareIdleTest n b s = _
  simp [execSpareIdleTest, ha, hRuns, h, goto_eq]

end Sys2Proof.Machine
end

section
/-! PROOF. Store banks: a failing bank takes a spare of its die, or its position closes, and the end of a replacement
(R21, R131, R132). -/

namespace Sys2Proof.Machine

/-- A spare bank is taken of its own die alone. -/
theorem Dev.takeBankSpare_bankSpares (d : Dev) {die : Nat} (h : die < 2) :
    (d.takeBankSpare die).bankSpares die = d.bankSpares die - 1 ∧
    (d.takeBankSpare die).bankSpares (1 - die) = d.bankSpares (1 - die) := by
  obtain rfl | rfl : die = 0 ∨ die = 1 := by omega
  · exact ⟨rfl, rfl⟩
  · exact ⟨rfl, rfl⟩

theorem Dev.takeBankSpare_closed (d : Dev) (die : Nat) : (d.takeBankSpare die).store.closed = d.store.closed := by
  unfold Dev.takeBankSpare
  split_ifs <;> rfl

/-- With a spare left on its die, a bank's replacement starts (R131). -/
theorem Dev.replaceBank_spare {d : Dev} {b : Nat} (hb : b < 1024) (h : d.bankSpares (dieOf b) ≠ 0) :
    (d.replaceBank b).store.replacing = some b ∧
    (d.replaceBank b).bankSpares (dieOf b) = d.bankSpares (dieOf b) - 1 ∧
    (d.replaceBank b).bankSpares (1 - dieOf b) = d.bankSpares (1 - dieOf b) ∧
    (d.replaceBank b).store.closed = d.store.closed := by
  have store : (d.replaceBank b).store = { (d.mapSpare b).store with replacing := some b } := by
    rw [Dev.replaceBank, if_neg h, Dev.faultRec_store]
  have spares : ∀ die, (d.replaceBank b).bankSpares die = (d.takeBankSpare (dieOf b)).bankSpares die := fun die => by
    rw [Dev.bankSpares, store]
    rfl
  obtain ⟨own, other⟩ := d.takeBankSpare_bankSpares (die := dieOf b) (by simp only [dieOf]; omega)
  refine ⟨by rw [store], (spares _).trans own, (spares _).trans other, ?_⟩
  rw [store]
  exact d.takeBankSpare_closed _

@[simp] theorem Dev.checkStore_store (d : Dev) (b : Nat) : (d.checkStore b).store = d.store := by
  unfold Dev.checkStore
  split_ifs
  · exact Dev.crossFloor_store ..
  · rfl

/-- With no spare left on its die, the bank's position closes (R132). -/
theorem Dev.replaceBank_closes {d : Dev} {b : Nat} (h : d.bankSpares (dieOf b) = 0) :
    (d.replaceBank b).store = { d.store with closed := d.store.closed ++ [b] } := by
  rw [Dev.replaceBank, if_pos h]
  simp

/-- A bank in service whose read was uncorrectable has failed, and SV2 serves what waits. -/
theorem exec_bankReplacementStart_uncorrectable {s : State} {b : Fin 1024} (ha : s.d.awake = true)
    (hRuns : s.d.svRuns 2 = true) (hOpen : s.d.store.closed.contains b.val = false) :
    exec (.bankReplacementStart b .uncorrectable) s = .next (s.put (s.d.detect true b.val false).serveFailures) := by
  show execBankReplacementStart b .uncorrectable s = _
  simp only [execBankReplacementStart, ha, hRuns, hOpen, goto_eq]
  rfl

/-- SV2 replaces or closes a failing bank at once where no swap runs and no failure waits (R29). -/
theorem Dev.detect_bank {d : Dev} {b : Nat} (hWaits : d.faults.failures = []) (hSwap : d.swapping = false)
    (hRuns : d.svRuns 2 = true) (hOpen : d.store.closed.contains b = false) :
    (d.detect true b false).serveFailures = (d.pointTo (d.newFailure true b false).block).replaceBank b := by
  rw [Dev.detect_served hWaits hSwap hRuns]
  refine (if_pos rfl).trans ((if_neg ?_).trans (if_neg Bool.false_ne_true))
  show ¬ d.store.closed.contains b = true
  rw [hOpen]
  exact Bool.false_ne_true

/-- The failing bank still holds a live cell. -/
theorem exec_bankRetire_live {s : State} {b : Nat} (hRepl : s.d.store.replacing = some b)
    (hLive : (s.d.store.slots.liveIn (s.d.store.slots.bankBefore b)).isEmpty = false) :
    exec .bankRetire s = .next s := by
  show execBankRetire s = _
  simp only [execBankRetire, hRepl, hLive, Bool.not_false, Bool.or_true, if_true]
  rfl

/-- The replacement of a bank has ended (R131). -/
def Dev.endReplacement (d : Dev) (b : Nat) : Dev :=
  ({ d with store := { d.store with replacing := none } }.bump (ctrStore 0x138)).finishFor (.spareBank b) .ok .empty

theorem exec_bankRetire_ends {s : State} {b : Nat} (ha : s.d.awake = true) (hRuns : s.d.svRuns 2 = true)
    (hRepl : s.d.store.replacing = some b)
    (hDead : (s.d.store.slots.liveIn (s.d.store.slots.bankBefore b)).isEmpty = true)
    (hWaits : s.d.faults.failures = []) : exec .bankRetire s = .next (s.put (s.d.endReplacement b)) := by
  have waits : (s.d.endReplacement b).faults.failures = [] := by
    rw [Dev.endReplacement, Dev.finishFor_faults, Dev.bump_faults, hWaits]
  show execBankRetire s = _
  rw [← Dev.serveFailures_nil waits]
  simp only [execBankRetire, hRepl, ha, hRuns, hDead, goto_eq]
  rfl

theorem Dev.endReplacement_effect (d : Dev) (b : Nat) :
    (d.endReplacement b).store = { d.store with replacing := none } ∧
    (d.endReplacement b).ctr (ctrStore 0x138) = (d.ctr (ctrStore 0x138) + 1) % 2 ^ 64 := by
  constructor
  · rw [Dev.endReplacement, Dev.finishFor_store, Dev.bump_store]
  · rw [Dev.endReplacement, Dev.finishFor_ctr _ _ _ _ (by unfold notPacketCtr; decide), Dev.ctr_bump_same]
    rfl

end Sys2Proof.Machine
end

section
/-! PROOF. The diagnostic commands that act: a forced spare swap and an injected error (R499, R500). -/

namespace Sys2Proof.Machine

/-- A command's work while the core that does it runs. -/
theorem needs_of_runs {d : Dev} {n : Nat} (h : d.svRuns n = true) (f : Dev → Dev × Option (Status × Res)) :
    needs n f d = f d :=
  if_pos h

theorem Dev.corePos_touch (d : Dev) (c : CmdCtx) (n : Nat) : (d.touch c).corePos n = d.corePos n :=
  Dev.corePos_congr (Dev.touch_faults d c) n

/-- The reply of a command is held for a unit. -/
theorem Dev.holdReply_held (d : Dev) (c : CmdCtx) (op : Nat) (w : HeldFor) :
    (d.holdReply c op w).1.cmd.held.any (fun h => h.what == w) = true := by
  simp [Dev.holdReply]

/-- A forced core swap stops the position (R500). -/
theorem exec_diagSpareForce_core {s : State} {c : CmdCtx} {ix : BitVec 16}
    (h : s.d.Runs (.diagSpareForce c false ix) c 0x0C05 .operator) (hRuns : s.d.svRuns 2 = true)
    (hix : ix.toNat < 64) (hStopped : ∀ i, i < 64 → (s.d.corePos i).st ≠ .stopped)
    (hst : (s.d.corePos ix.toNat).st = .filled) (hSpare : s.d.spareCore (spareOfPos ix.toNat) = 0) :
    exec (.diagSpareForce c false ix) s = .next (s.put
      (((s.d.touch c).setCorePos ix.toNat { s.d.corePos ix.toNat with st := .stopped }).holdReply c 0x0C05
        (.spareCore ix.toNat)).1) := by
  have noneStopped : ((List.range 64).any fun i => decide (((s.d.touch c).corePos i).st = .stopped)) = false := by
    rw [List.any_eq_false]
    intro i hi
    simpa [Dev.corePos_touch] using hStopped i (List.mem_range.mp hi)
  have spare : (s.d.touch c).spareCore (spareOfPos ix.toNat) = 0 :=
    (Dev.spareCore_congr (by rw [Dev.touch_faults]) _).trans hSpare
  have fills : ¬(decide (((s.d.touch c).corePos ix.toNat).st ≠ .filled) ||
      decide ((s.d.touch c).spareCore (spareOfPos ix.toNat) ≠ 0)) = true := by
    simp [Dev.corePos_touch, hst, spare]
  refine congrArg (goto s) (Dev.runCmd_holds h ?_)
  refine (if_neg (Nat.not_le.mpr hix)).trans ?_
  rw [needs_of_runs (by rwa [Dev.svRuns_touch])]
  refine (if_neg Bool.false_ne_true).trans ((if_neg (by rw [noneStopped]; exact Bool.false_ne_true)).trans
    ((if_neg fills).trans ?_))
  rw [Dev.corePos_touch]
  rfl

/-- A forced bank swap starts the replacement (R500). -/
theorem exec_diagSpareForce_bank {s : State} {c : CmdCtx} {ix : BitVec 16}
    (h : s.d.Runs (.diagSpareForce c true ix) c 0x0C05 .operator) (hRuns : s.d.svRuns 2 = true)
    (hWaits : s.d.faults.failures = []) (hSwap : s.d.swapping = false) (hix : ix.toNat < 1024)
    (hOpen : s.d.store.closed.contains ix.toNat = false) (hSpare : s.d.bankSpares (dieOf ix.toNat) ≠ 0) :
    exec (.diagSpareForce c true ix) s = .next (s.put
      (((s.d.touch c).replaceBank ix.toNat).holdReply c 0x0C05 (.spareBank ix.toNat)).1) := by
  have idle : (s.d.touch c).swapping = false := by rwa [Dev.swapping, Dev.touch_store, Dev.touch_mem]
  have repl : (s.d.touch c).store.replacing.isSome = false := by
    rw [Dev.swapping, Bool.or_eq_false_iff] at idle
    exact idle.1
  refine congrArg (goto s) (Dev.runCmd_holds h ?_)
  refine (if_neg (Nat.not_le.mpr hix)).trans ?_
  rw [needs_of_runs (by rwa [Dev.svRuns_touch])]
  refine (if_pos rfl).trans ((if_neg ?_).trans ((if_neg ?_).trans ?_))
  · rw [repl, Dev.touch_faults, hWaits]
    exact Bool.false_ne_true
  · rw [Dev.touch_store, hOpen]
    simpa [Dev.bankSpares] using hSpare
  · rw [idle, if_neg Bool.false_ne_true]
    rfl

/-- An armed error is of this word of this array (log entry 20). -/
def Inject.isOf (a i w : Nat) (y : Inject) : Bool := y.array == a && y.index == i && y.word == w

theorem Inject.isOf_iff {a i w : Nat} {y : Inject} : y.isOf a i w = true ↔ y.array = a ∧ y.index = i ∧ y.word = w := by
  simp [Inject.isOf, and_assoc]

/-- The errors armed once another is: one with the weight of both takes the place of those of its word (R499). -/
def armed (l : List Inject) (a i w : Nat) (two : Bool) : List Inject :=
  l.filter (fun y => !y.isOf a i w) ++ [{ array := a, index := i, word := w, two := two || l.any (Inject.isOf a i w) }]

/-- DIAG_INJECT of a word that its array has arms the error (R500). -/
theorem exec_diagInject {s : State} {c : CmdCtx} {a : Byte} {ix : Word} {w : BitVec 16} {two : Bool}
    (h : s.d.Runs (.diagInject c a ix w two) c 0x0C06 (if s.d.boot.st = .run then .owner else .operator))
    (hix : ix.toNat < injectSize a.toNat) (hw : 0x10 ≤ a.toNat → a.toNat ≤ 0x14 → w.toNat < 16) :
    exec (.diagInject c a ix w two) s = .next (s.put (({ s.d.touch c with faults := { s.d.faults with
      injects := armed s.d.faults.injects a.toNat ix.toNat w.toNat two } }).reply c 0x0C06 .ok .empty)) := by
  have inArray : ¬(decide (injectSize a.toNat ≤ ix.toNat) ||
      decide (0x10 ≤ a.toNat ∧ a.toNat ≤ 0x14) && decide (16 ≤ w.toNat)) = true := by
    simp only [Bool.or_eq_true, Bool.and_eq_true, decide_eq_true_eq]
    omega
  refine congrArg (goto s) (Dev.runCmd_answers h ?_)
  refine (if_neg inArray).trans ?_
  rw [Dev.touch_faults]
  rfl

/-- In a word that holds none the error is armed as it stands. -/
theorem armed_of_none {l : List Inject} {a i w : Nat} (two : Bool)
    (h : ∀ y ∈ l, ¬(y.array = a ∧ y.index = i ∧ y.word = w)) :
    armed l a i w two = l ++ [{ array := a, index := i, word := w, two := two }] := by
  have other : ∀ y ∈ l, y.isOf a i w = false := fun y hy => by
    rw [← Bool.not_eq_true, Inject.isOf_iff]
    exact h y hy
  have keeps : l.filter (fun y => !y.isOf a i w) = l := List.filter_eq_self.mpr fun y hy => by rw [other y hy]; rfl
  have first : l.any (Inject.isOf a i w) = false := List.any_eq_false.mpr fun y hy => by rw [other y hy]; decide
  rw [armed, keeps, first, Bool.or_false]

/-- A word that holds an error sees one of two symbols (R499). -/
theorem armed_of_mem {l : List Inject} {a i w : Nat} (two : Bool) {y : Inject} (hy : y ∈ l)
    (h : y.array = a ∧ y.index = i ∧ y.word = w) :
    (armed l a i w two).filter (Inject.isOf a i w) = [{ array := a, index := i, word := w, two := true }] := by
  have held : l.any (Inject.isOf a i w) = true := List.any_eq_true.mpr ⟨y, hy, Inject.isOf_iff.mpr h⟩
  rw [armed, held, Bool.or_true, List.filter_append, List.filter_filter]
  simp [Inject.isOf]

end Sys2Proof.Machine

open Sys2Proof Sys2Proof.Machine

/-- Settles O23: the cores' clauses by the position served, the banks' by the store, and each command by its effect
before its reply. -/
theorem coresAndBanks : Obligations.CoresAndBanks := by
  refine ⟨fun s k q ha hst => ?_, fun s k q ha hRuns hst hPrev hForced hWaits => ?_,
    fun s k q ha hRuns hst hSpare hWaits hBank hExp => ?_, fun s k q ha hRuns hst hSpare hWaits hBank hExp => ?_,
    fun s k q ha hRuns hst hWaits hSwap => ?_, fun s k q row ctx seq b ha hRuns hst hChunk hWaits hRow => ?_,
    fun s k q row ctx seq b n ha hRuns hst hChunk hWaits hBank hExp hSpare hRow hSoon => ?_,
    fun s n b ha hRuns h => exec_spareIdleTest_idle ha hRuns h,
    fun s b ha hRuns hBank hExp hWaits hOpen hSpare => ?_, fun s b ha hRuns hBank hExp hWaits hOpen hSpare => ?_,
    fun s b ha hRuns hBank hOpen hWaits => ?_, fun s b _ _ hRepl hLive => exec_bankRetire_live hRepl hLive,
    fun s b ha hRuns hRepl hDead hWaits => ?_, fun s c ix h hRuns hix hStopped hst hSpare => ?_,
    fun s c ix h hRuns hWaits hExp hix hBank hOpen hSpare => ?_, fun s c a ix w two h hix hw hNone => ?_,
    fun s c a ix w two y h hix hw hy hArray hIndex hWord => ?_⟩
  · exact ⟨_, exec_coreCheckFailure_idle ha hst, s.d.stopCore_effect _⟩
  · refine ⟨_, exec_coreRetestComplete_pass ha hRuns hst hPrev hForced hWaits, ?_, ?_, Dev.faultRec_spareCores ..⟩
    · rw [State.put_d, Dev.faultRec_corePos]
      exact congrArg CorePos.st (Dev.corePos_setCorePos_same ..)
    · exact Dev.faultRec_fseq (d := s.d.setCorePos _ _) hRuns ..
  · have served := Dev.detect_core hWaits (Dev.not_swapping hBank hExp) hRuns (posOf_lt k q) hst
    rw [← spareOfPos_posOf k q] at hSpare ⊢
    obtain ⟨hpos, hspare⟩ := Dev.swapCore_idle
      (d := s.d.pointTo (s.d.newFailure false (posOf k q) false).block) hSpare
    refine ⟨_, exec_coreRetestComplete_fail ha hRuns hst hWaits, ?_⟩
    rw [State.put_d, served]
    exact ⟨congrArg CorePos.st hpos, congrArg CorePos.spare hpos, hspare⟩
  · have served := Dev.detect_core hWaits (Dev.not_swapping hBank hExp) hRuns (posOf_lt k q) hst
    rw [← spareOfPos_posOf k q] at hSpare
    refine ⟨_, exec_coreRetestComplete_fail ha hRuns hst hWaits, ?_⟩
    rw [State.put_d, served]
    exact Dev.swapCore_spent (d := s.d.pointTo _) hSpare
  · have swapping : s.d.swapping = true := by simpa [Dev.swapping] using hSwap
    refine ⟨_, exec_coreRetestComplete_fail ha hRuns hst hWaits, ?_⟩
    rw [State.put_d, Dev.detect_waits hWaits swapping]
    exact ⟨rfl, fun _ => rfl, rfl⟩
  · have quiet : (s.d.noteRow (posOf k q) row.toNat ctx seq).faults.failures = [] :=
      (s.d.noteRow_failures _ _ _ _).trans hWaits
    refine ⟨_, exec_coreCheckFailure_sram ha hst, ?_⟩
    rw [State.put_d, Dev.coreSramFault_eq hChunk, Dev.rowFailedSoon_of_none (n := posOf k q) hRow,
      if_neg Bool.false_ne_true, Dev.serveFailures_nil quiet]
    exact Dev.noteRow_effect hRuns ..
  · rw [← spareOfPos_posOf k q] at hSpare ⊢
    exact ⟨_, exec_coreCheckFailure_sram ha hst, Dev.coreSramFault_swaps hRuns hChunk hWaits
      (Dev.not_swapping hBank hExp) (posOf_lt k q) hSpare hRow hSoon⟩
  · refine ⟨_, exec_bankReplacementStart_uncorrectable ha hRuns hOpen, ?_⟩
    rw [State.put_d, Dev.detect_bank hWaits (Dev.not_swapping hBank hExp) hRuns hOpen]
    exact Dev.replaceBank_spare (d := s.d.pointTo _) b.isLt hSpare
  · refine ⟨_, exec_bankReplacementStart_uncorrectable ha hRuns hOpen, ?_⟩
    rw [State.put_d, Dev.detect_bank hWaits (Dev.not_swapping hBank hExp) hRuns hOpen,
      Dev.replaceBank_closes (d := s.d.pointTo (s.d.newFailure true b.val false).block) hSpare]
    exact ⟨hBank, rfl⟩
  · have swapping : s.d.swapping = true := by simp [Dev.swapping, hBank]
    refine ⟨_, exec_bankReplacementStart_uncorrectable ha hRuns hOpen, ?_⟩
    rw [State.put_d, Dev.detect_waits hWaits swapping]
    exact ⟨rfl, rfl⟩
  · exact ⟨_, exec_bankRetire_ends ha hRuns hRepl hDead hWaits, s.d.endReplacement_effect b⟩
  · refine ⟨_, exec_diagSpareForce_core h hRuns hix hStopped hst hSpare, ?_, Dev.holdReply_held ..⟩
    exact congrArg CorePos.st (Dev.corePos_setCorePos_same (s.d.touch c) _ _)
  · have spare : (s.d.touch c).bankSpares (dieOf ix.toNat) ≠ 0 := by rwa [Dev.bankSpares, Dev.touch_store]
    exact ⟨_, exec_diagSpareForce_bank h hRuns hWaits (Dev.not_swapping hBank hExp) hix hOpen hSpare,
      (Dev.replaceBank_spare hix spare).1, Dev.holdReply_held ..⟩
  · refine ⟨_, exec_diagInject h hix hw, ?_, ?_⟩
    · rw [State.put_d, Dev.reply_faults]
      exact armed_of_none two hNone
    · rw [State.put_d, Dev.reply_fwd]
      exact Dev.touch_fwd s.d c
  · refine ⟨_, exec_diagInject h hix hw, ?_⟩
    rw [State.put_d, Dev.reply_faults]
    exact armed_of_mem two hy ⟨hArray, hIndex, hWord⟩
end

section
/-! PROOF. Sparse tables under a change of one entry and of every entry, and the maximum of a list. -/

namespace Sys2Proof

theorem Tab.find_adj_same {α : Type} (t : Tab α) (n : Nat) (g : α → α) :
    Tab.find (Tab.adj t n g) n = (Tab.find t n).map g := by
  unfold Tab.adj
  split
  · next found => rw [found]; rfl
  · next found => rw [Tab.find_put_same, found]; rfl

/-- Rewriting the entries of other keys leaves what a table reads at a key. -/
theorem Tab.get_foldl_set_absent {α : Type} [DecidableEq α] (g : α → α) (dflt : α) {k : Nat} (l t : Tab α)
    (h : ∀ e ∈ l, e.1 ≠ k) :
    Tab.get (l.foldl (fun t e => Tab.set t e.1 (g e.2) dflt) t) k dflt = Tab.get t k dflt := by
  induction l generalizing t with
  | nil => rfl
  | cons e r ih =>
    obtain ⟨he, hr⟩ := List.forall_mem_cons.mp h
    exact (ih _ hr).trans (Tab.get_set_other _ _ _ _ he.symm)

/-- A table whose entries are rewritten one after the other reads at a key as the key's only entry does. -/
theorem Tab.get_foldl_set {α : Type} [DecidableEq α] (g : α → α) (dflt : α) {k : Nat} {v : α} (l t : Tab α)
    (h : l.filter (fun e => e.1 == k) = [(k, v)]) :
    Tab.get (l.foldl (fun t e => Tab.set t e.1 (g e.2) dflt) t) k dflt = g v := by
  induction l generalizing t with
  | nil => simp at h
  | cons e r ih =>
    by_cases he : e.1 = k
    · rw [List.filter_cons_of_pos (by simpa using he)] at h
      obtain ⟨rfl, hr⟩ := List.cons.inj h
      exact (Tab.get_foldl_set_absent g dflt r _ (by simpa using hr)).trans (Tab.get_set_same ..)
    · rw [List.filter_cons_of_neg (by simpa using he)] at h
      exact ih _ h

/-- The maximum that a fold takes bounds its start and every value. -/
theorem foldl_max_bounds (g : Nat → Nat) (l : List Nat) (a : Nat) :
    a ≤ l.foldl (fun m c => max m (g c)) a ∧ ∀ k ∈ l, g k ≤ l.foldl (fun m c => max m (g c)) a := by
  induction l generalizing a with
  | nil => simp
  | cons c r ih =>
    obtain ⟨first, rest⟩ := ih (max a (g c))
    refine ⟨le_trans (le_max_left ..) first, fun k hk => ?_⟩
    rcases List.mem_cons.mp hk with rfl | hk
    · exact le_trans (le_max_right ..) first
    · exact rest k hk

end Sys2Proof
end

section
/-! PROOF. What the discard and the release of a copy leave as they were (R119, R123, R130, R444, R512). -/

namespace Sys2Proof.Machine

/-- `e` comes from `d` by work that leaves the queues, the copies on the wire, the ports, the tables and the loop
queue alone, takes back nothing that was sent, and counts in the counters `cs` only. -/
structure Dev.Keeps (cs : List Nat) (d e : Dev) : Prop where
  queues : e.store.queues = d.store.queues
  sending : e.store.sending = d.store.sending
  lost : e.store.slots.lost = d.store.slots.lost
  ports : e.ports = d.ports
  fwd : e.fwd = d.fwd
  loopQ : e.loopQ = d.loopQ
  sent : d.out ⊆ e.out
  ctr : ∀ o, o ∉ cs → e.ctr o = d.ctr o

theorem Dev.Keeps.refl (cs : List Nat) (d : Dev) : d.Keeps cs d :=
  ⟨rfl, rfl, rfl, rfl, rfl, rfl, List.Subset.refl _, fun _ _ => rfl⟩

theorem Dev.Keeps.trans {cs : List Nat} {a b c : Dev} (h : a.Keeps cs b) (k : b.Keeps cs c) : a.Keeps cs c :=
  ⟨k.queues.trans h.queues, k.sending.trans h.sending, k.lost.trans h.lost, k.ports.trans h.ports,
    k.fwd.trans h.fwd, k.loopQ.trans h.loopQ, fun _ ho => k.sent (h.sent ho),
    fun o ho => (k.ctr o ho).trans (h.ctr o ho)⟩

theorem Dev.Keeps.mono {cs ds : List Nat} {a b : Dev} (h : a.Keeps cs b) (hs : cs ⊆ ds) : a.Keeps ds b :=
  { h with ctr := fun o ho => h.ctr o fun hc => ho (hs hc) }

theorem Dev.keeps_bumpBy (d : Dev) {cs : List Nat} {a : Nat} (n : Nat) (h : a ∈ cs) : d.Keeps cs (d.bumpBy a n) :=
  { Dev.Keeps.refl cs d with
    ctr := fun o ho => by
      have other : o ≠ a := fun e => ho (e ▸ h)
      simp only [Dev.ctr, Dev.bumpBy, Tab.get_set_other _ _ _ _ other] }

/-- One count more on both sides. -/
theorem Dev.Keeps.bump {cs : List Nat} {d e : Dev} (h : d.Keeps cs e) (a : Nat) : (d.bump a).Keeps cs (e.bump a) :=
  { h with
    ctr := fun o ho => by
      by_cases ha : o = a
      · rw [ha, Dev.ctr_bump_same, Dev.ctr_bump_same, h.ctr a (ha ▸ ho)]
      · rw [Dev.ctr_bump_other _ ha, Dev.ctr_bump_other _ ha, h.ctr o ho] }

theorem Dev.keeps_countQ (d : Dev) (cs : List Nat) (t : Dest) (c : Nat) (f : QCount → QCount) :
    d.Keeps cs (d.countQ t c f) := { Dev.Keeps.refl cs d with }

theorem Dev.keeps_countP (d : Dev) (cs : List Nat) (n : Nat) (f : PCount → PCount) : d.Keeps cs (d.countP n f) :=
  { Dev.Keeps.refl cs d with }

/-! ### Samples (R512, R514) -/

/-- A sample counts nothing but a sample that is dropped. -/
theorem Dev.keeps_gleanAdd (d : Dev) {cs : List Nat} (h : ctrCnt 0x120 ∈ cs) (n : Nat) (b : GleanBody) :
    d.Keeps cs (d.gleanAdd n b) := by
  unfold Dev.gleanAdd
  split
  · exact .refl ..
  · split
    · exact d.keeps_bumpBy 1 h
    · exact { Dev.Keeps.refl cs d with }

theorem Dev.keeps_gleanFrame (d : Dev) {cs : List Nat} (h : ctrCnt 0x120 ∈ cs) (n : Nat) (c : Copy) (outcome : Nat)
    (cut ce : Bool) : d.Keeps cs (d.gleanFrame n c outcome cut ce) := by
  unfold Dev.gleanFrame
  split
  · split
    · exact .refl ..
    · exact d.keeps_gleanAdd h ..
  · exact .refl ..

/-! ### Release and write-back (R123, R444) -/

theorem Dev.keeps_send (d : Dev) (cs : List Nat) (o : Out) : d.Keeps cs (d.send o) :=
  { Dev.Keeps.refl cs d with sent := List.subset_cons_self .. }

theorem Dev.keeps_raiseInt (d : Dev) (cs : List Nat) (v : Nat) : d.Keeps cs (d.raiseInt v) := by
  unfold Dev.raiseInt Dev.sendInt
  dsimp only
  split_ifs
  · exact .refl ..
  · exact { Dev.Keeps.refl cs d with }
  · exact { Dev.keeps_send d cs (.int v) with }
  · exact { Dev.Keeps.refl cs d with }

theorem Dev.keeps_dmaSend (d : Dev) (cs : List Nat) (a : Nat) (b : List Byte) : d.Keeps cs (d.dmaSend a b) := by
  unfold Dev.dmaSend
  split
  · exact d.keeps_send ..
  · exact .refl ..

theorem Dev.keeps_writeBack (d : Dev) (cs : List Nat) (r pos : Nat) (b : List Byte) :
    d.Keeps cs (d.writeBack r pos b) := by
  unfold Dev.writeBack
  dsimp only
  split
  · refine .trans ?_ (Dev.keeps_raiseInt ..)
    exact { d.keeps_dmaSend cs _ b with }
  · exact { d.keeps_dmaSend cs _ b with }

theorem Dev.keeps_writeBackOf (d : Dev) (cs : List Nat) (f : Frame) : d.Keeps cs (d.writeBackOf f) := by
  unfold Dev.writeBackOf
  split
  · exact .refl ..
  · split <;> exact d.keeps_writeBack ..

theorem Dev.keeps_release (d : Dev) (cs : List Nat) (n : Nat) : d.Keeps cs (d.release n) := by
  unfold Dev.release
  split
  · exact .refl ..
  · split
    · exact .refl ..
    · dsimp only
      split
      · exact { Dev.Keeps.refl cs d with }
      · refine .trans ?_ (Dev.keeps_writeBackOf ..)
        exact { Dev.Keeps.refl cs d with }

/-! ### Discards (R119, R120, R130) -/

theorem Dev.keeps_dropCopies (d : Dev) {cs : List Nat} (h : ctrCnt 0x120 ∈ cs) (l : List Copy) (outcome : Nat) :
    d.Keeps cs (d.dropCopies l outcome) := by
  induction l generalizing d with
  | nil => exact .refl ..
  | cons c r ih => exact ((d.keeps_gleanFrame h ..).trans (Dev.keeps_release ..)).trans (ih _)

/-- A copy that ages out counts once in the store's count of aged copies, beside the counts of CNT. -/
theorem Dev.keeps_ageOut (d : Dev) (c : Copy) :
    (d.bump (ctrStore 0x110)).Keeps [ctrCnt 0x100, ctrCnt 0x120] (d.ageOut c) :=
  ((Dev.keeps_bumpBy _ 1 (by simp)).trans (Dev.keeps_countQ ..)).trans
    ((Dev.keeps_countP ..).trans (Dev.keeps_dropCopies _ (by simp) ..))

/-- A copy that is discarded because its cells read uncorrectable counts once. -/
theorem Dev.keeps_dropUncorr (d : Dev) (c : Copy) :
    (d.bump (ctrStore 0x130)).Keeps [ctrCnt 0x120] (d.dropUncorr c) :=
  Dev.keeps_dropCopies _ (by simp) ..

theorem Dev.keeps_ageOuts (d : Dev) (l : List Copy) :
    d.Keeps [ctrStore 0x110, ctrCnt 0x100, ctrCnt 0x120] (l.foldl (fun d c => d.ageOut c) d) := by
  induction l generalizing d with
  | nil => exact .refl ..
  | cons c r ih =>
    have once := (d.keeps_bumpBy 1 (List.mem_cons_self ..)).trans ((d.keeps_ageOut c).mono (List.subset_cons_self ..))
    exact once.trans (ih _)

end Sys2Proof.Machine
end

section
/-! PROOF. Reads of a frame's cells for one of its copies, where all of them are good and where the frame's
descriptor is not (R103, R108, R130). -/

namespace Sys2Proof.Machine

/-- The device after writes and reads that went well: the slots and the copies on the wire alone are others. -/
def Dev.withReads (d : Dev) (q : Slots) (e : Tab (List Sending)) : Dev :=
  { d with store := { d.store with slots := q, sending := e } }

theorem Dev.withReads_withReads (d : Dev) (q q' : Slots) (e e' : Tab (List Sending)) :
    (d.withReads q e).withReads q' e' = d.withReads q' e' := rfl

/-- A copy on the wire with other reads: its cells read, the stamp of its first byte and its era. -/
def Sending.withRead (x : Sending) (read stamp era : Nat) : Sending :=
  { x with read := read, stamp := stamp, era := era }

theorem Store.writeCell_eq (s : Store) (busy : List Nat) (n : Nat) :
    ∃ q, (s.writeCell busy n).1 = { s with slots := q } := by
  unfold Store.writeCell
  dsimp only
  split <;> exact ⟨_, rfl⟩

theorem Store.writeCells_eq (s : Store) (busy : List Nat) (n k : Nat) :
    ∃ q, (Store.writeCells busy n k s).1 = { s with slots := q } := by
  induction k generalizing s busy with
  | zero => exact ⟨s.slots, rfl⟩
  | succ k ih =>
    obtain ⟨q, hq⟩ := s.writeCell_eq busy n
    obtain ⟨p, hp⟩ := ih (s.writeCell busy n).1 (busy ++ (s.writeCell busy n).2)
    exact ⟨p, hp.trans (by rw [hq])⟩

/-- Writes fill slots alone. -/
theorem Dev.writeRest_eq (d : Dev) (n : Nat) : ∃ q, d.writeRest n = d.withReads q d.store.sending := by
  obtain ⟨q, hq⟩ := d.store.writeCells_eq d.failing n (d.store.unwritten n)
  exact ⟨q, by rw [Dev.writeRest, hq]; rfl⟩

/-! ### Good reads -/

theorem Dev.readList_good {d : Dev} (h : d.faults.injects = []) (l : List Nat) : d.readList l = (d, true) := by
  induction l with
  | nil => rfl
  | cons c r ih =>
    have cell : d.readCell c = (d, true) := by simp [Dev.readCell, h]
    simp [Dev.readList, cell, ih]

/-- With no error armed, the reads of a frame whose descriptor is good change nothing. -/
theorem Dev.readCells_good {d : Dev} {n : Nat} {f : Frame} (hf : d.frame? n = some f) (hBad : f.bad = false)
    (h : d.faults.injects = []) (i k : Nat) : d.readCells n i k = (d, true) := by
  have records : d.readRecords n = (d, true) := by simp [Dev.readRecords, Dev.readRecord, h]
  have found : Tab.find d.store.frames n = some f := hf
  simp [Dev.readCells, found, hBad, records, Dev.readList_good h]

/-- A copy of such a frame starts. -/
theorem Dev.begun_good {d : Dev} {l : Nat} {x : Sending} {f : Frame} (hf : d.frame? x.copy.fid = some f)
    (hBad : f.bad = false) (h : d.faults.injects = []) :
    ∃ q e a b c, d.begun l x = (d.withReads q e, some (x.withRead a b c)) := by
  unfold Dev.begun
  split
  · exact ⟨d.store.slots, d.store.sending, x.read, x.stamp, x.era, rfl⟩
  · obtain ⟨q, hq⟩ := d.writeRest_eq x.copy.fid
    have reads := Dev.readCells_good (d := d.withReads q d.store.sending) hf hBad h 0 2
    rw [hq, Dev.beginCopy, reads]
    exact ⟨_, _, _, _, _, rfl⟩

theorem Dev.readOn_good {d : Dev} {x : Sending} {f : Frame} (hf : d.frame? x.copy.fid = some f)
    (hBad : f.bad = false) (h : d.faults.injects = []) (n : Nat) :
    ∃ a, d.readOn x n = (d, x.withRead a x.stamp x.era) := by
  unfold Dev.readOn
  split
  · exact ⟨x.read, rfl⟩
  · rw [Dev.readCells_good hf hBad h]
    exact ⟨_, rfl⟩

/-! ### Reads of a frame whose descriptor is uncorrectable -/

/-- The device with other fault records, and with what they send and raise. -/
def Dev.withRecord (d : Dev) (c : Cmd) (m : Dword) (g : FaultSt) (o : List Out) : Dev :=
  { d with cmd := c, intPend := m, faults := g, out := o }

/-- Such a read leaves a fault record at most. -/
theorem Dev.readCells_bad {d : Dev} {n : Nat} {f : Frame} (hf : d.frame? n = some f) (hBad : f.bad = true)
    (i k : Nat) : ∃ c m g o, d.readCells n i k = (d.withRecord c m g o, false) := by
  have found : Tab.find d.store.frames n = some f := hf
  obtain ⟨c, m, g, o, record⟩ := d.faultRec_shape 5 3 0 1 0 0 (Config.descriptorOf n)
  by_cases hi : i = 0
  · exact ⟨c, m, g, o, by simp [Dev.readCells, found, hBad, hi, Dev.lostInRow, record, Dev.withRecord]⟩
  · exact ⟨d.cmd, d.intPend, d.faults, d.out, by simp [Dev.readCells, found, hBad, hi, Dev.withRecord]⟩

/-- A copy on the wire that will end with a tail mark. -/
def Sending.spoilt (x : Sending) (read : Nat) : Sending := { x with read := read, tailMark := true }

/-- A started copy of such a frame will end with a tail mark, which counts once. -/
theorem Dev.readOn_bad {d : Dev} {x : Sending} {f : Frame} (hf : d.frame? x.copy.fid = some f) (hBad : f.bad = true)
    (hUnread : x.unread ≠ 0) (ht : x.tailMark = false) : ∃ c m g o i, d.readOn x x.unread =
      ((d.withRecord c m g o).bump (ctrStore 0x130), x.spoilt i) := by
  obtain ⟨c, m, g, o, reads⟩ := Dev.readCells_bad hf hBad x.read x.unread
  have start : ¬(decide (x.unread = 0) || decide (x.unread = 0)) = true := by simp [hUnread]
  refine ⟨c, m, g, o, min (x.read + x.unread) (cellsOf x.hdr.len.toNat), (if_neg start).trans ?_⟩
  simp only [reads, ht, Bool.or_self]
  rfl

/-- A copy of such a frame that has not started leaves the wire of its port, and is discarded. -/
theorem Dev.begun_bad {d : Dev} {l : Nat} {x : Sending} {r : List Sending} {f : Frame}
    (hf : d.frame? x.copy.fid = some f) (hBad : f.bad = true) (hs : d.sendingOn l = x :: r) (hBegun : x.begun = false) :
    ∃ q c m g o, d.begun l x = (((((d.withReads q d.store.sending).withRecord c m g o).setSending l
      (r.filter Sending.begun)).dropUncorr x.copy), none) := by
  obtain ⟨q, written⟩ := d.writeRest_eq x.copy.fid
  obtain ⟨c, m, g, o, reads⟩ := Dev.readCells_bad (d := d.withReads q d.store.sending) hf hBad 0 2
  have wire : (d.withReads q d.store.sending).sendingOn l = x :: r := hs
  refine ⟨q, c, m, g, o, ?_⟩
  simp only [Dev.begun, hBegun, written, Dev.beginCopy, reads, wire, List.filter_cons]
  rfl

end Sys2Proof.Machine
end

section
/-! PROOF. Selection: the class that a port selects, the head of its queue, an expired head, and the scan of the
heads (R108, R119, R120, R133, R141, R142). -/

namespace Sys2Proof.Machine

/-- The selected class is eligible, and no eligible class has a higher level (R142). -/
theorem Dev.selectClass_highest {d : Dev} {l c : Nat} (h : d.selectClass l = some c) : d.eligible l c = true ∧
    ∀ k, k < 8 → d.eligible l k = true → (d.shaper l k).level ≤ (d.shaper l c).level := by
  have member : c ∈ (((List.range 8).filter (d.eligible l)).filter fun k => (d.shaper l k).level ==
      ((List.range 8).filter (d.eligible l)).foldl (fun a k => max a (d.shaper l k).level) 0) := by
    unfold Dev.selectClass at h
    dsimp only at h
    split at h
    · cases h
      exact List.mem_of_find?_eq_some ‹_›
    · exact List.mem_of_head? h
  simp only [List.mem_filter, beq_iff_eq] at member
  obtain ⟨⟨-, eligible⟩, top⟩ := member
  refine ⟨eligible, fun k hk hEl => top ▸ ?_⟩
  exact (foldl_max_bounds (fun k => (d.shaper l k).level) _ 0).2 k (by simp [hk, hEl])

/-- The device once class `c` of logical port `l` has given up its head. -/
def Dev.givenUp (d : Dev) (l c : Nat) : Dev :=
  let d1 := d.popQueue (.port l) c
  { d1 with store := { d1.store with rr := Tab.set d1.store.rr (l * 4 + (d.shaper l c).level) c 7 } }

theorem Dev.queue_givenUp {d : Dev} {l c : Nat} {x : Copy} {r : List Copy} (h : d.queue (.port l) c = x :: r) :
    (d.givenUp l c).queue (.port l) c = r :=
  (Tab.get_set_same ..).trans (congrArg (List.drop 1) h)

/-- Class `c` of logical port `l` marks what it sends (R147). -/
def Dev.marks (d : Dev) (l c : Nat) : Bool :=
  d.kmark c != 0 && decide (d.kmark c ≤ d.queueCells (.port l) c)

/-- Without a launch frame a port that may read takes the head of the class that it selects. -/
theorem exec_copySelected_class {s : State} {p : Port} {c : Nat} {x : Copy} {r : List Copy} (ha : s.d.awake = true)
    (hst : (s.d.port p.val).st = .active) (hHeld : (s.d.port p.val).held = false)
    (hRead : s.d.mayRead (s.d.logical p.val) = true) (hLaunch : Tab.get s.d.store.launch (s.d.logical p.val) [] = [])
    (hSel : s.d.selectClass (s.d.logical p.val) = some c) (hq : s.d.queue (.port (s.d.logical p.val)) c = x :: r) :
    exec (.copySelected p) s = .next (s.put ((s.d.givenUp (s.d.logical p.val) c).sendSelected (s.d.logical p.val) x
      (s.d.marks (s.d.logical p.val) c) false false)) := by
  refine congrArg (goto s) ?_
  simp only [ha, hst, hHeld, hRead, hLaunch, Dev.selectFromClasses, hSel, hq, List.head?_cons]
  rfl

theorem exec_copySelected_full {s : State} {p : Port} (h : s.d.mayRead (s.d.logical p.val) = false) :
    exec (.copySelected p) s = .next s := by
  refine congrArg (goto s) ?_
  simp [h]

/-- A copy as it joins the wire: that of its queue, with HOPS raised and nothing read (R54, R108). -/
def Dev.newSending (d : Dev) (x : Copy) (f : Frame) (ce launch late : Bool) : Sending :=
  { copy := { x with gleaned := false }, hdr := { f.hdr with hops := f.hdr.hops + 1, ce := f.hdr.ce || ce },
    cut := false, ceSet := ce, tailMark := false, ended := true, stamp := d.timeNs, built := none, launch := launch,
    late := late, era := d.cnt.era }

/-- A copy that starts joins the wire of its port. -/
theorem Dev.keeps_startCopy {d : Dev} {x : Copy} {f : Frame} (hf : d.frame? x.fid = some f) (l : Nat)
    (ce launch late : Bool) : (d.setSending l (d.sendingOn l ++ [d.newSending x f ce launch late])).Keeps
      [ctrCnt 0x120, ctrTm 0x100] (d.startCopy l x ce launch late) := by
  have sampled := Dev.keeps_gleanFrame (d.setSending l (d.sendingOn l ++ [d.newSending x f ce launch late]))
    (cs := [ctrCnt 0x120, ctrTm 0x100]) (by simp) x.fid x 0 false ce
  unfold Dev.startCopy
  rw [hf]
  dsimp only
  split
  · exact sampled.trans ((Dev.keeps_bumpBy _ 1 (by simp)).trans (Dev.keeps_countQ ..))
  · exact sampled

theorem Dev.chargeShapers_eq (d : Dev) (l c len : Nat) : ∃ t, d.chargeShapers l c len = { d with tm := t } := by
  unfold Dev.chargeShapers
  dsimp only
  split <;> exact ⟨_, rfl⟩

/-- A selected copy that has not expired, of a frame that reads well, joins the wire of its port (R141). -/
theorem Dev.sendSelected_live {d : Dev} {x : Copy} {f : Frame} (hLive : d.expired x = false)
    (hf : d.frame? x.fid = some f) (hBad : f.bad = false) (h : d.faults.injects = []) (l : Nat)
    (ce launch late : Bool) : (d.setSending l (d.sendingOn l ++ [d.newSending x f ce launch late])).Keeps
      [ctrCnt 0x120, ctrTm 0x100] (d.sendSelected l x ce launch late) := by
  obtain ⟨t, charged⟩ := d.chargeShapers_eq l x.cls.toNat f.length
  have reads := Dev.readCells_good (d := { d with tm := t }) hf hBad h 0 0
  have starts := Dev.keeps_startCopy (d := { d with tm := t }) hf l ce launch late
  have sends : d.sendSelected l x ce launch late = { d with tm := t }.startCopy l x ce launch late := by
    simp only [Dev.sendSelected, hLive, hf, charged, reads]
    simp
  rw [sends]
  exact { starts with }

/-- A selected copy that has expired is discarded, and its slot is lost (R120, R133). -/
theorem Dev.sendSelected_expired {d : Dev} {x : Copy} (h : d.expired x = true) (l : Nat) (ce launch late : Bool) :
    d.sendSelected l x ce launch late = d.ageSelected x := if_pos h

/-- The device with one read slot more withheld in this core clock. -/
def Dev.loseSlot (d : Dev) : Dev :=
  { d with store := { d.store with slots := { d.store.slots with lost := d.store.slots.lost + 1 } } }

theorem Dev.keeps_ageSelected (d : Dev) (c : Copy) :
    (d.loseSlot.bump (ctrStore 0x110)).Keeps [ctrCnt 0x100, ctrCnt 0x120] (d.ageSelected c) :=
  d.loseSlot.keeps_ageOut c

/-! ### The scan of the heads (R120) -/

theorem exec_headScan {s : State} (ha : s.d.awake = true) : exec .headScan s = .next (s.put s.d.scanHeads) :=
  congrArg (goto s) (if_pos ha)

/-- The device once every queue and launch queue has given up its expired heads. -/
def Dev.scanned (d : Dev) : Dev :=
  { d with store := { d.store with
    queues := d.store.queues.foldl (fun t e => Tab.set t e.1 (e.2.dropWhile d.expired) []) d.store.queues,
    launch := d.store.launch.foldl (fun t e =>
      Tab.set t e.1 (e.2.dropWhile fun x => x.ready && d.expired x.copy) []) d.store.launch } }

theorem Dev.keeps_scanHeads (d : Dev) :
    d.scanned.Keeps [ctrStore 0x110, ctrCnt 0x100, ctrCnt 0x120] d.scanHeads :=
  d.scanned.keeps_ageOuts _

end Sys2Proof.Machine
end

section
/-! PROOF. The end of a transmission: what a completed copy carries, its return in loopback, and its counts (R55, R60,
R63, R123, R504, R522). -/

namespace Sys2Proof.Machine

theorem Dev.sendingOn_setSending (d : Dev) (l : Nat) (x : List Sending) : (d.setSending l x).sendingOn l = x :=
  Tab.get_set_same ..

/-! ### What a completed copy carries (R63, R111) -/

/-- Payload and end-to-end check of a completed copy: those of its frame, and free values for the bytes that a copy
cut short lacks (log entry 129). -/
def Dev.cargo (d : Dev) (x : Sending) (f : Frame) : List Byte × Word :=
  if x.tailMark && f.payload.length < x.hdr.len.toNat then
    (f.payload ++ (List.range (x.hdr.len.toNat - f.payload.length)).map (Config.cutByte d.free),
      (Config.freeWord d.free).setWidth 32)
  else (f.payload, f.e2e)

theorem Dev.carried_eq (d : Dev) (x : Sending) (f : Frame) :
    ∃ n, d.carried x f = (d.cargo x f, { d with free := n }) := by
  unfold Dev.carried Dev.cargo
  dsimp only
  split <;> exact ⟨_, rfl⟩

theorem Dev.cargo_whole (d : Dev) {x : Sending} {f : Frame}
    (h : x.tailMark = true → x.hdr.len.toNat ≤ f.payload.length) : d.cargo x f = (f.payload, f.e2e) := by
  refine if_neg fun short => ?_
  simp only [Bool.and_eq_true, decide_eq_true_eq] at short
  exact absurd (h short.1) (Nat.not_le.mpr short.2)

/-- A copy cut short is as long as its LEN. -/
theorem Dev.cargo_cut (d : Dev) {x : Sending} {f : Frame} (ht : x.tailMark = true)
    (h : f.payload.length < x.hdr.len.toNat) : ∃ rest e2e, f.payload.length + rest.length = x.hdr.len.toNat ∧
      d.cargo x f = (f.payload ++ rest, e2e) := by
  refine ⟨_, _, ?_, if_pos (by simp [ht, h])⟩
  rw [List.length_map, List.length_range]
  omega

/-! ### The last byte leaves -/

/-- The link check of a copy: its complement where the copy ends with a tail mark (R60). -/
def Sending.tailOf (x : Sending) (b : List Byte) (e2e : Word) : Word :=
  if x.tailMark then ~~~(linkCheck x.hdr b e2e) else linkCheck x.hdr b e2e

/-- The device once the copy has left with payload `b`: its place on the wire is free, and in loopback the events of
its arrival come back on the port (R522, log entry 174). -/
def Dev.leaves (d : Dev) (p : Port) (l : Nat) (x : Sending) (r : List Sending) (b : List Byte) (w : Word) : Dev :=
  { d.setSending l r with
    out := .frame p.val x.hdr b w (x.tailOf b w) x.tailMark :: d.out
    loopQ := d.loopQ ++ if d.loopsBack p.val then
      [.frameHeaderTaken p x.hdr, .frameTailReceived p b w (x.tailOf b w)] else [] }

theorem Dev.emit_eq_leaves (d : Dev) (p : Port) (l : Nat) (x : Sending) (r : List Sending) (b : List Byte) (w : Word) :
    (d.setSending l r).emit p.val (.frame p.val x.hdr b w (x.tailOf b w) x.tailMark)
      [.frameHeaderTaken (asPort p.val) x.hdr, .frameTailReceived (asPort p.val) b w (x.tailOf b w)] =
    d.leaves p l x r b w := by
  have port : asPort p.val = p := Fin.ext (Nat.mod_eq_of_lt p.isLt)
  have loops : (d.setSending l r).loopsBack p.val = d.loopsBack p.val := rfl
  rw [Dev.emit_eq, Dev.leaves, loops, port]
  split
  · rfl
  · rw [List.append_nil]
    rfl

/-! ### The counts of a completed copy (R504) -/

theorem Dev.keeps_bwAdd (d : Dev) (cs : List Nat) (p : Nat) (isRx : Bool) (era stamp bytes : Nat) :
    d.Keeps cs (d.bwAdd p isRx era stamp bytes) := by
  unfold Dev.bwAdd
  split
  · exact .refl ..
  · exact { Dev.Keeps.refl cs d with }

theorem Dev.keeps_noteSent (d : Dev) (cs : List Nat) (n : Nat) (stamp : Option Nat) (late : Bool) :
    d.Keeps cs (d.noteSent n stamp late) := by
  unfold Dev.noteSent
  split
  · exact .refl ..
  · exact { Dev.Keeps.refl cs d with }

/-- The counter that tells how a copy ended: that of its class's frames, or that of the port's tail marks. -/
def Sending.endCtr (p : Nat) (x : Sending) : Nat :=
  if x.tailMark then ctrPort p 0x128 else ctrClass p x.hdr.tc.toNat 2

theorem Sending.endCtr_good {x : Sending} (h : x.tailMark = false) (p : Nat) :
    x.endCtr p = ctrClass p x.hdr.tc.toNat 2 := if_neg (by simp [h])

theorem Sending.endCtr_marked {x : Sending} (h : x.tailMark = true) (p : Nat) : x.endCtr p = ctrPort p 0x128 :=
  if_pos h

/-- Counters that a completed copy may count in beside. -/
def Sending.sideCtrs (p : Nat) (x : Sending) : List Nat := [ctrClass p x.hdr.tc.toNat 3, ctrTime 0x120]

/-- Counts the end of a copy: a tail mark, or a good frame with its bytes (R504, R509, R517). -/
def Dev.countEnd (d : Dev) (p : Nat) (x : Sending) : Dev :=
  let len := 40 + x.hdr.len.toNat
  if x.tailMark then d.bump (ctrPort p 0x128)
  else
    let d1 := (d.bump (ctrClass p x.hdr.tc.toNat 2)).bumpBy (ctrClass p x.hdr.tc.toNat 3) len
    let d2 := d1.bwAdd p false x.era x.stamp len
    let d3 := if x.launch && x.late then d2.bump (ctrTime 0x120) else d2
    if x.copy.mirror then d3 else d3.noteSent x.copy.fid (some x.stamp) x.late

theorem Dev.keeps_countEnd (d : Dev) (p : Nat) (x : Sending) :
    (d.bump (x.endCtr p)).Keeps (x.sideCtrs p) (d.countEnd p x) := by
  unfold Dev.countEnd Sending.endCtr
  dsimp only
  split
  · exact .refl ..
  · have bytes := (Dev.keeps_bumpBy (d.bump (ctrClass p x.hdr.tc.toNat 2)) (cs := x.sideCtrs p)
      (40 + x.hdr.len.toNat) (List.mem_cons_self ..)).trans
      (Dev.keeps_bwAdd _ _ p false x.era x.stamp (40 + x.hdr.len.toNat))
    have late : ∀ d : Dev, d.Keeps (x.sideCtrs p) (if x.launch && x.late then d.bump (ctrTime 0x120) else d) := by
      intro d
      split
      · exact d.keeps_bumpBy 1 (List.mem_cons_of_mem _ (List.mem_cons_self ..))
      · exact .refl ..
    split
    · exact bytes.trans (late _)
    · exact (bytes.trans (late _)).trans (Dev.keeps_noteSent ..)

/-- A copy that is not rebuilt is completed with what `carried` says of it, and counts once in the counter of
its end. -/
theorem Dev.keeps_finishCopy {d e : Dev} {x : Sending} {f : Frame} {b : List Byte} {w : Word}
    (hf : d.frame? x.copy.fid = some f) (hPtp : f.ptp = false) (hBuilt : x.built = none)
    (hv : d.carried x f = ((b, w), e)) (p : Port) (l : Nat) (r : List Sending) :
    ((e.leaves p l x r b w).bump (x.endCtr p.val)).Keeps (x.sideCtrs p.val) (d.finishCopy p.val l x r) := by
  have owes : d.owesRebuild x = none := by simp [Dev.owesRebuild, hf, hPtp]
  have ends : d.finishCopy p.val l x r = (((e.leaves p l x r b w).countQ (.port l) x.copy.cls.toNat
      fun q => { q with sent := q.sent + 1 }).countEnd p.val x).release x.copy.fid := by
    rw [← Dev.emit_eq_leaves]
    simp only [Dev.finishCopy, hf, owes, hBuilt, hv]
    rfl
  rw [ends]
  exact (((Dev.keeps_countQ ..).bump _).trans (Dev.keeps_countEnd ..)).trans (Dev.keeps_release ..)

/-- The counters of a port's copies lie in its block, those of the store and of the time base in theirs. -/
theorem Sending.endCtr_not_side (p : Port) (x : Sending) : x.endCtr p.val ∉ x.sideCtrs p.val := by
  have tc := x.hdr.tc.isLt
  have port := p.isLt
  unfold Sending.endCtr
  split <;> simp [Sending.sideCtrs, ctrPort, ctrClass, ctrTime, basePort, baseTime] <;> omega

theorem ctrStore_not_side (p : Port) (x : Sending) :
    ctrStore 0x130 ∉ x.sideCtrs p.val ∧ ctrStore 0x130 ≠ x.endCtr p.val := by
  have tc := x.hdr.tc.isLt
  have port := p.isLt
  unfold Sending.endCtr
  constructor
  · simp [Sending.sideCtrs, ctrStore, ctrClass, ctrTime, basePort, baseTime, baseStore]
    omega
  · split <;> simp [ctrStore, ctrPort, ctrClass, basePort, baseStore] <;> omega

/-- What stands once a copy has left physical port `p`, logical port `l`, with payload `b`. -/
structure Dev.HasLeft (d t : Dev) (p : Port) (l : Nat) (x : Sending) (r : List Sending) (b : List Byte) (w : Word) :
    Prop where
  wire : t.sendingOn l = r
  sent : .frame p.val x.hdr b w (x.tailOf b w) x.tailMark ∈ t.out
  loopQ : t.loopQ = d.loopQ ++ if d.loopsBack p.val then
    [.frameHeaderTaken p x.hdr, .frameTailReceived p b w (x.tailOf b w)] else []
  good : x.tailMark = false → t.ctr (ctrClass p.val x.hdr.tc.toNat 2) =
    (d.ctr (ctrClass p.val x.hdr.tc.toNat 2) + 1) % 2 ^ 64
  marked : x.tailMark = true → t.ctr (ctrPort p.val 0x128) = (d.ctr (ctrPort p.val 0x128) + 1) % 2 ^ 64
  lostReads : t.ctr (ctrStore 0x130) = d.ctr (ctrStore 0x130)
  queues : t.store.queues = d.store.queues
  fwd : t.fwd = d.fwd
  ports : t.ports = d.ports

theorem Dev.finishCopy_hasLeft {d : Dev} {x : Sending} {f : Frame} (hf : d.frame? x.copy.fid = some f)
    (hPtp : f.ptp = false) (hBuilt : x.built = none) (p : Port) (l : Nat) (r : List Sending) :
    d.HasLeft (d.finishCopy p.val l x r) p l x r (d.cargo x f).1 (d.cargo x f).2 := by
  obtain ⟨n, hv⟩ := d.carried_eq x f
  have keeps := Dev.keeps_finishCopy hf hPtp hBuilt hv p l r
  obtain ⟨side, other⟩ := ctrStore_not_side p x
  have counted : (d.finishCopy p.val l x r).ctr (x.endCtr p.val) = (d.ctr (x.endCtr p.val) + 1) % 2 ^ 64 := by
    rw [keeps.ctr _ (Sending.endCtr_not_side p x), Dev.ctr_bump_same]
    rfl
  exact {
    wire := (congrArg (Tab.get · l []) keeps.sending).trans (d.sendingOn_setSending l r)
    sent := keeps.sent (List.mem_cons_self ..)
    loopQ := keeps.loopQ
    good := fun h => Sending.endCtr_good h p.val ▸ counted
    marked := fun h => Sending.endCtr_marked h p.val ▸ counted
    lostReads := (keeps.ctr _ side).trans (Dev.ctr_bump_other _ other)
    queues := keeps.queues
    fwd := keeps.fwd
    ports := keeps.ports }

/-! ### COPY_SENT -/

/-- COPY_SENT of a copy of a frame that reads well, and that is not rebuilt, completes it. -/
theorem exec_copySent_good {s : State} {p : Port} {x : Sending} {r : List Sending} {f : Frame} (ha : s.d.awake = true)
    (hs : s.d.sendingOn (s.d.logical p.val) = x :: r) (he : x.ended = true) (hf : s.d.frame? x.copy.fid = some f)
    (hPtp : f.ptp = false) (hBad : f.bad = false) (h : s.d.faults.injects = []) (hBuilt : x.built = none) :
    ∃ t, exec (.copySent p) s = .next t ∧
      s.d.HasLeft t.d p (s.d.logical p.val) x r (s.d.cargo x f).1 (s.d.cargo x f).2 := by
  obtain ⟨q, written⟩ := s.d.writeRest_eq x.copy.fid
  obtain ⟨q', e, i, j, k, begins⟩ :=
    Dev.begun_good (d := s.d.withReads q s.d.store.sending) (l := s.d.logical p.val) hf hBad h
  obtain ⟨i', reads⟩ := Dev.readOn_good (d := s.d.withReads q' e) (x := x.withRead i j k) hf hBad h
    (x.withRead i j k).unread
  rw [Dev.withReads_withReads] at begins
  have left := Dev.finishCopy_hasLeft (d := s.d.withReads q' e) (x := x.withRead i' j k) hf hPtp hBuilt p
    (s.d.logical p.val) r
  refine ⟨s.put ((s.d.withReads q' e).finishCopy p.val (s.d.logical p.val) (x.withRead i' j k) r),
    congrArg (goto s) ?_, { left with }⟩
  simp only [hs, ha, he, Bool.and_self, if_true, written, begins, reads]
  rfl

/-- COPY_SENT of a started copy whose last cells read uncorrectable: it ends with a tail mark (R130). -/
theorem exec_copySent_spoilt {s : State} {p : Port} {x : Sending} {r : List Sending} {f : Frame}
    (ha : s.d.awake = true) (hs : s.d.sendingOn (s.d.logical p.val) = x :: r) (he : x.ended = true)
    (hf : s.d.frame? x.copy.fid = some f) (hBad : f.bad = true) (hBegun : x.begun = true) (hUnread : x.unread ≠ 0)
    (ht : x.tailMark = false) : ∃ q c m g o i, exec (.copySent p) s = .next (s.put
      ((((s.d.withReads q s.d.store.sending).withRecord c m g o).bump (ctrStore 0x130)).finishCopy p.val
        (s.d.logical p.val) (x.spoilt i) r)) := by
  obtain ⟨q, written⟩ := s.d.writeRest_eq x.copy.fid
  obtain ⟨c, m, g, o, i, reads⟩ :=
    Dev.readOn_bad (d := s.d.withReads q s.d.store.sending) hf hBad hUnread ht
  refine ⟨q, c, m, g, o, i, congrArg (goto s) ?_⟩
  simp only [hs, ha, he, Bool.and_self, if_true, written, Dev.begun, hBegun, reads]

/-- COPY_SENT of a copy that has not started and whose cells read uncorrectable: it is discarded (R130). -/
theorem exec_copySent_discards {s : State} {p : Port} {x : Sending} {r : List Sending} {f : Frame}
    (ha : s.d.awake = true) (hs : s.d.sendingOn (s.d.logical p.val) = x :: r) (he : x.ended = true)
    (hf : s.d.frame? x.copy.fid = some f) (hBad : f.bad = true) (hBegun : x.begun = false) :
    ∃ q c m g o, exec (.copySent p) s = .next (s.put
      ((((s.d.withReads q s.d.store.sending).withRecord c m g o).setSending (s.d.logical p.val)
        (r.filter Sending.begun)).dropUncorr x.copy)) := by
  obtain ⟨q, written⟩ := s.d.writeRest_eq x.copy.fid
  obtain ⟨q', c, m, g, o, begins⟩ := Dev.begun_bad (d := s.d.withReads q s.d.store.sending) hf hBad hs hBegun
  refine ⟨q', c, m, g, o, congrArg (goto s) ?_⟩
  simp only [hs, ha, he, Bool.and_self, if_true, written, begins]
  rfl

end Sys2Proof.Machine
end

section
/-! PROOF. Rebuilt PTP frames and launch frames (R442, R445, R446). -/

namespace Sys2Proof.Machine

/-- The copy on the wire, rebuilt as its first byte leaves. -/
theorem exec_ptpEventFrameEgress_rebuilds {s : State} {p : Port} {x : Sending} {r : List Sending} {f : Frame}
    (ha : s.d.awake = true) (hs : s.d.sendingOn (s.d.logical p.val) = x :: r)
    (hf : s.d.frame? x.copy.fid = some f) (hPtp : f.ptp = true) (hBuilt : x.built = none)
    (hMirror : x.copy.mirror = false) (hBad : f.bad = false) (h : s.d.faults.injects = []) :
    ∃ q e i k, exec (.ptpEventFrameEgress p) s = .next (s.put
      (((s.d.withReads q e).rebuild f (x.withRead i s.d.timeNs k)).1.setSending (s.d.logical p.val)
        (((s.d.withReads q e).rebuild f (x.withRead i s.d.timeNs k)).2 :: r))) := by
  obtain ⟨q, e, i, j, k, begins⟩ := Dev.begun_good (l := s.d.logical p.val) hf hBad h
  have owes : s.d.owesRebuild x = some f := by simp [Dev.owesRebuild, hf, hPtp, hBuilt, hMirror]
  have owes' : (s.d.withReads q e).owesRebuild (x.withRead i j k) = some f := owes
  refine ⟨q, e, i, k, congrArg (goto s) ?_⟩
  simp only [hs, ha, owes, begins, owes']
  rfl

/-- Sets the launch queue of a logical port. -/
def Dev.setLaunch (d : Dev) (l : Nat) (q : List Launch) : Dev :=
  { d with store := { d.store with launch := Tab.set d.store.launch l q [] } }

theorem Dev.launch_setLaunch_ageFrom (d : Dev) (l : Nat) (q : List Launch) (n t : Nat) :
    Tab.get ((d.setLaunch l q).ageFrom n t).store.launch l [] = q := Tab.get_set_same d.store.launch l q []

/-- A launch frame that reaches its time on an ACTIVE port is released, and ages from that time. -/
theorem exec_launchRelease_releases {s : State} {p : Port} {e : Launch} {r : List Launch} (ha : s.d.awake = true)
    (hq : Tab.get s.d.store.launch (s.d.logical p.val) [] = e :: r) (hReady : e.ready = false)
    (hTime : e.t ≤ s.d.timeNs) (hActive : s.d.activeL (s.d.logical p.val) = true) :
    exec (.launchRelease p) s = .next (s.put ((s.d.setLaunch (s.d.logical p.val)
      ({ e with ready := true, late := e.late || (s.d.port p.val).held } :: r)).ageFrom e.copy.fid e.t)) := by
  refine congrArg (goto s) ?_
  rw [if_pos ha, Dev.launchRelease, hq]
  simp [hReady, Nat.not_lt.mpr hTime, hActive, releaseFirst, Dev.setLaunch]

/-- Before its time, or released already, a launch frame stays as it is. -/
theorem exec_launchRelease_waits {s : State} {p : Port}
    (h : ∀ e ∈ Tab.get s.d.store.launch (s.d.logical p.val) [], e.ready = true ∨ s.d.timeNs < e.t) :
    exec (.launchRelease p) s = .next s := by
  refine congrArg (goto s) (ite_eq_right_iff.mpr fun _ => ?_)
  unfold Dev.launchRelease
  dsimp only
  split
  · rfl
  · next e first =>
    have waits : e.ready = false := by simpa using List.find?_some first
    have early : s.d.timeNs < e.t := (h e (List.mem_of_find?_eq_some first)).resolve_left (by simp [waits])
    exact if_pos early

theorem Dev.frame?_ageFrom (d : Dev) (n t : Nat) : (d.ageFrom n t).frame? n =
    (d.frame? n).map fun f => { f with at_ := d.now - clkOfNs (d.timeNs - t) } :=
  Tab.find_adj_same d.store.frames n _

end Sys2Proof.Machine

open Sys2Proof Sys2Proof.Machine

/-- Settles O49: each event by the one device that it leads to, and what the work after it keeps. -/
theorem framesOut : Obligations.FramesOut := by
  refine ⟨fun d l c h => d.selectClass_highest h,
    fun s p c x r f ha hst hHeld hRead hLaunch hSel hq hLive hf hBad hInj => ?_,
    fun s p c x r ha hst hHeld hRead hLaunch hSel hq hExp => ?_, fun s p h => exec_copySelected_full h,
    fun s k l ha hk => ?_, fun s p x r f ha hs he hf hPtp hBad hInj hBuilt hLen => ?_,
    fun s p x r f ha hs hf hPtp hBuilt hMirror hBad hInj => ?_, fun s p e r ha hq hReady hTime hActive => ?_,
    fun s p _ h => exec_launchRelease_waits h, fun s p x r f ha hs he hf hPtp hBad hInj hBuilt ht hLen => ?_,
    fun s p x r f ha hs he hf hPtp hBad hBegun hUnread hBuilt ht hLen => ?_,
    fun s p x r f ha hs he hf hBad hBegun => ?_⟩
  · have keeps := Dev.sendSelected_live (d := s.d.givenUp (s.d.logical p.val) c) hLive hf hBad hInj
      (s.d.logical p.val) (s.d.marks (s.d.logical p.val) c) false false
    refine ⟨_, (s.d.givenUp (s.d.logical p.val) c).newSending x f (s.d.marks (s.d.logical p.val) c) false false,
      exec_copySelected_class ha hst hHeld hRead hLaunch hSel hq, ?_, ?_, rfl, rfl, rfl, rfl, rfl, rfl,
      keeps.ports, keeps.fwd⟩
    · exact (congrArg (Tab.get · _ []) keeps.queues).trans (Dev.queue_givenUp hq)
    · exact (congrArg (Tab.get · _ []) keeps.sending).trans (Dev.sendingOn_setSending ..)
  · have keeps := (s.d.givenUp (s.d.logical p.val) c).keeps_ageSelected x
    refine ⟨_, exec_copySelected_class ha hst hHeld hRead hLaunch hSel hq, ?_⟩
    rw [State.put_d, Dev.sendSelected_expired (d := s.d.givenUp (s.d.logical p.val) c) hExp]
    refine ⟨?_, congrArg (Tab.get · _ []) keeps.sending, ?_, keeps.lost⟩
    · exact (congrArg (Tab.get · _ []) keeps.queues).trans (Dev.queue_givenUp hq)
    · exact (keeps.ctr _ (by decide)).trans (Dev.ctr_bump_same ..)
  · have keeps := s.d.keeps_scanHeads
    refine ⟨_, exec_headScan ha, ?_, keeps.sending, keeps.ports, keeps.fwd⟩
    exact (congrArg (Tab.get · k []) keeps.queues).trans (Tab.get_foldl_set (List.dropWhile s.d.expired) [] _ _ hk)
  · obtain ⟨t, hExec, left⟩ := exec_copySent_good ha hs he hf hPtp hBad hInj hBuilt
    rw [Dev.cargo_whole _ hLen] at left
    exact ⟨t, hExec, left.wire, left.sent, left.loopQ, left.good, left.marked, left.queues, left.fwd, left.ports⟩
  · obtain ⟨q, e, i, k, hExec⟩ := exec_ptpEventFrameEgress_rebuilds ha hs hf hPtp hBuilt hMirror hBad hInj
    exact ⟨_, _, hExec, Dev.sendingOn_setSending .., rfl, rfl, rfl, rfl, rfl, rfl,
      Dev.ctr_bump_same .., rfl, rfl, rfl⟩
  · exact ⟨_, exec_launchRelease_releases ha hq hReady hTime hActive, s.d.launch_setLaunch_ageFrom ..,
      Dev.frame?_ageFrom .., rfl, rfl⟩
  · obtain ⟨t, hExec, left⟩ := exec_copySent_good ha hs he hf hPtp hBad hInj hBuilt
    obtain ⟨rest, e2e, hLength, hCargo⟩ := s.d.cargo_cut ht hLen
    have sent := left.sent
    rw [hCargo, Sending.tailOf, if_pos ht, ht] at sent
    exact ⟨t, rest, e2e, hExec, left.wire, hLength, sent, left.marked ht, left.queues, left.ports⟩
  · obtain ⟨q, c, m, g, o, i, hExec⟩ := exec_copySent_spoilt ha hs he hf hBad hBegun hUnread ht
    have left := Dev.finishCopy_hasLeft (x := x.spoilt i)
      (d := ((s.d.withReads q s.d.store.sending).withRecord c m g o).bump (ctrStore 0x130)) hf hPtp hBuilt p
      (s.d.logical p.val) r
    rw [Dev.cargo_whole (x := x.spoilt i) _ fun _ => hLen] at left
    refine ⟨_, hExec, left.wire, left.sent, left.lostReads.trans (Dev.ctr_bump_same ..), (left.marked rfl).trans ?_,
      left.queues, left.ports⟩
    have other : ctrPort p.val 0x128 ≠ ctrStore 0x130 := (ctrStore_not_side p (x.spoilt i)).2.symm
    rw [Dev.ctr_bump_other _ other]
    rfl
  · obtain ⟨q, c, m, g, o, hExec⟩ := exec_copySent_discards ha hs he hf hBad hBegun
    have keeps := Dev.keeps_dropUncorr (((s.d.withReads q s.d.store.sending).withRecord c m g o).setSending
      (s.d.logical p.val) (r.filter Sending.begun)) x.copy
    refine ⟨_, hExec, ?_, ?_, keeps.queues, keeps.ports⟩
    · exact (congrArg (Tab.get · _ []) keeps.sending).trans (Dev.sendingOn_setSending ..)
    · exact (keeps.ctr _ (by decide)).trans (Dev.ctr_bump_same ..)
end

section
/-! PROOF. The machine right after reset (R528, R530). -/

namespace Sys2Proof.Machine

/-- A register that no write has changed reads as its table's reset value. -/
theorem Dev.reg_unwritten {d : Dev} (hd : d.regs = []) {off o : Nat} {r : RegDef} (h : regAt off = some (r, o)) :
    d.reg off = r.reset := by
  simp only [Dev.reg, hd, Tab.find_nil, h]

/-- Neither management link has a session. -/
theorem Dev.reset_sessions (m : Nat) : (Dev.reset.mg m).sessions = [] := by
  unfold Dev.mg
  split_ifs <;> rfl

end Sys2Proof.Machine

open Sys2Proof Sys2Proof.Machine

/-- Settles O6: the registers by the table's reset values, the sessions link by link, and every other field by its
value in `Dev.reset`. -/
theorem resetValues : Obligations.ResetValues := by
  refine ⟨rfl, rfl, rfl, rfl, rfl, rfl, rfl, rfl, rfl, rfl, rfl, rfl, rfl, rfl, rfl, fun _ => rfl, fun _ => rfl,
    rfl, rfl, rfl, rfl, rfl, fun _ => rfl, fun _ _ _ h => Dev.reg_unwritten rfl h, rfl, rfl, rfl,
    rfl, rfl, rfl, rfl, rfl, rfl, rfl, rfl, rfl, Dev.reset_sessions, rfl,
    rfl, rfl, rfl, rfl, rfl, rfl, fun _ => ⟨rfl, rfl, rfl⟩⟩
end

section
/-! PROOF. The reads of the tables, the queues, the reduction plane, Thresh, the board memory and the glean buffer
(R92, R94, R155, R222, R279, R307, R505, R517). -/

namespace Sys2Proof.Machine

/-- The step of a command that is let in and answers. -/
theorem goto_runCmd_answers {s : State} {d : Dev} {i : Instr} {c : CmdCtx} {op : Nat} {cls : PrivClass}
    {f : Dev → Dev × Option (Status × Res)} {st : Status} {r : Res} (h : s.d.Runs i c op cls)
    (hf : f (s.d.touch c) = (d, some (st, r))) :
    goto s (s.d.runCmd i c op cls f) = .next (s.put (d.reply c op st r)) :=
  congrArg (goto s) (Dev.runCmd_answers h hf)

/-! ### Words of the tables (R67) -/

/-- No error is armed and no word of a copy is bad: every word of the tables reads. -/
def Dev.readsWell (d : Dev) : Prop := d.faults.injects = [] ∧ d.fwd.bad = []

theorem Dev.readsWell_touch {d : Dev} (h : d.readsWell) (c : CmdCtx) : (d.touch c).readsWell := h

theorem Dev.tableRead_good {d : Dev} (h : d.readsWell) (k : Nat) (num : Bool) (t : TableId) (ix : Nat) :
    d.tableRead k num t ix = (d, true) := by
  simp [Dev.tableRead, Dev.badIn, h.1, h.2]

theorem Dev.tableReads_good {d : Dev} (h : d.readsWell) (k : Nat) (num : Bool) (t : TableId) (l : List Nat) :
    d.tableReads k num t l = (d, l) := by
  induction l with
  | nil => rfl
  | cons i r ih => simp [Dev.tableReads, Dev.tableRead_good h, ih]

/-! ### SEARCH and NEXT (R92, R94) -/

/-- A key that no entry holds is not found. -/
theorem Dev.searchTable_absent {d : Dev} {k : BitVec 48} (h : d.fwd.cur.emFind k = none) :
    d.searchTable (.emKey k) = (d, none) := by
  simp only [Dev.searchTable, h]

/-- A key's entry, with the hit bits of its key. -/
theorem Dev.searchTable_found {d : Dev} {k : BitVec 48} {n : Nat} {e : EmEntry} (hd : d.readsWell)
    (h : d.fwd.cur.emFind k = some (n, e)) :
    d.searchTable (.emKey k) = (d, some [e.word, (Tab.get d.fwd.hits e.key.toNat 0).toNat]) := by
  simp only [Dev.searchTable, h, Dev.tableRead_good hd, if_true]

theorem Dev.searchTable_route {d : Dev} (hd : d.readsWell) (l : BitVec 16) : d.searchTable (.route l) =
    (d, some [(d.fwd.cur.routeOf l.toNat).rtype.toNat, (d.fwd.cur.routeOf l.toNat).target.toNat]) := by
  simp only [Dev.searchTable, Dev.tableRead_good hd, if_true]

/-- SEARCH answers the fields that its table gives. -/
theorem exec_search_found {s : State} {c : CmdCtx} {k : SearchKey} {l : List Nat}
    (h : s.d.Runs (.search c k) c 0x0401 .observer) (hk : SearchKey.inRange k = true)
    (hl : (s.d.touch c).searchTable k = (s.d.touch c, some l)) :
    exec (.search c k) s = .next (s.put ((s.d.touch c).reply c 0x0401 .ok (.fields l))) := by
  refine goto_runCmd_answers h ?_
  rw [hk, hl]
  rfl

/-- Where its table gives none, SEARCH answers NOT_FOUND. -/
theorem exec_search_absent {s : State} {c : CmdCtx} {k : SearchKey}
    (h : s.d.Runs (.search c k) c 0x0401 .observer) (hk : SearchKey.inRange k = true)
    (hNone : (s.d.touch c).searchTable k = (s.d.touch c, none)) :
    exec (.search c k) s = .next (s.put ((s.d.touch c).reply c 0x0401 .notFound .empty)) := by
  refine goto_runCmd_answers h ?_
  rw [hk, hNone]
  rfl

/-- The entries of a list whose keys are among the keys of the list are all of them. -/
theorem filter_contains_map_self {α : Type} (g : α → Nat) (l : List α) :
    l.filter (fun e => (l.map g).contains (g e)) = l :=
  List.filter_eq_self.mpr fun _ he => List.contains_iff_mem.mpr (List.mem_map_of_mem he)

/-- A walk from the start with no filter, whose table fits one page, answers every entry and the end. -/
theorem exec_nextWalk_whole {s : State} {c : CmdCtx} {t : TableId} {n : BitVec 16}
    (h : s.d.Runs (.nextWalk c t 0 0xFFFF n) c 0x0402 .observer) (h0 : n ≠ 0) (hn : n.toNat ≤ 64)
    (hd : s.d.readsWell) (hFits : (s.d.fwd.cur.walk t).length ≤ n.toNat) :
    exec (.nextWalk c t 0 0xFFFF n) s = .next (s.put ((s.d.touch c).reply c 0x0402 .ok (.fields
      (0 :: (s.d.fwd.cur.walk t).flatMap fun e => e.2.2)))) := by
  have page : ((s.d.touch c).fwd.cur.walk t).filter (fun e => 
      decide (bitsOf (0 : Word).toNat 29 0 - 1 ≤ e.1) && ((0xFFFF : BitVec 16) == 0xFFFF#16 ||
        e.2.1 == (0xFFFF : BitVec 16).toNat || e.2.1 == 0xFFFF)) = s.d.fwd.cur.walk t :=
    List.filter_eq_self.mpr fun e _ => by simp [bitsOf]
  refine goto_runCmd_answers h ((if_neg ?_).trans ((if_neg Bool.false_ne_true).trans ?_))
  · simpa [Nat.not_lt.mpr hn] using h0
  · dsimp only
    rw [page, List.take_of_length_le hFits, List.drop_eq_nil_of_le hFits, 
      Dev.tableReads_good (Dev.readsWell_touch hd c), filter_contains_map_self]
    rfl

/-- A cursor of another epoch, and one that NEXT has not given, is refused. -/
theorem exec_nextWalk_stale {s : State} {c : CmdCtx} {t : TableId} {cur : Word} {p n : BitVec 16}
    (h : s.d.Runs (.nextWalk c t cur p n) c 0x0402 .observer) (h0 : n ≠ 0) (hn : n.toNat ≤ 64)
    (hCur : bitsOf cur.toNat 29 0 ≠ 0)
    (hStale : bitsOf cur.toNat 31 30 ≠ s.d.fwd.epoch.toNat ∨ s.d.fwd.cursors.contains cur = false) :
    exec (.nextWalk c t cur p n) s = .next (s.put ((s.d.touch c).reply c 0x0402 .conflict .empty)) := by
  have given : cur.toNat ≠ 0 := fun hz => hCur (by simp [hz, bitsOf])
  refine goto_runCmd_answers h ((if_neg ?_).trans (if_pos ?_))
  · simpa [hCur, Nat.not_lt.mpr hn] using h0
  · simpa [given] using hStale

/-! ### The glean buffer (R511, R517) -/

theorem Dev.readGlean_good {d : Dev} (h : d.faults.injects = []) (e : GleanEnt) : d.readGlean e = (d, e.bytes) := by
  simp [Dev.readGlean, h]

theorem Dev.injects_touch {d : Dev} (h : d.faults.injects = []) (c : CmdCtx) : (d.touch c).faults.injects = [] := h

/-- With no error armed, the reads of entries give their bytes one after the other. -/
theorem Dev.readGlean_foldl {d : Dev} (h : d.faults.injects = []) (l : List GleanEnt) (b : List Byte) :
    l.foldl (fun (a : Dev × List Byte) e => let x := a.1.readGlean e; (x.1, a.2 ++ x.2)) (d, b) =
      (d, b ++ l.flatMap GleanEnt.bytes) := by
  induction l generalizing b with
  | nil => simp
  | cons e r ih => simp [Dev.readGlean_good h, ih]

/-- GLEAN_READ answers the GSEQ of its first entry, then the entries from that number on. -/
theorem exec_gleanRead {s : State} {c : CmdCtx} {f : Word} {n : BitVec 16}
    (h : s.d.Runs (.gleanRead c f n) c 0x0905 .observer) (hRuns : s.d.svRuns 3 = true) (hn : n.toNat ≤ 63)
    (hd : s.d.faults.injects = []) {l : List GleanEnt}
    (hl : (s.d.cnt.glean.filter fun e => decide (0 ≤ seqDist e.gseq f)).take n.toNat = l) :
    exec (.gleanRead c f n) s = .next (s.put ((s.d.touch c).reply c 0x0905 .ok (.bytes
      (beBytes 4 ((l.head?.map (·.gseq)).getD f).toNat ++ l.flatMap GleanEnt.bytes)))) := by
  refine congrArg (goto s) (Dev.runCmd_needs h hRuns ((if_neg (Nat.not_lt.mpr hn)).trans ?_))
  rw [Dev.touch_cnt, hl]
  dsimp only
  rw [Dev.readGlean_foldl (Dev.injects_touch hd c)]
  cases l <;> rfl

/-! ### Thresh and the near tier (R279, R307) -/

/-- THR_MAP_READ answers one word of the map for each chunk of the range. -/
theorem exec_thrMapRead {s : State} {c : CmdCtx} {n : BitVec 16} {f : Word} {k : BitVec 16} {x : ThrShard}
    (h : s.d.Runs (.thrMapRead c n f k) c 0x0608 .observer) (hn : n.toNat < 16384) (hk : k.toNat ≤ 512)
    (hx : Tab.find s.d.thr.shards n.toNat = some x) (hFits : f.toNat + k.toNat ≤ x.cfg.cps.toNat) :
    exec (.thrMapRead c n f k) s = .next (s.put ((s.d.touch c).reply c 0x0608 .ok (.fields
      ((List.range k.toNat).map fun i => (s.d.mapEnt x (f.toNat + i)).word)))) := by
  have within : (List.range k.toNat).filter (fun i => decide (f.toNat + i < x.cfg.cps.toNat)) =
      List.range k.toNat := List.filter_eq_self.mpr fun i hi => by
    have := List.mem_range.mp hi
    exact decide_eq_true (by omega)
  refine goto_runCmd_answers h ((if_neg ?_).trans ?_)
  · simp [hn, hk]
  · rw [Dev.touch_thr, hx]
    dsimp only
    rw [within]
    rfl

/-- The three fields of a region, and of none. -/
def regionFields : Option Region → List Nat
  | some r => [RegionKind.num r.kind, r.base, r.size]
  | none => [0, 0, 0]

theorem regionFields_length (r : Option Region) : (regionFields r).length = 3 := by
  cases r <;> rfl

/-- The sixteen regions. -/
def Dev.allRegionFields (d : Dev) : List Nat :=
  (List.range 16).flatMap fun n => regionFields (Tab.find d.mem.regions n)

theorem Dev.allRegionFields_length (d : Dev) : d.allRegionFields.length = 48 := by
  simp [Dev.allRegionFields, List.length_flatMap, regionFields_length]

theorem exec_memRegionRead {s : State} {c : CmdCtx} (h : s.d.Runs (.memRegionRead c) c 0x0702 .observer) :
    exec (.memRegionRead c) s = .next (s.put ((s.d.touch c).reply c 0x0702 .ok (.fields
      (s.d.allRegionFields ++ [granBase, s.d.granSize])))) :=
  goto_runCmd_answers h rfl

end Sys2Proof.Machine

open Sys2Proof Sys2Proof.Machine

/-- Settles O47: each read by the branch that its hypotheses take. -/
theorem tableReads : Obligations.TableReads := by
  refine ⟨fun s c k h hk => exec_search_absent h rfl (Dev.searchTable_absent hk),
    fun s c k n e h hi hb hk => ?_, fun s c l h hi hb hl => ?_,
    fun s c t n h h0 hn hi hb hFits => exec_nextWalk_whole h h0 hn ⟨hi, hb⟩ hFits,
    fun s c t cur p n h h0 hn hCur hStale => exec_nextWalk_stale h h0 hn hCur hStale,
    fun s c n h hn => goto_runCmd_answers h (if_neg (Nat.not_le.mpr hn)),
    fun s c n x w h hx hw => goto_runCmd_answers h ?_,
    fun s c n x h hn hx => goto_runCmd_answers h ((if_neg (Nat.not_le.mpr hn)).trans ?_),
    fun s c n x h hn hx => goto_runCmd_answers h ((if_pos rfl).trans ((if_neg (Nat.not_le.mpr hn)).trans ?_)),
    fun s c n h hn hx => goto_runCmd_answers h
      ((if_neg Bool.false_ne_true).trans ((if_neg (Nat.not_le.mpr hn)).trans ?_)),
    fun s c n f k x h hn hk hx hFits => ⟨_, by simp, exec_thrMapRead h hn hk hx hFits⟩,
    fun s c h => ⟨_, s.d.allRegionFields_length, exec_memRegionRead h⟩,
    fun s c f n h hn => goto_runCmd_answers h (if_neg (Nat.not_lt.mpr hn)), fun s c h => goto_runCmd_answers h rfl,
    fun s c q t k h hq => goto_runCmd_answers h ?_,
    fun s c n e h hn he hv => goto_runCmd_answers h ((if_neg (Nat.not_le.mpr hn)).trans ?_),
    fun s c f n h hRuns hn hi => exec_gleanRead h hRuns hn hi rfl⟩
  · exact exec_search_found h rfl (Dev.searchTable_found (Dev.readsWell_touch ⟨hi, hb⟩ c) hk)
  · exact exec_search_found h (decide_eq_true hl) (Dev.searchTable_route (Dev.readsWell_touch ⟨hi, hb⟩ c) l)
  · have found : (s.d.touch c).ctx? n.toNat = some x := hx
    dsimp only
    rw [found]
    dsimp only
    rw [hw]
    rfl
  · have found : (s.d.touch c).sheaf? n.toNat = some x := hx
    rw [found]
    rfl
  · rw [Dev.touch_thr, hx]
    rfl
  · have absent : (s.d.touch c).job? n.toNat = none := hx
    rw [absent]
    rfl
  · rw [hq]
    rfl
  · rw [Dev.touch_fwd, he]
    exact if_neg (by simp [hv])
end

section
/-! PROOF. Congestion notices and their decay, and the old bank's drain and replay (R97, R120, R150). -/

namespace Sys2Proof.Machine

/-! ### Congestion (R150) -/

/-- The frames that pipeline `k` has taken. -/
def Dev.setTaken (d : Dev) (k : Nat) (l : List Taken) : Dev :=
  { d with fwd := { d.fwd with taken := Tab.set d.fwd.taken k l [] } }

/-- A notice sets the level of its partition on the up-port. -/
def Dev.setLevel (d : Dev) (n v : Nat) : Dev := { d with tm := { d.tm with levels := Tab.set d.tm.levels n v 0 } }

theorem Dev.get_setLevel (d : Dev) (n v : Nat) : Tab.get (d.setLevel n v).tm.levels n 0 = v :=
  Tab.get_set_same d.tm.levels n v 0

/-- The oldest taken frame, where it is of the service. -/
theorem Dev.untake_head {d : Dev} {k svc : Nat} {x : Taken} {r : List Taken}
    (h : Tab.get d.fwd.taken k [] = x :: r) (hSvc : addrSvc x.hdr.dst = svc) :
    d.untake k svc = some (x, d.setTaken k r) := by
  simp [Dev.untake, h, hSvc, Dev.setTaken]

/-- A notice whose end-to-end check fails is counted. -/
theorem exec_congestionNoticeReceived_bad {s : State} {k : Fin 16} {x : Taken} {r : List Taken}
    (ha : s.d.awake = true) (h : Tab.get s.d.fwd.taken k.val [] = x :: r) (hSvc : addrSvc x.hdr.dst = 2)
    (hOk : x.ok = false) : exec (.congestionNoticeReceived k) s =
      .next (s.put ((s.d.setTaken k.val r).bump (ctrFwd k.val 0x168))) := by
  refine congrArg (goto s) ?_
  rw [if_pos ha, Dev.untake_head h hSvc]
  simp only [hOk, Bool.not_false, if_true]

/-- A good notice that names an up-port's spine sets the level 3 and is counted. -/
theorem exec_congestionNoticeReceived_sets {s : State} {k : Fin 16} {x : Taken} {r : List Taken} {l : Nat}
    (ha : s.d.awake = true) (h : Tab.get s.d.fwd.taken k.val [] = x :: r) (hSvc : addrSvc x.hdr.dst = 2)
    (hOk : x.ok = true) (hUse : s.d.regBit baseTm 1 = true)
    (hPort : s.d.upPortTo (bitsOf x.hdr.ksf.toNat 51 40) = some l) : exec (.congestionNoticeReceived k) s =
      .next (s.put (((s.d.setTaken k.val r).setLevel (bitsOf x.hdr.ksf.toNat 63 52 * 512 + l) 3).bump
        (ctrTm 0x118))) := by
  have use : (s.d.setTaken k.val r).regBit baseTm 1 = true := hUse
  have port : (s.d.setTaken k.val r).upPortTo (bitsOf x.hdr.ksf.toNat 51 40) = some l := hPort
  refine congrArg (goto s) ?_
  rw [if_pos ha, Dev.untake_head h hSvc]
  simp only [hOk, use, port, Bool.not_true, Bool.false_eq_true, if_false]
  rfl

/-- Every level falls by 1. -/
def Dev.decayLevels (d : Dev) : Dev :=
  { d with tm := { d.tm with levels := d.tm.levels.foldl (fun t e => Tab.set t e.1 (e.2 - 1) 0) d.tm.levels } }

theorem exec_decayTick {s : State} (ha : s.d.awake = true) : exec .decayTick s = .next (s.put s.d.decayLevels) := by
  refine congrArg (goto s) ?_
  simp only [ha, Bool.not_true, Bool.false_eq_true, if_false]
  rfl

/-! ### The old bank (R97) -/

/-- What a transaction's changes leave of the retired bank, where that is the current bank's content, and a copy of
the current bank where it is not. -/
def Dev.replayed (d : Dev) : Bank :=
  match d.fwd.other.applyTxn d.fwd.replayOps with
  | some b => if b.same d.fwd.cur then b else d.shadow
  | none => d.shadow

theorem Dev.replayed_equal (d : Dev) : d.replayed = { d.fwd.cur with num := d.fwd.other.num } ∨
    d.replayed.same d.fwd.cur = true := by
  unfold Dev.replayed
  split
  · split
    · next same => exact .inr same
    · exact .inl rfl
  · exact .inl rfl

theorem exec_replayEnd {s : State} (ha : s.d.awake = true) (hReplay : s.d.fwd.replay = true) :
    exec .replayEnd s = .next (s.put { s.d with
      fwd := { s.d.fwd with other := s.d.replayed, replay := false, replayOps := [] } }) := by
  refine congrArg (goto s) (if_pos ?_)
  rw [ha, hReplay]
  rfl

end Sys2Proof.Machine

open Sys2Proof Sys2Proof.Machine

/-- Settles O52: each event by the one device that it leads to. -/
theorem congestionAndEpochs : Obligations.CongestionAndEpochs := by
  refine ⟨fun s k x r l ha h hSvc hOk hUse hPort => ?_, fun s k x r ha h hSvc hOk => ?_, fun s n v ha h => ?_,
    fun s ha hOld => congrArg (goto s) (if_pos (by rw [ha, hOld]; rfl)), fun s ha hReplay => ?_⟩
  · exact ⟨_, exec_congestionNoticeReceived_sets ha h hSvc hOk hUse hPort, Tab.get_set_same s.d.fwd.taken ..,
      s.d.get_setLevel _ _, Dev.ctr_bump_same .., rfl, rfl, rfl⟩
  · exact ⟨_, exec_congestionNoticeReceived_bad ha h hSvc hOk, rfl, Dev.ctr_bump_same ..⟩
  · exact ⟨_, exec_decayTick ha, Tab.get_foldl_set (fun v => v - 1) 0 _ _ h, rfl⟩
  · exact ⟨_, exec_replayEnd ha hReplay, rfl, rfl, rfl, s.d.replayed_equal, rfl, rfl, rfl⟩
end

section
/-! PROOF. The flip of a batch of one transaction (R95, R97, R326, R419, R423). -/

namespace Sys2Proof.Machine

/-! ### The end of a commit (R423) -/

@[simp] theorem Dev.setEvDest_txns (d : Dev) (src : Source) (e : EvDest) :
    (d.setEvDest src e).cmd.txns = d.cmd.txns := by
  cases src <;> rfl

@[simp] theorem Dev.eventTo_txns (d : Dev) (e : Ev) (src : Source) : (d.eventTo e src).cmd.txns = d.cmd.txns := by
  unfold Dev.eventTo
  dsimp only
  split_ifs <;> simp

@[simp] theorem Dev.event_txns (d : Dev) (e : Ev) : (d.event e).cmd.txns = d.cmd.txns := by
  unfold Dev.event
  split_ifs
  · simp
  · rfl

@[simp] theorem Dev.reply_txns (d : Dev) (c : CmdCtx) (op : Nat) (st : Status) (r : Res) :
    (d.reply c op st r).cmd.txns = d.cmd.txns := by
  obtain ⟨_, h⟩ := d.reply_cmd c op st r
  rw [h]

/-- Of the transactions the end of a commit removes its own alone. -/
theorem Dev.finishCommit_txns (d : Dev) (t : Txn) (st : Status) (ns : Nat) (r : Res) :
    (d.finishCommit t st ns r).cmd.txns = (d.dropTxn t.src t.id).cmd.txns := by
  unfold Dev.finishCommit
  dsimp only
  split
  · rfl
  · split_ifs <;> simp

/-- `e` comes from `d` by what replies and events change. -/
def Dev.Answered (d e : Dev) : Prop :=
  ∃ c' i' k' o', e = { d with cmd := c', intPend := i', ctrs := k', out := o' }

theorem Dev.Answered.trans {a b c : Dev} (h : a.Answered b) (k : b.Answered c) : a.Answered c := by
  obtain ⟨_, _, _, _, rfl⟩ := h
  obtain ⟨_, _, _, _, rfl⟩ := k
  exact ⟨_, _, _, _, rfl⟩

/-- The planes of the device do not see replies and events. -/
theorem Dev.Answered.planes {d e : Dev} (h : d.Answered e) : e.fwd = d.fwd ∧ e.red = d.red ∧ e.thr = d.thr ∧
    e.ports = d.ports ∧ e.opt = d.opt ∧ e.tm = d.tm ∧ e.store = d.store ∧ e.mem = d.mem ∧
    e.autoRemap = d.autoRemap := by
  obtain ⟨_, _, _, _, rfl⟩ := h
  exact ⟨rfl, rfl, rfl, rfl, rfl, rfl, rfl, rfl, rfl⟩

/-- A change of the command path alone is of that kind. -/
theorem Dev.answered_cmd (d : Dev) (c : Cmd) : d.Answered { d with cmd := c } := ⟨_, _, _, _, rfl⟩

theorem Dev.answered_event (d : Dev) (e : Ev) : d.Answered (d.event e) := by
  obtain ⟨_, h⟩ := d.event_shape e
  exact ⟨_, _, _, _, h⟩

theorem Dev.answered_reply (d : Dev) (c : CmdCtx) (op : Nat) (st : Status) (r : Res) :
    d.Answered (d.reply c op st r) := d.reply_shape c op st r

theorem Dev.answered_finishCommit (d : Dev) (t : Txn) (st : Status) (ns : Nat) (r : Res) :
    d.Answered (d.finishCommit t st ns r) := by
  unfold Dev.finishCommit
  dsimp only
  have dropped : d.Answered (d.dropTxn t.src t.id) := d.answered_cmd _
  split
  · exact dropped
  next h _ =>
    have taken := dropped.trans ((d.dropTxn t.src t.id).answered_cmd
      { (d.dropTxn t.src t.id).cmd with held := (d.dropTxn t.src t.id).cmd.held.erase h })
    split_ifs
    · exact taken.trans (Dev.answered_event ..)
    · exact taken.trans (Dev.answered_reply ..)
    · exact (taken.trans (Dev.answered_reply ..)).trans (Dev.answered_event ..)

/-- COMMIT_FLIP of the only transaction: its changes take effect, its commit ends, and where they leave the command
path no transaction is left. -/
theorem exec_commitFlip_one {s : State} {u : Txn} (ha : s.d.awake = true) (hRuns : s.d.svRuns 1 = true)
    (hu : s.d.cmd.txns = [u]) (hst : u.st = .applying) : ∃ e, exec .commitFlip s = .next (s.put e) ∧
      (s.d.flip u.staged).Answered e ∧ ((s.d.flip u.staged).cmd = s.d.cmd → e.cmd.txns = []) := by
  have batch : s.d.applyingTxns = [u] := by simp [Dev.applyingTxns, hu, hst, byOrder]
  generalize hd : s.d.flip u.staged = d
  generalize hr : Res.flip d.fwd.epoch d.time.sec (BitVec.ofNat 16 (d.time.ns / 65536)) = r
  refine ⟨(d.finishCommit u .ok d.time.ns r).unready, congrArg (goto s) ?_,
    (d.answered_finishCommit ..).trans (Dev.answered_cmd ..), fun hCmd => ?_⟩
  · simp only [batch, ha, hRuns, List.map_cons, List.map_nil, List.flatten_cons, List.flatten_nil, List.append_nil,
      hd, List.foldl_cons, List.foldl_nil, hr]
    rfl
  · have ended : (d.finishCommit u .ok d.time.ns r).cmd.txns = [] := by
      rw [Dev.finishCommit_txns]
      simp [Dev.dropTxn, hCmd, hu]
    simp [Dev.unready, ended]

/-! ### Changes of tables (R95) -/

/-- The banks change places, with the drain interval and the replay to come (R95, R97). -/
def Dev.swapBanks (d : Dev) (ops : List Staged) : Dev :=
  { d with fwd := { d.fwd with
    cur := d.fwd.other, other := d.fwd.cur, epoch := d.fwd.epoch + 1, shadowSel := !d.fwd.shadowSel, oldLive := true,
    replayOps := ops, cursors := [], drainEnd := d.now + clkOfNs d.store.limit + 50 * clkUs } }

/-- The drain interval is the residence limit and 50 µs (R97). -/
theorem Dev.swapBanks_drainEnd (d : Dev) (ops : List Staged) :
    (d.swapBanks ops).fwd.drainEnd = d.now + clkOfNs d.store.limit + 80000 := by
  rw [Dev.swapBanks, show 80000 = 50 * clkUs from rfl]

/-- The device with other hit bits and other notes of the sweeper. -/
def Dev.withHits (d : Dev) (h : Tab (BitVec 16)) (i : List (BitVec 48)) : Dev :=
  { d with fwd := { d.fwd with hits := h, idle := i } }

/-- Beside the banks, the flip changes the hit bits and the sweeper's notes alone. -/
theorem Dev.flipTables_shape (d : Dev) (ops : List Staged) : ∃ h i,
    d.flipTables ops = (d.swapBanks ops).withHits h i := by
  refine List.foldlRecOn (motive := fun x : Dev => ∃ h i, x = (d.swapBanks ops).withHits h i) _ _ ⟨_, _, rfl⟩
    fun x hx k _ => ?_
  obtain ⟨_, _, rfl⟩ := hx
  exact ⟨_, _, rfl⟩

/-- A change of a table is neither a mode nor a plan entry. -/
theorem Staged.isTable_other {x : Staged} (h : Staged.isTable x = true) :
    Staged.modePort x = none ∧ stagedIsPlan x = false := by
  constructor
  · unfold Staged.modePort
    split
    · nomatch h
    · nomatch h
    · rfl
  · unfold stagedIsPlan
    split
    · nomatch h
    · nomatch h
    · rfl

/-- A PART_SET is a change of a table. -/
theorem Staged.not_isFence {x : Staged} (h : Staged.isTable x = false) : stagedIsFence x = false := by
  unfold stagedIsFence
  split
  · nomatch h
  · rfl

/-- PLAN_SET and PORT_MAP_SET alone have ports evaluated again. -/
theorem Staged.not_isPlan {x : Staged} (h : Staged.opcode x ∉ [0x0201, 0x0204]) : stagedIsPlan x = false := by
  unfold stagedIsPlan
  split
  · simp [Staged.opcode] at h
  · simp [Staged.opcode] at h
  · rfl

/-- No command names a port's mode: the modes stay. -/
theorem Dev.changeModes_none (was d : Dev) {ops : List Staged} (h : ∀ x ∈ ops, Staged.modePort x = none) :
    Dev.changeModes was d ops = d := by
  rw [Dev.changeModes, List.filterMap_eq_nil_iff.mpr h]
  rfl

/-- A batch of changes of tables flips the banks; with no context held, no member port is lost to one. -/
theorem Dev.flip_tables {d : Dev} {ops : List Staged} (h0 : ops ≠ []) (h : ops.all Staged.isTable = true)
    (hCtxs : d.red.ctxs = []) : d.flip ops = d.flipTables ops := by
  have table : ∀ x ∈ ops, Staged.isTable x = true := List.all_eq_true.mp h
  have tables : ops.filter Staged.isTable = ops := List.filter_eq_self.mpr table
  have others : ops.filter (fun x => !Staged.isTable x) = [] :=
    List.filter_eq_nil_iff.mpr fun x hx => by simp [table x hx]
  have plan : ops.any stagedIsPlan = false := List.any_eq_false.mpr fun x hx => by
    simp [(Staged.isTable_other (table x hx)).2]
  have fence : ∀ f, (d.flipTables ops).fenceLeft f = d.flipTables ops := fun f => by
    obtain ⟨_, _, hFlip⟩ := d.flipTables_shape ops
    have left : (d.flipTables ops).red.ctxs = [] := by rw [hFlip]; exact hCtxs
    rw [Dev.fenceLeft, left]
    rfl
  have filled : ops.isEmpty = false := by simpa using h0
  simp only [Dev.flip, tables, others, plan, filled, Bool.false_eq_true, if_false, List.foldl_nil, fence, ite_self,
    Dev.changeModes_none _ _ fun x hx => (Staged.isTable_other (table x hx)).1]

/-! ### Changes of the other kinds (R419) -/

theorem Dev.flip_other {d : Dev} {x : Staged} (hTable : Staged.isTable x = false) (hMode : Staged.modePort x = none)
    (hPlan : Staged.opcode x ∉ [0x0201, 0x0204]) : d.flip [x] = d.applyStaged x := by
  have modes : ∀ was e : Dev, Dev.changeModes was e [x] = e := fun was e =>
    Dev.changeModes_none was e (by simpa using hMode)
  simp [Dev.flip, hTable, modes, Staged.not_isFence hTable, Staged.not_isPlan hPlan]

/-! ### Modes (R326) -/

theorem Dev.port_congr {d e : Dev} (h : d.ports = e.ports) (n : Nat) : d.port n = e.port n := by
  unfold Dev.port; rw [h]

theorem Dev.port_setPort_same (d : Dev) (n : Nat) (x : PortSt) : (d.setPort n x).port n = x :=
  Tab.get_set_same ..

/-- The port with a mode that a staged command gives it. -/
def PortSt.noted (x : PortSt) (m : NewMode) : PortSt := { x with newMode := some m }

theorem PortSt.modeSet_noted (x : PortSt) (m : NewMode) : (x.noted m).modeSet = m := rfl

/-- A port gets back what it held before two modes were noted. -/
theorem PortSt.noted_noted_restore (x : PortSt) (m m' : NewMode) :
    ({ (x.noted m).noted m' with newMode := x.newMode } : PortSt) = x := rfl

theorem Dev.port_noteMode (d : Dev) (n : Nat) (m : NewMode) : (d.noteMode n m).port n = (d.port n).noted m :=
  Dev.port_setPort_same ..

/-- A mode in the band LOCAL keeps the index and the frequency (R324). -/
def NewMode.inLocal (m : NewMode) (mode : BitVec 3) : NewMode := { m with mode := mode, express := false }

theorem NewMode.inLocal_self {m : NewMode} {mode : BitVec 3} (h : m.express = false) (hMode : m.mode = mode) :
    m.inLocal mode = m := by
  rw [NewMode.inLocal, ← h, ← hMode]

theorem Dev.setOptPortMode_local (d : Dev) {p : OptPortModeP} (h : p.express = false) : d.setOptPortMode p =
    d.noteMode p.port.toNat ((d.port p.port.toNat).modeSet.inLocal (BitVec.ofNat 3 p.mode.toNat)) := by
  simp only [Dev.setOptPortMode, h, Bool.false_eq_true, if_false]
  rfl

/-- What two commands leave of the ports before the flip acts on the modes. -/
def Dev.noteTwo (d : Dev) (p q : OptPortModeP) : Dev := (d.setOptPortMode p).setOptPortMode q

/-- The commands change the ports alone. -/
theorem Dev.noteTwo_shape (d : Dev) (p q : OptPortModeP) : ∃ l, d.noteTwo p q = { d with ports := l } :=
  ⟨_, rfl⟩

/-- Of two commands in the band LOCAL, the last names the mode that the port had. -/
theorem Dev.port_noteTwo {d : Dev} {p q : OptPortModeP} (hPort : p.port = q.port) (hp : p.express = false)
    (hq : q.express = false) (hExpress : (d.port q.port.toNat).modeSet.express = false)
    (hMode : (d.port q.port.toNat).modeSet.mode = BitVec.ofNat 3 q.mode.toNat) :
    (d.noteTwo p q).port q.port.toNat =
      ((d.port q.port.toNat).noted ((d.port q.port.toNat).modeSet.inLocal (BitVec.ofNat 3 p.mode.toNat))).noted
        (d.port q.port.toNat).modeSet := by
  rw [Dev.noteTwo, Dev.setOptPortMode_local _ hq, Dev.port_noteMode, Dev.setOptPortMode_local _ hp, hPort,
    Dev.port_noteMode]
  exact congrArg (PortSt.noted _) (NewMode.inLocal_self (m := (d.port q.port.toNat).modeSet) hExpress hMode)

/-- The flip leaves a port whose mode stands as it did before the commands. -/
theorem Dev.changeModes_kept {was d : Dev} {n : Nat} {ops : List Staged}
    (hOps : (ops.filterMap Staged.modePort).eraseDups = [n]) (hMode : (d.port n).modeSet = (was.port n).modeSet)
    (hPort : { d.port n with newMode := (was.port n).newMode } = was.port n) :
    Dev.changeModes was d ops = d.setPort n (was.port n) := by
  rw [Dev.changeModes, hOps, List.foldl_cons, List.foldl_nil]
  dsimp only
  rw [hPort, hMode, Dev.changeMode, Dev.port_setPort_same]
  exact if_pos rfl

/-- A port to which a batch gives another mode and then the one that it had is not disturbed. -/
theorem Dev.flip_modeKept {d : Dev} {p q : OptPortModeP} (hPort : p.port = q.port) (hp : p.express = false)
    (hq : q.express = false) (hExpress : (d.port q.port.toNat).modeSet.express = false)
    (hMode : (d.port q.port.toNat).modeSet.mode = BitVec.ofNat 3 q.mode.toNat) :
    d.flip [.optPortMode p, .optPortMode q] = (d.noteTwo p q).setPort q.port.toNat (d.port q.port.toNat) := by
  have noted := Dev.port_noteTwo hPort hp hq hExpress hMode
  have named : ([Staged.optPortMode p, .optPortMode q].filterMap Staged.modePort).eraseDups = [q.port.toNat] := by
    simp [Staged.modePort, hPort, List.eraseDups_cons]
  exact Dev.changeModes_kept (was := d) (d := d.noteTwo p q) named (by rw [noted, PortSt.modeSet_noted])
    (by rw [noted]; exact PortSt.noted_noted_restore ..)

end Sys2Proof.Machine

open Sys2Proof Sys2Proof.Machine

/-- Settles O36: the device that the flip leaves, by the kind of the batch's changes. -/
theorem commitFlips : Obligations.CommitFlips := by
  refine ⟨fun s u ha hRuns hu hst h0 hAll hCtxs => ?_, fun s u x ha hRuns hu hst hx hTable hMode hPlan => ?_,
    fun s u p q ha hRuns hu hst hpq hPort hp hq hExpress hMode => ?_⟩
  · obtain ⟨e, hExec, hAnswered, hEnd⟩ := exec_commitFlip_one ha hRuns hu hst
    obtain ⟨_, _, flips⟩ := s.d.flipTables_shape u.staged
    rw [Dev.flip_tables h0 hAll hCtxs, flips] at hAnswered hEnd
    obtain ⟨hFwd, -, -, hPorts, -, -, hStore, -, -⟩ := hAnswered.planes
    refine ⟨_, hExec, hEnd rfl, ?_⟩
    rw [State.put_d, hFwd, hPorts, hStore]
    exact ⟨rfl, rfl, rfl, rfl, rfl, rfl, s.d.swapBanks_drainEnd u.staged, rfl, rfl⟩
  · obtain ⟨e, hExec, hAnswered, -⟩ := exec_commitFlip_one ha hRuns hu hst
    rw [hx, Dev.flip_other hTable hMode hPlan] at hAnswered
    obtain ⟨hFwd, hRed, hThr, hPorts, -, hTm, hStore, hMem, hRemap⟩ := hAnswered.planes
    exact ⟨_, hExec, hFwd, hRed, hThr, hPorts, hTm, hStore, hMem, hRemap⟩
  · obtain ⟨e, hExec, hAnswered, hEnd⟩ := exec_commitFlip_one ha hRuns hu hst
    obtain ⟨_, noted⟩ := s.d.noteTwo_shape p q
    rw [hpq, Dev.flip_modeKept hPort hp hq hExpress hMode, noted] at hAnswered hEnd
    obtain ⟨-, -, -, hPorts, hOpt, -, hStore, -, -⟩ := hAnswered.planes
    exact ⟨_, hExec, hEnd rfl, (Dev.port_congr hPorts _).trans (Dev.port_setPort_same ..), hOpt, hStore⟩
end

section
/-! PROOF. Admission to the store: the order of the pools (R115, R116, R123, R126). -/

namespace Sys2Proof.Machine

/-- The shared pool takes `k` cells of a copy: the queue's share of what is free, the partition's cap and the pool's
size allow them (R115). -/
def Dev.sharedTakes (d : Dev) (part : Nat) (t : Dest) (cls k : Nat) : Bool :=
  d.queueShared t cls k && (d.partRes part).allows (d.partUse part .shared + k) &&
    decide (d.sharedUse + k ≤ d.sharedSize)

theorem Dev.sharedTakes_iff (d : Dev) (part : Nat) (t : Dest) (cls k : Nat) : d.sharedTakes part t cls k = true ↔
    d.queueUse t cls true + k ≤ (d.sharedSize - d.sharedUse) * 2 ^ d.alphaCode cls / 256 ∧
      ((d.partRes part).pmax = 0xFFFFFFFF ∨ d.partUse part .shared + k ≤ (d.partRes part).pmax) ∧
      d.sharedUse + k ≤ d.sharedSize := by
  simp only [Dev.sharedTakes, Dev.queueShared, PartRes.allows, Bool.and_eq_true, Bool.or_eq_true, beq_iff_eq,
    decide_eq_true_eq, and_assoc]
  rfl

/-- The one pool of a mirror copy is the shared one (R126). -/
theorem Dev.admitFirst_mirror (d : Dev) (part : Nat) (t : Dest) (cls k : Nat) : d.admitFirst part t cls k true =
    if d.sharedTakes part t cls k then some .shared else none := rfl

/-- The order in which the pools are asked (R115). -/
theorem Dev.admitFirst_own (d : Dev) (part : Nat) (t : Dest) (cls k : Nat) : d.admitFirst part t cls k false =
    if d.queueUse t cls false + k ≤ d.qmin cls then some .queueRes
    else if d.partUse part .partRes + k ≤ (d.partRes part).pmin then some .partRes
    else if d.sharedTakes part t cls k then some .shared else none := by
  simp only [Dev.admitFirst, Bool.not_false, Bool.true_and, decide_eq_true_eq]
  rfl

end Sys2Proof.Machine

open Sys2Proof Sys2Proof.Machine

/-- Settles O53: each pool is asked where those before it do not take the copy. -/
theorem admissionOrder : Obligations.AdmissionOrder := by
  intro d part t cls k fits fitsPart fitsShared
  have hShared : fitsShared ↔ d.sharedTakes part t cls k = true := (d.sharedTakes_iff part t cls k).symm
  rw [d.admitFirst_own, d.admitFirst_mirror, hShared]
  by_cases hQueue : fits
  · rw [if_pos hQueue]
    simp [hQueue]
  · rw [if_neg hQueue]
    by_cases hPart : fitsPart
    · rw [if_pos hPart]
      simp [hQueue, hPart]
    · rw [if_neg hPart]
      simp [hQueue, hPart]
end

section
/-! PROOF. Reads of ports, lasers, spares and swaps after a change, link messages that a port sends, and what work on
the optics leaves alone (R317, R337, R346, R347). -/

namespace Sys2Proof.Machine

/-! ### Reads and writes of the optics -/

theorem Dev.port_setPort_other (d : Dev) {n m : Nat} (x : PortSt) (h : m ≠ n) : (d.setPort n x).port m = d.port m :=
  Tab.get_set_other _ _ _ _ h

theorem Dev.loop_congr {d e : Dev} (h : d.regs = e.regs) (p : Nat) : d.loop p = e.loop p := Dev.regBits_congr h ..

theorem Dev.spare_congr {d e : Dev} (h : d.opt.spares = e.opt.spares) (n f : Nat) : d.spare n f = e.spare n f := by
  unfold Dev.spare; rw [h]

theorem Dev.swapIn_congr {d e : Dev} (h : d.opt = e.opt) (n : Nat) : d.swapIn n = e.swapIn n := by
  unfold Dev.swapIn; rw [h]

theorem Dev.swapOfPort_congr {d e : Dev} (h : d.opt = e.opt) (p : Nat) : d.swapOfPort p = e.swapOfPort p := by
  unfold Dev.swapOfPort; rw [Dev.swapIn_congr h]

/-- The spare of a port depends on its mode by the band alone (R17). -/
theorem spareOf_congr {m n : BitVec 3} (h : isCampus m = isCampus n) (p : Nat) : spareOf p m = spareOf p n := by
  unfold spareOf; rw [h]

theorem Dev.onSpare_congr {d e : Dev} {p : Nat} (h : d.opt.spares = e.opt.spares)
    (hBand : isCampus (d.port p).mode = isCampus (e.port p).mode) : d.onSpare p = e.onSpare p := by
  unfold Dev.onSpare; rw [spareOf_congr hBand, Dev.spare_congr h]

theorem Dev.laserIx_congr {d e : Dev} (h : d.opt = e.opt) (hPorts : d.ports = e.ports) (p : Nat) :
    d.laserIx p = e.laserIx p := by
  have same := Dev.port_congr hPorts p
  unfold Dev.laserIx
  rw [Dev.onSpare_congr (congrArg Opt.spares h) (by rw [same]), same]

theorem Dev.spare_setSpare_same (d : Dev) (n f : Nat) (x : Spare) : (d.setSpare n f x).spare n f = x :=
  Tab.get_set_same ..

theorem Dev.spare_setSpare_other (d : Dev) (n : Nat) {f g : Nat} (x : Spare) (h : g ≠ f) :
    (d.setSpare n f x).spare n g = d.spare n g :=
  Tab.get_set_other _ _ _ _ (by omega)

theorem Dev.laser_setLaser_same (d : Dev) (n i : Nat) (x : Laser) : (d.setLaser n i x).laser n i = x :=
  Tab.get_set_same ..

theorem Dev.laser_setLaser_other (d : Dev) (n : Nat) {i j : Nat} (x : Laser) (h : j ≠ i) :
    (d.setLaser n i x).laser n j = d.laser n j :=
  Tab.get_set_other _ _ _ _ (by omega)

theorem Dev.port_putSwap (d : Dev) (n : Nat) (w : Option Swap) (m : Nat) : (d.putSwap n w).port m = d.port m := by
  simp only [Dev.putSwap, Dev.port]

theorem Dev.laser_putSwap (d : Dev) (n : Nat) (w : Option Swap) (m i : Nat) :
    (d.putSwap n w).laser m i = d.laser m i := rfl

theorem Dev.swapIn_putSwap (d : Dev) (n : Nat) (w : Swap) : (d.putSwap n (some w)).swapIn n = some w :=
  Tab.find_put_same ..

/-- A port's swap is the one that runs in its engine, for it. -/
theorem Dev.swapOfPort_eq_some {d : Dev} {p : Nat} {w : Swap} :
    d.swapOfPort p = some w ↔ d.swapIn (engOf p) = some w ∧ w.port = p := by
  unfold Dev.swapOfPort
  split
  next x hx =>
    rw [hx]
    by_cases hPort : x.port = p
    · simp only [hPort, beq_self_eq_true, if_true, Option.some.injEq]
      exact ⟨fun h => ⟨h, h ▸ hPort⟩, And.left⟩
    · simp only [beq_iff_eq, hPort, if_false, Option.some.injEq, reduceCtorEq, false_iff, not_and]
      rintro rfl
      exact hPort
  next hx => simp [hx]

/-- A port without a swap is in no pause of its own. -/
theorem Dev.ownPause_of_no_swap {d : Dev} {p : Nat} (h : d.swapOfPort p = none) : d.ownPause p = false := by
  unfold Dev.ownPause
  split
  next w hw =>
    have other : ¬ w.port = p := fun hPort => by
      rw [Dev.swapOfPort_eq_some.mpr ⟨hw, hPort⟩] at h
      exact nomatch h
    simp [other]
  next => rfl

/-! ### Link messages (R337, R364) -/

theorem Dev.silent_congr {d e : Dev} {p : Nat} (hMuted : (d.port p).muted = (e.port p).muted)
    (hRegs : d.regs = e.regs) : d.silent p = e.silent p := by
  unfold Dev.silent; rw [hMuted, Dev.loop_congr hRegs]

theorem Dev.silent_setPort {d : Dev} {p : Nat} {x : PortSt} (h : x.muted = (d.port p).muted) :
    (d.setPort p x).silent p = d.silent p :=
  Dev.silent_congr ((congrArg PortSt.muted (Dev.port_setPort_same ..)).trans h) rfl

/-- A link message changes what was sent and what is on its way back in loopback. -/
theorem Dev.sendLink_shape (d : Dev) (p : Nat) (b : List Byte) :
    ∃ q' o', d.sendLink p b = { d with loopQ := q', out := o' } := by
  unfold Dev.sendLink
  split
  · exact ⟨_, _, rfl⟩
  · exact ⟨_, _, Dev.emit_eq ..⟩

@[simp] theorem Dev.sendLink_opt (d : Dev) (p : Nat) (b : List Byte) : (d.sendLink p b).opt = d.opt := by
  obtain ⟨_, _, h⟩ := d.sendLink_shape p b; rw [h]
@[simp] theorem Dev.sendLink_ports (d : Dev) (p : Nat) (b : List Byte) : (d.sendLink p b).ports = d.ports := by
  obtain ⟨_, _, h⟩ := d.sendLink_shape p b; rw [h]
@[simp] theorem Dev.sendLink_fwd (d : Dev) (p : Nat) (b : List Byte) : (d.sendLink p b).fwd = d.fwd := by
  obtain ⟨_, _, h⟩ := d.sendLink_shape p b; rw [h]
@[simp] theorem Dev.sendLink_store (d : Dev) (p : Nat) (b : List Byte) : (d.sendLink p b).store = d.store := by
  obtain ⟨_, _, h⟩ := d.sendLink_shape p b; rw [h]
@[simp] theorem Dev.sendLink_port (d : Dev) (p : Nat) (b : List Byte) (n : Nat) : (d.sendLink p b).port n = d.port n :=
  Dev.port_congr (d.sendLink_ports p b) n

theorem Dev.sendLink_out (d : Dev) (p : Nat) (b : List Byte) : (d.sendLink p b).out =
    if d.silent p then d.out else .link p (b.headD 0) (LinkMsg.ofBytes b) :: d.out := by
  unfold Dev.sendLink
  split
  · rfl
  · rw [Dev.emit_eq]; rfl

/-- An unmuted modulator sends each message (R337). -/
theorem Dev.sendLink_length {d : Dev} {p : Nat} (h : (d.port p).muted = false) (b : List Byte) :
    (d.sendLink p b).out.length = d.out.length + 1 := by
  have speaks : d.silent p = false := by rw [Dev.silent, h, Bool.false_and]
  rw [Dev.sendLink_out, speaks]
  rfl

/-! ### Work on the optics -/

/-- `e` comes from `d` by work on lasers, spares and swaps, and by its counts, events, records and replies. -/
def Dev.Relit (d e : Dev) : Prop :=
  ∃ x' c' i' f' k' o', e = { d with opt := x', cmd := c', intPend := i', faults := f', ctrs := k', out := o' }

theorem Dev.Relit.refl (d : Dev) : d.Relit d := ⟨_, _, _, _, _, _, rfl⟩

theorem Dev.Relit.trans {a b c : Dev} (h : a.Relit b) (k : b.Relit c) : a.Relit c := by
  obtain ⟨_, _, _, _, _, _, rfl⟩ := h
  obtain ⟨_, _, _, _, _, _, rfl⟩ := k
  exact ⟨_, _, _, _, _, _, rfl⟩

/-- Such work leaves the other planes. -/
theorem Dev.Relit.planes {d e : Dev} (h : d.Relit e) : e.ports = d.ports ∧ e.fwd = d.fwd ∧ e.store = d.store ∧
    e.red = d.red ∧ e.regs = d.regs := by
  obtain ⟨_, _, _, _, _, _, rfl⟩ := h
  exact ⟨rfl, rfl, rfl, rfl, rfl⟩

theorem Dev.Answered.relit {d e : Dev} (h : d.Answered e) : d.Relit e := by
  obtain ⟨_, _, _, _, rfl⟩ := h
  exact ⟨_, _, _, _, _, _, rfl⟩

/-- A change of the optics alone is of that kind. -/
theorem Dev.relit_opt (d : Dev) (o : Opt) : d.Relit { d with opt := o } := ⟨_, _, _, _, _, _, rfl⟩

theorem Dev.relit_bumpBy (d : Dev) (a n : Nat) : d.Relit (d.bumpBy a n) := ⟨_, _, _, _, _, _, rfl⟩

theorem Dev.relit_event (d : Dev) (e : Ev) : d.Relit (d.event e) := (d.answered_event e).relit

theorem Dev.relit_faultRec (d : Dev) (cls unit_ index sub action left detail : Nat) :
    d.Relit (d.faultRec cls unit_ index sub action left detail) := by
  obtain ⟨_, _, _, _, h⟩ := d.faultRec_shape cls unit_ index sub action left detail
  exact ⟨_, _, _, _, _, _, h⟩

theorem Dev.relit_swapReply (d : Dev) (p : Nat) (st : Status) : d.Relit (d.swapReply p st) :=
  Dev.Answered.relit (d.finishFor_shape (.swap p) st .empty)

@[simp] theorem Dev.swapReply_opt (d : Dev) (p : Nat) (st : Status) : (d.swapReply p st).opt = d.opt := by
  obtain ⟨_, _, _, _, h⟩ := d.finishFor_shape (.swap p) st .empty
  rw [Dev.swapReply, h]

/-! ### The start of a swap, and the next one of an engine (R342, R346, R350, R355) -/

/-- The swap of a port that starts now: its spare, and the fiber's pointer as it stood. -/
def Dev.newSwap (d : Dev) (p : Nat) (dead : Bool) : Swap :=
  { port := p, spare := spareOf p (d.port p).mode, step := .tuning, token := d.opt.token + 1, dead := dead,
    at_ := d.now, was := Tab.get d.opt.ptr (engOf p * 5 + spareOf p (d.port p).mode) 0 }

/-- The optics with that swap: its spare warms up, and the fiber's pointer moves on. -/
def Dev.warmUp (d : Dev) (p : Nat) (dead : Bool) : Opt :=
  let f := spareOf p (d.port p).mode
  { ((d.setSpare (engOf p) f { st := 1, port := placeOf p }).putSwap (engOf p) (some (d.newSwap p dead))).opt with
    token := d.opt.token + 1, ptr := Tab.set d.opt.ptr (engOf p * 5 + f) ((placeOf p + 1) % 32) 0 }

theorem Dev.startSwap_eq (d : Dev) (p : Nat) (dead : Bool) : d.startSwap p dead =
    ({ d with opt := d.warmUp p dead }).event (.spareGone (engOf p) (spareOf p (d.port p).mode)) := by
  simp only [Dev.startSwap, Dev.warmUp, Dev.newSwap, Dev.setSpare, Dev.putSwap]

@[simp] theorem Dev.startSwap_opt (d : Dev) (p : Nat) (dead : Bool) : (d.startSwap p dead).opt = d.warmUp p dead := by
  rw [Dev.startSwap_eq, Dev.event_opt]

/-- A swap that starts is its engine's, and its spare warms up. -/
theorem Dev.startSwap_starts (d : Dev) (p : Nat) (dead : Bool) :
    (d.startSwap p dead).swapIn (engOf p) = some (d.newSwap p dead) ∧
    (d.startSwap p dead).spare (engOf p) (spareOf p (d.port p).mode) = { st := 1, port := placeOf p } := by
  constructor
  · rw [Dev.swapIn, Dev.startSwap_opt]
    exact Tab.find_put_same ..
  · rw [Dev.spare, Dev.startSwap_opt]
    exact Tab.get_set_same ..

theorem Dev.relit_startSwap (d : Dev) (p : Nat) (dead : Bool) : d.Relit (d.startSwap p dead) := by
  rw [Dev.startSwap_eq]
  exact (d.relit_opt _).trans (Dev.relit_event ..)

/-- A swap takes the spare of its own port alone. -/
theorem Dev.startSwap_spare_other (d : Dev) (p : Nat) (dead : Bool) {f : Nat} (h : f ≠ spareOf p (d.port p).mode) :
    (d.startSwap p dead).spare (engOf p) f = d.spare (engOf p) f := by
  rw [Dev.spare, Dev.startSwap_opt]
  exact d.spare_setSpare_other (engOf p) _ h

/-- The next swap of an engine, if one starts, is of a port of it whose spare is ready. -/
theorem Dev.resumeSwapsBut_cases (d : Dev) (n : Nat) (but : Option Nat) : d.resumeSwapsBut n but = d ∨
    ∃ p, engOf p = n ∧ d.canSwap p = true ∧
      (d.resumeSwapsBut n but = d.startSwap p true ∨ d.resumeSwapsBut n but = d.fadeSwap p) := by
  have fits : ∀ {p : Nat} {g : Nat → Bool}, (((List.range 32).map fun i => 32 * n + i).filter fun p =>
      (d.port p).st != .off && (d.port p).st != .down && (d.port p).drain != some .mode && but != some p &&
      d.canSwap p && !d.onSpare p).find? g = some p → engOf p = n ∧ d.canSwap p = true := by
    intro p g h
    obtain ⟨hMem, hCan⟩ := List.mem_filter.mp (List.mem_of_find?_eq_some h)
    obtain ⟨i, hi, rfl⟩ := List.mem_map.mp hMem
    have small := List.mem_range.mp hi
    simp only [Bool.and_eq_true] at hCan
    exact ⟨by unfold engOf; omega, hCan.1.2⟩
  unfold Dev.resumeSwapsBut
  dsimp only
  split
  next p hp => exact .inr ⟨p, (fits hp).1, (fits hp).2, .inl rfl⟩
  next =>
    split
    next p hp => exact .inr ⟨p, (fits hp).1, (fits hp).2, .inr rfl⟩
    next => exact .inl rfl

theorem Dev.relit_fadeSwap (d : Dev) (p : Nat) : d.Relit (d.fadeSwap p) := by
  unfold Dev.fadeSwap
  exact ((d.relit_opt _).trans (Dev.relit_startSwap ..)).trans (Dev.relit_opt ..)

theorem Dev.relit_resumeSwapsBut (d : Dev) (n : Nat) (but : Option Nat) : d.Relit (d.resumeSwapsBut n but) := by
  obtain h | ⟨p, -, -, h | h⟩ := d.resumeSwapsBut_cases n but <;> rw [h]
  · exact .refl d
  · exact d.relit_startSwap ..
  · exact d.relit_fadeSwap p

/-- A swap that the SWAP level begins takes the spare of its own port alone. -/
theorem Dev.fadeSwap_spare_other (d : Dev) (p : Nat) {f : Nat} (h : f ≠ spareOf p (d.port p).mode) :
    (d.fadeSwap p).spare (engOf p) f = d.spare (engOf p) f :=
  Dev.startSwap_spare_other (d.setLaser ..) p false h

/-- The next swap of an engine takes no spare that is not ready. -/
theorem Dev.resumeSwapsBut_spare {d : Dev} {n f : Nat} (h : (d.spare n f).st ≠ 0) (but : Option Nat) :
    (d.resumeSwapsBut n but).spare n f = d.spare n f := by
  obtain hNone | ⟨p, rfl, hCan, hNext⟩ := d.resumeSwapsBut_cases n but
  · rw [hNone]
  · have other : f ≠ spareOf p (d.port p).mode := by
      rintro rfl
      simp only [Dev.canSwap, Bool.and_eq_true, beq_iff_eq] at hCan
      exact h hCan.1
    obtain hStart | hFade := hNext
    · rw [hStart, d.startSwap_spare_other p true other]
    · rw [hFade, d.fadeSwap_spare_other p other]

theorem Dev.startSwap_ctrs (d : Dev) (p : Nat) (dead : Bool) : (d.startSwap p dead).ctrs = d.ctrs := by
  rw [Dev.startSwap_eq, Dev.event_ctrs]

/-- The next swap counts nothing. -/
theorem Dev.resumeSwapsBut_ctrs (d : Dev) (n : Nat) (but : Option Nat) : (d.resumeSwapsBut n but).ctrs = d.ctrs := by
  obtain h | ⟨p, -, -, h | h⟩ := d.resumeSwapsBut_cases n but <;> rw [h]
  · exact d.startSwap_ctrs p true
  · simp only [Dev.fadeSwap, Dev.putSwap, Dev.startSwap_ctrs, Dev.setLaser]

end Sys2Proof.Machine
end

section
/-! PROOF. The end of a swap, completed or given up, and its counts (R347, R348, R349, R353). -/

namespace Sys2Proof.Machine

/-! ### A swap that is completed (R347) -/

/-- A port whose own queues are let go. -/
def Dev.letGo (d : Dev) (p : Nat) : Dev := d.setPort p { d.port p with held := false }

theorem Dev.port_letGo (d : Dev) (p : Nat) : (d.letGo p).port p = { d.port p with held := false } :=
  Dev.port_setPort_same ..

theorem Dev.ctr_bumpBy_other (d : Dev) {off o : Nat} (n : Nat) (h : o ≠ off) : (d.bumpBy off n).ctr o = d.ctr o := by
  simp only [Dev.ctr, Dev.bumpBy, Tab.get_set_other _ _ _ _ h]

/-- The counts of light are none of a management link's packets. -/
theorem notPacketCtr_ctrLight {p : Nat} (h : p < 512) {i : Nat} (hi : i < 4) : notPacketCtr (ctrLight p i) := by
  unfold notPacketCtr ctrLight ctrMgl baseOpt baseMgl
  omega

/-- The count of a swap: 1 by a pause, 2 by retrain (R357). -/
def swapCtr (p : Nat) (paused : Option Nat) : Nat := ctrLight p (if paused.isSome then 1 else 2)

/-- The counts of a swap that is completed, with the length of its pause (R357). -/
def Dev.countSwap (d : Dev) (p : Nat) : Option Nat → Dev
  | some ns => (d.bump (ctrLight p 1)).bumpBy (ctrLight p 3) ns
  | none => d.bump (ctrLight p 2)

theorem Dev.relit_countSwap (d : Dev) (p : Nat) (paused : Option Nat) : d.Relit (d.countSwap p paused) := by
  cases paused with
  | none => exact d.relit_bumpBy _ 1
  | some ns => exact (d.relit_bumpBy _ 1).trans (Dev.relit_bumpBy ..)

@[simp] theorem Dev.countSwap_opt (d : Dev) (p : Nat) (paused : Option Nat) : (d.countSwap p paused).opt = d.opt := by
  cases paused <;> rfl

theorem Dev.ctr_countSwap (d : Dev) (p : Nat) (paused : Option Nat) :
    (d.countSwap p paused).ctr (swapCtr p paused) = (d.ctr (swapCtr p paused) + 1) % 2 ^ 64 := by
  cases paused with
  | none => exact d.ctr_bump_same _
  | some ns => exact (Dev.ctr_bumpBy_other _ _ (by simp [swapCtr, ctrLight])).trans (d.ctr_bump_same _)

/-- The old laser of a swap's port is retired, and the spare is in use for the port (R347). -/
def Dev.retire (d : Dev) (n : Nat) (w : Swap) : Dev :=
  let old := d.laserIx w.port
  (d.setLaser n old { d.laser n old with lit := false, failed := true }).setSpare n w.spare
    { st := 2, port := placeOf w.port }

/-- A spare that takes over starts without the levels of a fade (R347). -/
def Dev.startSpare (d : Dev) (n f : Nat) : Dev :=
  let sp := d.laser n (32 + f)
  d.setLaser n (32 + f) { sp with
    lit := !sp.failed, level := 0, nWarn := 0, nSwap := 0, nHalf := 0, nDown := 0, nClear := 0,
    swapOwed := false, halfOwed := false }

/-- The lasers change places: the spare carries the port, whose queues are let go (R347). -/
def Dev.changeLasers (d : Dev) (n : Nat) (w : Swap) : Dev := ((d.retire n w).letGo w.port).startSpare n w.spare

/-- A port's queues are let go whatever the optics hold. -/
theorem Dev.letGo_relit_of_opt (d : Dev) (o : Opt) (p : Nat) : (d.letGo p).Relit (Dev.letGo { d with opt := o } p) :=
  (d.letGo p).relit_opt o

theorem Dev.relit_changeLasers (d : Dev) (n : Nat) (w : Swap) : (d.letGo w.port).Relit (d.changeLasers n w) :=
  (d.letGo_relit_of_opt (d.retire n w).opt w.port).trans (Dev.relit_opt ..)

/-- Light and queues leave the spares as they were. -/
theorem Dev.changeLasers_spares (d : Dev) (n : Nat) (w : Swap) :
    (d.changeLasers n w).opt.spares = (d.retire n w).opt.spares := rfl

theorem Dev.changeLasers_ctrs (d : Dev) (n : Nat) (w : Swap) : (d.changeLasers n w).ctrs = d.ctrs := by
  simp only [Dev.changeLasers, Dev.startSpare, Dev.setLaser, Dev.letGo, Dev.setPort_ctrs, Dev.retire, Dev.setSpare]

theorem Dev.spare_changeLasers (d : Dev) (n : Nat) (w : Swap) :
    (d.changeLasers n w).spare n w.spare = { st := 2, port := placeOf w.port } := by
  rw [Dev.spare_congr (d.changeLasers_spares n w), Dev.retire]
  exact Dev.spare_setSpare_same ..

/-- A completed swap is counted, reported and recorded, and its command answered. -/
def Dev.reportSwap (d : Dev) (n old : Nat) (w : Swap) (paused : Option Nat) : Dev :=
  let d1 := ((d.countSwap w.port paused).putSwap n none).event (.laserSwapped n w.port w.spare (paused.getD 0))
  (d1.faultRec 3 0x05 (n * 64 + old) w.spare 2 (d1.sparesLeft n w.spare) w.spare).swapReply w.port .ok

theorem Dev.relit_reportSwap (d : Dev) (n old : Nat) (w : Swap) (paused : Option Nat) :
    d.Relit (d.reportSwap n old w paused) := by
  unfold Dev.reportSwap
  have counted := (d.relit_countSwap w.port paused).trans (Dev.relit_opt _
    ((d.countSwap w.port paused).putSwap n none).opt)
  exact ((counted.trans (Dev.relit_event ..)).trans (Dev.relit_faultRec ..)).trans (Dev.relit_swapReply ..)

/-- The report leaves the spares. -/
theorem Dev.reportSwap_spares (d : Dev) (n old : Nat) (w : Swap) (paused : Option Nat) :
    (d.reportSwap n old w paused).opt.spares = d.opt.spares := by
  simp [Dev.reportSwap, Dev.putSwap]

/-- The report counts the swap once. -/
theorem Dev.ctr_reportSwap (d : Dev) (n old : Nat) {w : Swap} (h : w.port < 512) (paused : Option Nat) :
    (d.reportSwap n old w paused).ctr (swapCtr w.port paused) = (d.ctr (swapCtr w.port paused) + 1) % 2 ^ 64 := by
  have own : notPacketCtr (swapCtr w.port paused) := notPacketCtr_ctrLight h (by split <;> decide)
  rw [← d.ctr_countSwap, Dev.reportSwap, Dev.swapReply, Dev.finishFor_ctr _ _ _ _ own]
  exact Dev.ctr_congr (by simp [Dev.putSwap]) _

/-- What completes a swap, before the engine's next one. -/
theorem Dev.finishSwap_eq (d : Dev) (n : Nat) (w : Swap) (paused : Option Nat) : d.finishSwap n w paused =
    ((d.changeLasers n w).reportSwap n (d.laserIx w.port) w paused).resumeSwapsBut n none := by
  cases paused <;>
    simp only [Dev.finishSwap, Dev.changeLasers, Dev.retire, Dev.startSpare, Dev.letGo, Dev.reportSwap, Dev.countSwap,
      Dev.resumeSwaps]

/-- A completed swap lets the port's queues go; beside them it is work on the optics. -/
theorem Dev.relit_finishSwap (d : Dev) (n : Nat) (w : Swap) (paused : Option Nat) :
    (d.letGo w.port).Relit (d.finishSwap n w paused) := by
  rw [Dev.finishSwap_eq]
  exact ((Dev.relit_changeLasers ..).trans (Dev.relit_reportSwap ..)).trans (Dev.relit_resumeSwapsBut ..)

/-- The spare of a completed swap carries the port. -/
theorem Dev.spare_finishSwap (d : Dev) (n : Nat) (w : Swap) (paused : Option Nat) :
    (d.finishSwap n w paused).spare n w.spare = { st := 2, port := placeOf w.port } := by
  have reported : ((d.changeLasers n w).reportSwap n (d.laserIx w.port) w paused).spare n w.spare =
      { st := 2, port := placeOf w.port } :=
    (Dev.spare_congr (Dev.reportSwap_spares ..) ..).trans (Dev.spare_changeLasers ..)
  rw [Dev.finishSwap_eq, Dev.resumeSwapsBut_spare (by simp [reported]), reported]

/-- A completed swap counts once. -/
theorem Dev.ctr_finishSwap (d : Dev) (n : Nat) {w : Swap} (h : w.port < 512) (paused : Option Nat) :
    (d.finishSwap n w paused).ctr (swapCtr w.port paused) = (d.ctr (swapCtr w.port paused) + 1) % 2 ^ 64 := by
  rw [Dev.finishSwap_eq, Dev.ctr_congr (Dev.resumeSwapsBut_ctrs ..), Dev.ctr_reportSwap _ _ _ h,
    Dev.ctr_congr (d.changeLasers_ctrs n w)]

/-- A completed swap leaves the port on its spare, with its queues let go. -/
theorem Dev.finishSwap_onSpare (d : Dev) {w : Swap} (hSpare : w.spare = spareOf w.port (d.port w.port).mode)
    (paused : Option Nat) : (d.finishSwap (engOf w.port) w paused).onSpare w.port = true ∧
      (d.finishSwap (engOf w.port) w paused).port w.port = { d.port w.port with held := false } := by
  have kept : (d.finishSwap (engOf w.port) w paused).port w.port = { d.port w.port with held := false } :=
    (Dev.port_congr (d.relit_finishSwap (engOf w.port) w paused).planes.1 _).trans (d.port_letGo _)
  refine ⟨?_, kept⟩
  rw [Dev.onSpare, kept, ← hSpare, Dev.spare_finishSwap]
  simp

/-! ### A swap that is given up (R349, R353) -/

/-- The spare of a swap fails or returns unused, and the port's queues are let go. -/
def Dev.giveBack (d : Dev) (n : Nat) (w : Swap) (fails : Bool) : Dev :=
  let d1 := d.setSpare n w.spare { st := if fails then 3 else 0 }
  let x := d1.laser n (32 + w.spare)
  (d1.setLaser n (32 + w.spare) { x with lit := false, failed := x.failed || fails }).letGo w.port

theorem Dev.relit_giveBack (d : Dev) (n : Nat) (w : Swap) (fails : Bool) :
    (d.letGo w.port).Relit (d.giveBack n w fails) :=
  d.letGo_relit_of_opt _ w.port

theorem Dev.giveBack_spares (d : Dev) (n : Nat) (w : Swap) (fails : Bool) :
    (d.giveBack n w fails).opt.spares = (d.setSpare n w.spare { st := if fails then 3 else 0 }).opt.spares := rfl

theorem Dev.spare_giveBack (d : Dev) (n : Nat) (w : Swap) (fails : Bool) :
    (d.giveBack n w fails).spare n w.spare = { st := if fails then 3 else 0 } := by
  rw [Dev.spare_congr (d.giveBack_spares n w fails), Dev.spare_setSpare_same]

theorem Dev.dropSwapBut_eq (d : Dev) (n : Nat) (w : Swap) (fails : Bool) (st : Status) (but : Option Nat) :
    d.dropSwapBut n w fails st but =
      (((d.giveBack n w fails).putSwap n none).swapReply w.port st).resumeSwapsBut n but := by
  unfold Dev.dropSwapBut Dev.giveBack Dev.letGo
  rfl

/-- A swap that is given up lets the port's queues go; beside them it is work on the optics. -/
theorem Dev.relit_dropSwapBut (d : Dev) (n : Nat) (w : Swap) (fails : Bool) (st : Status) (but : Option Nat) :
    (d.letGo w.port).Relit (d.dropSwapBut n w fails st but) := by
  rw [Dev.dropSwapBut_eq]
  exact (((d.relit_giveBack n w fails).trans (Dev.relit_opt _ ((d.giveBack n w fails).putSwap n none).opt)).trans
    (Dev.relit_swapReply ..)).trans (Dev.relit_resumeSwapsBut ..)

/-- A spare that fails stays failed whatever swap comes next. -/
theorem Dev.spare_dropSwapBut_fails (d : Dev) (n : Nat) (w : Swap) (st : Status) (but : Option Nat) :
    (d.dropSwapBut n w true st but).spare n w.spare = { st := 3 } := by
  have given : (((d.giveBack n w true).putSwap n none).swapReply w.port st).spare n w.spare = { st := 3 } :=
    (Dev.spare_congr (congrArg Opt.spares (Dev.swapReply_opt ..)) ..).trans (d.spare_giveBack n w true)
  rw [Dev.dropSwapBut_eq, Dev.resumeSwapsBut_spare (by simp [given]), given]

end Sys2Proof.Machine
end

section
/-! PROOF. The exit of a port from ACTIVE and its way into DETECT or DRAINING: what they leave of the optics, and what
they count (R129, R324, R372, R373). -/

namespace Sys2Proof.Machine

/-! ### What the discard of copies changes (R119, R123) -/

theorem Dev.writeBack_shape (d : Dev) (r pos : Nat) (b : List Byte) :
    ∃ h' i' o', d.writeBack r pos b = { d with heads := h', intPend := i', out := o' } := by
  have sent : ∀ a, ∃ o', d.dmaSend a b = { d with out := o' } := fun a => by
    unfold Dev.dmaSend
    split
    · exact ⟨_, rfl⟩
    · exact ⟨_, rfl⟩
  unfold Dev.writeBack
  dsimp only
  obtain ⟨_, hs⟩ := sent (d.reg (offRing r 0) / 32 * 32 + 32 * (pos % d.ringSize r) + 16)
  rw [hs]
  split
  · obtain ⟨_, _, hi⟩ := Dev.raiseInt_shape _ _
    rw [hi]
    exact ⟨_, _, _, rfl⟩
  · exact ⟨_, _, _, rfl⟩

theorem Dev.writeBackOf_shape (d : Dev) (f : Frame) :
    ∃ h' i' o', d.writeBackOf f = { d with heads := h', intPend := i', out := o' } := by
  unfold Dev.writeBackOf
  split
  · exact ⟨_, _, _, rfl⟩
  · split
    · exact d.writeBack_shape ..
    · exact d.writeBack_shape ..

theorem Dev.release_shape (d : Dev) (n : Nat) :
    ∃ e' h' i' o', d.release n = { d with store := e', heads := h', intPend := i', out := o' } := by
  unfold Dev.release
  split
  · exact ⟨_, _, _, _, rfl⟩
  · split
    · exact ⟨_, _, _, _, rfl⟩
    · dsimp only
      split
      · exact ⟨_, _, _, _, rfl⟩
      · obtain ⟨_, _, _, h⟩ := Dev.writeBackOf_shape _ _
        rw [h]
        exact ⟨_, _, _, _, rfl⟩

theorem Dev.gleanFrame_shape (d : Dev) (n : Nat) (c : Copy) (outcome : Nat) (cut ce : Bool) :
    ∃ g' k', d.gleanFrame n c outcome cut ce = { d with cnt := g', ctrs := k' } := by
  have added : ∀ s b, ∃ g' k', d.gleanAdd s b = { d with cnt := g', ctrs := k' } := fun s b => by
    unfold Dev.gleanAdd
    split
    · exact ⟨_, _, rfl⟩
    · split
      · exact ⟨_, _, rfl⟩
      · exact ⟨_, _, rfl⟩
  unfold Dev.gleanFrame
  split
  · split
    · exact ⟨_, _, rfl⟩
    · exact added ..
  · exact ⟨_, _, rfl⟩

/-! ### Work that leaves ports, spares and registers -/

/-- `e` comes from `d` by work that leaves the ports, the spares, the registers and the contexts alone, and counts in
the counters `cs` only. -/
structure Dev.Quiet (cs : List Nat) (d e : Dev) : Prop where
  ports : e.ports = d.ports
  spares : e.opt.spares = d.opt.spares
  regs : e.regs = d.regs
  red : e.red = d.red
  ctr : ∀ o, o ∉ cs → e.ctr o = d.ctr o

theorem Dev.Quiet.refl (cs : List Nat) (d : Dev) : d.Quiet cs d := ⟨rfl, rfl, rfl, rfl, fun _ _ => rfl⟩

theorem Dev.Quiet.trans {cs : List Nat} {a b c : Dev} (h : a.Quiet cs b) (k : b.Quiet cs c) : a.Quiet cs c :=
  ⟨k.ports.trans h.ports, k.spares.trans h.spares, k.regs.trans h.regs, k.red.trans h.red,
    fun o ho => (k.ctr o ho).trans (h.ctr o ho)⟩

theorem Dev.Quiet.port {cs : List Nat} {d e : Dev} (h : d.Quiet cs e) (n : Nat) : e.port n = d.port n :=
  Dev.port_congr h.ports n

/-- A port stays on its spare, or off it. -/
theorem Dev.Quiet.onSpare {cs : List Nat} {d e : Dev} (h : d.Quiet cs e) (n : Nat) : e.onSpare n = d.onSpare n :=
  Dev.onSpare_congr h.spares (by rw [h.port])

theorem Dev.quiet_bumpBy (d : Dev) {cs : List Nat} {a : Nat} (n : Nat) (h : a ∈ cs) : d.Quiet cs (d.bumpBy a n) :=
  { Dev.Quiet.refl cs d with ctr := (d.keeps_bumpBy n h).ctr }

/-- A change of the store alone is of that kind. -/
theorem Dev.quiet_store (d : Dev) (cs : List Nat) (s : Store) : d.Quiet cs { d with store := s } :=
  { Dev.Quiet.refl cs d with }

theorem Dev.quiet_send (d : Dev) (cs : List Nat) (o : Out) : d.Quiet cs (d.send o) := { Dev.Quiet.refl cs d with }

theorem Dev.quiet_release (d : Dev) (cs : List Nat) (n : Nat) : d.Quiet cs (d.release n) := by
  obtain ⟨_, _, _, _, h⟩ := d.release_shape n
  rw [h]
  exact { Dev.Quiet.refl cs d with }

theorem Dev.quiet_gleanFrame (d : Dev) {cs : List Nat} (h : ctrCnt 0x120 ∈ cs) (n : Nat) (c : Copy) (outcome : Nat)
    (cut ce : Bool) : d.Quiet cs (d.gleanFrame n c outcome cut ce) := by
  obtain ⟨_, _, hs⟩ := d.gleanFrame_shape n c outcome cut ce
  exact ⟨by rw [hs], by rw [hs], by rw [hs], by rw [hs], (d.keeps_gleanFrame h ..).ctr⟩

theorem Dev.quiet_dropCopies (d : Dev) {cs : List Nat} (h : ctrCnt 0x120 ∈ cs) (l : List Copy) (outcome : Nat) :
    d.Quiet cs (d.dropCopies l outcome) := by
  induction l generalizing d with
  | nil => exact .refl ..
  | cons c r ih => exact ((d.quiet_gleanFrame h ..).trans (Dev.quiet_release ..)).trans (ih _)

theorem Dev.quiet_event (d : Dev) (cs : List Nat) (e : Ev) : d.Quiet cs (d.event e) := by
  obtain ⟨_, h⟩ := d.event_shape e
  rw [h]
  exact { Dev.Quiet.refl cs d with }

theorem Dev.quiet_faultRec (d : Dev) (cs : List Nat) (cls unit_ index sub action left detail : Nat) :
    d.Quiet cs (d.faultRec cls unit_ index sub action left detail) := by
  obtain ⟨_, _, _, _, h⟩ := d.faultRec_shape cls unit_ index sub action left detail
  rw [h]
  exact { Dev.Quiet.refl cs d with }

theorem Dev.quiet_sendLink (d : Dev) (cs : List Nat) (p : Nat) (b : List Byte) : d.Quiet cs (d.sendLink p b) := by
  obtain ⟨_, _, h⟩ := d.sendLink_shape p b
  rw [h]
  exact { Dev.Quiet.refl cs d with }

/-- A discarded queue counts its copies, and the samples that are dropped (R129, R514). -/
theorem Dev.quiet_flushPort (d : Dev) {cs : List Nat} (h : ctrCnt 0x120 ∈ cs) (hLoss : ctrStore 0x120 ∈ cs)
    (l : Nat) : d.Quiet cs (d.flushPort l) := by
  have abandon : ∀ (x : Sending) (e f : Dev), d.Quiet cs e →
      d.Quiet cs (if x.begun then (e.bump (ctrStore 0x120)).send (.abandoned (f.physical l) x.hdr)
        else e.bump (ctrStore 0x120)) := fun x e f he => by
    split
    · exact (he.trans (e.quiet_bumpBy 1 hLoss)).trans (Dev.quiet_send ..)
    · exact he.trans (e.quiet_bumpBy 1 hLoss)
  unfold Dev.flushPort
  dsimp only
  refine List.foldlRecOn (motive := fun x : Dev => d.Quiet cs x) _ _ ?_ fun e he x _ =>
    (abandon x e _ he).trans (Dev.quiet_release ..)
  exact (((d.quiet_store cs _).trans (Dev.quiet_bumpBy _ _ hLoss)).trans (Dev.quiet_dropCopies _ h _ _)).trans
    (Dev.quiet_store ..)

/-! ### Exits (R129, R372) -/

/-- With no context held, no member port is lost to one (R205). -/
theorem Dev.portLeft_of_no_ctxs {d : Dev} (h : d.red.ctxs = []) (l : Nat) : d.portLeft l = d := by
  rw [Dev.portLeft, h]; rfl

/-- With nothing in reception, nothing in it fails (R63). -/
theorem Dev.failRx_of_none {d : Dev} {p : Nat} (h : (d.port p).rx = none) : d.failRx p = d := by
  rw [Dev.failRx, h]

/-- The counters of an exit: the port's exits, the lost copies, the dropped samples. -/
def exitCtrs (p : Nat) : List Nat := [ctrPort p 0x140, ctrStore 0x120, ctrCnt 0x120]

/-- The port with the code of its last exit. -/
def Dev.noteExit (d : Dev) (p code : Nat) : Dev := d.setPort p { d.port p with lastExit := code }

theorem Dev.port_noteExit (d : Dev) (p code : Nat) : (d.noteExit p code).port p = { d.port p with lastExit := code } :=
  Dev.port_setPort_same ..

/-- Of the ports, the spares and the registers an exit changes LAST_EXIT alone. -/
theorem Dev.quiet_exitCommon {d : Dev} {p : Nat} (hRx : (d.port p).rx = none) (hCtxs : d.red.ctxs = []) (code : Nat) :
    (d.noteExit p code).Quiet (exitCtrs p) (d.exitCommon p code) := by
  have noRx : (((d.noteExit p code).bump (ctrPort p 0x140)).port p).rx = none :=
    (congrArg PortSt.rx (d.port_noteExit p code)).trans hRx
  have left : (((d.noteExit p code).bump (ctrPort p 0x140)).failRx p).portLeft (d.logical p) =
      (d.noteExit p code).bump (ctrPort p 0x140) := by
    rw [Dev.failRx_of_none noRx]
    exact Dev.portLeft_of_no_ctxs (d := (d.noteExit p code).bump (ctrPort p 0x140)) hCtxs _
  unfold Dev.exitCommon
  dsimp only
  rw [← Dev.noteExit, left]
  have flushed := ((d.noteExit p code).quiet_bumpBy 1 (List.mem_cons_self ..)).trans
    (((d.noteExit p code).bump (ctrPort p 0x140)).quiet_flushPort (cs := exitCtrs p) (by simp [exitCtrs])
      (by simp [exitCtrs]) (d.logical p))
  have told := flushed.trans (Dev.quiet_event _ _ (.portDown (d.logical p) p code (d.port p).reason))
  split
  · exact told
  · exact told.trans (Dev.quiet_faultRec ..)

theorem Dev.quiet_sendLinkDown (d : Dev) (cs : List Nat) (p code : Nat) : d.Quiet cs (d.sendLinkDown p code) :=
  ((d.quiet_sendLink ..).trans (Dev.quiet_sendLink ..)).trans (Dev.quiet_sendLink ..)

/-! ### Into DETECT (R324, R360) -/

theorem Dev.quiet_crossFloor (d : Dev) (cs : List Nat) (floor value unit_ index : Nat) :
    d.Quiet cs (d.crossFloor floor value unit_ index) := by
  unfold Dev.crossFloor
  split
  · exact .refl ..
  · have noted : ∀ g : FaultSt, d.Quiet cs { d with faults := g } := fun g => { Dev.Quiet.refl cs d with }
    exact ((noted _).trans (Dev.quiet_event ..)).trans (Dev.quiet_faultRec ..)

theorem Dev.quiet_ite_crossFloor (d : Dev) (cs : List Nat) (c : Prop) [Decidable c] (floor value unit_ index : Nat) :
    d.Quiet cs (if c then d.crossFloor floor value unit_ index else d) := by
  split
  · exact d.quiet_crossFloor ..
  · exact .refl ..

theorem Dev.quiet_checkFiber (d : Dev) (cs : List Nat) (p : Nat) : d.Quiet cs (d.checkFiber p) := by
  unfold Dev.checkFiber
  exact (d.quiet_ite_crossFloor ..).trans (Dev.quiet_ite_crossFloor ..)

theorem Dev.quiet_degraded (d : Dev) (cs : List Nat) (p step action capacity : Nat) :
    d.Quiet cs (d.degraded p step action capacity) :=
  (d.quiet_event ..).trans (Dev.quiet_faultRec ..)

/-- A failed lane changes a mode within its band alone (R18). -/
theorem PortSt.onLanes_keeps (x : PortSt) : x.onLanes.lastExit = x.lastExit ∧ x.onLanes.badHalf = x.badHalf ∧
    isCampus x.onLanes.mode = isCampus x.mode ∧ (x.onLanes.mode = 0 ↔ x.mode = 0) := by
  unfold PortSt.onLanes
  split
  next h =>
    simp only [Bool.and_eq_true, Bool.or_eq_true, beq_iff_eq] at h
    obtain h | h := h.2
    · simp [h, halfMode, isCampus]
    · simp [h, halfMode, isCampus]
  next => simp

theorem Dev.quiet_joinLoop (d : Dev) (cs : List Nat) (p : Nat) : d.Quiet cs (d.joinLoop p) :=
  { Dev.Quiet.refl cs d with }

theorem Dev.quiet_lightPort (d : Dev) (cs : List Nat) (p : Nat) (lit : Bool) : d.Quiet cs (d.lightPort p lit) :=
  { Dev.Quiet.refl cs d with }

theorem Dev.quiet_mapRings (d : Dev) (cs : List Nat) (p : Nat) (f : RingSt → RingSt) : d.Quiet cs (d.mapRings p f) :=
  { Dev.Quiet.refl cs d with }

/-- A port in DETECT, as the stages before leave it. -/
def PortSt.detecting (x : PortSt) (now : Nat) : PortSt :=
  { x.cleared.onLanes with st := .detect, reason := 0, muted := true, detectAt := now }

/-- A port with a mode and a half that works, in no loopback, enters DETECT; of the other ports, the spares and the
counters nothing changes. -/
theorem Dev.quiet_toDetect {d : Dev} {p : Nat} (hRx : (d.port p).rx = none) (hMode : (d.port p).mode ≠ 0)
    (hHalf : (d.port p).badHalf ≠ 3) (hLoop : d.loop p = 0) (cs : List Nat) :
    (d.setPort p ((d.port p).detecting d.now)).Quiet cs (d.toDetect p) := by
  obtain ⟨-, hBad, -, hOff⟩ := (d.port p).cleared.onLanes_keeps
  have works : (d.port p).cleared.onLanes.badHalf ≠ 3 := by rwa [hBad]
  unfold Dev.toDetect
  dsimp only
  rw [Dev.failRx_of_none hRx, if_neg (hOff.not.mpr hMode), if_neg works, hLoop, if_neg (show ¬ 0 = 2 by decide)]
  have lit := ((d.setPort p ((d.port p).detecting d.now)).quiet_joinLoop cs p).trans
    (Dev.quiet_lightPort _ cs p (0 != 1))
  have swept : ∀ (c : Prop) [Decidable c] (e : Dev) (f : RingSt → RingSt),
      e.Quiet cs (if c then e else e.mapRings p f) := fun c _ e f => by
    split
    · exact .refl ..
    · exact e.quiet_mapRings ..
  split
  · exact ((lit.trans (swept ..)).trans (Dev.quiet_degraded ..)).trans (Dev.quiet_checkFiber ..)
  · exact lit.trans (swept ..)

/-- In DETECT a port keeps the code of its last exit and its band. -/
theorem PortSt.detecting_keeps (x : PortSt) (now : Nat) : (x.detecting now).st = .detect ∧
    (x.detecting now).lastExit = x.lastExit ∧ isCampus (x.detecting now).mode = isCampus x.mode := by
  obtain ⟨hExit, -, hBand, -⟩ := x.cleared.onLanes_keeps
  exact ⟨rfl, hExit, hBand⟩

/-- Out of ACTIVE into DETECT: the port shows the exit's code and keeps its spare, and the exit alone is counted. -/
theorem Dev.exitToDetect_enters {d : Dev} {p : Nat} (hRx : (d.port p).rx = none) (hCtxs : d.red.ctxs = [])
    (hMode : (d.port p).mode ≠ 0) (hHalf : (d.port p).badHalf ≠ 3) (hLoop : d.loop p = 0) (code : Nat) :
    ((d.exitToDetect p code true).port p).st = .detect ∧ ((d.exitToDetect p code true).port p).lastExit = code ∧
    (d.exitToDetect p code true).onSpare p = d.onSpare p ∧
    ∀ o, o ∉ exitCtrs p → (d.exitToDetect p code true).ctr o = d.ctr o := by
  have left := (Dev.quiet_exitCommon hRx hCtxs code).trans (Dev.quiet_sendLinkDown _ (exitCtrs p) p code)
  generalize he : (d.exitCommon p code).sendLinkDown p code = e at left
  have hPort : e.port p = { d.port p with lastExit := code } := (left.port p).trans (d.port_noteExit p code)
  have enters := Dev.quiet_toDetect (d := e) (p := p) (by rw [hPort]; exact hRx) (by rw [hPort]; exact hMode)
    (by rw [hPort]; exact hHalf) ((Dev.loop_congr left.regs p).trans hLoop) (exitCtrs p)
  have hEnd : d.exitToDetect p code true = e.toDetect p := by simp only [Dev.exitToDetect, if_true, he]
  have hNow : (e.toDetect p).port p = (e.port p).detecting e.now := (enters.port p).trans (Dev.port_setPort_same ..)
  obtain ⟨hSt, hExit, hBand⟩ := (e.port p).detecting_keeps e.now
  rw [hEnd, hNow]
  refine ⟨hSt, by rw [hExit, hPort], ?_, fun o ho => (enters.ctr o ho).trans (left.ctr o ho)⟩
  exact Dev.onSpare_congr (enters.spares.trans left.spares) (by rw [hNow, hBand, hPort])

end Sys2Proof.Machine
end

section
/-! PROOF. Laser swaps: the device's own (R128, R346 to R349), the partner's (R345, R351, R354), and what their
messages and times do. -/

namespace Sys2Proof.Machine

/-! ### The device's own swap (R346, R353) -/

/-- OPT_SWAP of a port whose spare is ready starts the swap and holds its reply. -/
theorem exec_optSwap_starts {s : State} {c : CmdCtx} {p : BitVec 16} (h : s.d.Runs (.optSwap c p) c 0x0306 .operator)
    (hp : p.toNat < 512) (hClaim : (s.d.touch c).claimedElse c.src (.port p.toNat) = false)
    (hOff : (s.d.port p.toNat).st ≠ .off) (hDown : (s.d.port p.toNat).st ≠ .down)
    (hCan : s.d.canSwap p.toNat = true) :
    exec (.optSwap c p) s = .next (s.put
      (((s.d.touch c).startSwap p.toNat false).holdReply c 0x0306 (.swap p.toNat)).1) := by
  have can : (s.d.touch c).canSwap p.toNat = true := hCan
  have idle : ((s.d.touch c).swapIn (engOf p.toNat)).isSome = false := by
    simp only [Dev.canSwap, Bool.and_eq_true, Option.isNone_iff_eq_none] at can
    rw [can.2]
    rfl
  have off : ((s.d.touch c).port p.toNat).st ≠ .off := hOff
  have down : ((s.d.touch c).port p.toNat).st ≠ .down := hDown
  refine congrArg (goto s) (Dev.runCmd_holds h ?_)
  simp only [hClaim, idle, off, down, can, Nat.not_le.mpr hp, decide_false, Bool.or_false, Bool.false_eq_true, if_false,
    Bool.not_true]
  rfl

/-- SWAP_REQ of a swap that asks for the `n`th time (R346). -/
def Dev.askSwap (d : Dev) (e : Nat) (w : Swap) (n : Nat) : Dev :=
  (d.putSwap e (some { w with step := .requested n })).sendSwapReq { w with step := .requested n }

/-- A tuned spare of an ACTIVE port asks the partner, where no swap of the partner stands (R346, R354). -/
theorem exec_spareTuned_asks {s : State} {e : Fin 16} {w : Swap} (ha : s.d.awake = true)
    (hw : s.d.swapIn e.val = some w) (hStep : w.step = .tuning) (hSt : (s.d.port w.port).st = .active)
    (hDead : w.dead = false) (hFeat : (s.d.port w.port).feat.getLsbD 0 = true)
    (hHold : (s.d.port w.port).hold = none) : exec (.spareTuned e) s = .next (s.put (s.d.askSwap e.val w 1)) := by
  refine congrArg (goto s) ?_
  simp [ha, hw, hStep, hSt, hDead, hFeat, hHold, PortSt.holdsOff, Dev.askSwap]

/-- A SWAP_REQ without an answer is sent again, up to the third time (R346). -/
theorem exec_swapReqResend_asks {s : State} {e : Fin 16} {w : Swap} {n : Nat} (ha : s.d.awake = true)
    (hw : s.d.swapIn e.val = some w) (hStep : w.step = .requested n) (h0 : n ≠ 0) (hn : n < 3)
    (hSt : (s.d.port w.port).st = .active) :
    exec (.swapReqResend e) s = .next (s.put (s.d.askSwap e.val w (n + 1))) := by
  refine congrArg (goto s) ?_
  simp [ha, hw, hStep, hSt, h0, hn, Dev.askSwap]

/-- Asking leaves the planes, and an unmuted modulator sends one message more. -/
theorem Dev.askSwap_effect {d : Dev} (e : Nat) {w : Swap} (hMuted : (d.port w.port).muted = false) (n : Nat) :
    (d.askSwap e w n).swapIn e = some { w with step := .requested n } ∧
    (d.askSwap e w n).out.length = d.out.length + 1 ∧ (d.askSwap e w n).ports = d.ports ∧
    (d.askSwap e w n).fwd = d.fwd := by
  have muted : ((d.putSwap e (some { w with step := .requested n })).port w.port).muted = false := hMuted
  refine ⟨?_, Dev.sendLink_length muted _, Dev.sendLink_ports .., Dev.sendLink_fwd ..⟩
  exact (Dev.swapIn_congr (Dev.sendLink_opt ..) e).trans (Dev.swapIn_putSwap ..)

/-- A spare that does not tune is given up as failed (R353). -/
theorem exec_spareTuneTimeout_drops {s : State} {e : Fin 16} {w : Swap} (ha : s.d.awake = true)
    (hw : s.d.swapIn e.val = some w) (hStep : w.step = .tuning) (hDead : w.dead = false) :
    exec (.spareTuneTimeout e) s = .next (s.put (s.d.dropSwapBut e.val w true .notFound none)) := by
  refine congrArg (goto s) ?_
  simp [ha, hw, hStep, hDead, Dev.dropSwap]

/-! ### The partner's answers (R128, R346, R347, R349) -/

theorem Dev.hears_of {d : Dev} {p : Nat} (ha : d.awake = true) (hLock : (d.port p).fecLock = true)
    (hLoop : d.loop p ≠ 2) : d.hears p = true := by
  simp [Dev.hears, ha, hLock, hLoop]

/-- An answer is that to the port's own request. -/
theorem Dev.asked_of_requested {d : Dev} {p : Nat} {w : Swap} {n : Nat} (hw : d.swapOfPort p = some w)
    (hStep : w.step = .requested n) (h0 : n ≠ 0) : d.asked p w.token = some w := by
  simp [Dev.asked, hw, hStep, h0]

theorem Dev.swapOfPort_countLink (d : Dev) (p n q : Nat) : (d.countLink p n).swapOfPort q = d.swapOfPort q :=
  Dev.swapOfPort_congr rfl q

/-- The device whose own pause begins: the port's queues are held (R128). -/
def Dev.pause (d : Dev) (p : Nat) (w : Swap) : Dev :=
  (d.setPort p { d.port p with held := true }).putSwap (engOf p)
    (some { w with step := .paused, heldAt := d.now })

theorem Dev.pause_effect (d : Dev) (p : Nat) (w : Swap) : (d.pause p w).port p = { d.port p with held := true } ∧
    (d.pause p w).swapIn (engOf p) = some { w with step := .paused, heldAt := d.now } ∧
    (∀ q, q ≠ p → (d.pause p w).port q = d.port q) ∧ (d.pause p w).store = d.store := by
  unfold Dev.pause
  refine ⟨?_, Dev.swapIn_putSwap .., fun q hq => ?_, ?_⟩
  · rw [Dev.port_putSwap, Dev.port_setPort_same]
  · rw [Dev.port_putSwap, Dev.port_setPort_other _ _ hq]
  · simp only [Dev.putSwap, Dev.setPort_store]

/-- SWAP_ACK to an ACTIVE port's request begins the pause. -/
theorem exec_swapAckReceived_pauses {s : State} {p : Port} {w : Swap} {n : Nat} (hHears : s.d.hears p.val = true)
    (hw : s.d.swapOfPort p.val = some w) (hStep : w.step = .requested n) (h0 : n ≠ 0)
    (hSt : (s.d.port p.val).st = .active) :
    exec (.swapAckReceived p w.token) s = .next (s.put ((s.d.countLink p.val 1).pause p.val w)) := by
  have asked : (s.d.countLink p.val 1).asked p.val w.token = some w :=
    Dev.asked_of_requested ((s.d.swapOfPort_countLink ..).trans hw) hStep h0
  have active : ((s.d.countLink p.val 1).port p.val).st = .active := hSt
  refine congrArg (goto s) ?_
  simp only [hHears, asked, Bool.not_true, Bool.false_eq_true, if_false]
  exact if_pos active

/-- SWAP_NAK to a request sends the swap by retrain (R349). -/
theorem exec_swapNakReceived_retrains {s : State} {p : Port} {w : Swap} {n : Nat} (hHears : s.d.hears p.val = true)
    (hw : s.d.swapOfPort p.val = some w) (hStep : w.step = .requested n) (h0 : n ≠ 0) :
    exec (.swapNakReceived p w.token) s =
      .next (s.put ((s.d.countLink p.val 1).retrainSwap (engOf p.val) w)) := by
  have asked : (s.d.countLink p.val 1).asked p.val w.token = some w :=
    Dev.asked_of_requested ((s.d.swapOfPort_countLink ..).trans hw) hStep h0
  refine congrArg (goto s) ?_
  simp only [hHears, asked, Bool.not_true, Bool.false_eq_true, if_false]

/-- A port in DRAINING for a purpose (R373). -/
def Dev.drains (d : Dev) (p : Nat) (why : DrainWhy) : Dev :=
  d.setPort p { d.port p with st := .draining, drain := some why, drainAt := d.now }

theorem Dev.startDrain_of_no_ctxs {d : Dev} (h : d.red.ctxs = []) (p : Nat) (why : DrainWhy) :
    d.startDrain p why = d.drains p why :=
  Dev.portLeft_of_no_ctxs (d := d.drains p why) h _

/-- A swap by retrain drains an ACTIVE port where ALLOW_RETRAIN permits it (R349). -/
theorem Dev.retrainSwap_drains {d : Dev} {e : Nat} {w : Swap} (hSt : (d.port w.port).st = .active)
    (hAllow : d.regBit (offLightCtl e) 1 = true) (hCtxs : d.red.ctxs = []) :
    d.retrainSwap e w = (d.putSwap e (some { w with step := .draining })).drains w.port .swap := by
  rw [Dev.retrainSwap, hSt]
  simp only [hAllow, Bool.or_true, if_true]
  exact Dev.startDrain_of_no_ctxs (d := d.putSwap e (some { w with step := .draining })) hCtxs _ _

/-- The device after SWAP_NOW: the old laser is dark and the spare lit (R346). -/
def Dev.shutter (d : Dev) (e : Nat) (w : Swap) : Dev :=
  let d1 := d.sendLink w.port [0x43, w.token, if isCampus (d.port w.port).mode then 1 else 0, 0, 0, 50]
  let d2 := d1.setLaser e (d1.laserIx w.port) { d1.laser e (d1.laserIx w.port) with lit := false }
  (d2.setLaser e (32 + w.spare) { d2.laser e (32 + w.spare) with lit := true }).putSwap e
    (some { w with step := .shuttered })

/-- SWAP_NOW in a pause changes the shutters once the last frame has left. -/
theorem exec_swapNow_shutters {s : State} {e : Fin 16} {w : Swap} (ha : s.d.awake = true)
    (hw : s.d.swapIn e.val = some w) (hStep : w.step = .paused) (hLeft : s.d.sendingOn (s.d.logical w.port) = []) :
    exec (.swapNow e) s = .next (s.put (s.d.shutter e.val w)) := by
  refine congrArg (goto s) ?_
  simp only [ha, hw, hStep, hLeft, if_true, List.isEmpty_nil, decide_true, Bool.and_self]
  rfl

theorem Dev.shutter_effect (d : Dev) (e : Nat) (w : Swap) :
    (d.shutter e w).swapIn e = some { w with step := .shuttered } ∧
    ((d.shutter e w).laser e (32 + w.spare)).lit = true ∧
    (d.laserIx w.port ≠ 32 + w.spare → ((d.shutter e w).laser e (d.laserIx w.port)).lit = false) ∧
    (d.shutter e w).ports = d.ports := by
  unfold Dev.shutter
  dsimp only
  generalize hm : d.sendLink w.port [0x43, w.token, if isCampus (d.port w.port).mode then 1 else 0, 0, 0, 50] = m
  have hOpt : m.opt = d.opt := by rw [← hm, Dev.sendLink_opt]
  have hPorts : m.ports = d.ports := by rw [← hm, Dev.sendLink_ports]
  rw [Dev.laserIx_congr hOpt hPorts]
  refine ⟨Dev.swapIn_putSwap .., ?_, fun hOld => ?_, by simp only [Dev.putSwap, Dev.setLaser, hPorts]⟩
  · rw [Dev.laser_putSwap, Dev.laser_setLaser_same]
  · rw [Dev.laser_putSwap, Dev.laser_setLaser_other _ _ _ hOld, Dev.laser_setLaser_same]

/-- SWAP_DONE completes the swap; where no mode change waits for it and no SWAP_REQ came during the pause, that is
all (R347, R354). -/
theorem exec_swapDoneReceived_finishes {s : State} {p : Port} {w : Swap} (hHears : s.d.hears p.val = true)
    (hw : s.d.swapOfPort p.val = some w) (hStep : w.step = .shuttered) (hWait : (s.d.port p.val).reqWait = none)
    (hDrain : (s.d.port p.val).drain ≠ some .mode) : ∃ ns, exec (.swapDoneReceived p w.token) s =
      .next (s.put ((s.d.countLink p.val 1).finishSwap (engOf p.val) w (some ns))) := by
  obtain ⟨-, hPort⟩ := Dev.swapOfPort_eq_some.mp hw
  refine ⟨nsOfClk (s.d.now - w.heldAt), congrArg (goto s) ?_⟩
  have kept : ((s.d.countLink p.val 1).finishSwap (engOf p.val) w (some (nsOfClk (s.d.now - w.heldAt)))).port p.val =
      { s.d.port p.val with held := false } := by
    rw [← hPort]
    exact (Dev.port_congr (Dev.relit_finishSwap ..).planes.1 _).trans (Dev.port_letGo ..)
  simp [hHears, Dev.swapOfPort_countLink, hw, hStep, kept, hDrain, hWait]

/-- A port whose swap is completed after a pause sends on its spare, and the swap is counted (R347). -/
theorem Dev.finishSwap_done {d : Dev} {w : Swap} (hp : w.port < 512)
    (hSpare : w.spare = spareOf w.port (d.port w.port).mode) (ns : Nat) :
    let e := d.finishSwap (engOf w.port) w (some ns)
    e.onSpare w.port = true ∧ (e.port w.port).held = false ∧ (e.spare (engOf w.port) w.spare).st = 2 ∧
      e.ctr (ctrLight w.port 1) = (d.ctr (ctrLight w.port 1) + 1) % 2 ^ 64 ∧
      (∀ q, q ≠ w.port → e.port q = d.port q) ∧ e.store = d.store := by
  obtain ⟨hOn, hNow⟩ := d.finishSwap_onSpare hSpare (some ns)
  obtain ⟨hPorts, -, hStore, -, -⟩ := (d.relit_finishSwap (engOf w.port) w (some ns)).planes
  exact ⟨hOn, congrArg PortSt.held hNow, congrArg Spare.st (d.spare_finishSwap ..), d.ctr_finishSwap _ hp (some ns),
    fun q hq => (Dev.port_congr hPorts q).trans (d.port_setPort_other _ hq), hStore⟩

theorem Dev.port_countLink (d : Dev) (p n q : Nat) : (d.countLink p n).port q = d.port q :=
  Dev.port_congr (d.bumpBy_ports ..) q

theorem Dev.countLink_store (d : Dev) (p n : Nat) : (d.countLink p n).store = d.store := d.bumpBy_store ..

/-- The count of received messages is none of light. -/
theorem Dev.ctr_countLink_light (d : Dev) (p n i : Nat) : (d.countLink p n).ctr (ctrLight p i) = d.ctr (ctrLight p i) :=
  d.ctr_bumpBy_other n (by unfold ctrLight ctrLine; omega)

theorem ctrLight_not_exit {p i : Nat} (hp : p < 512) (hi : i < 4) : ctrLight p i ∉ exitCtrs p := by
  unfold exitCtrs ctrLight ctrPort ctrStore ctrCnt baseOpt basePort baseStore baseCnt
  simp only [List.mem_cons, List.not_mem_nil, or_false]
  omega

/-- A port that leaves ACTIVE with a swap completed by retrain enters DETECT on its spare, and the swap is counted
(R348). -/
theorem Dev.finishSwap_exits {d : Dev} {w : Swap} (hp : w.port < 512)
    (hSpare : w.spare = spareOf w.port (d.port w.port).mode) (hRx : (d.port w.port).rx = none)
    (hCtxs : d.red.ctxs = []) (hMode : (d.port w.port).mode ≠ 0) (hHalf : (d.port w.port).badHalf ≠ 3)
    (hLoop : d.loop w.port = 0) :
    let e := (d.finishSwap (engOf w.port) w none).exitToDetect w.port exitLaser true
    (e.port w.port).st = .detect ∧ (e.port w.port).lastExit = 9 ∧ e.onSpare w.port = true ∧
      e.ctr (ctrLight w.port 2) = (d.ctr (ctrLight w.port 2) + 1) % 2 ^ 64 := by
  obtain ⟨hOn, hNow⟩ := d.finishSwap_onSpare hSpare none
  obtain ⟨-, -, -, hRed, hRegs⟩ := (d.relit_finishSwap (engOf w.port) w none).planes
  have counted := d.ctr_finishSwap (engOf w.port) hp none
  obtain ⟨hSt, hExit, hStays, hCtr⟩ := Dev.exitToDetect_enters (d := d.finishSwap (engOf w.port) w none)
    (by rw [hNow]; exact hRx) (by rw [hRed]; exact hCtxs) (by rw [hNow]; exact hMode) (by rw [hNow]; exact hHalf)
    ((Dev.loop_congr hRegs _).trans hLoop) exitLaser
  exact ⟨hSt, hExit, hStays.trans hOn, (hCtr _ (ctrLight_not_exit hp (by decide))).trans counted⟩

/-- A pause that lasts too long, with a spare that works, completes the swap, and the port leaves ACTIVE (R348). -/
theorem exec_swapPauseTimeout_leaves {s : State} {e : Fin 16} {w : Swap} (ha : s.d.awake = true)
    (hw : s.d.swapIn e.val = some w) (hStep : w.step = .paused ∨ w.step = .shuttered)
    (hSt : (s.d.port w.port).st ≠ .draining) (o : Bool) : exec (.swapPauseTimeout e true o) s =
      .next (s.put ((s.d.finishSwap e.val w none).exitToDetect w.port exitLaser true)) := by
  have paused : (w.step != .paused && w.step != .shuttered) = false := by
    obtain h | h := hStep
    · rw [h]; rfl
    · rw [h]; rfl
  have kept : ((s.d.finishSwap e.val w none).port w.port).st = (s.d.port w.port).st := by
    rw [Dev.port_congr (Dev.relit_finishSwap ..).planes.1, Dev.port_letGo]
  have leaves : (s.d.finishSwap e.val w none).leaveForLaser w.port =
      (s.d.finishSwap e.val w none).exitToDetect w.port exitLaser true := by
    unfold Dev.leaveForLaser
    split
    next h => exact absurd (kept.symm.trans h) hSt
    next => rfl
  refine congrArg (goto s) ?_
  simp only [ha, hw, paused, leaves, if_true, Bool.false_eq_true, if_false]

/-! ### The partner's swap (R345, R351, R354) -/

/-- SWAP_REQ in ACTIVE is acknowledged where no swap of the port runs. -/
theorem exec_swapReqReceived_acks {s : State} {p : Port} (ha : s.d.awake = true) (hLoop : s.d.loop p.val ≠ 2)
    (hSt : (s.d.port p.val).st = .active) (hLock : (s.d.port p.val).fecLock = true)
    (hw : s.d.swapOfPort p.val = none) (k : Byte) (both : Bool) : exec (.swapReqReceived p k both) s =
      .next (s.put ((s.d.countLink p.val 1).ackSwap p.val { token := k, both := both })) := by
  refine congrArg (goto s) ?_
  simp [ha, hLoop, hSt, hLock, Dev.swapOfPort_countLink, hw]

/-- The port that a partner's swap holds (R345). -/
def PortSt.acked (x : PortSt) (h : PartnerHold) : PortSt :=
  { x with hold := some h, reqWait := none, held := x.held || h.both }

/-- The acknowledgement of a SWAP_REQ. -/
def PartnerHold.ackMsg (h : PartnerHold) : List Byte := [0x41, h.token, if h.both then 1 else 0, 0, 0, 50]

theorem Dev.ackSwap_eq (d : Dev) (p : Nat) (h : PartnerHold) :
    d.ackSwap p h = (d.setPort p ((d.port p).acked h)).sendLink p h.ackMsg := rfl

theorem Dev.ackSwap_out (d : Dev) (p : Nat) (h : PartnerHold) : (d.ackSwap p h).out =
    if d.silent p then d.out else .link p 0x41 (LinkMsg.ofBytes h.ackMsg) :: d.out := by
  rw [Dev.ackSwap_eq, Dev.sendLink_out, Dev.silent_setPort (x := (d.port p).acked h) rfl]
  rfl

/-- SWAP_NOW of the partner's swap is noted. -/
theorem exec_swapNowReceived_notes {s : State} {p : Port} {h : PartnerHold} (hHears : s.d.hears p.val = true)
    (hHold : (s.d.port p.val).hold = some h) : exec (.swapNowReceived p h.token) s =
      .next (s.put ((s.d.countLink p.val 1).setPort p.val
        { s.d.port p.val with hold := some { h with nowSeen := true } })) := by
  refine congrArg (goto s) ?_
  simp [hHears, hHold]

/-- The port once the partner's hold-off of losses ends: after SWAP_NOW the own queues of a link that pauses both ways
wait for the first data block (R345). -/
def PortSt.holdEnded (x : PortSt) (h : PartnerHold) : PortSt :=
  { x with
    hold := if h.both && h.nowSeen && !h.data then some { h with ended := true } else none
    held := if h.both && (!h.nowSeen || h.data) then false else x.held }

/-- The end of the hold-off at a port without a swap of its own. -/
theorem Dev.endHold_of_no_swap {d : Dev} {p : Nat} (hw : d.swapOfPort p = none) (h : PartnerHold) :
    d.endHold p h = d.setPort p ((d.port p).holdEnded h) := by
  have noSwap : ∀ x : PortSt, (d.setPort p x).swapOfPort p = none := fun x => (Dev.swapOfPort_congr rfl p).trans hw
  have opens : (h.both && !(h.both && h.nowSeen && !h.data)) = (h.both && (!h.nowSeen || h.data)) := by
    cases h.both <;> simp
  unfold Dev.endHold
  simp only [noSwap, opens, Dev.ownPause_of_no_swap hw]
  rfl

/-- SWAP_DONE, which is sent three times (R345). -/
def PartnerHold.doneMsg (h : PartnerHold) : List Byte := [0x44, h.token, if h.both then 1 else 0, 0, 0, 50]

def Dev.sendThrice (d : Dev) (p : Nat) (b : List Byte) : Dev := ((d.sendLink p b).sendLink p b).sendLink p b

theorem Dev.quiet_sendThrice (d : Dev) (cs : List Nat) (p : Nat) (b : List Byte) : d.Quiet cs (d.sendThrice p b) :=
  ((d.quiet_sendLink ..).trans (Dev.quiet_sendLink ..)).trans (Dev.quiet_sendLink ..)

theorem Dev.sendThrice_opt (d : Dev) (p : Nat) (b : List Byte) : (d.sendThrice p b).opt = d.opt := by
  simp [Dev.sendThrice]

theorem Dev.sendThrice_length {d : Dev} {p : Nat} (h : (d.port p).muted = false) (b : List Byte) :
    (d.sendThrice p b).out.length = d.out.length + 3 := by
  rw [Dev.sendThrice, Dev.sendLink_length (by simpa using h), Dev.sendLink_length (by simpa using h),
    Dev.sendLink_length h]

/-- SWAP_DONE leaves the port, and the hold-off ends. -/
theorem exec_swapDone_ends {s : State} {p : Port} {h : PartnerHold} (ha : s.d.awake = true)
    (hHold : (s.d.port p.val).hold = some h) (hNow : h.nowSeen = true) (hEnded : h.ended = false)
    (hLock : (s.d.port p.val).fecLock = true) (hHunt : (s.d.port p.val).hunting = false)
    (hw : s.d.swapOfPort p.val = none) : exec (.swapDone p) s =
      .next (s.put ((s.d.sendThrice p.val h.doneMsg).setPort p.val ((s.d.port p.val).holdEnded h))) := by
  have ends : (s.d.sendThrice p.val h.doneMsg).endHold p.val h =
      (s.d.sendThrice p.val h.doneMsg).setPort p.val ((s.d.port p.val).holdEnded h) := by
    rw [Dev.endHold_of_no_swap ((Dev.swapOfPort_congr (Dev.sendThrice_opt ..) _).trans hw),
      (s.d.quiet_sendThrice [] p.val h.doneMsg).port]
  refine congrArg (goto s) ?_
  simp only [ha, hHold, hNow, hEnded, hLock, hHunt, Bool.not_false, Bool.and_self, if_true]
  exact ends

theorem exec_partnerSwapHoldExpiry_ends {s : State} {p : Port} {h : PartnerHold} (ha : s.d.awake = true)
    (hHold : (s.d.port p.val).hold = some h) (hEnded : h.ended = false) (hw : s.d.swapOfPort p.val = none) :
    exec (.partnerSwapHoldExpiry p) s = .next (s.put (s.d.setPort p.val ((s.d.port p.val).holdEnded h))) := by
  refine congrArg (goto s) ?_
  simp [ha, hHold, hEnded, Dev.endHold_of_no_swap hw]

/-- The first data block after SWAP_NOW, once the hold-off has ended, ends the partner's swap (R345). -/
theorem Dev.dataBlock_ends {d : Dev} {p : Nat} {h : PartnerHold} (hHold : (d.port p).hold = some h)
    (hBoth : h.both = true) (hNow : h.nowSeen = true) (hData : h.data = false) (hEnded : h.ended = true)
    (hw : d.swapOfPort p = none) :
    d.dataBlock p = d.setPort p { d.port p with held := false, hold := none } := by
  simp [Dev.dataBlock, hHold, hBoth, hNow, hData, hEnded, Dev.ownPause_of_no_swap hw]

/-- RATE_DOWN drains a port at full rate that has the feature (R351). -/
theorem exec_rateDownReceived_drains {s : State} {p : Port} (hHears : s.d.hears p.val = true)
    (hSt : (s.d.port p.val).st = .active) (hFeat : (s.d.port p.val).feat.getLsbD 1 = true)
    (hFull : isHalf (s.d.port p.val).mode = false) (hCtxs : s.d.red.ctxs = []) : exec (.rateDownReceived p) s =
      .next (s.put ((s.d.countLink p.val 1).drains p.val .rate)) := by
  refine congrArg (goto s) ?_
  simp only [hHears, hSt, hFeat, hFull, Bool.not_true, Bool.false_eq_true, if_false, decide_true, Bool.and_self,
    Bool.not_false, if_true]
  exact Dev.startDrain_of_no_ctxs (d := s.d.countLink p.val 1) hCtxs _ _

end Sys2Proof.Machine

open Sys2Proof Sys2Proof.Machine

/-- Settles O44: each message and time by the device that it leads to. -/
theorem laserSwaps : Obligations.LaserSwaps := by
  refine ⟨fun s c p h hp hClaim hOff hDown hCan => ?_, fun s e w ha hw hStep hSt hDead hFeat hHold hMuted => ?_,
    fun s e w ha hw hStep hDead => ?_, fun s e w ha hw hStep hSt hMuted => ?_,
    fun s p w ha hLock hLoop hw hStep hSt => ?_, fun s e w ha hw hStep hLeft => ?_,
    fun s p w ha hLock hLoop hw hStep hWait hDrain hSpare => ?_,
    fun s p w ha hLock hLoop hw hStep hSt hAllow hCtxs => ?_,
    fun s e p w o ha hw hPort hEng hSpare hSt hStep hRx hCtxs hMode hHalf hLoop => ?_,
    fun s p k both ha hLoop hSt hLock hw => ?_, fun s p h ha hLoop hLock hHold => ?_,
    fun s p h ha hHold hNow hEnded hLock hHunt hw hMuted => ?_, fun s p h ha hHold hEnded hw => ?_,
    fun d p h hHold hBoth hNow hData hEnded hw => ?_, fun s p ha hLock hLoop hSt hFeat hFull hCtxs => ?_⟩
  · obtain ⟨hSwap, hWarm⟩ := (s.d.touch c).startSwap_starts p.toNat false
    obtain ⟨hPorts, -, -, -, -⟩ := ((s.d.touch c).relit_startSwap p.toNat false).planes
    refine ⟨_, exec_optSwap_starts h hp hClaim hOff hDown hCan, hSwap, hWarm, Dev.holdReply_held .., hPorts, ?_⟩
    exact (congrArg Dev.out ((s.d.touch c).startSwap_eq p.toNat false)).trans (Dev.event_out ..)
  · exact ⟨_, exec_spareTuned_asks ha hw hStep hSt hDead hFeat hHold, Dev.askSwap_effect e.val hMuted 1⟩
  · obtain ⟨hPorts, hFwd, -, -, -⟩ := (s.d.relit_dropSwapBut e.val w true .notFound none).planes
    have kept := (Dev.port_congr hPorts w.port).trans (s.d.port_letGo w.port)
    refine ⟨_, exec_spareTuneTimeout_drops ha hw hStep hDead, ?_, ?_, ?_, hFwd⟩
    · exact congrArg Spare.st (s.d.spare_dropSwapBut_fails ..)
    · exact congrArg PortSt.held kept
    · rw [State.put_d, kept]
  · exact ⟨_, exec_swapReqResend_asks ha hw hStep (by decide) (by decide) hSt, Dev.askSwap_effect e.val hMuted 2⟩
  · obtain ⟨hNow, hSwap, hOther, hStore⟩ := (s.d.countLink p.val 1).pause_effect p.val w
    exact ⟨_, exec_swapAckReceived_pauses (Dev.hears_of ha hLock hLoop) hw hStep (by decide) hSt,
      congrArg PortSt.held hNow, hSwap, hOther, hStore⟩
  · exact ⟨_, exec_swapNow_shutters ha hw hStep hLeft, s.d.shutter_effect e.val w⟩
  · obtain ⟨-, hPort⟩ := Dev.swapOfPort_eq_some.mp hw
    obtain ⟨ns, hExec⟩ := exec_swapDoneReceived_finishes (Dev.hears_of ha hLock hLoop) hw hStep hWait hDrain
    have done := Dev.finishSwap_done (d := s.d.countLink w.port 1) (hPort ▸ p.isLt) (hPort ▸ hSpare) ns
    rw [← hPort] at hExec ⊢
    refine ⟨_, hExec, ?_⟩
    simpa only [State.put_d, engOf, Dev.ctr_countLink_light, Dev.port_countLink, Dev.countLink_store] using done
  · obtain ⟨-, hPort⟩ := Dev.swapOfPort_eq_some.mp hw
    refine ⟨_, exec_swapNakReceived_retrains (Dev.hears_of ha hLock hLoop) hw hStep (by decide), ?_⟩
    rw [← hPort] at hSt hAllow ⊢
    rw [Dev.retrainSwap_drains (d := s.d.countLink w.port 1) (e := engOf w.port) hSt hAllow hCtxs]
    exact ⟨congrArg PortSt.st (Dev.port_setPort_same ..), congrArg PortSt.drain (Dev.port_setPort_same ..),
      Dev.swapIn_putSwap .., fun q hq => Dev.port_setPort_other _ _ hq⟩
  · have hIn : e.val = engOf w.port := by rw [hPort, ← hEng]; rfl
    refine ⟨_, exec_swapPauseTimeout_leaves ha hw hStep (by rwa [hPort]) o, ?_⟩
    rw [← hPort] at hSpare hRx hMode hHalf hLoop ⊢
    rw [hIn, State.put_d]
    exact Dev.finishSwap_exits (hPort ▸ p.isLt) hSpare hRx hCtxs hMode hHalf hLoop
  · refine ⟨_, exec_swapReqReceived_acks ha hLoop hSt hLock hw k both, ?_, Dev.ackSwap_out .., fun q hq => ?_,
      Dev.sendLink_store ..⟩
    · exact (Dev.sendLink_port ..).trans (Dev.port_setPort_same ..)
    · exact (Dev.sendLink_port ..).trans (Dev.port_setPort_other _ _ hq)
  · exact ⟨_, exec_swapNowReceived_notes (Dev.hears_of ha hLock hLoop) hHold, Dev.port_setPort_same ..,
      fun q hq => Dev.port_setPort_other _ _ hq⟩
  · refine ⟨_, exec_swapDone_ends ha hHold hNow hEnded hLock hHunt hw, ?_, Dev.sendThrice_length hMuted _,
      fun q hq => (Dev.port_setPort_other _ _ hq).trans ((s.d.quiet_sendThrice [] _ _).port q)⟩
    simp [Dev.port_setPort_same, PortSt.holdEnded, hNow]
  · exact exec_partnerSwapHoldExpiry_ends ha hHold hEnded hw
  · rw [Dev.dataBlock_ends hHold hBoth hNow hData hEnded hw, Dev.port_setPort_same]
    exact ⟨rfl, rfl⟩
  · exact ⟨_, exec_rateDownReceived_drains (Dev.hears_of ha hLock hLoop) hSt hFeat hFull hCtxs,
      Dev.port_setPort_same .., fun q hq => Dev.port_setPort_other _ _ hq, rfl⟩
end

section
/-! PROOF. Shapers and policers that are set outside a transaction, and the refill that applies them (R137 to R140,
R145, R155, R414). -/

namespace Sys2Proof

theorem Tab.find_map {α β : Type} (t : Tab α) (f : α → β) (n : Nat) :
    Tab.find (t.map fun e => (e.1, f e.2)) n = (Tab.find t n).map f := by
  induction t with
  | nil => rfl
  | cons e r ih =>
    obtain ⟨k, v⟩ := e
    rw [List.map_cons, Tab.find_cons, Tab.find_cons, ih]
    split_ifs <;> rfl

namespace Machine

/-! ### A staged command outside a transaction (R414, R418) -/

theorem Dev.claimedElse_touch (d : Dev) {c : CmdCtx} (h : c.txn = 0) (src : Source) (o : Obj) :
    (d.touch c).claimedElse src o = d.claimedElse src o := by
  rw [Dev.touch_none d c h]
  rfl

/-- Outside a transaction a command that passes its rules, and whose one object no other source claims, takes its
effect and is answered OK. -/
theorem goto_stagedOrNow_applies {s : State} {i : Instr} {c : CmdCtx} {x : Staged} {o : Obj}
    (h : s.d.Runs i c (Staged.opcode x) .operator) (hTxn : c.txn = 0)
    (hCheck : (s.d.touch c).checkStaged (s.d.touch c) [] true x = none) (hObj : Staged.objs x = [o])
    (hClaim : s.d.claimedElse c.src o = false) :
    goto s (s.d.stagedOrNow i c x) =
      .next (s.put (((s.d.touch c).applyStaged x).reply c (Staged.opcode x) .ok .empty)) := by
  have free : ((Staged.objs x).any fun o => (s.d.touch c).claimedElse c.src o) = false := by
    rw [hObj, List.any_cons, List.any_nil, Bool.or_false, Dev.claimedElse_touch _ hTxn, hClaim]
  refine goto_runCmd_answers h ((if_neg (not_not.mpr hTxn)).trans ?_)
  rw [hCheck]
  exact if_neg (by rw [free]; exact Bool.false_ne_true)

theorem exec_shaperSet_applies {s : State} {c : CmdCtx} {p : ShaperSetP}
    (h : s.d.Runs (.shaperSet c p) c 0x0427 .operator) (hTxn : c.txn = 0) (hPort : p.port.toNat < 512)
    (hCls : p.cls.toNat < 8) (hLevel : p.level.toNat < 4)
    (hClaim : s.d.claimedElse c.src (.shaper p.port.toNat p.cls.toNat) = false) :
    exec (.shaperSet c p) s = .next (s.put (((s.d.touch c).setShaperP p).reply c 0x0427 .ok .empty)) :=
  goto_stagedOrNow_applies (x := .shaperSet p) h hTxn
    (by simp [Dev.checkStaged, checkShaper, rule, hPort, hCls, hLevel]) rfl hClaim

theorem exec_groupShaperSet_applies {s : State} {c : CmdCtx} {p : GroupShaperSetP}
    (h : s.d.Runs (.groupShaperSet c p) c 0x0428 .operator) (hTxn : c.txn = 0) (hGroup : p.group.toNat < 64)
    (hClaim : s.d.claimedElse c.src (.groupShaper p.group.toNat) = false) :
    exec (.groupShaperSet c p) s = .next (s.put (((s.d.touch c).setGroupShaper p).reply c 0x0428 .ok .empty)) :=
  goto_stagedOrNow_applies (x := .groupShaperSet p) h hTxn
    (by simp [Dev.checkStaged, checkGroupShaper, rule, hGroup]) rfl hClaim

theorem exec_policerSet_applies {s : State} {c : CmdCtx} {p : PolicerSetP}
    (h : s.d.Runs (.policerSet c p) c 0x0429 .operator) (hTxn : c.txn = 0) (hPolicer : p.policer.toNat < 8192)
    (hClaim : s.d.claimedElse c.src (.policer p.policer.toNat) = false) :
    exec (.policerSet c p) s = .next (s.put (((s.d.touch c).setPolicer p).reply c 0x0429 .ok .empty)) :=
  goto_stagedOrNow_applies (x := .policerSet p) h hTxn
    (by simp [Dev.checkStaged, checkPolicer, rule, hPolicer]) rfl hClaim

theorem exec_policerMap_port_applies {s : State} {c : CmdCtx} {l : BitVec 16} {k : Byte} {n : BitVec 16}
    (h : s.d.Runs (.policerMap c { key := .portClass l k, policer := n }) c 0x042A .operator) (hTxn : c.txn = 0)
    (hPort : l.toNat < 512) (hCls : k.toNat < 8) (hPolicer : n.toNat < 8192)
    (hClaim : s.d.claimedElse c.src (.polMapPort l.toNat k.toNat) = false) :
    exec (.policerMap c { key := .portClass l k, policer := n }) s = .next (s.put
      (((s.d.touch c).setPolicerMap { key := .portClass l k, policer := n }).reply c 0x042A .ok .empty)) :=
  goto_stagedOrNow_applies (x := .policerMap { key := .portClass l k, policer := n }) h hTxn
    (by simp [Dev.checkStaged, checkPolicerMap, polKeyOk, rule, hPort, hCls, hPolicer]) rfl hClaim

/-! ### The tables after a change (R139, R155) -/

theorem Dev.shaper_congr {d e : Dev} (h : d.tm = e.tm) (l k : Nat) : d.shaper l k = e.shaper l k := by
  rw [Dev.shaper, Dev.shaper, h]

theorem Dev.shaper_setShaper_same (d : Dev) (l k : Nat) (x : Shaper) : (d.setShaper l k x).shaper l k = x :=
  Tab.get_set_same ..

/-- A shaper of a class below 8 has an entry of its own. -/
theorem Dev.shaper_setShaper_other (d : Dev) {l k m j : Nat} (x : Shaper) (hk : k < 8) (hj : j < 8)
    (h : m ≠ l ∨ j ≠ k) : (d.setShaper l k x).shaper m j = d.shaper m j :=
  Tab.get_set_other _ _ _ _ (by omega)

/-- A port and class take a policer's number at once; number 0xFFFF, which takes it away, is no policer's. -/
theorem Dev.setPolicerMap_port (d : Dev) (l : BitVec 16) (k : Byte) {n : BitVec 16} (hn : n.toNat < 8192) :
    (d.setPolicerMap { key := .portClass l k, policer := n }).tm =
      { d.tm with mapPort := Tab.put d.tm.mapPort (l.toNat * 8 + k.toNat) n.toNat } := by
  have number : n ≠ 0xFFFF#16 := by
    rintro rfl
    exact absurd hn (by decide)
  simp [Dev.setPolicerMap, number, Tab.putOpt]

/-! ### The refill (R137 to R139) -/

/-- A policer at a refill, with its counts as they were. -/
def Policer.refill (x : Policer) : Policer := { x with b := x.b.refill }

/-- TOKEN_REFILL reaches every policer; the store and the tables stay. -/
theorem exec_tokenRefill_policers {s : State} (ha : s.d.awake = true) : ∃ t, exec .tokenRefill s = .next t ∧
    (∀ g, Tab.find t.d.tm.policers g = (Tab.find s.d.tm.policers g).map Policer.refill) ∧
    t.d.store = s.d.store ∧ t.d.fwd = s.d.fwd :=
  ⟨_, congrArg (goto s) (if_neg (by simp [ha])), Tab.find_map s.d.tm.policers Policer.refill, rfl, rfl⟩

/-- Tokens at a refill: those of the bucket and its rate, up to its burst. -/
theorem Bucket.refill_of_idle {b : Bucket} (h : b.pend = none) :
    b.refill.tokens = min ((b.burst * 4096 : Nat) : Int) (b.tokens + b.rate) := by
  simp only [Bucket.refill, h]
  split_ifs <;> omega

/-- A change that waits takes effect at the refill, whose tokens keep to the new burst. -/
theorem Bucket.refill_of_pending {b : Bucket} {v : BucketSet} (h : b.pend = some v) :
    b.refill.en = v.en ∧ b.refill.rate = v.rate ∧ b.refill.burst = v.burst ∧ b.refill.pend = none ∧
    b.refill.tokens ≤ (v.burst * 4096 : Nat) := by
  simp only [Bucket.refill, h, true_and]
  split_ifs <;> omega

end Machine
end Sys2Proof

open Sys2Proof Sys2Proof.Machine

/-- Settles O34: each command by the table that it leaves, and the refill by what it does to a bucket. -/
theorem immediateTrafficCommands : Obligations.ImmediateTrafficCommands := by
  refine ⟨fun s c p h hTxn hPort hCls hLevel hClaim => ?_, fun s c p h hTxn hGroup hClaim => ?_,
    fun s c p h hTxn hPolicer hClaim => ?_, fun s c l k n h hTxn hPort hCls hPolicer hClaim => ?_,
    fun s g b ha hFind => ?_, fun b v h => Bucket.refill_of_pending h, fun b h => Bucket.refill_of_idle h⟩
  · have tm := Dev.reply_tm ((s.d.touch c).setShaperP p) c 0x0427 .ok .empty
    refine ⟨_, exec_shaperSet_applies h hTxn hPort hCls hLevel hClaim, ?_, fun l k hk hOther => ?_, ?_, ?_,
      Dev.reply_store ..⟩
    · exact (Dev.shaper_congr tm _ _).trans (Dev.shaper_setShaper_same ..)
    · exact (Dev.shaper_congr tm _ _).trans (Dev.shaper_setShaper_other _ _ hCls hk hOther)
    · exact (congrArg Tm.groups tm).trans rfl
    · exact (congrArg Tm.policers tm).trans rfl
  · refine ⟨_, exec_groupShaperSet_applies h hTxn hGroup hClaim, ?_⟩
    simp [Dev.setGroupShaper]
  · refine ⟨_, exec_policerSet_applies h hTxn hPolicer hClaim, ?_⟩
    simp [Dev.setPolicer]
  · refine ⟨_, exec_policerMap_port_applies h hTxn hPort hCls hPolicer hClaim, ?_⟩
    rw [State.put_d, Dev.reply_tm, Dev.setPolicerMap_port _ _ _ hPolicer, Dev.touch_tm]
  · obtain ⟨t, hExec, hPolicers, hStore, hFwd⟩ := exec_tokenRefill_policers ha
    exact ⟨t, hExec, (hPolicers g).trans (congrArg (Option.map Policer.refill) hFind), hStore, hFwd⟩
end

section
/-! PROOF. Work beside the reduction plane: the lookup of a frame that the device builds, its forwarding and its
admission leave the contexts, the sheaves, the board memory and the ports as they were (R64, R67, R70, R101, R122 to
R126, R511). -/

namespace Sys2Proof.Machine

/-- `e` comes from `d` by work that leaves the reduction plane, the board memory and the ports alone, and counts in the
counters `cs` only. -/
structure Dev.Aside (cs : Set Nat) (d e : Dev) : Prop where
  red : e.red = d.red
  mem : e.mem = d.mem
  ports : e.ports = d.ports
  ctr : ∀ o, o ∉ cs → e.ctr o = d.ctr o

theorem Dev.Aside.refl (cs : Set Nat) (d : Dev) : d.Aside cs d := ⟨rfl, rfl, rfl, fun _ _ => rfl⟩

theorem Dev.Aside.trans {cs : Set Nat} {a b c : Dev} (h : a.Aside cs b) (k : b.Aside cs c) : a.Aside cs c :=
  ⟨k.red.trans h.red, k.mem.trans h.mem, k.ports.trans h.ports, fun o ho => (k.ctr o ho).trans (h.ctr o ho)⟩

theorem Dev.aside_bumpBy (d : Dev) {cs : Set Nat} {a : Nat} (n : Nat) (h : a ∈ cs) : d.Aside cs (d.bumpBy a n) :=
  { Dev.Aside.refl cs d with ctr := fun _ ho => Dev.ctr_bumpBy_other d n fun e => ho (e ▸ h) }

theorem Dev.aside_ite {cs : Set Nat} {d e f : Dev} (c : Prop) [Decidable c] (he : d.Aside cs e) (hf : d.Aside cs f) :
    d.Aside cs (if c then e else f) := by
  split
  · exact he
  · exact hf

theorem Dev.aside_ite_fst {α : Type} {cs : Set Nat} {d : Dev} {a b : Dev × α} (c : Prop) [Decidable c]
    (ha : d.Aside cs a.1) (hb : d.Aside cs b.1) : d.Aside cs (if c then a else b).1 := by
  split
  · exact ha
  · exact hb

theorem Dev.aside_event (d : Dev) (cs : Set Nat) (e : Ev) : d.Aside cs (d.event e) := by
  obtain ⟨_, h⟩ := d.event_shape e
  rw [h]
  exact { Dev.Aside.refl cs d with }

theorem Dev.aside_faultRec (d : Dev) (cs : Set Nat) (cls unit_ index sub action left detail : Nat) :
    d.Aside cs (d.faultRec cls unit_ index sub action left detail) := by
  obtain ⟨_, _, _, _, h⟩ := d.faultRec_shape cls unit_ index sub action left detail
  rw [h]
  exact { Dev.Aside.refl cs d with }

/-! ### The counters of the forwarding path -/

/-- The lower half of each 1 KiB of counters: every count of the lookup, the store and the samples lies there, and none
of the counts 0xA00 to 0xA78 of a cluster. -/
def forwardCtrs : Set Nat := {o | o % 0x400 < 0x200}

theorem ctrFwd_mem_forwardCtrs (k : Nat) {o : Nat} (h : o < 0x200) : ctrFwd k o ∈ forwardCtrs := by
  simp only [forwardCtrs, Set.mem_ofPred_eq, ctrFwd, baseFwd]
  omega

theorem ctrPort_mem_forwardCtrs (p : Nat) {o : Nat} (h : o < 0x200) : ctrPort p o ∈ forwardCtrs := by
  simp only [forwardCtrs, Set.mem_ofPred_eq, ctrPort, basePort]
  omega

theorem ctrStore_mem_forwardCtrs {o : Nat} (h : o < 0x200) : ctrStore o ∈ forwardCtrs := by
  simp only [forwardCtrs, Set.mem_ofPred_eq, ctrStore, baseStore]
  omega

theorem ctrCnt_mem_forwardCtrs {o : Nat} (h : o < 0x200) : ctrCnt o ∈ forwardCtrs := by
  simp only [forwardCtrs, Set.mem_ofPred_eq, ctrCnt, baseCnt]
  omega

/-- The counts of a cluster's collectives are none of the forwarding path's. -/
theorem ctrRed_not_mem_forwardCtrs (k : Nat) {o : Nat} (h : 0x200 ≤ o % 0x400) : ctrRed k o ∉ forwardCtrs := by
  simp only [forwardCtrs, Set.mem_ofPred_eq, ctrRed, baseRed]
  omega

/-! ### Reads of the tables (R67) -/

theorem Dev.aside_tableEcc (d : Dev) (k : Nat) (t : TableId) (ix : Nat) :
    d.Aside forwardCtrs (d.tableEcc k t ix) :=
  ((d.aside_bumpBy 1 (ctrFwd_mem_forwardCtrs k (by decide))).trans (Dev.aside_event ..)).trans
    (Dev.aside_faultRec ..)

theorem Dev.aside_tableRead (d : Dev) (k : Nat) (num : Bool) (t : TableId) (ix : Nat) :
    d.Aside forwardCtrs (d.tableRead k num t ix).1 := by
  have kept : ∀ (f : Fwd) (g : FaultSt), d.Aside forwardCtrs { d with fwd := f, faults := g } := fun _ _ =>
    { Dev.Aside.refl _ d with }
  unfold Dev.tableRead
  dsimp only
  split
  · split_ifs
    · exact (kept _ _).trans (Dev.aside_tableEcc ..)
    · exact (kept _ _).trans (Dev.aside_tableEcc ..)
    · exact (kept _ _).trans (Dev.aside_bumpBy _ 1 (ctrFwd_mem_forwardCtrs k (by decide)))
  · split
    · exact d.aside_tableEcc ..
    · exact .refl ..

theorem Dev.aside_partView (d : Dev) (k : Nat) (b : Bank) (part : Nat) :
    d.Aside forwardCtrs (d.partView k b part).1 := d.aside_tableRead ..

theorem Dev.aside_emLookup (d : Dev) (k : Nat) (b : Bank) (key : BitVec 48) :
    d.Aside forwardCtrs (d.emLookup k b key).1 := by
  unfold Dev.emLookup
  split
  · exact .refl ..
  · exact d.aside_tableRead ..

theorem Dev.aside_routeLookup (d : Dev) (k : Nat) (b : Bank) (leaf : Nat) :
    d.Aside forwardCtrs (d.routeLookup k b leaf).1 := d.aside_tableRead ..

theorem Dev.aside_readSet (d : Dev) (k : Nat) (b : Bank) (n : Nat) :
    d.Aside forwardCtrs (d.readSet k b n).1 := d.aside_tableRead ..

theorem Dev.aside_hit (d : Dev) (cs : Set Nat) (k : Nat) (key : BitVec 48) : d.Aside cs (d.hit k key) :=
  { Dev.Aside.refl cs d with }

theorem Dev.aside_spray (d : Dev) (cs : Set Nat) (k : Nat) (b : Bank) (n : Nat) (h : Header) :
    d.Aside cs (d.spray k b n h).1 := by
  unfold Dev.spray
  dsimp only
  split
  · exact { Dev.Aside.refl cs d with }
  · split
    · exact { Dev.Aside.refl cs d with }
    · exact .refl ..

/-! ### The lookup (R69 to R82) -/

/-- The offset of a miss, where the lookup decides one, is a counter of the forwarding path. -/
def Lk.counted : Lk → Prop
  | .miss off => off < 0x200
  | _ => True

/-- `r` is a lookup's answer and the device after it. -/
structure Dev.LooksUp (d : Dev) (r : Dev × Lk) : Prop where
  aside : d.Aside forwardCtrs r.1
  counted : r.2.counted

theorem Dev.LooksUp.after {d e : Dev} {r : Dev × Lk} (h : d.Aside forwardCtrs e) (k : e.LooksUp r) : d.LooksUp r :=
  ⟨h.trans k.aside, k.counted⟩

/-- A lookup that ends without a further read. -/
theorem Dev.looksUp_here (d : Dev) {lk : Lk} (h : lk.counted) : d.LooksUp (d, lk) := ⟨.refl .., h⟩

theorem Lk.counted_miss {off : Nat} (h : off < 0x200) : (Lk.miss off).counted := h

theorem Lk.counted_ports (l : List Nat) : (Lk.ports l).counted := trivial

theorem Dev.looksUp_ite {d : Dev} {a b : Dev × Lk} (c : Prop) [Decidable c] (ha : d.LooksUp a) (hb : d.LooksUp b) :
    d.LooksUp (if c then a else b) := by
  split
  · exact ha
  · exact hb

theorem Dev.counted_onePort (d : Dev) (b : Bank) (part : Nat) (arr : Option Nat) (l : Nat) :
    (d.onePort b part arr l).counted := by
  unfold Dev.onePort
  split_ifs
  · exact Lk.counted_miss (by decide)
  · exact Lk.counted_miss (by decide)
  · exact Lk.counted_miss (by decide)
  · trivial

theorem Dev.looksUp_followRoute (d : Dev) (k : Nat) (b : Bank) (h : Header) (arr : Option Nat) (r : Route) :
    d.LooksUp (d.followRoute k b h arr r) := by
  unfold Dev.followRoute
  split
  · exact d.looksUp_here (d.counted_onePort ..)
  · have read := d.aside_readSet k b (r.target.toNat % 1024)
    dsimp only
    split
    next set => rw [set] at read; exact ⟨read, Lk.counted_miss (by decide)⟩
    next d0 _ set =>
      rw [set] at read
      refine .after read ?_
      have sprayed := d0.aside_spray forwardCtrs k b (r.target.toNat % 1024) h
      split
      · split
        next l hs => rw [hs] at sprayed; exact ⟨sprayed, Dev.counted_onePort ..⟩
        next hs => rw [hs] at sprayed; exact ⟨sprayed, Lk.counted_miss (by decide)⟩
      · split
        · exact d0.looksUp_here (d0.counted_onePort ..)
        · exact d0.looksUp_here (Lk.counted_miss (by decide))
  · exact d.looksUp_here (d.counted_onePort ..)
  · exact d.looksUp_here (Lk.counted_miss (by decide))

theorem Dev.looksUp_follow (d : Dev) (k : Nat) (b : Bank) (h : Header) (arr : Option Nat) (r : Route) :
    d.LooksUp (d.follow k b h arr r) := by
  unfold Dev.follow
  split
  · refine .after (d.aside_routeLookup k b r.target.toNat) ?_
    dsimp only
    split
    · exact Dev.looksUp_here _ (Lk.counted_miss (by decide))
    · exact Dev.looksUp_followRoute ..
  · exact d.looksUp_followRoute ..

theorem Dev.looksUp_lookupKey (d : Dev) (k : Nat) (b : Bank) (h : Header) (arr : Option Nat) (key : BitVec 48)
    (leaf : Option Nat) : d.LooksUp (d.lookupKey k b h arr key leaf) := by
  have read := d.aside_emLookup k b key
  unfold Dev.lookupKey
  split
  next d1 e found =>
    rw [found] at read
    exact .after (read.trans (d1.aside_hit ..)) (Dev.looksUp_follow ..)
  next d1 found =>
    rw [found] at read
    refine .after read ?_
    split
    · exact d1.looksUp_here (Lk.counted_miss (by decide))
    · exact .after (d1.aside_routeLookup ..) (Dev.looksUp_followRoute ..)

theorem Dev.looksUp_groupPorts (d : Dev) (k : Nat) (b : Bank) (h : Header) (arr : Option Nat) :
    d.LooksUp (d.groupPorts k b h arr) := by
  refine .after (d.aside_tableRead k b.num .group (addrIndex h.dst % 65536)) ?_
  unfold Dev.groupPorts
  dsimp only
  generalize d.tableRead k b.num .group (addrIndex h.dst % 65536) = r
  split
  · exact Dev.looksUp_here _ (Lk.counted_miss (by decide))
  next e _ =>
    split
    · exact Dev.looksUp_here _ (Lk.counted_miss (by decide))
    · refine Dev.looksUp_ite _ ?_ (Dev.looksUp_here _ (Lk.counted_ports _))
      have read := r.1.aside_readSet k b e.upSet.toNat
      split
      next set => rw [set] at read; exact ⟨read, Lk.counted_ports _⟩
      next d1 _ set =>
        rw [set] at read
        refine .after read ?_
        split
        · exact Dev.looksUp_ite _ (d1.looksUp_here (Lk.counted_ports _)) (d1.looksUp_here (Lk.counted_ports _))
        · exact ⟨d1.aside_bumpBy 1 (ctrFwd_mem_forwardCtrs k (by decide)), Lk.counted_ports _⟩

theorem Dev.counted_svcDest (d : Dev) (h : Header) (svc : Nat) : (d.svcDest h svc).counted := by
  unfold Dev.svcDest
  dsimp only
  split
  · trivial
  · trivial
  · split <;> trivial
  · trivial
  · trivial

theorem Dev.looksUp_lookup (d : Dev) (k : Nat) (b : Bank) (h : Header) (arr : Option Nat) :
    d.LooksUp (d.lookup k b h arr) := by
  unfold Dev.lookup
  refine Dev.looksUp_ite _ (d.looksUp_here (d.counted_svcDest ..)) ?_
  split
  · exact d.looksUp_lookupKey ..
  · split
    · exact d.looksUp_here (d.counted_svcDest ..)
    · exact d.looksUp_lookupKey ..
  · exact d.looksUp_groupPorts ..
  · split
    · exact d.looksUp_here (Lk.counted_miss (by decide))
    · exact Dev.looksUp_ite _ (d.looksUp_here (Lk.counted_ports _)) (d.looksUp_here (Lk.counted_miss (by decide)))
  · exact d.looksUp_here (Lk.counted_miss (by decide))

/-! ### Samples and copies (R115, R122 to R126, R511, R512) -/

theorem Dev.aside_gleanAdd (d : Dev) (n : Nat) (b : GleanBody) : d.Aside forwardCtrs (d.gleanAdd n b) := by
  unfold Dev.gleanAdd
  split
  · exact .refl ..
  · split
    · exact d.aside_bumpBy 1 (ctrCnt_mem_forwardCtrs (by decide))
    · exact { Dev.Aside.refl _ d with }

theorem Dev.aside_gleanFrame (d : Dev) (n : Nat) (c : Copy) (outcome : Nat) (cut ce : Bool) :
    d.Aside forwardCtrs (d.gleanFrame n c outcome cut ce) := by
  unfold Dev.gleanFrame
  split
  · split
    · exact .refl ..
    · exact d.aside_gleanAdd ..
  · exact .refl ..

theorem Dev.aside_gleanCandidate (d : Dev) (cs : Set Nat) (sampler rate : Nat) :
    d.Aside cs (d.gleanCandidate sampler rate).1 := { Dev.Aside.refl cs d with }

theorem Dev.aside_gleanStart (d : Dev) (cs : Set Nat) (h : Header) (cls sampler : Nat) (arr : Option Nat)
    (eg : Option Dest) : d.Aside cs (d.gleanStart h cls sampler arr eg).1 := by
  unfold Dev.gleanStart
  exact Dev.aside_ite_fst _ (d.aside_gleanCandidate ..) (.refl ..)

theorem Dev.aside_store (d : Dev) (cs : Set Nat) (s : Store) : d.Aside cs { d with store := s } :=
  { Dev.Aside.refl cs d with }

theorem Dev.aside_refuseCopy (d : Dev) (m : Making) (t : Dest) (cls : Nat) (mirror desc : Bool) :
    d.Aside forwardCtrs (d.refuseCopy m t cls mirror desc) := by
  have offset : (if desc then 0x108 else 0x100) < 0x200 := by split <;> decide
  unfold Dev.refuseCopy
  split
  · exact d.aside_bumpBy 1 (ctrStore_mem_forwardCtrs (by decide))
  · exact (d.aside_bumpBy 1 (ctrStore_mem_forwardCtrs offset)).trans (Dev.aside_store ..)

theorem Dev.aside_refused (d : Dev) (m : Making) (t : Dest) (cls : Nat) (mirror desc : Bool) :
    d.Aside forwardCtrs (d.refused m t cls mirror desc).1 := by
  unfold Dev.refused
  dsimp only
  split
  · exact (d.aside_refuseCopy ..).trans (Dev.aside_gleanAdd ..)
  · exact d.aside_refuseCopy ..

theorem Dev.aside_chargeShapers (d : Dev) (cs : Set Nat) (l c len : Nat) : d.Aside cs (d.chargeShapers l c len) := by
  obtain ⟨_, h⟩ := d.chargeShapers_eq l c len
  rw [h]
  exact { Dev.Aside.refl cs d with }

theorem Dev.aside_placeCopy (d : Dev) (m : Making) (c : Copy) : d.Aside forwardCtrs (d.placeCopy m c) := by
  unfold Dev.placeCopy
  dsimp only
  split
  · split
    · exact ((d.aside_store ..).trans (Dev.aside_chargeShapers ..)).trans (Dev.aside_gleanFrame ..)
    · exact d.aside_store ..
  · exact d.aside_store ..

theorem Dev.aside_makeCopy (d : Dev) (m : Making) (t : Dest) (cls : Nat) (mirror : Bool) :
    d.Aside forwardCtrs (d.makeCopy m t cls mirror).1 := by
  unfold Dev.makeCopy
  dsimp only
  split
  · exact d.aside_refused ..
  · split
    · split
      · exact d.aside_refused ..
      · exact (d.aside_store ..).trans (Dev.aside_placeCopy ..)
    · split
      · exact d.aside_refused ..
      · exact (d.aside_store ..).trans (Dev.aside_placeCopy ..)

theorem Dev.aside_makeCopies (d : Dev) (m : Making) (cls : Nat) (l : List Dest) :
    d.Aside forwardCtrs (d.makeCopies m cls l).1 := by
  induction l generalizing d m with
  | nil => exact .refl ..
  | cons t r ih => exact (d.aside_makeCopy ..).trans (ih ..)

theorem Dev.aside_makeMirrors (d : Dev) (m : Making) (b : Bank) (l : List MirrorSess) :
    d.Aside forwardCtrs (d.makeMirrors m b l).1 := by
  induction l generalizing d m with
  | nil => exact .refl ..
  | cons s r ih =>
    unfold Dev.makeMirrors
    split
    · exact (d.aside_bumpBy 1 (ctrStore_mem_forwardCtrs (by decide))).trans (ih ..)
    · split
      · exact (d.aside_bumpBy 1 (ctrPort_mem_forwardCtrs _ (by decide))).trans (ih ..)
      · exact (d.aside_makeCopy ..).trans (ih ..)

theorem Dev.aside_admitCopies (d : Dev) (b : Bank) (f : Frame) (dests : List Dest) (cls : Nat) (sample cut : Bool) :
    d.Aside forwardCtrs (d.admitCopies b f dests cls sample cut).1 :=
  ((d.aside_makeCopies ..).trans (Dev.aside_bumpBy _ _ (ctrStore_mem_forwardCtrs (by decide)))).trans
    (Dev.aside_makeMirrors ..)

/-! ### Forwarding, and frames that the device builds (R44, R101, R365) -/

theorem Dev.aside_featureDrop (d : Dev) (kind : Nat) (l : List Dest) :
    d.Aside forwardCtrs (d.featureDrop kind l).1 := by
  unfold Dev.featureDrop
  induction l with
  | nil => exact .refl ..
  | cons t r ih =>
    rw [List.foldr_cons]
    split
    · split
      · exact ih
      · exact ih.trans (Dev.aside_bumpBy _ 1 (ctrPort_mem_forwardCtrs _ (by decide)))
    · exact ih

theorem Dev.postPassing_built (d : Dev) {f : Frame} (h : f.isBuilt = true) : d.postPassing f = d := by
  rw [Dev.postPassing, if_pos h]

/-- A built frame, which no policer sees, is forwarded. -/
theorem Dev.aside_forward (d : Dev) (ck : Nat) (b : Bank) {f : Frame} (hf : f.isBuilt = true) (cls : Nat) {lk : Lk}
    (h : lk.counted) (cut looked : Bool) :
    d.Aside forwardCtrs (d.forward ck b f cls lk false cut looked).1 := by
  have noted : ∀ (e : Dev) (c : Bool) (eg o : Nat), e.Aside forwardCtrs (if c then e.gleanNow f eg o else e) :=
    fun e c eg o => Dev.aside_ite _ (e.aside_gleanAdd ..) (.refl ..)
  have started := Dev.aside_ite_fst (a := d.gleanStart f.rx cls f.sampler (f.arr.map Prod.fst) lk.dests.head?)
    (looked = true) (d.aside_gleanStart forwardCtrs ..) (.refl _ (d, false).1)
  unfold Dev.forward
  dsimp only
  generalize (if looked then _ else (d, false)) = s at started ⊢
  refine started.trans ?_
  simp only [Bool.false_eq_true, if_false, Bool.not_true, Dev.postPassing_built _ hf]
  cases lk
  case miss off => exact (Dev.aside_bumpBy _ 1 (ctrFwd_mem_forwardCtrs ck h)).trans (noted ..)
  case consumed => exact noted ..
  all_goals
    refine (Dev.aside_featureDrop _ f.hdr.kind.toNat _).trans (Dev.aside_ite_fst _ ?_ (Dev.aside_admitCopies ..))
    exact (noted ..).trans (Dev.aside_admitCopies ..)

theorem Dev.isBuilt_builtFrame (d : Dev) (k : Nat) (h : Header) (b : List Byte) : (d.builtFrame k h b).isBuilt = true :=
  rfl

theorem Dev.aside_build (d : Dev) (k : Nat) (h : Header) (b : List Byte) :
    d.Aside forwardCtrs (d.build k h b) := by
  have read := d.aside_partView k d.fwd.cur (d.builtFrame k h b).hdr.part.toNat
  have found := Dev.looksUp_lookup (d.partView k d.fwd.cur (d.builtFrame k h b).hdr.part.toNat).1 k
    (d.partView k d.fwd.cur (d.builtFrame k h b).hdr.part.toNat).2 (d.builtFrame k h b).hdr none
  unfold Dev.build
  dsimp only
  refine (read.trans found.aside).trans ?_
  split
  · exact { Dev.Aside.refl _ _ with }
  · exact Dev.aside_forward _ _ _ (d.isBuilt_builtFrame ..) _ found.counted _ _

theorem Dev.aside_buildTo (d : Dev) (l : Nat) (h : Header) (b : List Byte) :
    d.Aside forwardCtrs (d.buildTo l h b) :=
  (d.aside_partView ..).trans
    (Dev.aside_forward _ _ _ (d.isBuilt_builtFrame ..) _ (Dev.counted_onePort ..) _ _)

end Sys2Proof.Machine
end

section
/-! PROOF. The head of a cluster's queue: a whole and good frame is handed to its work (R61, R109, R119, R130). -/

namespace Sys2Proof.Machine

/-- Writes of cells leave what the read slots found bad. -/
theorem Store.writeCells_fetchBad (s : Store) (busy : List Nat) (n k : Nat) :
    (Store.writeCells busy n k s).1.slots.fetchBad = s.slots.fetchBad := by
  induction k generalizing s busy with
  | zero => rfl
  | succ k ih =>
    have cell : (s.writeCell busy n).1.slots.fetchBad = s.slots.fetchBad := by
      unfold Store.writeCell
      dsimp only
      split <;> rfl
    exact (ih ..).trans cell

theorem Dev.writeRest_fetchBad (d : Dev) (n : Nat) :
    (d.writeRest n).store.slots.fetchBad = d.store.slots.fetchBad := Store.writeCells_fetchBad ..

/-- The slots once destination `n` has no read slot left behind it. -/
def Slots.fetchDone (q : Slots) (n : Nat) : Slots :=
  { q with fetched := Tab.del q.fetched n, fetchBad := q.fetchBad.filter fun m => m != n }

/-- A queue's read: the cells that no read slot has read before, and none of them found bad before. -/
theorem Dev.readQueued_eq {d : Dev} {n : Nat} {q : Slots} (h : d.writeRest n = d.withReads q d.store.sending)
    (t : Dest) : ∃ i k b, d.readQueued t n =
      (((d.withReads (q.fetchDone t.num) d.store.sending).readCells n i k).1,
        ((d.withReads (q.fetchDone t.num) d.store.sending).readCells n i k).2 &&
          !(b && q.fetchBad.contains t.num)) :=
  ⟨_, _, _, by unfold Dev.readQueued; rw [h]; rfl⟩

/-- With no error armed, a queue's read of a good frame goes well. -/
theorem Dev.readQueued_good {d : Dev} {n : Nat} {f : Frame} (hf : d.frame? n = some f) (hBad : f.bad = false)
    (h : d.faults.injects = []) (hFetch : d.store.slots.fetchBad = []) (t : Dest) :
    ∃ s, d.readQueued t n = ({ d with store := s }, true) := by
  have clear := d.writeRest_fetchBad n
  obtain ⟨q, written⟩ := d.writeRest_eq n
  rw [written, hFetch] at clear
  have unspoilt : q.fetchBad = [] := clear
  obtain ⟨i, k, b, read⟩ := Dev.readQueued_eq written t
  rw [Dev.readCells_good (d := d.withReads (q.fetchDone t.num) d.store.sending) hf hBad h, unspoilt] at read
  exact ⟨_, read.trans (by rw [List.contains_nil, Bool.and_false]; rfl)⟩

/-- `a` is the device that handles the frame at the head of a queue of `d`: the store has given it up, and it may have
been sampled. -/
structure Dev.Hands (d a : Dev) : Prop where
  shape : ∃ s c k, a = { d with store := s, cnt := c, ctrs := k }
  ctr : ∀ o, o ∉ forwardCtrs → a.ctr o = d.ctr o

theorem Dev.Hands.red {d a : Dev} (h : d.Hands a) : a.red = d.red := by obtain ⟨_, _, _, rfl⟩ := h.shape; rfl
theorem Dev.Hands.mem {d a : Dev} (h : d.Hands a) : a.mem = d.mem := by obtain ⟨_, _, _, rfl⟩ := h.shape; rfl
theorem Dev.Hands.ports {d a : Dev} (h : d.Hands a) : a.ports = d.ports := by obtain ⟨_, _, _, rfl⟩ := h.shape; rfl

theorem Dev.Hands.memberUp {d a : Dev} (h : d.Hands a) (part l : Nat) : a.memberUp part l = d.memberUp part l := by
  obtain ⟨_, _, _, rfl⟩ := h.shape; rfl

theorem Dev.Hands.now {d a : Dev} (h : d.Hands a) : a.now = d.now := by obtain ⟨_, _, _, rfl⟩ := h.shape; rfl

/-- Counted in a cluster's collectives, whatever frame is handed on before and whatever lies beside after. -/
theorem Dev.Hands.ctr_bump {d a b t : Dev} (h : d.Hands a) {k o : Nat}
    (ht : (b.bump (ctrRed k o)).Aside forwardCtrs t) (hb : b.ctrs = a.ctrs) (ho : 0x200 ≤ o % 0x400) :
    t.ctr (ctrRed k o) = (d.ctr (ctrRed k o) + 1) % 2 ^ 64 := by
  have out := ctrRed_not_mem_forwardCtrs k ho
  rw [ht.ctr _ out, Dev.ctr_bump_same, Dev.ctr_congr hb, h.ctr _ out]

theorem Dev.aside_release (d : Dev) (cs : Set Nat) (n : Nat) : d.Aside cs (d.release n) := by
  obtain ⟨_, _, _, _, h⟩ := d.release_shape n
  rw [h]
  exact { Dev.Aside.refl cs d with }

theorem Dev.aside_noteSent (d : Dev) (cs : Set Nat) (n : Nat) (stamp : Option Nat) (late : Bool) :
    d.Aside cs (d.noteSent n stamp late) := by
  unfold Dev.noteSent
  split
  · exact .refl ..
  · exact { Dev.Aside.refl cs d with }

/-- The device that handles copy `c` of cluster `k`'s queue: the copy is counted and sampled, in store `s`. -/
def Dev.handing (d : Dev) (s : Store) (k tc : Nat) (c : Copy) : Dev :=
  (Dev.countQ { d with store := s } (.cluster k) tc fun q => { q with sent := q.sent + 1 }).gleanFrame c.fid c 6
    false false

theorem Dev.hands_handing (d : Dev) (s : Store) (k tc : Nat) (c : Copy) : d.Hands (d.handing s k tc c) := by
  obtain ⟨_, _, shape⟩ := Dev.gleanFrame_shape
    (Dev.countQ { d with store := s } (.cluster k) tc fun q => { q with sent := q.sent + 1 }) c.fid c 6 false false
  exact ⟨⟨_, _, _, shape⟩, (Dev.aside_gleanFrame ..).ctr⟩

/-- The frame at the head of a queue is handled; what follows lies beside the work. -/
theorem Dev.serve_atHead {d : Dev} {k tc : Nat} {f : Frame} (h : d.AtHead k tc f) {want : Header → Bool}
    (hWant : want f.hdr = true) (g : Dev → Frame → Dev) :
    ∃ a, d.Hands a ∧ (g a f).Aside forwardCtrs (d.serve k tc want g) := by
  obtain ⟨c, r, hQueue, hFrame, hLive⟩ := h.head
  have popped : (d.popQueue (.cluster k) tc).frame? c.fid = some f := hFrame
  obtain ⟨s, reads⟩ := Dev.readQueued_good popped h.good.1 h.noInject h.noBad (.cluster k)
  have whole : d.wholeCopy c = true := by rw [Dev.wholeCopy, hFrame]; exact h.whole
  have sound : (e2eCheck f.hdr f.payload != f.e2e) = false := by simp [h.good.2]
  have served : d.serve k tc want g =
      ((g (d.handing s k tc c) f).noteSent c.fid none false).release c.fid := by
    simp only [Dev.serve, hQueue, List.head?_cons, hFrame, h.awake, whole, hWant, hLive, reads, sound, Bool.not_true,
      Bool.or_self, Bool.false_eq_true, if_false]
    rfl
  rw [served]
  exact ⟨_, d.hands_handing .., (Dev.aside_noteSent ..).trans (Dev.aside_release ..)⟩

end Sys2Proof.Machine
end

section
/-! PROOF. Sheaves: an arrival, a release, the repeat of an arrival and a stuck phase (R216 to R220). -/

namespace Sys2Proof.Machine

/-! ### The sheaves of a device -/

theorem Dev.sheaf?_setSheaf_same (d : Dev) (n : Nat) (x : Sheaf) : (d.setSheaf n x).sheaf? n = some x :=
  Tab.find_put_same ..

theorem Dev.sheaf?_setSheaf_other (d : Dev) {n m : Nat} (x : Sheaf) (h : m ≠ n) :
    (d.setSheaf n x).sheaf? m = d.sheaf? m :=
  Tab.find_put_other _ _ h

theorem Dev.sheaf?_congr {d e : Dev} (h : d.red = e.red) (n : Nat) : d.sheaf? n = e.sheaf? n :=
  congrArg (fun r : Red => Tab.find r.sheaves n) h

/-- A GATHER sheaf with an arrival missing waits. -/
theorem Dev.checkSheaf_gather_waits {d : Dev} {n : Nat} {x : Sheaf} (h : d.sheaf? n = some x) (hLevel : x.cfg.level = 1)
    (hMissing : x.arrived ≠ x.cfg.members) : d.checkSheaf n = d := by
  simp [Dev.checkSheaf, h, hLevel, hMissing]

/-- A GATHER sheaf with every arrival sends its own, once. -/
theorem Dev.aside_checkSheaf_gather {d : Dev} {n : Nat} {x : Sheaf} (h : d.sheaf? n = some x)
    (hLevel : x.cfg.level = 1) (hSent : x.sentUp = false) (hAll : x.arrived = x.cfg.members) :
    (d.setSheaf n { x with sentUp := true }).Aside forwardCtrs (d.checkSheaf n) := by
  have sends : d.checkSheaf n = (d.setSheaf n { x with sentUp := true }).sendUp n x := by
    simp [Dev.checkSheaf, h, hLevel, hSent, hAll]
  rw [sends]
  exact Dev.aside_build ..

theorem Dev.checkSheaf_root_waits {d : Dev} {n : Nat} {x : Sheaf} (h : d.sheaf? n = some x) (hLevel : x.cfg.level = 2)
    (hBelow : x.count < x.cfg.target.toNat) : d.checkSheaf n = d := by
  simp [Dev.checkSheaf, h, hLevel, hBelow]

theorem Dev.checkSheaf_root_releases {d : Dev} {n : Nat} {x : Sheaf} (h : d.sheaf? n = some x)
    (hLevel : x.cfg.level = 2) (hTarget : x.cfg.target.toNat ≤ x.count) :
    d.checkSheaf n = d.releaseSheaf n x := by
  simp [Dev.checkSheaf, h, hLevel, hTarget]

/-! ### A release (R219) -/

/-- The sheaf's next phase, and the count of releases; what follows lies beside them. -/
theorem Dev.aside_releaseSheaf (d : Dev) (n : Nat) (x : Sheaf) :
    ((d.setSheaf n (x.nextPhase x.count x.datum (d.ownAddr 1))).bump (ctrRed (n / 1024) 0xA60)).Aside forwardCtrs
      (d.releaseSheaf n x) := by
  have posts : ∀ (e : Dev) (l : List SheafRel) (c : Bool), e.Aside forwardCtrs
      (if c then { e with thr := { e.thr with posts := l } } else e) := fun e l c =>
    Dev.aside_ite _ { Dev.Aside.refl _ e with } (.refl ..)
  have copies : ∀ (e : Dev) (h : Header) (c : Bool), e.Aside forwardCtrs (if c then e.build 0 h [] else e) :=
    fun e h c => Dev.aside_ite _ (e.aside_build ..) (.refl ..)
  exact (posts ..).trans (copies ..)

/-! ### An arrival (R218) -/

/-- The sheaf with one arrival more, of port `p`: its COUNT and DATUM, and the time of its first arrival. -/
def Sheaf.arrive (x : Sheaf) (p count : Nat) (datum : Word) (now : Nat) : Sheaf :=
  { x with
    arrived := x.arrived ||| portBit p, got := true, count := count, datum := datum,
    firstAt := if x.firstAt.isSome then x.firstAt else some now }

/-- DATUM combines with the arrival's by the operation, unless their sum is NaN (R218, log entry 91). -/
def Sheaf.Combined (x : Sheaf) (more v : Word) : Prop :=
  x.cfg.dop = 1 ∧ f32isNan (combineDatum 1 (!x.got) x.datum more) = true ∨
    v = combineDatum x.cfg.dop (!x.got) x.datum more

/-- The device with `n` free values used so far. -/
def Dev.withFree (d : Dev) (n : Nat) : Dev := { d with free := n }

/-- What stands where the sum is NaN is a free value; the device is else as it was. -/
theorem Dev.nextDatum_cases (d : Dev) (x : Sheaf) (more : Word) :
    ∃ n v, d.nextDatum x more = (d.withFree n, v) ∧ x.Combined more v := by
  unfold Dev.nextDatum
  dsimp only
  split
  next h =>
    simp only [Bool.and_eq_true, beq_iff_eq] at h
    obtain ⟨⟨hSum, -⟩, hNan⟩ := h
    exact ⟨_, _, rfl, .inl ⟨hSum, by rwa [hSum] at hNan⟩⟩
  next => exact ⟨_, _, rfl, .inr rfl⟩

theorem Dev.nextCount_fits (d : Dev) {x : Sheaf} {more : Nat} (h : x.count + more < 2 ^ 21) :
    d.nextCount x more = (d, x.count + more) := if_pos h

/-- The frame is an arrival for sheaf `x`, in its phase, from a member port of it. -/
structure Sheaf.Expects (x : Sheaf) (f : Frame) : Prop where
  part : x.cfg.part = f.hdr.part
  job : x.cfg.job = f.hdr.job
  member : hasPort x.cfg.members f.port = true
  phase : f.hdr.seq = x.cfg.phase

/-- An arrival counts no second time, and not from a port that counts as not ACTIVE (log entry 173). -/
theorem Dev.sheafArrival_dup {d : Dev} {f : Frame} {x : Sheaf} (hx : d.sheaf? f.hdr.ctx.toNat = some x)
    (h : x.Expects f)
    (hDup : hasPort x.arrived f.port = true ∨ d.memberUp f.hdr.part.toNat f.port = false) :
    d.sheafArrival f = d.bump (ctrRed (f.hdr.ctx.toNat / 1024) 0xA68) := by
  by_cases up : d.memberUp f.hdr.part.toNat f.port = false
  · simp [Dev.sheafArrival, hx, up]
  · have arrived := hDup.resolve_right up
    simp only [Bool.not_eq_false] at up
    simp [Dev.sheafArrival, hx, h.part, h.job, h.member, h.phase, up, arrived]

/-- The first arrival of a port joins the sheaf, which is then checked. -/
theorem Dev.sheafArrival_counts {d : Dev} {f : Frame} {x : Sheaf} (hx : d.sheaf? f.hdr.ctx.toNat = some x)
    (h : x.Expects f) (hNew : hasPort x.arrived f.port = false) (hUp : d.memberUp f.hdr.part.toNat f.port = true)
    (hFits : x.count + bitsOf f.hdr.ksf.toNat 52 32 < 2 ^ 21) :
    ∃ n v, x.Combined (BitVec.ofNat 32 f.hdr.ksf.toNat) v ∧ d.sheafArrival f =
      ((d.withFree n).setSheaf f.hdr.ctx.toNat
        (x.arrive f.port (x.count + bitsOf f.hdr.ksf.toNat 52 32) v d.now)).checkSheaf f.hdr.ctx.toNat := by
  obtain ⟨n, v, datum, combined⟩ := d.nextDatum_cases x (BitVec.ofNat 32 f.hdr.ksf.toNat)
  refine ⟨n, v, combined, ?_⟩
  simp [-BitVec.ofNat_toNat, Dev.sheafArrival, hx, h.part, h.job, h.member, h.phase, hNew, hUp,
    d.nextCount_fits hFits, datum, Sheaf.arrive, Dev.withFree]

/-- A SHEAF frame at the head of a cluster's queue is handled as an arrival. -/
theorem exec_sheafArrival_atHead {s : State} {k tc : Fin 8} {f : Frame} (h : s.d.AtHead k.val tc.val f)
    (hKind : f.hdr.kind = 4) : ∃ a t, s.d.Hands a ∧ exec (.sheafArrival k tc) s = .next t ∧
      (a.sheafArrival f).Aside forwardCtrs t.d := by
  obtain ⟨a, hands, aside⟩ := Dev.serve_atHead h (want := fun h => h.kind == 4) (by simp [hKind])
    fun d f => d.sheafArrival f
  exact ⟨a, _, hands, rfl, aside⟩

theorem Dev.Hands.sheaf? {d a : Dev} (h : d.Hands a) (n : Nat) : a.sheaf? n = d.sheaf? n :=
  Dev.sheaf?_congr h.red n

/-! ### Arrivals by the sheaf that they leave -/

section
variable {s : State} {k tc : Fin 8} {f : Frame} {x : Sheaf} (hHead : s.d.AtHead k.val tc.val f)
  (hKind : f.hdr.kind = 4) (hx : s.d.sheaf? f.hdr.ctx.toNat = some x) (h : x.Expects f)
include hHead hKind hx h

theorem exec_sheafArrival_dup
    (hDup : hasPort x.arrived f.port = true ∨ s.d.memberUp f.hdr.part.toNat f.port = false) :
    ∃ t, exec (.sheafArrival k tc) s = .next t ∧ t.d.red = s.d.red ∧
      t.d.ctr (ctrRed (f.hdr.ctx.toNat / 1024) 0xA68) =
        (s.d.ctr (ctrRed (f.hdr.ctx.toNat / 1024) 0xA68) + 1) % 2 ^ 64 := by
  obtain ⟨a, t, hands, run, left⟩ := exec_sheafArrival_atHead hHead hKind
  rw [Dev.sheafArrival_dup ((hands.sheaf? _).trans hx) h (by rwa [hands.memberUp])] at left
  exact ⟨t, run, left.red.trans hands.red, hands.ctr_bump left rfl (by decide)⟩

/-- Below its target a root sheaf keeps the arrival. -/
theorem exec_sheafArrival_waits (hNew : hasPort x.arrived f.port = false)
    (hUp : s.d.memberUp f.hdr.part.toNat f.port = true) (hLevel : x.cfg.level = 2)
    (hBelow : x.count + bitsOf f.hdr.ksf.toNat 52 32 < x.cfg.target.toNat) :
    ∃ t v, exec (.sheafArrival k tc) s = .next t ∧ x.Combined (BitVec.ofNat 32 f.hdr.ksf.toNat) v ∧
      t.d.sheaf? f.hdr.ctx.toNat =
        some (x.arrive f.port (x.count + bitsOf f.hdr.ksf.toNat 52 32) v s.d.now) ∧ t.d.mem = s.d.mem := by
  obtain ⟨a, t, hands, run, left⟩ := exec_sheafArrival_atHead hHead hKind
  obtain ⟨n, v, combined, arrival⟩ := Dev.sheafArrival_counts ((hands.sheaf? _).trans hx) h hNew
    ((hands.memberUp ..).trans hUp) (hBelow.trans x.cfg.target.isLt)
  have set := Dev.sheaf?_setSheaf_same (a.withFree n) f.hdr.ctx.toNat
    (x.arrive f.port (x.count + bitsOf f.hdr.ksf.toNat 52 32) v a.now)
  rw [arrival, Dev.checkSheaf_root_waits set hLevel hBelow] at left
  refine ⟨t, v, run, combined, ?_, left.mem.trans hands.mem⟩
  rw [Dev.sheaf?_congr left.red, set, hands.now]

/-- At its target a root sheaf releases, and begins its next phase. -/
theorem exec_sheafArrival_releases (hNew : hasPort x.arrived f.port = false)
    (hUp : s.d.memberUp f.hdr.part.toNat f.port = true) (hLevel : x.cfg.level = 2)
    (hTarget : x.cfg.target.toNat ≤ x.count + bitsOf f.hdr.ksf.toNat 52 32)
    (hFits : x.count + bitsOf f.hdr.ksf.toNat 52 32 < 2 ^ 21) :
    ∃ t, ∃ y : Sheaf, ∃ src, exec (.sheafArrival k tc) s = .next t ∧
      t.d.sheaf? f.hdr.ctx.toNat = some (y.nextPhase (x.count + bitsOf f.hdr.ksf.toNat 52 32) y.datum src) ∧
      y.cfg = x.cfg ∧ t.d.mem = s.d.mem ∧ t.d.ctr (ctrRed (f.hdr.ctx.toNat / 1024) 0xA60) =
        (s.d.ctr (ctrRed (f.hdr.ctx.toNat / 1024) 0xA60) + 1) % 2 ^ 64 := by
  obtain ⟨a, t, hands, run, left⟩ := exec_sheafArrival_atHead hHead hKind
  obtain ⟨n, v, -, arrival⟩ := Dev.sheafArrival_counts ((hands.sheaf? _).trans hx) h hNew
    ((hands.memberUp ..).trans hUp) hFits
  have set := Dev.sheaf?_setSheaf_same (a.withFree n) f.hdr.ctx.toNat
    (x.arrive f.port (x.count + bitsOf f.hdr.ksf.toNat 52 32) v a.now)
  rw [arrival, Dev.checkSheaf_root_releases set hLevel hTarget] at left
  have after := (Dev.aside_releaseSheaf ..).trans left
  exact ⟨t, _, _, run, (Dev.sheaf?_congr after.red _).trans (Dev.sheaf?_setSheaf_same ..), rfl,
    after.mem.trans hands.mem, hands.ctr_bump after rfl (by decide)⟩

end

/-! ### A release that passes (R219) -/

/-- The device once cluster `k` has taken its oldest release. -/
def Dev.setPassing (d : Dev) (k : Nat) (l : List SheafRel) : Dev :=
  { d with red := { d.red with passing := Tab.set d.red.passing k l [] } }

theorem Dev.get_setPassing (d : Dev) (k : Nat) (l : List SheafRel) :
    Tab.get (d.setPassing k l).red.passing k [] = l :=
  Tab.get_set_same ..

/-- A release that passes for a GATHER sheaf's phase begins its next one, and the sheaf is then checked. -/
theorem exec_sheafReleasePassing_begins {s : State} {k : Fin 8} {r : SheafRel} {l : List SheafRel} {x : Sheaf}
    (ha : s.d.awake = true) (hr : Tab.get s.d.red.passing k.val [] = r :: l) (hx : s.d.sheaf? r.sheaf = some x)
    (hLevel : x.cfg.level = 1) (hPart : x.cfg.part = r.part) (hJob : x.cfg.job = r.job)
    (hPhase : x.cfg.phase = r.phase) :
    exec (.sheafReleasePassing k) s = .next (s.put (((s.d.setPassing k.val l).setSheaf r.sheaf
      (x.nextPhase r.count r.datum r.src)).checkSheaf r.sheaf)) := by
  have found : (s.d.setPassing k.val l).sheaf? r.sheaf = some x := hx
  refine congrArg (goto s) ?_
  simp only [hr, ha, Bool.not_true, Bool.false_eq_true, if_false]
  rw [← Dev.setPassing, found]
  simp [hLevel, hPart, hJob, hPhase]

/-! ### The repeat of an arrival, and a stuck phase (R219, R220) -/

theorem exec_sheafRetryExpiry_sends {s : State} {n : Fin 8192} {x : Sheaf} (ha : s.d.awake = true)
    (hx : s.d.sheaf? n.val = some x) (hLevel : x.cfg.level = 1) (hSent : x.sentUp = true) :
    exec (.sheafRetryExpiry n) s = .next (s.put (s.d.sendUp n.val x)) := by
  refine congrArg (goto s) ?_
  simp [ha, hx, hLevel, hSent]

theorem exec_sheafStuck_first {s : State} {n : Fin 8192} {x : Sheaf} (ha : s.d.awake = true)
    (hx : s.d.sheaf? n.val = some x) (hFirst : x.firstAt.isSome = true) (hSent : x.stuckSent = false) :
    exec (.sheafStuck n) s = .next (s.put (((s.d.setSheaf n.val { x with stuckSent := true }).bump
      (ctrRed (n.val / 1024) 0xA70)).event (.sheafStuck n.val x.cfg.phase x.count))) := by
  refine congrArg (goto s) ?_
  simp [ha, hx, hFirst, hSent]

theorem exec_sheafStuck_again {s : State} {n : Fin 8192} {x : Sheaf} (ha : s.d.awake = true)
    (hx : s.d.sheaf? n.val = some x) (hSent : x.stuckSent = true) : exec (.sheafStuck n) s = .next s := by
  refine congrArg (goto s) ?_
  simp [ha, hx, hSent]

end Sys2Proof.Machine

open Sys2Proof Sys2Proof.Machine

/-- Settles O57: each arrival, release and time by the sheaf that it leaves. -/
theorem sheaves : Obligations.Sheaves := by
  refine ⟨fun s k tc f x hHead hKind => ?_, fun s k r l x ha hr hx hLevel hPart hJob hPhase hMembers => ?_,
    fun s k r l x ha hr hx hLevel hPart hJob hPhase hMembers => ?_,
    fun s n x ha hx hLevel hSent => exec_sheafRetryExpiry_sends ha hx hLevel hSent,
    fun s n x ha hx hFirst hSent => ?_, fun s n x ha hx hSent => exec_sheafStuck_again ha hx hSent⟩
  · intro n more hx hPart hJob hMember hPhase up
    have expects : x.Expects f := ⟨hPart, hJob, hMember, hPhase⟩
    refine ⟨exec_sheafArrival_dup hHead hKind hx expects, fun hNew hUp hLevel hBelow => ?_,
      fun hNew hUp hLevel hTarget hFits => ?_⟩
    · obtain ⟨t, v, run, combined, hy, hMem⟩ :=
        exec_sheafArrival_waits hHead hKind hx expects hNew hUp hLevel hBelow
      exact ⟨t, _, run, hy, rfl, rfl, rfl, combined, hMem⟩
    · obtain ⟨t, y, src, run, hy, hCfg, hMem, hCtr⟩ :=
        exec_sheafArrival_releases hHead hKind hx expects hNew hUp hLevel hTarget hFits
      exact ⟨t, _, run, hy, by rw [← hCfg]; rfl, rfl, rfl, rfl, hCtr, hMem⟩
  · have begins := exec_sheafReleasePassing_begins ha hr hx hLevel hPart hJob hPhase
    have set := Dev.sheaf?_setSheaf_same (s.d.setPassing k.val l) r.sheaf (x.nextPhase r.count r.datum r.src)
    rw [Dev.checkSheaf_gather_waits set hLevel hMembers.symm] at begins
    exact ⟨_, begins, s.d.get_setPassing .., set, fun n hn => Dev.sheaf?_setSheaf_other _ _ hn, rfl⟩
  · have begins := exec_sheafReleasePassing_begins ha hr hx hLevel hPart hJob hPhase
    have set := Dev.sheaf?_setSheaf_same (s.d.setPassing k.val l) r.sheaf (x.nextPhase r.count r.datum r.src)
    have sent := Dev.aside_checkSheaf_gather set hLevel rfl hMembers.symm
    refine ⟨_, _, begins, (congrArg (fun d : Red => Tab.get d.passing k.val []) sent.red).trans ?_,
      (Dev.sheaf?_congr sent.red _).trans (Dev.sheaf?_setSheaf_same ..), rfl, rfl⟩
    exact s.d.get_setPassing ..
  · refine ⟨_, exec_sheafStuck_first ha hx hFirst hSent, ?_, fun m hm => ?_, ?_⟩
    · exact (Dev.sheaf?_congr (Dev.event_red ..) _).trans (Dev.sheaf?_setSheaf_same ..)
    · exact (Dev.sheaf?_congr (Dev.event_red ..) _).trans (Dev.sheaf?_setSheaf_other _ _ hm)
    · exact (Dev.ctr_congr (Dev.event_ctrs ..) _).trans (Dev.ctr_bump_same ..)
end

section
/-! PROOF. The chunks and the finished-chunk records of a context (R199, R200, R210). -/

namespace Sys2Proof.Machine

theorem Ctx.seq_of_chunk? {c : Ctx} {q : Word} {x : Chunk} (h : c.chunk? q = some x) : x.seq = q := by
  simpa using List.find?_some h

/-- A chunk that is set changes the context's chunks alone. -/
theorem Ctx.putChunk_shape (c : Ctx) (x : Chunk) : ∃ l, c.putChunk x = { c with chunks := l } := by
  unfold Ctx.putChunk
  split
  · exact ⟨_, rfl⟩
  · exact ⟨_, rfl⟩

/-- A chunk that is set is open. -/
theorem Ctx.chunk?_putChunk (c : Ctx) (x : Chunk) : (c.putChunk x).chunk? x.seq = some x := by
  unfold Ctx.putChunk
  split
  next h =>
    obtain ⟨y, hy⟩ := Option.isSome_iff_exists.mp h
    have same : ((fun z : Chunk => z.seq == x.seq) ∘ fun y : Chunk => if y.seq == x.seq then x else y) =
        fun y => y.seq == x.seq := by
      funext y
      by_cases hq : y.seq = x.seq <;> simp [hq]
    have found : c.chunks.find? (fun z => z.seq == x.seq) = some y := hy
    simp only [Ctx.chunk?, List.find?_map, same, found, Option.map_some, Ctx.seq_of_chunk? hy, beq_self_eq_true,
      if_true]
  next h =>
    have absent : c.chunks.find? (fun z => z.seq == x.seq) = none := by simpa [Ctx.chunk?] using h
    simp [Ctx.chunk?, List.find?_append, absent]

theorem Ctx.length_putChunk_of_open {c : Ctx} {x : Chunk} (h : (c.chunk? x.seq).isSome = true) :
    (c.putChunk x).chunks.length = c.chunks.length := by
  simp [Ctx.putChunk, h]

theorem Ctx.length_putChunk_of_new {c : Ctx} {x : Chunk} (h : c.chunk? x.seq = none) :
    (c.putChunk x).chunks.length = c.chunks.length + 1 := by
  simp [Ctx.putChunk, h]

/-- The context once it remembers chunk `x` as finished (R200). -/
def Ctx.finish (c : Ctx) (x : Chunk) (isDone : Bool) (linger : Option Linger) : Ctx :=
  { c.dropChunk x.seq with
    fin := ({ seq := x.seq, isDone := isDone, rh := x.rh, linger := linger } ::
      c.fin.filter fun y => y.seq != x.seq).take (2 * c.e.window.toNat),
    counts := c.counts.add x isDone }

theorem Ctx.chunk?_finish (c : Ctx) (x : Chunk) (isDone : Bool) (linger : Option Linger) :
    (c.finish x isDone linger).chunk? x.seq = none := by
  simp [Ctx.finish, Ctx.dropChunk, Ctx.chunk?, List.find?_eq_none]

/-- A context with a window remembers the chunk that it has finished last. -/
theorem Ctx.record?_finish {c : Ctx} (h : c.e.window ≠ 0) (x : Chunk) (isDone : Bool) (linger : Option Linger) :
    (c.finish x isDone linger).record? x.seq =
      some { seq := x.seq, isDone := isDone, rh := x.rh, linger := linger } := by
  have room : 2 * c.e.window.toNat = (2 * c.e.window.toNat - 1) + 1 := by
    have : c.e.window.toNat ≠ 0 := fun hz => h (BitVec.eq_of_toNat_eq hz)
    omega
  simp only [Ctx.finish, Ctx.record?]
  rw [room, List.take_succ_cons, List.find?_cons_of_pos (by simp)]

theorem Ctx.isDone_finish (c : Ctx) (x : Chunk) (linger : Option Linger) :
    (c.finish x true linger).counts.isDone = c.counts.isDone + 1 := rfl

end Sys2Proof.Machine
end

section
/-! PROOF. The contexts of a device under the work of a chunk: a NACK, the sampling of instructions, and the finish of
a chunk at its root with its linger copy (R200, R207, R209, R210, R238, R511). -/

namespace Sys2Proof

theorem Tab.find_adj_other {α : Type} (t : Tab α) {n m : Nat} (g : α → α) (h : m ≠ n) :
    Tab.find (Tab.adj t n g) m = Tab.find t m := by
  unfold Tab.adj
  split
  · rfl
  · exact Tab.find_put_other _ _ h

end Sys2Proof

namespace Sys2Proof.Machine

theorem Dev.ctx?_congr {d e : Dev} (h : d.red = e.red) (n : Nat) : d.ctx? n = e.ctx? n :=
  congrArg (fun r : Red => Tab.find r.ctxs n) h

theorem Dev.ctx?_modCtx_same (d : Dev) (n : Nat) (g : Ctx → Ctx) : (d.modCtx n g).ctx? n = (d.ctx? n).map g :=
  Tab.find_adj_same ..

theorem Dev.ctx?_modCtx_other (d : Dev) {n m : Nat} (g : Ctx → Ctx) (h : m ≠ n) : (d.modCtx n g).ctx? m = d.ctx? m :=
  Tab.find_adj_other _ _ h

/-! ### NACKs (R238) -/

/-- A NACK that is sent may count in its context. -/
theorem Dev.ctx?_countNack {d : Dev} {cid : Nat} {c : Ctx} (hc : d.ctx? cid = some c) (own : Bool) :
    ∃ n, (if own then d.modCounts cid (fun n => { n with nacks := n.nacks + 1 }) else d).ctx? cid =
      some { c with counts := n } := by
  split
  · exact ⟨_, (d.ctx?_modCtx_same ..).trans (congrArg (Option.map _) hc)⟩
  · exact ⟨c.counts, hc⟩

/-- A NACK changes no more of its context than its counts. -/
theorem Dev.ctx?_sendNack {d : Dev} {cid : Nat} {c : Ctx} (hc : d.ctx? cid = some c) (own : Bool) (part : BitVec 12)
    (job : BitVec 16) (l : Nat) (seq : Word) (kind : Nat) (rh : Bool) :
    ∃ n, (d.sendNack cid own part job l seq kind rh).ctx? cid = some { c with counts := n } := by
  have kept : ∀ e : Dev, e.red = d.red → e.ctx? cid = some c := fun e he => (Dev.ctx?_congr he cid).trans hc
  unfold Dev.sendNack
  dsimp only
  split
  · exact ⟨c.counts, kept _ rfl⟩
  · generalize hSent : d.buildTo l _ [] = e
    have sent : e.red = d.red := hSent ▸ (d.aside_buildTo l _ []).red
    split
    · refine ⟨c.counts, kept _ ?_⟩
      split
      · exact sent
      · exact sent
    · have bump : ∀ (e : Dev) (a : Nat), e.Aside Set.univ (e.bump a) := fun e a => e.aside_bumpBy 1 (Set.mem_univ a)
      have one := bump e (ctrRed (clusterOf cid) 0xC28)
      have counted := Dev.aside_ite (kind = nackNoctx) (one.trans (bump _ (ctrRed (clusterOf cid) 0xC18)))
        (Dev.aside_ite (kind = nackWindow)
          ((one.trans (bump _ (ctrRed (clusterOf cid) 0xC20))).trans (bump _ (ctrCnt 0x118))) one)
      exact Dev.ctx?_countNack (kept _ (counted.red.trans sent)) own

theorem Dev.ctx?_nackBack {d : Dev} {cid : Nat} {c : Ctx} (hc : d.ctx? cid = some c) (f : Frame) (own : Bool)
    (seq : Word) (kind : Nat) (rh : Bool) :
    ∃ n, (d.nackBack f cid own seq kind rh).ctx? cid = some { c with counts := n } := by
  unfold Dev.nackBack
  split
  · exact ⟨c.counts, hc⟩
  · exact Dev.ctx?_sendNack hc ..

/-! ### Instructions of a cluster's cores (R511) -/

theorem Dev.aside_microCandidate (k cid : Nat) (seq : Word) (a : Arith) (d : Dev) (x : Nat × BitVec 64) :
    d.Aside forwardCtrs (d.microCandidate k cid seq a x) := by
  have counted := d.aside_gleanCandidate forwardCtrs (16 + 8 * k + x.1) (d.regBits offGleanCtl 19 15)
  unfold Dev.microCandidate
  exact Dev.aside_ite _ (counted.trans (Dev.aside_gleanAdd ..)) counted

theorem Dev.aside_gleanMicro (d : Dev) (k cid : Nat) (seq : Word) (a : Arith) :
    d.Aside forwardCtrs (d.gleanMicro k cid seq a) := by
  unfold Dev.gleanMicro
  refine Dev.aside_ite _ (.refl ..) ?_
  exact List.foldlRecOn (motive := fun e : Dev => d.Aside forwardCtrs e) _ _ { Dev.Aside.refl _ d with } fun e he x _ =>
    he.trans (Dev.aside_microCandidate ..)

/-! ### The result of a root (R190, R207, R209) -/

/-- The counts 0x900 to 0x9FF of a cluster lie in the lower half of their 1 KiB. -/
theorem ctrRed_mem_forwardCtrs (k : Nat) {o : Nat} (h : o % 0x400 < 0x200) : ctrRed k o ∈ forwardCtrs := by
  simp only [forwardCtrs, Set.mem_ofPred_eq, ctrRed, baseRed]
  omega

theorem Dev.aside_countFlags (d : Dev) (cid : Nat) (fl : Fl) : d.Aside forwardCtrs (d.countFlags cid fl) := by
  refine List.foldlRecOn (motive := fun e : Dev => d.Aside forwardCtrs e) _ _ (.refl ..) fun e he i hi => ?_
  have low : (0x900 + 8 * i) % 0x400 < 0x200 := by
    simp only [List.mem_cons, List.not_mem_nil, or_false] at hi
    omega
  exact Dev.aside_ite _ (he.trans (e.aside_bumpBy 1 (ctrRed_mem_forwardCtrs _ low))) he

/-- An encoding counts its flags and its blocks, and leaves of its chunk what a record holds. -/
theorem Dev.encodeChunk_effect (d : Dev) (cid : Nat) (root : Bool) (x : Chunk) :
    d.Aside forwardCtrs (d.encodeChunk cid root x).1 ∧ (d.encodeChunk cid root x).2.2.seq = x.seq := by
  unfold Dev.encodeChunk
  dsimp only
  split
  · exact ⟨.refl .., rfl⟩
  · exact ⟨(d.aside_countFlags ..).trans
      (Dev.aside_ite _ (Dev.aside_bumpBy _ _ (ctrRed_mem_forwardCtrs _ (by decide))) (.refl ..)), rfl⟩

/-- A linger copy that ends leaves of a context all but its records. -/
theorem Dev.ctx?_endLinger {d : Dev} {cid : Nat} {c : Ctx} (hc : d.ctx? cid = some c) (n : Nat) (seq : Word) :
    ∃ l, (d.endLinger n seq).ctx? cid = some { c with fin := l } := by
  by_cases h : cid = n
  · subst h
    exact ⟨_, (d.ctx?_modCtx_same ..).trans (congrArg (Option.map _) hc)⟩
  · exact ⟨c.fin, (d.ctx?_modCtx_other _ h).trans hc⟩

/-- Copies that make room leave of a context all but its records, and of the device all but its contexts and counts. -/
theorem Dev.evictLinger_effect {d : Dev} {cid : Nat} {c : Ctx} (hc : d.ctx? cid = some c) (cap size used : Nat)
    (l : List (Nat × Word × Linger)) : ∃ r k fin, d.evictLinger cap size used l = { d with red := r, ctrs := k } ∧
      (d.evictLinger cap size used l).ctx? cid = some { c with fin := fin } := by
  induction l generalizing d c used with
  | nil => exact ⟨_, _, c.fin, rfl, hc⟩
  | cons x l ih =>
    unfold Dev.evictLinger
    split
    · exact ⟨_, _, c.fin, rfl, hc⟩
    · obtain ⟨fin, ended⟩ := Dev.ctx?_endLinger hc x.1 x.2.1
      obtain ⟨r, k, fin, shape, found⟩ := ih (d := (d.endLinger x.1 x.2.1).bump (ctrRed (clusterOf x.1) 0xA50)) ended
        (used - x.2.2.bytes)
      exact ⟨r, k, fin, shape, found⟩

theorem Dev.keepLinger_effect {d : Dev} {cid : Nat} {c : Ctx} (hc : d.ctx? cid = some c) (n : Nat) (e : CtxEntry)
    (b : List Byte) (sub : BitVec 8) : ∃ r k fin, (d.keepLinger n e b sub).1 = { d with red := r, ctrs := k } ∧
      (d.keepLinger n e b sub).1.ctx? cid = some { c with fin := fin } := by
  unfold Dev.keepLinger
  dsimp only
  generalize (if e.lingerUs = 0 then 500 else e.lingerUs.toNat) = us
  split
  · exact ⟨_, _, c.fin, rfl, hc⟩
  · obtain ⟨r, k, fin, shape, found⟩ := Dev.evictLinger_effect hc (d.regionBytes .linger) _ _ _
    exact ⟨_, _, fin, by rw [shape], found⟩

/-- The context `c` of `d` has finished chunk `seq` in `e`; the board memory and the ports are as they were. -/
structure Dev.Finishes (d e : Dev) (cid : Nat) (c : Ctx) (seq : Word) : Prop where
  done : ∃ y r, e.ctx? cid = some y ∧ y.chunk? seq = none ∧ y.record? seq = some r ∧ r.isDone = true ∧
    y.counts.isDone = c.counts.isDone + 1
  mem : e.mem = d.mem
  ports : e.ports = d.ports

theorem Dev.finishes_finishChunk {d : Dev} {cid : Nat} {c : Ctx} (hc : d.ctx? cid = some c) (hw : c.e.window ≠ 0)
    (x : Chunk) (linger : Option Linger) : d.Finishes (d.finishChunk cid x true linger) cid c x.seq where
  done := ⟨c.finish x true linger, _, (d.ctx?_modCtx_same ..).trans (congrArg (Option.map _) hc),
    c.chunk?_finish .., Ctx.record?_finish hw .., rfl, c.isDone_finish ..⟩
  mem := rfl
  ports := rfl

/-- A root finishes a chunk with its last contribution: its result is sent, and a copy of it may linger. -/
theorem Dev.finishes_complete {d : Dev} {cid : Nat} {c : Ctx} {x : Chunk} (hc : d.ctx? cid = some c)
    (hw : c.e.window ≠ 0) (hLevel : c.e.level = 2) (hOp : x.att.op ≠ 7) :
    d.Finishes (d.complete cid x) cid c x.seq := by
  obtain ⟨encoded, seq⟩ := d.encodeChunk_effect cid true x
  have root : d.complete cid x = d.completeRoot cid x := by
    simp [Dev.complete, hc, hLevel, hOp]
  rw [root, ← seq]
  unfold Dev.completeRoot
  rw [hc]
  dsimp only
  generalize d.encodeChunk cid true x = r at encoded
  have sent := encoded.trans (Dev.aside_build r.1 0 (d.resultHeader cid c.e r.2.2.att.tf r.2.2.seq
    (subOf r.2.2.rh false r.2.2.ovf r.2.2.flags)) r.2.1)
  generalize r.1.build 0 _ r.2.1 = e at sent ⊢
  obtain ⟨_, _, fin, shape, kept⟩ := Dev.keepLinger_effect ((Dev.ctx?_congr sent.red cid).trans hc) cid c.e r.2.1
    (subOf r.2.2.rh false r.2.2.ovf r.2.2.flags)
  obtain ⟨done, hMem, hPorts⟩ := Dev.finishes_finishChunk (c := { c with fin := fin }) kept hw r.2.2
    (e.keepLinger cid c.e r.2.1 (subOf r.2.2.rh false r.2.2.ovf r.2.2.flags)).2
  exact ⟨done, hMem.trans ((congrArg Dev.mem shape).trans sent.mem),
    hPorts.trans ((congrArg Dev.ports shape).trans sent.ports)⟩

end Sys2Proof.Machine
end

section
/-! PROOF. Contributions (R197, R199 to R201, R210, R237). -/

namespace Sys2Proof.Machine

/-- The contribution `f` passes the checks of R237 for context `c` before the one of its format, each member port
counts as ACTIVE, and no error is armed. -/
structure Dev.Passes (d : Dev) (k : Nat) (f : Frame) (c : Ctx) : Prop where
  ctx : d.ctx? f.hdr.ctx.toNat = some c
  part : c.e.part = f.hdr.part
  job : c.e.job = f.hdr.job
  st : c.st = .active ∨ c.st = .spill
  serving : d.clusterClosed k = false
  plain : c.isThresh = false
  level : c.e.level ≠ 0
  path : d.onPath c.e f.hdr.ctx.toNat f.hdr.seq (f.hdr.sub.getLsbD 7) f.hdr.src = true
  member : hasPort (c.membership f.hdr.seq) f.port = true
  up : ∀ l ∈ members (c.membership f.hdr.seq), d.memberUp c.e.part.toNat l = true
  noInject : d.faults.injects = []

theorem Dev.Hands.passes {d a : Dev} (h : d.Hands a) {k : Nat} {f : Frame} {c : Ctx} (p : d.Passes k f c) :
    a.Passes k f c := by
  obtain ⟨_, _, _, rfl⟩ := h.shape
  exact { p with }

theorem Dev.meetInject_none {d : Dev} (h : d.faults.injects = []) (array : Nat) (l : List Nat) (cid : Nat)
    (seq : Word) : d.meetInject array l cid seq = (d, none) := by
  simp [Dev.meetInject, h]

section
variable {d : Dev} {k : Nat} {f : Frame} {c : Ctx} (h : d.Passes k f c)
include h

theorem Dev.Passes.serves (o : Bool) : d.serves k f.hdr.ctx.toNat c f.hdr o = true := by
  obtain st | st := h.st
  · simp [Dev.serves, h.part, h.job, h.serving, h.plain, st]
  · simp [Dev.serves, h.part, h.job, h.serving, h.plain, st]

theorem Dev.Passes.mapped : d.thrMapped f.hdr.ctx.toNat c f.hdr.seq = true := by
  simp [Dev.thrMapped, h.plain]

theorem Dev.Passes.allUp :
    ((members (c.membership f.hdr.seq)).all fun l => d.memberUp c.e.part.toNat l) = true :=
  List.all_eq_true.mpr h.up

/-- To an open chunk a port contributes once; a second contribution is a duplicate (R199). -/
theorem Dev.contribution_open {x : Chunk} (hx : c.chunk? f.hdr.seq = some x) (hFmt : formatOk x.att f.hdr = true) :
    d.contribution k f = if hasPort x.bits f.port then
        (d.bump (ctrRed k 0xA10)).modCounts f.hdr.ctx.toNat fun n => { n with dup := n.dup + 1 }
      else d.combine k f.hdr.ctx.toNat c x f := by
  have reads := fun a l => Dev.meetInject_none h.noInject a l f.hdr.ctx.toNat f.hdr.seq
  simp only [Dev.contribution, h.ctx, hx, h.serves, h.level, h.path, h.mapped, h.member, hFmt, reads, h.allUp]
  simp

/-- A contribution to a chunk neither open nor remembered opens it where a slot is free (R201). -/
theorem Dev.contribution_new (hx : c.chunk? f.hdr.seq = none) (hr : c.record? f.hdr.seq = none)
    (hFmt : formatOk (c.e.arith false) f.hdr = true) :
    d.contribution k f = if c.slots ≤ c.chunks.length then
        d.nackBack f f.hdr.ctx.toNat true f.hdr.seq nackWindow (f.hdr.sub.getLsbD 7)
      else
        let r := d.openChunk k f.hdr.ctx.toNat c f.hdr.seq (f.hdr.sub.getLsbD 7)
        r.1.combine k f.hdr.ctx.toNat c r.2 f := by
  have inside : d.thrMiss f.hdr.ctx.toNat c f.hdr.seq = false := by simp [Dev.thrMiss, h.plain]
  simp only [Dev.contribution, h.ctx, hx, hr, h.serves, h.level, h.path, h.mapped, h.member, hFmt, Dev.newChunk,
    inside, h.allUp]
  simp

end

/-! ### A contribution that is combined (R201) -/

/-- The context with chunk `y` set, and `n` elements more dropped. -/
def Ctx.take (c : Ctx) (y : Chunk) (n : Nat) : Ctx :=
  { c.putChunk y with counts := { (c.putChunk y).counts with dropped := (c.putChunk y).counts.dropped + n } }

/-- The counts of a combined contribution: blocks of the transform, dropped elements, and elements of a spilled context
(R175, R197). -/
def Dev.countCombined (d : Dev) (k : Nat) (c : Ctx) (x : Chunk) (f : Frame) : Dev :=
  let cap := c.e.cap.toNat
  let n := fmtElems x.att.fmt f.hdr.len.toNat
  let d2 := if x.att.tf then d.bumpBy (ctrRed k 0x920) (n / 16) else d
  let d3 := if cap < n then d2.bumpBy (ctrRed k 0xA58) (n - cap) else d2
  if c.spilled then d3.bumpBy (ctrRed k 0xC38) (min n cap) else d3

theorem Dev.aside_countCombined (d : Dev) (k : Nat) (c : Ctx) (x : Chunk) (f : Frame) :
    d.Aside Set.univ (d.countCombined k c x f) := by
  have counted : ∀ (e : Dev) (p : Prop) [Decidable p] (a n : Nat), e.Aside Set.univ (if p then e.bumpBy a n else e) :=
    fun e p _ a n => Dev.aside_ite _ (e.aside_bumpBy n (Set.mem_univ a)) (.refl ..)
  exact ((counted ..).trans (counted ..)).trans (counted ..)

/-- The device once a contribution is combined with chunk `x`: the chunk stands in its context, and is counted. -/
def Dev.combined (d : Dev) (k cid : Nat) (c : Ctx) (x : Chunk) (f : Frame) : Dev :=
  ((d.modCtx cid fun c' => c'.take (x.absorb c.e.cap.toNat f)
    (fmtElems x.att.fmt f.hdr.len.toNat - c.e.cap.toNat)).countCombined k c x f).gleanMicro k cid x.seq x.att

theorem Dev.combine_eq (d : Dev) (k cid : Nat) (c : Ctx) (x : Chunk) (f : Frame) :
    d.combine k cid c x f = if (x.absorb c.e.cap.toNat f).bits == c.membership x.seq then
      (d.combined k cid c x f).complete cid (x.absorb c.e.cap.toNat f) else d.combined k cid c x f := rfl

/-- The combined chunk stands in the context as it was before. -/
theorem Dev.ctx?_combined {d : Dev} {cid : Nat} {c' : Ctx} (hc : d.ctx? cid = some c') (k : Nat) (c : Ctx) (x : Chunk)
    (f : Frame) : (d.combined k cid c x f).ctx? cid = some (c'.take (x.absorb c.e.cap.toNat f)
      (fmtElems x.att.fmt f.hdr.len.toNat - c.e.cap.toNat)) := by
  refine (Dev.ctx?_congr (Dev.aside_gleanMicro ..).red cid).trans ?_
  refine (Dev.ctx?_congr (Dev.aside_countCombined ..).red cid).trans ?_
  exact (d.ctx?_modCtx_same ..).trans (congrArg (Option.map _) hc)

theorem Dev.combined_mem (d : Dev) (k cid : Nat) (c : Ctx) (x : Chunk) (f : Frame) :
    (d.combined k cid c x f).mem = d.mem :=
  (Dev.aside_gleanMicro ..).mem.trans (Dev.aside_countCombined ..).mem

theorem Dev.combined_ports (d : Dev) (k cid : Nat) (c : Ctx) (x : Chunk) (f : Frame) :
    (d.combined k cid c x f).ports = d.ports :=
  (Dev.aside_gleanMicro ..).ports.trans (Dev.aside_countCombined ..).ports

/-- Of a context a combined chunk changes the chunks and the count of dropped elements. -/
theorem Ctx.take_shape (c : Ctx) (y : Chunk) (n : Nat) : ∃ l, c.take y n =
    { c with chunks := l, counts := { c.counts with dropped := c.counts.dropped + n } } := by
  obtain ⟨l, h⟩ := c.putChunk_shape y
  exact ⟨l, by rw [Ctx.take, h]⟩

theorem Ctx.chunk?_take (c : Ctx) (y : Chunk) (n : Nat) : (c.take y n).chunk? y.seq = some y :=
  c.chunk?_putChunk y

/-- The context and the chunk that a contribution opens (R201, R213). -/
theorem Dev.openChunk_effect {d : Dev} {cid : Nat} {c : Ctx} (hc : d.ctx? cid = some c) (k : Nat) (seq : Word)
    (rh : Bool) : ∃ c' r, d.openChunk k cid c seq rh = r ∧ r.1.ctx? cid = some c' ∧
      c'.chunks = (c.putChunk r.2).chunks ∧ r.1.mem = d.mem ∧ r.1.ports = d.ports ∧ r.2.seq = seq ∧ r.2.rh = rh ∧
      r.2.st = .gather ∧ r.2.bits = 0 ∧ r.2.opened = d.now := by
  have found := fun g => (d.ctx?_modCtx_same cid g).trans (congrArg (Option.map g) hc)
  cases rh
  · exact ⟨_, _, rfl, found _, rfl, rfl, rfl, rfl, rfl, rfl, rfl, rfl⟩
  · exact ⟨_, _, rfl, found _, rfl, rfl, rfl, rfl, rfl, rfl, rfl, rfl⟩

/-- A REDUCE contribution at the head of a cluster's queue is checked, and handled. -/
theorem exec_contributionServed_atHead {s : State} {k tc : Fin 8} {f : Frame} (h : s.d.AtHead k.val tc.val f)
    (hKind : f.hdr.kind = 2) : ∃ a t, s.d.Hands a ∧ exec (.contributionServed k tc) s = .next t ∧
      (a.contribution k.val f).Aside forwardCtrs t.d := by
  obtain ⟨a, hands, aside⟩ := Dev.serve_atHead h (want := fun h => h.kind == 2) (by simp [hKind])
    fun d f => d.contribution k.val f
  exact ⟨a, _, hands, rfl, aside⟩

/-! ### Contributions by the context that they leave -/

section
variable {s : State} {k tc : Fin 8} {f : Frame} {c : Ctx} (hHead : s.d.AtHead k.val tc.val f)
  (hKind : f.hdr.kind = 2) (h : s.d.Passes k.val f c)
include hHead hKind h

theorem exec_contributionServed_dup {x : Chunk} (hx : c.chunk? f.hdr.seq = some x)
    (hFmt : formatOk x.att f.hdr = true) (hDup : hasPort x.bits f.port = true) :
    ∃ t, exec (.contributionServed k tc) s = .next t ∧
      t.d.ctx? f.hdr.ctx.toNat = some { c with counts := { c.counts with dup := c.counts.dup + 1 } } ∧
      t.d.ctr (ctrRed k.val 0xA10) = (s.d.ctr (ctrRed k.val 0xA10) + 1) % 2 ^ 64 ∧ t.d.mem = s.d.mem := by
  obtain ⟨a, t, hands, run, left⟩ := exec_contributionServed_atHead hHead hKind
  have passes := hands.passes h
  rw [Dev.contribution_open passes hx hFmt, if_pos hDup] at left
  have counted : (a.bump (ctrRed k.val 0xA10)).ctr (ctrRed k.val 0xA10) = _ :=
    hands.ctr_bump (.refl ..) rfl (by decide)
  refine ⟨t, run, (Dev.ctx?_congr left.red _).trans ?_,
    (left.ctr _ (ctrRed_not_mem_forwardCtrs _ (by decide))).trans counted, left.mem.trans hands.mem⟩
  exact ((a.bump _).ctx?_modCtx_same ..).trans (congrArg (Option.map _) passes.ctx)

/-- A contribution that leaves its chunk incomplete is combined with it. -/
theorem exec_contributionServed_combines {x : Chunk} (hx : c.chunk? f.hdr.seq = some x)
    (hFmt : formatOk x.att f.hdr = true) (hNew : hasPort x.bits f.port = false)
    (hMore : x.bits ||| portBit f.port ≠ c.membership f.hdr.seq) :
    ∃ t n, exec (.contributionServed k tc) s = .next t ∧
      t.d.ctx? f.hdr.ctx.toNat = some (c.take (x.absorb c.e.cap.toNat f) n) ∧ t.d.mem = s.d.mem ∧
      t.d.ports = s.d.ports := by
  obtain ⟨a, t, hands, run, left⟩ := exec_contributionServed_atHead hHead hKind
  have passes := hands.passes h
  have more : ¬ ((x.absorb c.e.cap.toNat f).bits == c.membership x.seq) = true := by
    rw [Ctx.seq_of_chunk? hx, beq_iff_eq]
    exact hMore
  rw [Dev.contribution_open passes hx hFmt, hNew, if_neg Bool.false_ne_true, Dev.combine_eq, if_neg more] at left
  exact ⟨t, _, run, (Dev.ctx?_congr left.red _).trans (Dev.ctx?_combined passes.ctx ..),
    left.mem.trans ((a.combined_mem ..).trans hands.mem), left.ports.trans ((a.combined_ports ..).trans hands.ports)⟩

/-- The last contribution of a chunk finishes it at its root. -/
theorem exec_contributionServed_finishes {x : Chunk} (hx : c.chunk? f.hdr.seq = some x)
    (hFmt : formatOk x.att f.hdr = true) (hNew : hasPort x.bits f.port = false)
    (hLast : x.bits ||| portBit f.port = c.membership f.hdr.seq) (hLevel : c.e.level = 2) (hOp : x.att.op ≠ 7)
    (hw : c.e.window ≠ 0) :
    ∃ t, exec (.contributionServed k tc) s = .next t ∧ s.d.Finishes t.d f.hdr.ctx.toNat c f.hdr.seq := by
  obtain ⟨a, t, hands, run, left⟩ := exec_contributionServed_atHead hHead hKind
  have passes := hands.passes h
  have seq := Ctx.seq_of_chunk? hx
  have last : ((x.absorb c.e.cap.toNat f).bits == c.membership x.seq) = true := by
    rw [seq, beq_iff_eq]
    exact hLast
  rw [Dev.contribution_open passes hx hFmt, hNew, if_neg Bool.false_ne_true, Dev.combine_eq, if_pos last] at left
  have found := Dev.ctx?_combined passes.ctx k.val c x f
  obtain ⟨l, taken⟩ := c.take_shape (x.absorb c.e.cap.toNat f)
    (fmtElems x.att.fmt f.hdr.len.toNat - c.e.cap.toNat)
  rw [taken] at found
  obtain ⟨⟨y, r, hy, hChunk, hRecord, hDone, hCount⟩, hMem, hPorts⟩ :=
    Dev.finishes_complete found hw hLevel (x := x.absorb c.e.cap.toNat f) hOp
  refine ⟨t, run, ⟨y, r, (Dev.ctx?_congr left.red _).trans hy, seq ▸ hChunk, seq ▸ hRecord, hDone, hCount⟩, ?_, ?_⟩
  · exact left.mem.trans (hMem.trans ((a.combined_mem ..).trans hands.mem))
  · exact left.ports.trans (hPorts.trans ((a.combined_ports ..).trans hands.ports))

variable (hx : c.chunk? f.hdr.seq = none) (hr : c.record? f.hdr.seq = none)
  (hFmt : formatOk (c.e.arith false) f.hdr = true)
include hx hr hFmt

/-- A first contribution that finds a slot opens its chunk. -/
theorem exec_contributionServed_opens (hSlot : c.chunks.length < c.slots)
    (hMore : portBit f.port ≠ c.membership f.hdr.seq) :
    ∃ t y x, exec (.contributionServed k tc) s = .next t ∧ t.d.ctx? f.hdr.ctx.toNat = some y ∧
      y.chunk? f.hdr.seq = some x ∧ x.st = .gather ∧ x.bits = portBit f.port ∧ x.rh = f.hdr.sub.getLsbD 7 ∧
      x.opened = s.d.now ∧ y.chunks.length = c.chunks.length + 1 ∧ t.d.mem = s.d.mem ∧ t.d.ports = s.d.ports := by
  obtain ⟨a, t, hands, run, left⟩ := exec_contributionServed_atHead hHead hKind
  have passes := hands.passes h
  obtain ⟨c', r, opened, hc', hChunks, hMem, hPorts, hSeq, hRh, hSt, hBits, hAt⟩ :=
    Dev.openChunk_effect passes.ctx k.val f.hdr.seq (f.hdr.sub.getLsbD 7)
  have bits : (r.2.absorb c.e.cap.toNat f).bits = portBit f.port := by
    simp [Chunk.absorb, hBits]
  have more : ¬ ((r.2.absorb c.e.cap.toNat f).bits == c.membership r.2.seq) = true := by
    rw [bits, hSeq, beq_iff_eq]
    exact hMore
  have isOpen : (c'.chunk? (r.2.absorb c.e.cap.toNat f).seq).isSome = true := by
    have found : c'.chunk? r.2.seq = some r.2 :=
      (congrArg (List.find? fun z : Chunk => z.seq == r.2.seq) hChunks).trans (c.chunk?_putChunk r.2)
    exact (congrArg Option.isSome found).trans rfl
  rw [Dev.contribution_new passes hx hr hFmt, if_neg (Nat.not_le.mpr hSlot), opened] at left
  dsimp only at left
  rw [Dev.combine_eq, if_neg more] at left
  have found : (c'.take (r.2.absorb c.e.cap.toNat f) (fmtElems r.2.att.fmt f.hdr.len.toNat - c.e.cap.toNat)).chunk?
      r.2.seq = some (r.2.absorb c.e.cap.toNat f) := c'.chunk?_take ..
  refine ⟨t, _, r.2.absorb c.e.cap.toNat f, run, (Dev.ctx?_congr left.red _).trans (Dev.ctx?_combined hc' ..),
    hSeq ▸ found, hSt, bits, hRh, hAt.trans hands.now, ?_, ?_, ?_⟩
  · exact (Ctx.length_putChunk_of_open isOpen).trans
      ((congrArg List.length hChunks).trans (Ctx.length_putChunk_of_new (hSeq ▸ hx)))
  · exact left.mem.trans ((r.1.combined_mem ..).trans (hMem.trans hands.mem))
  · exact left.ports.trans ((r.1.combined_ports ..).trans (hPorts.trans hands.ports))

/-- A first contribution that finds no slot is refused: its context changes in its counts at most. -/
theorem exec_contributionServed_refused (hFull : c.slots ≤ c.chunks.length) :
    ∃ t n, exec (.contributionServed k tc) s = .next t ∧ t.d.ctx? f.hdr.ctx.toNat = some { c with counts := n } := by
  obtain ⟨a, t, hands, run, left⟩ := exec_contributionServed_atHead hHead hKind
  have passes := hands.passes h
  rw [Dev.contribution_new passes hx hr hFmt, if_pos hFull] at left
  obtain ⟨n, hn⟩ := Dev.ctx?_nackBack passes.ctx f true f.hdr.seq nackWindow (f.hdr.sub.getLsbD 7)
  exact ⟨t, n, run, (Dev.ctx?_congr left.red _).trans hn⟩

end

end Sys2Proof.Machine

open Sys2Proof Sys2Proof.Machine

/-- Settles O54: each contribution by the context that it leaves. -/
theorem contributions : Obligations.Contributions := by
  intro s k tc f c hHead hKind cid seq hc hPart hJob hSt hServing hPlain hOp hLevel hPath hMember hUp now
  have passes : s.d.Passes k.val f c :=
    ⟨hc, hPart, hJob, hSt, hServing, hPlain, hLevel, hPath, hMember, hUp, hHead.noInject⟩
  refine ⟨fun x hx hFmt hDup => exec_contributionServed_dup hHead hKind passes hx hFmt hDup,
    fun x hx hFmt hNew hMore => ?_,
    fun hx hr hFmt hSlot hMore => exec_contributionServed_opens hHead hKind passes hx hr hFmt hSlot hMore,
    fun hx hr hFmt hFull => ?_, fun x hx hFmt hNew _ hLast hRoot hAtt hw => ?_⟩
  · obtain ⟨t, n, run, hy, hMem, hPorts⟩ :=
      exec_contributionServed_combines hHead hKind passes hx hFmt hNew hMore
    obtain ⟨l, taken⟩ := c.take_shape (x.absorb c.e.cap.toNat f) n
    have seq_eq := Ctx.seq_of_chunk? hx
    refine ⟨t, _, run, hy, ?_, by rw [taken], by rw [taken], by rw [taken], hMem, hPorts⟩
    exact seq_eq ▸ c.chunk?_take (x.absorb c.e.cap.toNat f) n
  · obtain ⟨t, n, run, hy⟩ := exec_contributionServed_refused hHead hKind passes hx hr hFmt hFull
    exact ⟨t, _, run, hy, rfl, rfl⟩
  · obtain ⟨t, run, ⟨y, r, hy, hChunk, hRecord, hDone, hCount⟩, hMem, hPorts⟩ :=
      exec_contributionServed_finishes hHead hKind passes hx hFmt hNew hLast hRoot hAtt hw
    exact ⟨t, y, r, run, hy, hChunk, hRecord, hDone, hCount, hMem, hPorts⟩
end

section
/-! PROOF. Frames that Thresh sends: their lookup, their forwarding and their admission leave Thresh's state and its
counts of chunks, weights and stream frames as they were, beside what all such frames leave (R44, R67, R101, R115,
R511). -/

namespace Sys2Proof.Machine

/-- The counts of chunks handed over, of chunks whose slot held their phase already, of stream frames out of order
and of weights that answer a request (R255, R267, R269, R273). -/
def threshCounts : Set Nat := {ctrThr 0x100, ctrThr 0x128, ctrThr 0x140, ctrThr 0x168}

/-- `e` comes from `d` by work on frames: the reduction plane, the board memory, the ports, Thresh's state and the
counts of `threshCounts` are as they were. -/
structure Dev.Sends (d e : Dev) : Prop where
  aside : d.Aside threshCountsᶜ e
  thr : e.thr = d.thr

theorem Dev.Sends.refl (d : Dev) : d.Sends d := ⟨.refl .., rfl⟩

theorem Dev.Sends.trans {a b c : Dev} (h : a.Sends b) (k : b.Sends c) : a.Sends c :=
  ⟨h.aside.trans k.aside, k.thr.trans h.thr⟩

theorem Dev.sends_ite {d e f : Dev} (c : Prop) [Decidable c] (he : d.Sends e) (hf : d.Sends f) :
    d.Sends (if c then e else f) := by
  split
  · exact he
  · exact hf

theorem Dev.sends_ite_fst {α : Type} {d : Dev} {a b : Dev × α} (c : Prop) [Decidable c] (ha : d.Sends a.1)
    (hb : d.Sends b.1) : d.Sends (if c then a else b).1 := by
  split
  · exact ha
  · exact hb

theorem Dev.sends_bumpBy (d : Dev) {a : Nat} (n : Nat) (h : a ∉ threshCounts) : d.Sends (d.bumpBy a n) :=
  ⟨d.aside_bumpBy n h, rfl⟩

theorem Dev.sends_event (d : Dev) (e : Ev) : d.Sends (d.event e) := ⟨d.aside_event .., d.event_thr e⟩

/-! ### Counters -/

theorem ctrFwd_not_mem_threshCounts {k o : Nat} (hk : k < 16) (h : o < 0x200) : ctrFwd k o ∉ threshCounts := by
  simp only [threshCounts, Set.mem_insert_iff, Set.mem_singleton_iff, ctrFwd, baseFwd, ctrThr, baseThr]
  omega

/-- The count of frames that a port's features discard (R365). -/
theorem ctrPort_not_mem_threshCounts (p : Nat) : ctrPort p 0x158 ∉ threshCounts := by
  simp only [threshCounts, Set.mem_insert_iff, Set.mem_singleton_iff, ctrPort, basePort, ctrThr, baseThr]
  omega

theorem ctrStore_not_mem_threshCounts {o : Nat} (h : o < 0x200) : ctrStore o ∉ threshCounts := by
  simp only [threshCounts, Set.mem_insert_iff, Set.mem_singleton_iff, ctrStore, baseStore, ctrThr, baseThr]
  omega

theorem ctrCnt_not_mem_threshCounts (o : Nat) : ctrCnt o ∉ threshCounts := by
  simp only [threshCounts, Set.mem_insert_iff, Set.mem_singleton_iff, ctrCnt, baseCnt, ctrThr, baseThr]
  omega

/-! ### Reads of the tables and the lookup (R67 to R82) -/

theorem Dev.sends_hit (d : Dev) (k : Nat) (key : BitVec 48) : d.Sends (d.hit k key) := ⟨d.aside_hit .., rfl⟩

theorem Dev.sends_spray (d : Dev) (k : Nat) (b : Bank) (n : Nat) (h : Header) : d.Sends (d.spray k b n h).1 := by
  refine ⟨d.aside_spray .., ?_⟩
  unfold Dev.spray
  dsimp only
  split
  · rfl
  · split
    · rfl
    · rfl

section
variable {k : Nat} (hk : k < 16)
include hk

theorem Dev.sends_tableEcc (d : Dev) (t : TableId) (ix : Nat) : d.Sends (d.tableEcc k t ix) :=
  ((d.sends_bumpBy 1 (ctrFwd_not_mem_threshCounts hk (by decide))).trans (Dev.sends_event ..)).trans
    ⟨Dev.aside_faultRec .., Dev.faultRec_thr ..⟩

theorem Dev.sends_tableRead (d : Dev) (num : Bool) (t : TableId) (ix : Nat) :
    d.Sends (d.tableRead k num t ix).1 := by
  have kept : ∀ (f : Fwd) (g : FaultSt), d.Sends { d with fwd := f, faults := g } := fun _ _ =>
    ⟨{ Dev.Aside.refl _ d with }, rfl⟩
  unfold Dev.tableRead
  dsimp only
  split
  · split_ifs
    · exact (kept _ _).trans (Dev.sends_tableEcc hk ..)
    · exact (kept _ _).trans (Dev.sends_tableEcc hk ..)
    · exact (kept _ _).trans (Dev.sends_bumpBy _ 1 (ctrFwd_not_mem_threshCounts hk (by decide)))
  · exact Dev.sends_ite_fst _ (d.sends_tableEcc hk ..) (.refl d)

theorem Dev.sends_emLookup (d : Dev) (b : Bank) (key : BitVec 48) : d.Sends (d.emLookup k b key).1 := by
  unfold Dev.emLookup
  split
  · exact .refl d
  · exact d.sends_tableRead hk ..

theorem Dev.sends_followRoute (d : Dev) (b : Bank) (h : Header) (arr : Option Nat) (r : Route) :
    d.Sends (d.followRoute k b h arr r).1 := by
  unfold Dev.followRoute
  split
  · exact .refl d
  · have read : d.Sends (d.readSet k b (r.target.toNat % 1024)).1 := d.sends_tableRead hk ..
    dsimp only
    split
    next set => rwa [set] at read
    next d0 _ set =>
      rw [set] at read
      have sprayed := d0.sends_spray k b (r.target.toNat % 1024) h
      split
      · split
        next hs => rw [hs] at sprayed; exact read.trans sprayed
        next hs => rw [hs] at sprayed; exact read.trans sprayed
      · split
        · exact read
        · exact read
  · exact .refl d
  · exact .refl d

theorem Dev.sends_follow (d : Dev) (b : Bank) (h : Header) (arr : Option Nat) (r : Route) :
    d.Sends (d.follow k b h arr r).1 := by
  have read : d.Sends (d.routeLookup k b r.target.toNat).1 := d.sends_tableRead hk ..
  exact Dev.sends_ite_fst _ (Dev.sends_ite_fst _ read (read.trans (Dev.sends_followRoute hk ..)))
    (d.sends_followRoute hk ..)

theorem Dev.sends_lookupKey (d : Dev) (b : Bank) (h : Header) (arr : Option Nat) (key : BitVec 48)
    (leaf : Option Nat) : d.Sends (d.lookupKey k b h arr key leaf).1 := by
  have read := d.sends_emLookup hk b key
  unfold Dev.lookupKey
  split
  next d1 e found =>
    rw [found] at read
    exact (read.trans (d1.sends_hit ..)).trans (Dev.sends_follow hk ..)
  next d1 found =>
    rw [found] at read
    split
    · exact read
    · exact (read.trans (d1.sends_tableRead hk ..)).trans (Dev.sends_followRoute hk ..)

theorem Dev.sends_groupPorts (d : Dev) (b : Bank) (h : Header) (arr : Option Nat) :
    d.Sends (d.groupPorts k b h arr).1 := by
  refine (d.sends_tableRead hk b.num .group (addrIndex h.dst % 65536)).trans ?_
  unfold Dev.groupPorts
  dsimp only
  generalize d.tableRead k b.num .group (addrIndex h.dst % 65536) = r
  split
  · exact .refl _
  next e _ =>
    have read : r.1.Sends (r.1.readSet k b e.upSet.toNat).1 := Dev.sends_tableRead hk ..
    refine Dev.sends_ite_fst _ (.refl _) (Dev.sends_ite_fst _ ?_ (.refl _))
    split
    next set => rwa [set] at read
    next d1 _ set =>
      rw [set] at read
      split
      · exact Dev.sends_ite_fst _ read read
      · exact read.trans (d1.sends_bumpBy 1 (ctrFwd_not_mem_threshCounts hk (by decide)))

theorem Dev.sends_lookup (d : Dev) (b : Bank) (h : Header) (arr : Option Nat) : d.Sends (d.lookup k b h arr).1 := by
  unfold Dev.lookup
  refine Dev.sends_ite_fst _ (.refl d) ?_
  split
  · exact d.sends_lookupKey hk ..
  · split
    · exact .refl d
    · exact d.sends_lookupKey hk ..
  · exact d.sends_groupPorts hk ..
  · split
    · exact .refl d
    · exact Dev.sends_ite_fst _ (.refl d) (.refl d)
  · exact .refl d

end

/-! ### Samples and copies (R115, R122 to R126, R511, R512) -/

theorem Dev.sends_gleanAdd (d : Dev) (n : Nat) (b : GleanBody) : d.Sends (d.gleanAdd n b) := by
  unfold Dev.gleanAdd
  refine Dev.sends_ite _ (.refl d) ?_
  split
  · exact d.sends_bumpBy 1 (ctrCnt_not_mem_threshCounts _)
  · exact ⟨{ Dev.Aside.refl _ d with }, rfl⟩

theorem Dev.sends_gleanFrame (d : Dev) (n : Nat) (c : Copy) (outcome : Nat) (cut ce : Bool) :
    d.Sends (d.gleanFrame n c outcome cut ce) := by
  unfold Dev.gleanFrame
  refine Dev.sends_ite _ ?_ (.refl d)
  split
  · exact .refl d
  · exact d.sends_gleanAdd ..

theorem Dev.sends_gleanStart (d : Dev) (h : Header) (cls sampler : Nat) (arr : Option Nat) (eg : Option Dest) :
    d.Sends (d.gleanStart h cls sampler arr eg).1 := by
  unfold Dev.gleanStart
  exact Dev.sends_ite_fst _ ⟨d.aside_gleanCandidate .., rfl⟩ (.refl d)

theorem Dev.sends_store (d : Dev) (s : Store) : d.Sends { d with store := s } := ⟨d.aside_store .., rfl⟩

theorem Dev.sends_refuseCopy (d : Dev) (m : Making) (t : Dest) (cls : Nat) (mirror desc : Bool) :
    d.Sends (d.refuseCopy m t cls mirror desc) := by
  have offset : (if desc then 0x108 else 0x100) < 0x200 := by split <;> decide
  unfold Dev.refuseCopy
  exact Dev.sends_ite _ (d.sends_bumpBy 1 (ctrStore_not_mem_threshCounts (by decide)))
    ((d.sends_bumpBy 1 (ctrStore_not_mem_threshCounts offset)).trans (Dev.sends_store ..))

theorem Dev.sends_refused (d : Dev) (m : Making) (t : Dest) (cls : Nat) (mirror desc : Bool) :
    d.Sends (d.refused m t cls mirror desc).1 := by
  have counted := d.sends_refuseCopy m t cls mirror desc
  exact Dev.sends_ite_fst _ (counted.trans (Dev.sends_gleanAdd ..)) counted

theorem Dev.sends_placeCopy (d : Dev) (m : Making) (c : Copy) : d.Sends (d.placeCopy m c) := by
  have charged : ∀ (e : Dev) (l cls len : Nat), e.Sends (e.chargeShapers l cls len) := fun e l cls len => by
    refine ⟨e.aside_chargeShapers .., ?_⟩
    obtain ⟨_, h⟩ := e.chargeShapers_eq l cls len
    rw [h]
  unfold Dev.placeCopy
  dsimp only
  split
  · exact Dev.sends_ite _ (((d.sends_store _).trans (charged ..)).trans (Dev.sends_gleanFrame ..)) (d.sends_store _)
  · exact d.sends_store _

theorem Dev.sends_makeCopy (d : Dev) (m : Making) (t : Dest) (cls : Nat) (mirror : Bool) :
    d.Sends (d.makeCopy m t cls mirror).1 := by
  unfold Dev.makeCopy
  refine Dev.sends_ite_fst _ (d.sends_refused ..) (Dev.sends_ite_fst _ ?_ ?_)
  · split
    · exact d.sends_refused ..
    · exact (d.sends_store _).trans (Dev.sends_placeCopy ..)
  · split
    · exact d.sends_refused ..
    · exact (d.sends_store _).trans (Dev.sends_placeCopy ..)

theorem Dev.sends_makeCopies (d : Dev) (m : Making) (cls : Nat) (l : List Dest) :
    d.Sends (d.makeCopies m cls l).1 := by
  induction l generalizing d m with
  | nil => exact .refl d
  | cons t r ih => exact (d.sends_makeCopy ..).trans (ih ..)

theorem Dev.sends_makeMirrors (d : Dev) (m : Making) (b : Bank) (l : List MirrorSess) :
    d.Sends (d.makeMirrors m b l).1 := by
  induction l generalizing d m with
  | nil => exact .refl d
  | cons s r ih =>
    refine Dev.sends_ite_fst _ ?_ (Dev.sends_ite_fst _ ?_ ?_)
    · exact (d.sends_bumpBy 1 (ctrStore_not_mem_threshCounts (by decide))).trans (ih ..)
    · exact (d.sends_bumpBy 1 (ctrPort_not_mem_threshCounts _)).trans (ih ..)
    · exact (d.sends_makeCopy ..).trans (ih ..)

theorem Dev.sends_admitCopies (d : Dev) (b : Bank) (f : Frame) (dests : List Dest) (cls : Nat) (sample cut : Bool) :
    d.Sends (d.admitCopies b f dests cls sample cut).1 :=
  ((d.sends_makeCopies ..).trans (Dev.sends_bumpBy _ _ (ctrStore_not_mem_threshCounts (by decide)))).trans
    (Dev.sends_makeMirrors ..)

/-! ### Forwarding of built frames (R44, R101, R365) -/

theorem Dev.sends_featureDrop (d : Dev) (kind : Nat) (l : List Dest) : d.Sends (d.featureDrop kind l).1 := by
  unfold Dev.featureDrop
  induction l with
  | nil => exact .refl d
  | cons t r ih =>
    rw [List.foldr_cons]
    split
    · exact Dev.sends_ite_fst _ ih (ih.trans (Dev.sends_bumpBy _ 1 (ctrPort_not_mem_threshCounts _)))
    · exact ih

theorem Dev.sends_forward (d : Dev) {ck : Nat} (hk : ck < 16) (b : Bank) {f : Frame} (hf : f.isBuilt = true)
    (cls : Nat) {lk : Lk} (h : lk.counted) (cut looked : Bool) :
    d.Sends (d.forward ck b f cls lk false cut looked).1 := by
  have noted : ∀ (e : Dev) (c : Bool) (eg o : Nat), e.Sends (if c then e.gleanNow f eg o else e) :=
    fun e c eg o => Dev.sends_ite _ (e.sends_gleanAdd ..) (.refl e)
  have started := Dev.sends_ite_fst (a := d.gleanStart f.rx cls f.sampler (f.arr.map Prod.fst) lk.dests.head?)
    (looked = true) (d.sends_gleanStart ..) (.refl (d, false).1)
  unfold Dev.forward
  dsimp only
  generalize (if looked then _ else (d, false)) = s at started ⊢
  refine started.trans ?_
  simp only [Bool.false_eq_true, if_false, Bool.not_true, Dev.postPassing_built _ hf]
  cases lk
  case miss off => exact (Dev.sends_bumpBy _ 1 (ctrFwd_not_mem_threshCounts hk h)).trans (noted ..)
  case consumed => exact noted ..
  all_goals
    refine (Dev.sends_featureDrop _ f.hdr.kind.toNat _).trans (Dev.sends_ite_fst _ ?_ (Dev.sends_admitCopies ..))
    exact (noted ..).trans (Dev.sends_admitCopies ..)

/-- A frame that the device builds, looked up in the copy of one of the sixteen pipelines. -/
theorem Dev.sends_build (d : Dev) {k : Nat} (hk : k < 16) (h : Header) (b : List Byte) : d.Sends (d.build k h b) := by
  have read : d.Sends (d.partView k d.fwd.cur (d.builtFrame k h b).hdr.part.toNat).1 := d.sends_tableRead hk ..
  unfold Dev.build
  dsimp only
  refine (read.trans (Dev.sends_lookup hk _ (d.partView k d.fwd.cur (d.builtFrame k h b).hdr.part.toNat).2
    (d.builtFrame k h b).hdr none)).trans ?_
  split
  · exact ⟨{ Dev.Aside.refl _ _ with }, rfl⟩
  · exact Dev.sends_forward _ hk _ (d.isBuilt_builtFrame ..) _ (Dev.looksUp_lookup ..).counted _ _

end Sys2Proof.Machine
end

section
/-! PROOF. Sparse tables: an entry that is found is listed, an entry written twice, and a filter that keeps the entry
found. -/

namespace Sys2Proof

theorem Tab.mem_of_find {α : Type} {t : Tab α} {n : Nat} {v : α} (h : Tab.find t n = some v) : (n, v) ∈ t := by
  induction t with
  | nil => simp at h
  | cons e r ih =>
    obtain ⟨k, w⟩ := e
    rw [Tab.find_cons] at h
    split at h
    next hk =>
      obtain rfl := Option.some.inj h
      exact hk ▸ List.mem_cons_self
    next => exact List.mem_cons_of_mem _ (ih h)

theorem Tab.put_put {α : Type} (t : Tab α) (n : Nat) (v w : α) : Tab.put (Tab.put t n v) n w = Tab.put t n w := by
  induction t with
  | nil => simp [Tab.put]
  | cons e r ih =>
    obtain ⟨k, u⟩ := e
    simp only [Tab.put]
    split_ifs with below same
    · simp [Tab.put]
    · simp [Tab.put]
    · simp [Tab.put, below, same, ih]

/-- A filter that keeps the entry of a key leaves what the table reads there. -/
theorem Tab.find_filter {α : Type} {t : Tab α} {n : Nat} {v : α} (p : Nat × α → Bool) (h : Tab.find t n = some v)
    (hp : p (n, v) = true) : Tab.find (t.filter p) n = some v := by
  induction t with
  | nil => simp at h
  | cons e r ih =>
    obtain ⟨k, w⟩ := e
    rw [Tab.find_cons] at h
    split at h
    next hk =>
      obtain rfl := Option.some.inj h
      rw [List.filter_cons_of_pos (hk ▸ hp), Tab.find_cons, if_pos hk]
    next hk =>
      rw [List.filter_cons]
      split
      · rw [Tab.find_cons, if_neg hk, ih h]
      · exact ih h

/-- An entry that is changed leaves every other key's. -/
theorem Tab.forall_adj {α : Type} {P : α → Prop} {t : Tab α} (h : ∀ e ∈ t, P e.2) (n : Nat) {g : α → α}
    (hg : ∀ v, P v → P (g v)) : ∀ e ∈ Tab.adj t n g, P e.2 := by
  unfold Tab.adj
  split
  · exact h
  next v found =>
    intro e he
    obtain rfl | he := Tab.mem_put t n (g v) e he
    · exact hg v (h _ (Tab.mem_of_find found))
    · exact h e he

/-- A table in which some entries are rewritten reads as what is rewritten. -/
theorem Tab.find_map_if {α : Type} (t : Tab α) (p : α → Bool) (g : α → α) (n : Nat) :
    Tab.find (t.map fun e => if p e.2 then (e.1, g e.2) else e) n =
      (Tab.find t n).map fun v => if p v then g v else v := by
  rw [← Tab.find_map]
  refine congrArg (fun l => Tab.find l n) (List.map_congr_left fun e _ => ?_)
  split
  · rfl
  · rfl

end Sys2Proof
end

section
/-! PROOF. The device's own writes of board memory: the memory that they leave hangs on the memory alone, and they
change nothing beside it but what is sent (R290, R291); chunk maps, their entries and the slots that they lose (R252,
R303). -/

namespace Sys2Proof.Machine

theorem Dev.snoop_mem (d : Dev) (line : Nat) :
    (d.snoop line).mem = { d.mem with snoop := d.mem.snoop.filter fun x => x != line } := by
  unfold Dev.snoop
  dsimp only
  split
  · rfl
  · rfl

theorem Dev.writeLine_mem_congr {d e : Dev} (h : d.mem = e.mem) (a : Nat) (b : List Byte) :
    (d.writeLine a b).mem = (e.writeLine a b).mem := by
  unfold Dev.writeLine
  dsimp only
  rw [h]
  split
  · simp only [Dev.waitWrite, Dev.snoop_mem, h]
  · split
    · simp only [Dev.waitWrite, h]
    · simp only [Dev.applyWrite, h]

theorem Dev.writeLines_mem_congr (n : Nat) {d e : Dev} (h : d.mem = e.mem) (a : Nat) (b : List Byte) :
    (Dev.writeLines Dev.writeLine n d a b).mem = (Dev.writeLines Dev.writeLine n e a b).mem := by
  induction n generalizing d e a b with
  | zero => exact h
  | succ n ih =>
    unfold Dev.writeLines
    dsimp only
    split
    · split
      · exact h
      · exact Dev.writeLine_mem_congr h ..
    · exact ih (Dev.writeLine_mem_congr h ..) ..

theorem Dev.devWrite_mem_congr {d e : Dev} (h : d.mem = e.mem) (a : Nat) (b : List Byte) :
    (d.devWrite a b).mem = (e.devWrite a b).mem := by
  have near : d.inNear a b.length = e.inNear a b.length := by rw [Dev.inNear, Dev.nearSize, h]; rfl
  have gran : d.inGran a b.length = e.inGran a b.length := by rw [Dev.inGran, Dev.granSize, h]; rfl
  unfold Dev.devWrite
  rw [near, gran]
  split
  · exact Dev.writeLines_mem_congr _ h ..
  · exact h

theorem Dev.writeLine_shape (d : Dev) (a : Nat) (b : List Byte) :
    ∃ m o, d.writeLine a b = { d with mem := m, out := o } := by
  unfold Dev.writeLine
  dsimp only
  split
  · unfold Dev.snoop
    dsimp only
    split
    · exact ⟨_, _, rfl⟩
    · exact ⟨_, _, rfl⟩
  · split
    · exact ⟨_, _, rfl⟩
    · exact ⟨_, _, rfl⟩

theorem Dev.writeLines_shape (n : Nat) (d : Dev) (a : Nat) (b : List Byte) :
    ∃ m o, Dev.writeLines Dev.writeLine n d a b = { d with mem := m, out := o } := by
  induction n generalizing d a b with
  | zero => exact ⟨_, _, rfl⟩
  | succ n ih =>
    unfold Dev.writeLines
    dsimp only
    split
    · split
      · exact ⟨_, _, rfl⟩
      · exact d.writeLine_shape ..
    · obtain ⟨_, _, line⟩ := d.writeLine_shape a (b.take (64 - a % 64))
      obtain ⟨m, o, rest⟩ := ih (d.writeLine a (b.take (64 - a % 64))) (a + (64 - a % 64)) (b.drop (64 - a % 64))
      exact ⟨m, o, by rw [rest, line]⟩

theorem Dev.devWrite_shape (d : Dev) (a : Nat) (b : List Byte) :
    ∃ m o, d.devWrite a b = { d with mem := m, out := o } := by
  unfold Dev.devWrite
  split
  · exact Dev.writeLines_shape ..
  · exact ⟨_, _, rfl⟩

theorem Dev.setMapEnt_shape (d : Dev) (s : ThrShard) (j : Nat) (m : MapEnt) :
    ∃ m' o, d.setMapEnt s j m = { d with mem := m', out := o } := d.devWrite_shape ..

theorem Dev.mapEnt_congr {d e : Dev} (h : d.mem = e.mem) (s : ThrShard) (j : Nat) : d.mapEnt s j = e.mapEnt s j := by
  simp only [Dev.mapEnt, Dev.devRead, Dev.memView, h]

theorem Dev.setMapEnt_mem_congr {d e : Dev} (h : d.mem = e.mem) (s : ThrShard) (j : Nat) (m : MapEnt) :
    (d.setMapEnt s j m).mem = (e.setMapEnt s j m).mem := Dev.devWrite_mem_congr h ..

/-! ### What a chunk map's build and its lost slots change (R252, R303) -/

theorem Dev.buildMap_shape (d : Dev) (s : ThrShard) (e : CtxEntry) (phase : Word) :
    ∃ m o, d.buildMap s e phase = { d with mem := m, out := o } := by
  refine List.foldlRecOn (motive := fun a : Dev × Nat => ∃ m o, a.1 = { d with mem := m, out := o }) _ _
    ⟨_, _, rfl⟩ fun a ⟨m, o, ha⟩ j _ => ?_
  obtain ⟨m', o', set⟩ := a.1.setMapEnt_shape s j _
  exact ⟨m', o', set.trans (by rw [ha])⟩

/-- The slots of a built map from `from_` on, marked LOST one after the other, and how many are new. -/
def Dev.markLost (d : Dev) (s : ThrShard) (from_ : Nat) : Dev × Nat :=
  (List.range s.cfg.cps.toNat).foldl (fun (a : Dev × Nat) j =>
    let m := d.mapEnt s j
    if m.valid && decide (from_ ≤ m.slot) then
      (a.1.setMapEnt s j { m with lost := true }, if m.lost then a.2 else a.2 + 1)
    else a) (d, 0)

theorem Dev.loseSlots_built {s : ThrShard} (h : s.ready = true) (d : Dev) (n from_ : Nat) :
    d.loseSlots n s from_ = (d.markLost s from_).1.modShard n fun y =>
      { y with lost := y.lost + (d.markLost s from_).2 } := by
  unfold Dev.loseSlots
  rw [h]
  rfl

theorem Dev.markLost_shape (d : Dev) (s : ThrShard) (from_ : Nat) :
    ∃ m o, (d.markLost s from_).1 = { d with mem := m, out := o } := by
  refine List.foldlRecOn (motive := fun a : Dev × Nat => ∃ m o, a.1 = { d with mem := m, out := o }) _ _
    ⟨_, _, rfl⟩ fun a ha j _ => ?_
  obtain ⟨m, o, h⟩ := ha
  dsimp only
  split
  · obtain ⟨m', o', set⟩ := a.1.setMapEnt_shape s j _
    exact ⟨m', o', set.trans (by rw [h])⟩
  · exact ⟨m, o, h⟩

theorem Dev.markLost_mem_congr {d e : Dev} (h : d.mem = e.mem) (s : ThrShard) (from_ : Nat) :
    (d.markLost s from_).1.mem = (e.markLost s from_).1.mem := by
  refine List.foldl_rel (r := fun a b : Dev × Nat => a.1.mem = b.1.mem) h fun j _ a b hab => ?_
  dsimp only
  rw [Dev.mapEnt_congr h]
  split
  · exact Dev.setMapEnt_mem_congr hab ..
  · exact hab

end Sys2Proof.Machine
end

section
/-! PROOF. The work that follows every Thresh event: prefetch, arrivals, the ends of phases and of shards, the request
of a rebuild, and the weights that leave (R255, R256, R258, R259, R268, R275, R278, R279). -/

namespace Sys2Proof.Machine

/-! ### Jobs -/

theorem Dev.job?_setJob_same (d : Dev) (j : Nat) (x : ThrJob) : (d.setJob j x).job? j = some x :=
  Tab.find_put_same ..

theorem Dev.job?_setJob_other (d : Dev) {j i : Nat} (x : ThrJob) (h : i ≠ j) : (d.setJob j x).job? i = d.job? i :=
  Tab.find_put_other _ _ h

theorem Dev.setJob_setJob (d : Dev) (j : Nat) (x y : ThrJob) : (d.setJob j x).setJob j y = d.setJob j y :=
  congrArg (fun t : Tab ThrJob => { d with thr := { d.thr with jobs := t } }) (Tab.put_put ..)

theorem Dev.job?_modJob_same {d : Dev} {j : Nat} {x : ThrJob} (h : d.job? j = some x) (g : ThrJob → ThrJob) :
    (d.modJob j g).job? j = some (g x) :=
  (Tab.find_adj_same ..).trans (congrArg (Option.map g) h)

theorem Dev.job?_congr {d e : Dev} (h : d.thr = e.thr) (j : Nat) : d.job? j = e.job? j :=
  congrArg (fun t : Thr => Tab.find t.jobs j) h

/-- No job has a released phase whose updates run, so that a tidying ends none (R277, R278). -/
def Dev.Idle (d : Dev) : Prop := ∀ e ∈ d.thr.jobs, e.2.runs = []

theorem Dev.Idle.runs {d : Dev} (h : d.Idle) {j : Nat} {x : ThrJob} (hx : d.job? j = some x) : x.runs = [] :=
  h _ (Tab.mem_of_find hx)

theorem Dev.Idle.setJob {d : Dev} (h : d.Idle) {j : Nat} {y : ThrJob} (hy : y.runs = []) : (d.setJob j y).Idle := by
  intro e he
  obtain rfl | he := Tab.mem_put d.thr.jobs j y e he
  · exact hy
  · exact h e he

theorem Dev.Idle.modJob {d : Dev} (h : d.Idle) (j : Nat) {g : ThrJob → ThrJob} (hg : ∀ x, (g x).runs = x.runs) :
    (d.modJob j g).Idle :=
  Tab.forall_adj (P := fun x : ThrJob => x.runs = []) h j fun x hx => (hg x).trans hx

theorem Dev.Idle.congr {d e : Dev} (h : d.Idle) (he : e.thr.jobs = d.thr.jobs) : e.Idle := fun x hx => h x (he ▸ hx)

/-- A job without what its arrivals, the ends of its phases and the sending of its stream set. -/
def ThrJob.core (x : ThrJob) : ThrJob :=
  { x with
    arrivalsSent := false, arrTwo := false, arrNorm := 0, arrVote := 0, runs := [], txNext := 0, log := [],
    lastAckAdv := 0, lastRx := 0, rxSinceAck := 0, reqSent := false }

/-- The job still has a REBUILD_REQ to send (R275). -/
def ThrJob.OwesRequest (x : ThrJob) : Prop := x.own = .rebuild ∧ x.reqSent = false

/-- `y` is what job `x` becomes by the work that follows an event: but for a REBUILD_REQ nothing joins its stream. -/
structure ThrJob.Follows (x y : ThrJob) : Prop where
  core : y.core = x.core
  runs : x.runs = [] → y.runs = []
  stream : ¬ x.OwesRequest → y.txNext = x.txNext ∧ y.log = x.log ∧ y.lastRx = x.lastRx ∧ y.reqSent = x.reqSent

theorem ThrJob.Follows.refl (x : ThrJob) : x.Follows x := ⟨rfl, id, fun _ => ⟨rfl, rfl, rfl, rfl⟩⟩

theorem ThrJob.Follows.own {x y : ThrJob} (h : x.Follows y) : y.own = x.own :=
  (congrArg (fun z : ThrJob => z.own) h.core :)

theorem ThrJob.Follows.trans {x y z : ThrJob} (h : x.Follows y) (k : y.Follows z) : x.Follows z where
  core := k.core.trans h.core
  runs hx := k.runs (h.runs hx)
  stream hx := by
    obtain ⟨hNext, hLog, hRx, hReq⟩ := h.stream hx
    obtain ⟨kNext, kLog, kRx, kReq⟩ := k.stream fun ⟨own, req⟩ => hx ⟨h.own.symm.trans own, hReq.symm.trans req⟩
    exact ⟨kNext.trans hNext, kLog.trans hLog, kRx.trans hRx, kReq.trans hReq⟩

/-! ### Work of Thresh -/

/-- `e` comes from `d` by work of Thresh on its jobs, its parked chunks and its stream: it leaves the reduction plane,
the ports and the counts of `threshCounts` alone, and the board memory too while no phase's updates run. -/
structure Dev.Works (d e : Dev) : Prop where
  red : e.red = d.red
  ports : e.ports = d.ports
  ctr : ∀ o ∈ threshCounts, e.ctr o = d.ctr o
  idle : d.Idle → e.Idle
  mem : d.Idle → e.mem = d.mem

theorem Dev.Works.trans {a b c : Dev} (h : a.Works b) (k : b.Works c) : a.Works c :=
  ⟨k.red.trans h.red, k.ports.trans h.ports, fun o ho => (k.ctr o ho).trans (h.ctr o ho), fun i => k.idle (h.idle i),
    fun i => (k.mem (h.idle i)).trans (h.mem i)⟩

theorem Dev.works_setJob (d : Dev) (j : Nat) {y : ThrJob} (hy : d.Idle → y.runs = []) : d.Works (d.setJob j y) :=
  ⟨rfl, rfl, fun _ _ => rfl, fun i => i.setJob (hy i), fun _ => rfl⟩

/-- `e` comes from `d` by work of Thresh that follows an event: it leaves the posted releases, the parameter blocks and
what the phases of its jobs rest on alone, and no shard goes but a draining one. -/
structure Dev.Tends (d e : Dev) : Prop extends d.Works e where
  posts : e.thr.posts = d.thr.posts
  params : e.thr.params = d.thr.params
  shards : d.Idle → ∀ n y, Tab.find d.thr.shards n = some y → y.draining = false → Tab.find e.thr.shards n = some y
  jobs : ∀ j x, d.job? j = some x → ∃ y, e.job? j = some y ∧ x.Follows y

theorem Dev.Tends.trans {a b c : Dev} (h : a.Tends b) (k : b.Tends c) : a.Tends c where
  toWorks := h.toWorks.trans k.toWorks
  posts := k.posts.trans h.posts
  params := k.params.trans h.params
  shards i n y hy hDrain := k.shards (h.idle i) n y (h.shards i n y hy hDrain) hDrain
  jobs j x hx := by
    obtain ⟨y, hy, follows⟩ := h.jobs j x hx
    obtain ⟨z, hz, more⟩ := k.jobs j y hy
    exact ⟨z, hz, follows.trans more⟩

theorem Dev.Sends.tends {d e : Dev} (h : d.Sends e) : d.Tends e where
  red := h.aside.red
  ports := h.aside.ports
  ctr o ho := h.aside.ctr o fun out => out ho
  idle i := i.congr (congrArg Thr.jobs h.thr)
  mem _ := h.aside.mem
  posts := congrArg Thr.posts h.thr
  params := congrArg Thr.params h.thr
  shards _ n _ hy _ := (congrArg (fun t : Thr => Tab.find t.shards n) h.thr).trans hy
  jobs j x hx := ⟨x, (Dev.job?_congr h.thr j).trans hx, .refl x⟩

theorem Dev.Tends.refl (d : Dev) : d.Tends d := (Dev.Sends.refl d).tends

theorem Dev.tends_ite {d e f : Dev} (c : Prop) [Decidable c] (he : d.Tends e) (hf : d.Tends f) :
    d.Tends (if c then e else f) := by
  split
  · exact he
  · exact hf

theorem Dev.tends_bump (d : Dev) {a : Nat} (h : a ∉ threshCounts) : d.Tends (d.bump a) := (d.sends_bumpBy 1 h).tends

theorem Dev.tends_event (d : Dev) (e : Ev) : d.Tends (d.event e) := (d.sends_event e).tends

/-- A change of the parked chunks alone. -/
theorem Dev.tends_park (d : Dev) (l : List Parked) : d.Tends { d with thr := { d.thr with park := l } } where
  red := rfl
  ports := rfl
  ctr _ _ := rfl
  idle := id
  mem _ := rfl
  posts := rfl
  params := rfl
  shards _ _ _ hy _ := hy
  jobs _ x hx := ⟨x, hx, .refl x⟩

/-- A job that is set to what follows it. -/
theorem Dev.tends_setJob {d : Dev} {j : Nat} {x y : ThrJob} (hx : d.job? j = some x) (h : x.Follows y) :
    d.Tends (d.setJob j y) where
  toWorks := d.works_setJob j fun i => h.runs (i.runs hx)
  posts := rfl
  params := rfl
  shards _ _ _ hy _ := hy
  jobs i z hz := by
    by_cases hi : i = j
    · subst hi
      obtain rfl := Option.some.inj (hx.symm.trans hz)
      exact ⟨y, d.job?_setJob_same .., h⟩
    · exact ⟨z, (d.job?_setJob_other y hi).trans hz, .refl z⟩

theorem Dev.tends_foldl {α : Type} (l : List α) (g : Dev → α → Dev) (h : ∀ (d : Dev) a, d.Tends (g d a)) (d : Dev) :
    d.Tends (l.foldl g d) :=
  List.foldlRecOn (motive := fun e => d.Tends e) l g (.refl d) fun e he a _ => he.trans (h e a)

/-! ### The counts that the work takes -/

theorem ctrThr_not_mem_threshCounts {o : Nat} (h : o ∉ [0x100, 0x128, 0x140, 0x168]) : ctrThr o ∉ threshCounts := by
  simp only [List.mem_cons, List.not_mem_nil, or_false, not_or] at h
  simp only [threshCounts, Set.mem_insert_iff, Set.mem_singleton_iff, ctrThr, baseThr]
  omega

/-! ### Arrivals (R258) -/

theorem Dev.sends_sendArrivals (d : Dev) (j : Nat) (x : ThrJob) : d.Sends (d.sendArrivals j x) := by
  have vote : ∀ (e : Dev) (c : Bool) (h : Header), e.Sends (if c then e.build 0 h [] else e) := fun e c h =>
    Dev.sends_ite _ (e.sends_build (by decide) ..) (.refl e)
  exact (vote ..).trans (vote ..)

theorem Dev.tends_arrive (d : Dev) (j : Nat) : d.Tends (d.arrive j) := by
  unfold Dev.arrive
  split
  · exact .refl d
  next x hx =>
    refine (Dev.tends_setJob hx ?_).trans (Dev.sends_sendArrivals ..).tends
    exact ⟨rfl, id, fun _ => ⟨rfl, rfl, rfl, rfl⟩⟩

theorem Dev.tends_maybeArrive (d : Dev) (j : Nat) : d.Tends (d.maybeArrive j) := by
  unfold Dev.maybeArrive
  split
  · exact .refl d
  · exact Dev.tends_ite _ (.refl d) (d.tends_arrive j)

/-! ### The mirror stream (R270 to R273) -/

theorem Dev.sends_sendMirror (d : Dev) (j : Nat) (f : MFrame) : d.Sends (d.sendMirror j f) := by
  unfold Dev.sendMirror
  split
  · exact (d.sends_build (by decide) ..).trans
      (Dev.sends_bumpBy _ 1 (ctrThr_not_mem_threshCounts (by decide)))
  · exact .refl d

/-- The frame that a job sends next on its stream. -/
def ThrJob.frame (x : ThrJob) (sub : Byte) (ksf : Nat) (payload : List Byte) : MFrame :=
  { seq := x.txNext, sub := sub, ksf := BitVec.ofNat 64 ksf, payload := payload }

/-- The job once a frame of its stream is in its log. -/
def ThrJob.logged (x : ThrJob) (f : MFrame) (now : Nat) : ThrJob :=
  { x with
    txNext := x.txNext + 1, log := x.log ++ [f], lastAckAdv := if x.log.isEmpty then now else x.lastAckAdv }

theorem Dev.mirror_eq {d : Dev} {j : Nat} {x : ThrJob} (h : d.job? j = some x) (sub : Byte) (ksf : Nat)
    (b : List Byte) : d.mirror j sub ksf b =
      (d.setJob j (x.logged (x.frame sub ksf b) d.now)).sendMirror j (x.frame sub ksf b) := by
  unfold Dev.mirror
  rw [h]
  rfl

theorem Dev.works_mirror (d : Dev) (j : Nat) (sub : Byte) (ksf : Nat) (b : List Byte) :
    d.Works (d.mirror j sub ksf b) := by
  cases h : d.job? j with
  | none =>
    unfold Dev.mirror
    rw [h]
    exact (Dev.Tends.refl d).toWorks
  | some x =>
    rw [Dev.mirror_eq h]
    have logged := d.works_setJob j (y := x.logged (x.frame sub ksf b) d.now) fun i => (i.runs h : x.runs = [])
    exact logged.trans (Dev.sends_sendMirror ..).tends.toWorks

theorem Dev.works_mirrorSlot (d : Dev) (j : Nat) (s : ThrShard) (slot bytes : Nat) (stamp seq : Word) :
    d.Works (d.mirrorSlot j s slot bytes stamp seq) := by
  refine Dev.Works.trans ?_ (Dev.works_mirror ..)
  exact List.foldlRecOn (motive := fun e => d.Works e) _ _ (Dev.Tends.refl d).toWorks fun e he p _ =>
    he.trans (e.works_mirror ..)

theorem Dev.tends_sendAck (d : Dev) (j : Nat) : d.Tends (d.sendAck j) := by
  unfold Dev.sendAck
  split
  · exact .refl d
  next x hx =>
    refine (Dev.tends_setJob hx ?_).trans (Dev.sends_sendMirror ..).tends
    exact ⟨rfl, id, fun _ => ⟨rfl, rfl, rfl, rfl⟩⟩

theorem Dev.tends_maybeRequest (d : Dev) (j : Nat) : d.Tends (d.maybeRequest j) := by
  unfold Dev.maybeRequest
  split
  · exact .refl d
  next x hx =>
    dsimp only
    split
    next asks =>
      simp only [Bool.and_eq_true, decide_eq_true_eq, Bool.not_eq_true'] at asks
      obtain ⟨⟨⟨own, req⟩, -⟩, -⟩ := asks
      rw [Dev.mirror_eq (d.job?_setJob_same ..), Dev.setJob_setJob]
      refine (Dev.tends_setJob hx ?_).trans (Dev.sends_sendMirror ..).tends
      exact ⟨rfl, id, fun settled => absurd ⟨own, req⟩ settled⟩
    next => exact .refl d

/-! ### Parked chunks and weights (R255, R268) -/

theorem Dev.tends_unpark (d : Dev) (p : Parked) : d.Tends (d.unpark p) := d.tends_park _

theorem Dev.tends_sendWeights (d : Dev) (p : Parked) (stale : Bool) : d.Tends (d.sendWeights p stale) := by
  have gone : d.Tends (d.unpark p) := d.tends_unpark p
  unfold Dev.sendWeights
  dsimp only
  split
  · split
    · have sent := fun h b => gone.trans (Dev.sends_build (d.unpark p) (k := 0) (by decide) h b).tends
      exact Dev.tends_ite _ (sent ..) ((sent ..).trans (Dev.tends_bump _ (ctrThr_not_mem_threshCounts (by decide))))
    · exact gone
  · exact gone

theorem Dev.tends_releaseWeights (d : Dev) (j : Nat) (go : Word → Bool) : d.Tends (d.releaseWeights j go) := by
  refine Dev.tends_foldl _ _ (fun e p => ?_) d
  split
  · split
    · exact Dev.tends_ite _ (e.tends_sendWeights ..) (.refl e)
    · exact .refl e
  · exact .refl e

theorem Dev.tends_prefetchOne (d : Dev) (p : Parked) : d.Tends (d.prefetchOne p) := by
  have gone : ∀ o, o ∉ [0x100, 0x128, 0x140, 0x168] → d.Tends ((d.unpark p).bump (ctrThr o)) := fun o ho =>
    (d.tends_unpark p).trans (Dev.tends_bump _ (ctrThr_not_mem_threshCounts ho))
  unfold Dev.prefetchOne
  refine Dev.tends_ite _ (.refl d) ?_
  split
  · exact d.tends_unpark p
  · split
    · exact d.tends_unpark p
    · refine Dev.tends_ite _ (gone _ (by decide)) (Dev.tends_ite _ (gone _ (by decide)) ?_)
      exact Dev.tends_ite _ (.refl d) (Dev.tends_ite _ (d.tends_park _) (.refl d))

theorem Dev.tends_prefetch (d : Dev) : d.Tends d.prefetch := Dev.tends_foldl _ _ Dev.tends_prefetchOne d

/-! ### Ends of phases and of shards (R277 to R279) -/

/-- `e` comes from `d` by stamps of slots: the board memory and the shards alone may change, and what is counted is none
of `threshCounts`. -/
structure Dev.Stamps (d e : Dev) : Prop where
  shape : ∃ m o l k, e = { d with mem := m, out := o, thr := { d.thr with shards := l }, ctrs := k }
  ctr : ∀ o ∈ threshCounts, e.ctr o = d.ctr o

theorem Dev.Stamps.refl (d : Dev) : d.Stamps d := ⟨⟨_, _, _, _, rfl⟩, fun _ _ => rfl⟩

theorem Dev.Stamps.trans {a b c : Dev} (h : a.Stamps b) (k : b.Stamps c) : a.Stamps c := by
  obtain ⟨⟨_, _, _, _, hb⟩, hCtr⟩ := h
  obtain ⟨⟨_, _, _, _, hc⟩, kCtr⟩ := k
  exact ⟨⟨_, _, _, _, hc.trans (by rw [hb])⟩, fun o ho => (kCtr o ho).trans (hCtr o ho)⟩

theorem Dev.stamps_stampSlot (d : Dev) (n : Nat) (s : ThrShard) (j : Nat) (m : MapEnt) :
    d.Stamps (d.stampSlot n s j m) := by
  obtain ⟨_, _, set⟩ := d.setMapEnt_shape s j m
  unfold Dev.stampSlot
  rw [set]
  exact ⟨⟨_, _, _, _, rfl⟩, fun _ _ => rfl⟩

theorem Dev.stamps_loseUpdates (d : Dev) (j : Nat) (x : ThrJob) (q : Word) : d.Stamps (d.loseUpdates j x q) := by
  have lost : ∀ e : Dev, e.Stamps (e.bump (ctrThr 0x160)) := fun e =>
    ⟨⟨_, _, _, _, rfl⟩, (e.tends_bump (ctrThr_not_mem_threshCounts (by decide))).ctr⟩
  refine List.foldlRecOn (motive := fun e => d.Stamps e) _ _ (.refl d) fun e he s _ => ?_
  refine List.foldlRecOn (motive := fun e => d.Stamps e) _ _ he fun f hf i _ => ?_
  dsimp only
  split
  · exact hf.trans ((f.stamps_stampSlot ..).trans (lost _))
  · exact hf

/-- While updates run, a stamp is work that follows an event. -/
theorem Dev.Tends.stamps {a b c : Dev} (h : a.Tends b) (k : b.Stamps c) (busy : ¬ a.Idle) : a.Tends c := by
  obtain ⟨⟨_, _, _, _, rfl⟩, hCtr⟩ := k
  exact {
    red := h.red, ports := h.ports, ctr := fun o ho => (hCtr o ho).trans (h.ctr o ho), idle := fun i => absurd i busy,
    mem := fun i => absurd i busy, posts := h.posts, params := h.params, shards := fun i => absurd i busy,
    jobs := h.jobs }

theorem Dev.tends_phaseDone (d : Dev) (j : Nat) : d.Tends (d.phaseDone j) := by
  unfold Dev.phaseDone
  split
  · exact .refl d
  next x hx =>
    split
    · exact .refl d
    next r rest hRuns =>
      have busy : ¬ d.Idle := fun i => by simp [i.runs hx] at hRuns
      have ended : d.Tends (d.setJob j { x with runs := rest }) :=
        Dev.tends_setJob hx ⟨rfl, fun none => by simp [none] at hRuns, fun _ => ⟨rfl, rfl, rfl, rfl⟩⟩
      refine Dev.tends_ite _ (.refl d) (Dev.Tends.trans ?_ (Dev.tends_event ..))
      exact Dev.tends_ite _ ended (ended.stamps (Dev.stamps_loseUpdates ..) busy)

theorem Dev.tends_dropShards (d : Dev) : d.Tends d.dropShards where
  red := rfl
  ports := rfl
  ctr _ _ := rfl
  idle := id
  mem _ := rfl
  posts := rfl
  params := rfl
  shards _ _ _ hy hDrain := Tab.find_filter _ hy (by simp [hDrain])
  jobs _ x hx := ⟨x, hx, .refl x⟩

theorem Dev.tends_thrTidy (d : Dev) : d.Tends d.thrTidy := by
  have phases : ∀ (e : Dev) (x : Nat × ThrJob),
      e.Tends (x.2.runs.foldl (fun d _ => d.phaseDone x.1) (e.maybeArrive x.1)) := fun e x =>
    (e.tends_maybeArrive x.1).trans (Dev.tends_foldl _ _ (fun d _ => d.tends_phaseDone x.1) _)
  have settled := (d.tends_prefetch.trans (Dev.tends_foldl d.prefetch.thr.jobs _ phases _)).trans
    (Dev.tends_dropShards _)
  exact settled.trans (Dev.tends_foldl _ _ (fun e (x : Nat × ThrJob) => e.tends_maybeRequest x.1) _)

end Sys2Proof.Machine
end

section
/-! PROOF. The phases of a job: a built chunk map, the repeat of its arrivals, and the release of its vote (R252, R258,
R259, R261, R274, R276, R303). -/

namespace Sys2Proof.Machine

/-! ### A built chunk map (R252, R303) -/

theorem Dev.find_modShard_same {d : Dev} {n : Nat} {y : ThrShard} (h : Tab.find d.thr.shards n = some y)
    (g : ThrShard → ThrShard) : Tab.find (d.modShard n g).thr.shards n = some (g y) :=
  (Tab.find_adj_same ..).trans (congrArg (Option.map g) h)

/-- Slots of a built map that are lost: the shard counts them, and the jobs stay. -/
theorem Dev.loseSlots_effect {d : Dev} {n : Nat} {s y : ThrShard} (hs : s.ready = true)
    (hy : Tab.find d.thr.shards n = some y) (from_ : Nat) :
    ∃ l, Tab.find (d.loseSlots n s from_).thr.shards n = some { y with lost := l } ∧
      (d.loseSlots n s from_).thr.jobs = d.thr.jobs := by
  obtain ⟨_, _, marked⟩ := d.markLost_shape s from_
  have kept : (d.markLost s from_).1.thr = d.thr := by rw [marked]
  rw [Dev.loseSlots_built hs]
  exact ⟨_, Dev.find_modShard_same (kept ▸ hy) _, by rw [← kept]; rfl⟩

theorem Dev.loseSlots_mem_congr {d e : Dev} (h : d.mem = e.mem) {s : ThrShard} (hs : s.ready = true) (n from_ : Nat) :
    (d.loseSlots n s from_).mem = (e.loseSlots n s from_).mem := by
  rw [Dev.loseSlots_built hs, Dev.loseSlots_built hs]
  exact Dev.markLost_mem_congr h s from_

/-- Where the copy of a shard begins whose map is built: at 0 in REBUILD, where it stood when LOST, else at its end. -/
def ThrShard.builtCursor (h : ThrShard) (own : CopyState) : Nat :=
  if own = .rebuild then 0 else if own = .lost then h.cursor else h.home + h.peer

/-- The device once the map of shard `n` is built, with the slots LOST that were lost before. -/
def Dev.mapBuilt (d : Dev) (n : Nat) (h : ThrShard) (e : CtxEntry) (x : ThrJob) : Dev :=
  let d1 := (d.buildMap h e x.phase).modShard n fun y => { y with ready := true, cursor := h.builtCursor x.own }
  if h.doomed || d.mem.granClosed then d1.loseSlots n { h with ready := true } 0
  else if x.own = .lost then d1.loseSlots n { h with ready := true } (h.builtCursor x.own)
  else d1

theorem exec_chunkMapBuilt_builds {s : State} {n : Fin 16384} {h : ThrShard} {c : Ctx} {x : ThrJob}
    (ha : s.d.awake = true) (hh : Tab.find s.d.thr.shards n.val = some h) (hc : s.d.ctx? h.cfg.ctx.toNat = some c)
    (hx : s.d.job? h.cfg.jent.toNat = some x) (hReady : h.ready = false) :
    exec (.chunkMapBuilt n) s = .next (s.put
      ((((s.d.mapBuilt n.val h c.e x).event (.thrReady n.val)).maybeRequest h.cfg.jent.toNat).thrTidy)) := by
  refine congrArg (goto s) ?_
  simp only [ha, hh, hc, hx, hReady, if_true, Bool.false_eq_true, if_false]
  rfl

/-- The shard, the jobs and the board memory that a built map leaves. -/
theorem Dev.mapBuilt_effect {d : Dev} {n : Nat} {h : ThrShard} (hh : Tab.find d.thr.shards n = some h) (e : CtxEntry)
    (x : ThrJob) :
    ∃ l, Tab.find (d.mapBuilt n h e x).thr.shards n =
        some { h with ready := true, cursor := h.builtCursor x.own, lost := l } ∧
      (d.mapBuilt n h e x).thr.jobs = d.thr.jobs ∧
      (d.mapBuilt n h e x).mem = (if h.doomed = true ∨ d.mem.granClosed = true then
          ((d.buildMap h e x.phase).loseSlots n { h with ready := true } 0).mem
        else if x.own = .lost then ((d.buildMap h e x.phase).loseSlots n { h with ready := true } h.cursor).mem
        else (d.buildMap h e x.phase).mem) := by
  obtain ⟨_, _, shape⟩ := d.buildMap_shape h e x.phase
  have kept : (d.buildMap h e x.phase).thr = d.thr := by rw [shape]
  have built := Dev.find_modShard_same (d := d.buildMap h e x.phase) (kept ▸ hh) fun y =>
    { y with ready := true, cursor := h.builtCursor x.own }
  have jobs : ((d.buildMap h e x.phase).modShard n fun y =>
      { y with ready := true, cursor := h.builtCursor x.own }).thr.jobs = d.thr.jobs := by rw [← kept]; rfl
  have lost := Dev.loseSlots_effect (s := { h with ready := true }) rfl built
  simp only [Dev.mapBuilt, Bool.or_eq_true]
  split
  · obtain ⟨l, found, same⟩ := lost 0
    exact ⟨l, found, same.trans jobs, Dev.loseSlots_mem_congr (by rfl) rfl n 0⟩
  · split
    next isLost =>
      obtain ⟨l, found, same⟩ := lost (h.builtCursor x.own)
      refine ⟨l, found, same.trans jobs, ?_⟩
      rw [show h.builtCursor x.own = h.cursor by simp [ThrShard.builtCursor, isLost]]
      exact Dev.loseSlots_mem_congr (by rfl) rfl n _
    next => exact ⟨h.lost, built, jobs, rfl⟩

/-! ### Arrivals that are repeated (R258) -/

theorem exec_threshArrivalRepeat_sends {s : State} {j : Fin 64} {x : ThrJob} (ha : s.d.awake = true)
    (hx : s.d.job? j.val = some x) (hSent : x.arrivalsSent = true) :
    exec (.threshArrivalRepeat j) s = .next (s.put (s.d.sendArrivals j.val x)) := by
  refine congrArg (goto s) ?_
  simp only [ha, hx, hSent, if_true]

/-! ### A release of the vote (R259, R261) -/

/-- The job once it has seen release `r` of its vote, which is the release of its norm too where the sheaf is. -/
def ThrJob.seen (x : ThrJob) (r : SheafRel) : ThrJob :=
  { x with
    voteSeen := some r.datum,
    normSeen := if x.cfg.gate == 2 && x.cfg.normSheaf.toNat == r.sheaf then some r.datum else x.normSeen }

/-- The device once the sequencer has taken its oldest release. -/
def Dev.setPosts (d : Dev) (l : List SheafRel) : Dev := { d with thr := { d.thr with posts := l } }

/-- A release of the vote in the phase of the only job. -/
structure Dev.Votes (d : Dev) (r : SheafRel) (l : List SheafRel) (j : Nat) (x : ThrJob) : Prop where
  awake : d.awake = true
  posts : d.thr.posts = r :: l
  jobs : d.thr.jobs = [(j, x)]
  part : x.cfg.part = r.part
  job : x.cfg.job = r.job
  phase : x.phase = r.phase
  vote : x.cfg.voteSheaf.toNat = r.sheaf

theorem exec_threshReleasePosted_vote {s : State} {r : SheafRel} {l : List SheafRel} {j : Nat} {x : ThrJob}
    (h : s.d.Votes r l j x) :
    exec .threshReleasePosted s = .next (s.put (((s.d.setPosts l).gate_ j (x.seen r)).thrTidy)) := by
  have found : (s.d.setPosts l).job? j = some x := by simp [Dev.job?, Dev.setPosts, h.jobs, Tab.find_cons]
  have taken : (s.d.setPosts l).takeRelease r j = (s.d.setPosts l).gate_ j (x.seen r) := by
    simp [Dev.takeRelease, found, h.part, h.job, h.phase, h.vote, ThrJob.seen]
  have keys : Tab.keys s.d.thr.jobs = [j] := by simp [h.jobs, Tab.keys]
  refine congrArg (goto s) ?_
  simp only [h.posts, h.awake, keys, List.foldl_cons, List.foldl_nil]
  exact congrArg Dev.thrTidy taken

/-- The gate opens for the updates of the phase: there is none, or the vote passed it and no norm is awaited. -/
theorem Dev.vote_runs {d : Dev} {j : Nat} {x : ThrJob} {v : Word} (hv : x.voteSeen = some v) (hGate : x.cfg.gate = 1)
    (hBits : bitsOf v.toNat 3 0 = 0) : d.gate_ j x = d.advance j x false v 0x3F800000#32 := by
  simp [Dev.gate_, hv, hGate, hBits]

theorem Dev.vote_skips {d : Dev} {j : Nat} {x : ThrJob} {v : Word} (hv : x.voteSeen = some v) (hGate : x.cfg.gate ≠ 0)
    (hBits : bitsOf v.toNat 3 0 ≠ 0) : d.gate_ j x = d.advance j x true v 0x3F800000#32 := by
  simp only [Dev.gate_, hv, if_neg hGate, if_pos hBits]

theorem Dev.vote_waits {d : Dev} {j : Nat} {x : ThrJob} {v : Word} (hv : x.voteSeen = some v) (hGate : x.cfg.gate = 2)
    (hBits : bitsOf v.toNat 3 0 = 0) (hNorm : x.normSeen = none) : d.gate_ j x = d.setJob j x := by
  simp [Dev.gate_, hv, hGate, hBits, hNorm]

/-- A job whose phase advances is in the next one, and waits for its vote anew. -/
theorem Dev.job?_advance (d : Dev) (j : Nat) (x : ThrJob) (skip : Bool) (v c : Word) :
    ∃ y, (d.advance j x skip v c).job? j = some y ∧ y.phase = x.phase + 1 ∧ y.voteSeen = none :=
  ⟨_, d.job?_setJob_same .., rfl, rfl⟩

/-- A parameter block at the end of a phase: what waits for the next one applies, and else the step counts a phase that
is not skipped. -/
def ThrParamSt.stepped (p : ThrParamSt) (skip : Bool) : ThrParamSt :=
  { f := p.next.getD (if skip then p.f else { p.f with step := p.f.step + 1 }), next := none, lastT := p.f.step + 1 }

theorem Dev.params_advance (d : Dev) (j : Nat) (x : ThrJob) (skip : Bool) (v c : Word) :
    (d.advance j x skip v c).thr.params =
      d.thr.params.map fun e => if e.2.f.jent.toNat == j then (e.1, e.2.stepped skip) else e := by
  refine List.map_congr_left fun e _ => ?_
  cases hNext : e.2.next with
  | none => simp [hNext, ThrParamSt.stepped]
  | some f => simp [hNext, ThrParamSt.stepped]

/-- A block of the job whose phase advances takes its step, unless the phase is skipped. -/
theorem Dev.find_params_advance {d : Dev} {j n : Nat} {p : ThrParamSt} (hp : Tab.find d.thr.params n = some p)
    (hj : p.f.jent.toNat = j) (hNext : p.next = none) (x : ThrJob) (skip : Bool) (v c : Word) :
    ∃ q, Tab.find (d.advance j x skip v c).thr.params n = some q ∧
      q.f = if skip then p.f else { p.f with step := p.f.step + 1 } := by
  refine ⟨p.stepped skip, ?_, by rw [ThrParamSt.stepped, hNext]; rfl⟩
  rw [Dev.params_advance, Tab.find_map_if d.thr.params (fun q => q.f.jent.toNat == j) (fun q => q.stepped skip), hp]
  simp [hj]

end Sys2Proof.Machine
end

section
/-! PROOF. The handover of a chunk that waited for the park region (R254, R267). -/

namespace Sys2Proof.Machine

/-- The counts of a cluster's collectives are none of Thresh's. -/
theorem ctrRed_not_mem_threshCounts (k : Nat) {o : Nat} (h : 0x200 ≤ o ∧ o < 0x40000) : ctrRed k o ∉ threshCounts := by
  simp only [threshCounts, Set.mem_insert_iff, Set.mem_singleton_iff, ctrRed, baseRed, ctrThr, baseThr]
  omega

theorem Dev.sends_encodeChunk (d : Dev) (cid : Nat) (root : Bool) (x : Chunk) :
    d.Sends (d.encodeChunk cid root x).1 := by
  have flags : ∀ fl, d.Sends (d.countFlags cid fl) := fun fl => by
    refine List.foldlRecOn (motive := fun e : Dev => d.Sends e) _ _ (.refl d) fun e he i hi => ?_
    have inside : 0x200 ≤ 0x900 + 8 * i ∧ 0x900 + 8 * i < 0x40000 := by
      simp only [List.mem_cons, List.not_mem_nil, or_false] at hi
      omega
    exact Dev.sends_ite _ (he.trans (e.sends_bumpBy 1 (ctrRed_not_mem_threshCounts _ inside))) he
  unfold Dev.encodeChunk
  refine Dev.sends_ite_fst _ (.refl d) ((flags _).trans (Dev.sends_ite _ ?_ (.refl _)))
  exact Dev.sends_bumpBy _ _ (ctrRed_not_mem_threshCounts _ (by decide))

/-- A linger copy that is kept, and those that leave for it, count among the collectives (R207). -/
theorem Dev.keepLinger_ctr (d : Dev) (cid : Nat) (e : CtxEntry) (b : List Byte) (sub : BitVec 8) {o : Nat}
    (ho : o ∈ threshCounts) : (d.keepLinger cid e b sub).1.ctr o = d.ctr o := by
  have other : ∀ (d : Dev) k, (d.bump (ctrRed k 0xA50)).ctr o = d.ctr o := fun d k =>
    (d.sends_bumpBy 1 (ctrRed_not_mem_threshCounts k (by decide))).aside.ctr o fun out => out ho
  have evicted : ∀ (l : List (Nat × Word × Linger)) (d : Dev) (cap size used : Nat),
      (d.evictLinger cap size used l).ctr o = d.ctr o := fun l => by
    induction l with
    | nil => exact fun _ _ _ _ => rfl
    | cons x l ih =>
      intro d cap size used
      unfold Dev.evictLinger
      split
      · rfl
      · exact (ih ..).trans (other (d.endLinger x.1 x.2.1) _)
  unfold Dev.keepLinger
  dsimp only
  generalize (if e.lingerUs = 0 then 500 else e.lingerUs.toNat) = us
  split
  · exact other d _
  · exact evicted ..

/-- A phase's sums leave the phases whose updates run. -/
theorem ThrJob.runs_account (x : ThrJob) (q : Word) (key : BitVec 16 × Word) (flags : Fl) (sq : Word) :
    (x.account q key flags sq).runs = x.runs := by
  unfold ThrJob.account
  split
  · rfl
  · split
    · rfl
    · rfl

theorem Dev.works_modJob (d : Dev) (j : Nat) {g : ThrJob → ThrJob} (hg : ∀ x, (g x).runs = x.runs) :
    d.Works (d.modJob j g) :=
  ⟨rfl, rfl, fun _ _ => rfl, fun i => i.modJob j hg, fun _ => rfl⟩

/-- The device once the result of chunk `y` is encoded, sent and kept to linger, and the chunk has finished. -/
def Dev.resulted (d : Dev) (cid : Nat) (e : CtxEntry) (y : Chunk) : Dev :=
  let r := d.encodeChunk cid false y
  let sub := subOf r.2.2.rh false r.2.2.ovf r.2.2.flags
  let l := (r.1.build 0 (d.resultHeader cid e r.2.2.att.tf r.2.2.seq sub) r.2.1).keepLinger cid e r.2.1 sub
  l.1.finishChunk cid r.2.2 true l.2

/-- The chunk has finished in its context, and none of Thresh's counts has changed. -/
theorem Dev.resulted_effect {d : Dev} {cid : Nat} {c : Ctx} (hc : d.ctx? cid = some c) (hw : c.e.window ≠ 0)
    (y : Chunk) : d.Finishes (d.resulted cid c.e y) cid c y.seq ∧
      ∀ o ∈ threshCounts, (d.resulted cid c.e y).ctr o = d.ctr o := by
  have encoded := d.sends_encodeChunk cid false y
  unfold Dev.resulted
  rw [← (d.encodeChunk_effect cid false y).2]
  dsimp only
  generalize d.encodeChunk cid false y = r at encoded ⊢
  generalize subOf r.2.2.rh false r.2.2.ovf r.2.2.flags = sub
  have sent := encoded.trans (r.1.sends_build (k := 0) (by decide) (d.resultHeader cid c.e r.2.2.att.tf r.2.2.seq sub)
    r.2.1)
  generalize r.1.build 0 _ r.2.1 = e at sent ⊢
  obtain ⟨_, _, fin, shape, kept⟩ :=
    Dev.keepLinger_effect ((Dev.ctx?_congr sent.aside.red cid).trans hc) cid c.e r.2.1 sub
  obtain ⟨done, hMem, hPorts⟩ := Dev.finishes_finishChunk (c := { c with fin := fin }) kept hw r.2.2
    (e.keepLinger cid c.e r.2.1 sub).2
  refine ⟨⟨done, ?_, ?_⟩, fun o ho => ?_⟩
  · exact hMem.trans ((congrArg Dev.mem shape).trans sent.aside.mem)
  · exact hPorts.trans ((congrArg Dev.ports shape).trans sent.aside.ports)
  · have finished := Dev.sends_bumpBy (e.keepLinger cid c.e r.2.1 sub).1 1
      (ctrRed_not_mem_threshCounts (clusterOf cid) (o := 0xA00) (by decide))
    refine (finished.aside.ctr o fun out => out ho).trans ?_
    exact (e.keepLinger_ctr cid c.e r.2.1 sub ho).trans (sent.aside.ctr o fun out => out ho)

/-- A chunk that finds room in the park region, and in the log for its NOTE, is counted, and the work on its job
follows. -/
theorem Dev.handOver_works {d : Dev} {cid n : Nat} {c : Ctx} {h : ThrShard} {j : ThrJob} (hc : d.ctx? cid = some c)
    (hs : d.shardOfCtx cid = some (n, h)) (hj : d.job? h.cfg.jent.toNat = some j)
    (hFits : d.parkFits c.e.cap.toNat = true) (hLog : j.log.length < 4096) (x : Chunk) :
    ∃ y, y.seq = x.seq ∧ ((d.resulted cid c.e y).bump (ctrThr 0x100)).Works (d.handOver cid x) := by
  have few : ¬ logLimit ≤ j.log.length := by unfold logLimit; omega
  unfold Dev.handOver
  simp only [hc, hs, hj, hFits, few, decide_false, Bool.and_false, Bool.not_true, Bool.or_self, Bool.false_eq_true,
    if_false]
  generalize hy : ({ x with att := _, acc := _, flags := _ } : Chunk) = y
  refine ⟨y, by rw [← hy], ?_⟩
  split
  · exact (Dev.tends_park ..).toWorks.trans (Dev.works_mirror ..)
  · exact (Dev.tends_park ..).toWorks.trans (Dev.works_modJob _ _ fun x => x.runs_account ..)

/-- What Thresh itself counts stays counted by the work that follows. -/
theorem Dev.Works.ctr_bump {d e : Dev} {o : Nat} (h : (d.bump o).Works e) (ho : o ∈ threshCounts) :
    e.ctr o = (d.ctr o + 1) % 2 ^ 64 :=
  (h.ctr o ho).trans (Dev.ctr_bump_same ..)

theorem exec_parkSpaceFreed_tries {s : State} {n : BitVec 16} {q : Word} {c : Ctx} {x : Chunk} (ha : s.d.awake = true)
    (hc : s.d.ctx? n.toNat = some c) (hx : c.chunk? q = some x) (hWaits : x.st = .waitPark) :
    exec (.parkSpaceFreed n q) s = .next (s.put ((s.d.handOver n.toNat x).thrTidy)) := by
  have found : s.d.chunk? n.toNat q = some (c, x) := by simp [Dev.chunk?, hc, hx]
  refine congrArg (goto s) ?_
  simp only [ha, found, hWaits, if_true]

end Sys2Proof.Machine
end

section
/-! PROOF. Updates of the state in staging, and requests of weights (R252, R255, R267, R269). -/

namespace Sys2Proof.Machine

/-! ### The update of a chunk in staging (R255, R267) -/

theorem exec_stagingReady_updates {s : State} {k : Fin 8} {p : Parked} (ha : s.d.awake = true)
    (hp : s.d.nextUpdate k.val = some p) : exec (.stagingReady k) s = .next (s.put ((s.d.updateChunk p).thrTidy)) := by
  refine congrArg (goto s) ?_
  simp only [ha, hp, if_true]

/-- The device once the new state of a slot is written, and its STAMP. -/
def Dev.slotWritten (d : Dev) (n : Nat) (s : ThrShard) (ix : Nat) (m : MapEnt) (phase : Word) (w : List Byte) : Dev :=
  (d.devWrite (s.cfg.stateBase.toNat + m.slot * w.length) w).stampSlot n s ix { m with stamp := phase, stale := false }

/-- What follows the write: the slot goes to the other copy, or the weights leave. -/
theorem Dev.works_writeUpdate (d : Dev) (j : Nat) (x : ThrJob) (n : Nat) (s : ThrShard) (p : Parked) (ix : Nat)
    (m : MapEnt) (w : List Byte) : (d.slotWritten n s ix m p.phase w).Works (d.writeUpdate j x n s p ix m w) := by
  unfold Dev.writeUpdate Dev.slotWritten
  dsimp only
  split
  · have mirrored := fun e : Dev => e.works_mirrorSlot j s m.slot w.length p.phase p.seq
    split
    · exact (mirrored _).trans (Dev.tends_park ..).toWorks
    · exact mirrored _
  · refine (Dev.works_modJob _ j fun y => ?_).trans (Dev.tends_sendWeights ..).toWorks
    split
    · rfl
    · rfl

theorem Dev.slotWritten_ports (d : Dev) (n : Nat) (s : ThrShard) (ix : Nat) (m : MapEnt) (phase : Word)
    (w : List Byte) : (d.slotWritten n s ix m phase w).ports = d.ports := by
  obtain ⟨⟨_, _, _, _, stamped⟩, -⟩ :=
    Dev.stamps_stampSlot (d.devWrite (s.cfg.stateBase.toNat + m.slot * w.length) w) n s ix
      { m with stamp := phase, stale := false }
  obtain ⟨_, _, written⟩ := d.devWrite_shape (s.cfg.stateBase.toNat + m.slot * w.length) w
  exact (congrArg Dev.ports stamped).trans (by rw [written])

theorem Dev.Idle.slotWritten {d : Dev} (h : d.Idle) (n : Nat) (s : ThrShard) (ix : Nat) (m : MapEnt) (phase : Word)
    (w : List Byte) : (d.slotWritten n s ix m phase w).Idle := by
  obtain ⟨⟨_, _, _, _, stamped⟩, -⟩ :=
    Dev.stamps_stampSlot (d.devWrite (s.cfg.stateBase.toNat + m.slot * w.length) w) n s ix
      { m with stamp := phase, stale := false }
  obtain ⟨_, _, written⟩ := d.devWrite_shape (s.cfg.stateBase.toNat + m.slot * w.length) w
  exact h.congr ((congrArg (fun e : Dev => e.thr.jobs) stamped).trans (by rw [written]))

section
variable {d : Dev} {p : Parked} {n : Nat} {h : ThrShard} {c : Ctx} {x : ThrJob}
  (hs : d.shardOfCtx p.ctx.toNat = some (n, h)) (hc : d.ctx? p.ctx.toNat = some c)
  (hx : d.job? h.cfg.jent.toNat = some x) (hLost : (d.mapEnt h (h.place x.phase p.seq).1).lost = false)
include hs hc hx hLost

theorem Dev.updateChunk_writes (hStamp : (d.mapEnt h (h.place x.phase p.seq).1).stamp ≠ p.phase) {f : ThrParam}
    {a b e : Word} (hConsts : d.updateConsts x h p.phase = (f, a, b, e)) {w : List Byte}
    (hSlot : ThrParam.slot f (rndFor c.e.rnd c.e.seed p.seq) c.e.cap.toNat a b e p.vals p.state = some w) :
    d.updateChunk p = d.writeUpdate h.cfg.jent.toNat x n h p (h.place x.phase p.seq).1
      (d.mapEnt h (h.place x.phase p.seq).1) w := by
  simp only [Dev.updateChunk, hs, hc, hx, hLost, hConsts, hSlot, beq_iff_eq, if_neg hStamp, Bool.false_eq_true,
    if_false]

theorem Dev.updateChunk_repeated (hStamp : (d.mapEnt h (h.place x.phase p.seq).1).stamp = p.phase) :
    d.updateChunk p = (d.unpark p).bump (ctrThr 0x128) := by
  simp only [Dev.updateChunk, hs, hc, hx, hLost, hStamp, beq_self_eq_true, if_true, Bool.false_eq_true, if_false]

end

/-! ### The head of a cluster's queue (R61, R109) -/

theorem Dev.sends_handing (d : Dev) (s : Store) (k tc : Nat) (c : Copy) : d.Sends (d.handing s k tc c) := by
  have counted : d.Sends (Dev.countQ { d with store := s } (.cluster k) tc fun q => { q with sent := q.sent + 1 }) :=
    ⟨{ Dev.Aside.refl _ d with }, rfl⟩
  exact counted.trans (Dev.sends_gleanFrame ..)

/-- The frame at the head of a queue is handled by a device that has taken it from the store, and what follows lies
beside Thresh too. -/
theorem Dev.serve_atHead_sends {d : Dev} {k tc : Nat} {f : Frame} (h : d.AtHead k tc f) {want : Header → Bool}
    (hWant : want f.hdr = true) (g : Dev → Frame → Dev) :
    ∃ a, d.Hands a ∧ d.Sends a ∧ (g a f).Sends (d.serve k tc want g) := by
  obtain ⟨c, r, hQueue, hFrame, hLive⟩ := h.head
  have popped : (d.popQueue (.cluster k) tc).frame? c.fid = some f := hFrame
  obtain ⟨s, reads⟩ := Dev.readQueued_good popped h.good.1 h.noInject h.noBad (.cluster k)
  have whole : d.wholeCopy c = true := by rw [Dev.wholeCopy, hFrame]; exact h.whole
  have sound : (e2eCheck f.hdr f.payload != f.e2e) = false := by simp [h.good.2]
  have served : d.serve k tc want g =
      ((g (d.handing s k tc c) f).noteSent c.fid none false).release c.fid := by
    simp only [Dev.serve, hQueue, List.head?_cons, hFrame, h.awake, whole, hWant, hLive, reads, sound, Bool.not_true,
      Bool.or_self, Bool.false_eq_true, if_false]
    rfl
  have noted : ∀ e : Dev, e.Sends (e.noteSent c.fid none false) := fun e => by
    refine ⟨e.aside_noteSent .., ?_⟩
    unfold Dev.noteSent
    split
    · rfl
    · rfl
  have released : ∀ e : Dev, e.Sends (e.release c.fid) := fun e => by
    refine ⟨e.aside_release .., ?_⟩
    obtain ⟨_, _, _, _, shape⟩ := e.release_shape c.fid
    rw [shape]
  rw [served]
  exact ⟨_, d.hands_handing .., d.sends_handing .., (noted _).trans (released _)⟩

/-! ### A request of weights (R269) -/

theorem Dev.Sends.shardOfCtx {d e : Dev} (h : d.Sends e) (n : Nat) : e.shardOfCtx n = d.shardOfCtx n :=
  congrArg (fun t : Thr => t.shards.find? fun x : Nat × ThrShard => x.2.cfg.ctx.toNat == n) h.thr

/-- A chunk whose slot holds the phase that is asked for is answered with its weights, and counted. -/
theorem Dev.answerWeights_counts {d : Dev} {h : ThrShard} {x : ThrJob} {seq : Word}
    (hValid : (d.mapEnt h (h.place x.phase seq).1).valid = true)
    (hLost : (d.mapEnt h (h.place x.phase seq).1).lost = false)
    (hPhase : -1 ≤ seqDist (h.place x.phase seq).2 x.phase)
    (hStamp : (d.mapEnt h (h.place x.phase seq).1).stamp = (h.place x.phase seq).2) (f : Frame) (k cid : Nat) (c : Ctx)
    (rh : Bool) : ∃ e, d.Sends e ∧ d.answerWeights f k cid c x h seq rh = e.bump (ctrThr 0x168) := by
  simp only [Dev.answerWeights, hValid, hLost, if_neg (not_lt.mpr hPhase), hStamp, beq_self_eq_true, if_true,
    Bool.not_true, Bool.false_eq_true, if_false]
  exact ⟨_, d.sends_build (by decide) .., rfl⟩

end Sys2Proof.Machine
end

section
/-! PROOF. Thresh's phases and updates of the slots (R252, R254, R255, R258, R259, R261, R267, R269, R274, R276, R303,
R304, R307). -/

namespace Sys2Proof.Machine

theorem ThrJob.Follows.phase {x y : ThrJob} (h : x.Follows y) : y.phase = x.phase :=
  (congrArg (fun z : ThrJob => z.phase) h.core :)

theorem ThrJob.Follows.voteSeen {x y : ThrJob} (h : x.Follows y) : y.voteSeen = x.voteSeen :=
  (congrArg (fun z : ThrJob => z.voteSeen) h.core :)

/-! ### Phases -/

theorem exec_chunkMapBuilt_effect {s : State} {n : Fin 16384} {h : ThrShard} {c : Ctx} {x : ThrJob}
    (ha : s.d.awake = true) (hh : Tab.find s.d.thr.shards n.val = some h) (hc : s.d.ctx? h.cfg.ctx.toNat = some c)
    (hx : s.d.job? h.cfg.jent.toNat = some x) (hReady : h.ready = false) (hDrain : h.draining = false)
    (hIdle : s.d.Idle) :
    ∃ t l, exec (.chunkMapBuilt n) s = .next t ∧ Tab.find t.d.thr.shards n.val =
        some { h with ready := true, cursor := h.builtCursor x.own, lost := l } ∧
      t.d.mem = (s.d.mapBuilt n.val h c.e x).mem := by
  obtain ⟨l, found, jobs, -⟩ := Dev.mapBuilt_effect hh c.e x
  have tends := ((Dev.tends_event (s.d.mapBuilt n.val h c.e x) (.thrReady n.val)).trans
    (Dev.tends_maybeRequest _ h.cfg.jent.toNat)).trans (Dev.tends_thrTidy _)
  have idle := hIdle.congr jobs
  exact ⟨_, l, exec_chunkMapBuilt_builds ha hh hc hx hReady, tends.shards idle _ _ found hDrain, tends.mem idle⟩

section
variable {s : State} {r : SheafRel} {l : List SheafRel} {j : Nat} {x : ThrJob} (h : s.d.Votes r l j x)
include h

/-- A release that ends the phase: the job is in the next one, and its parameter blocks take their step unless the
phase is skipped. -/
theorem exec_threshReleasePosted_advances {skip : Bool} {v c : Word}
    (hGate : (s.d.setPosts l).gate_ j (x.seen r) = (s.d.setPosts l).advance j (x.seen r) skip v c) :
    ∃ t y, exec .threshReleasePosted s = .next t ∧ t.d.thr.posts = l ∧ t.d.job? j = some y ∧
      y.phase = x.phase + 1 ∧ y.voteSeen = none ∧
      ∀ n p, Tab.find s.d.thr.params n = some p → p.f.jent.toNat = j → p.next = none →
        ∃ q, Tab.find t.d.thr.params n = some q ∧ q.f = if skip then p.f else { p.f with step := p.f.step + 1 } := by
  have run := exec_threshReleasePosted_vote h
  rw [hGate] at run
  have tends := Dev.tends_thrTidy ((s.d.setPosts l).advance j (x.seen r) skip v c)
  obtain ⟨y, hy, nextPhase, noVote⟩ := (s.d.setPosts l).job?_advance j (x.seen r) skip v c
  obtain ⟨z, hz, follows⟩ := tends.jobs j y hy
  refine ⟨_, z, run, tends.posts, hz, follows.phase.trans nextPhase, follows.voteSeen.trans noVote,
    fun n p hp hj hNext => ?_⟩
  rw [State.put_d, tends.params]
  exact Dev.find_params_advance (d := s.d.setPosts l) hp hj hNext ..

/-- A vote that waits for the release of the norm is kept, and the phase stays. -/
theorem exec_threshReleasePosted_waits (hGate : x.cfg.gate = 2) (hBits : bitsOf r.datum.toNat 3 0 = 0)
    (hNorm : x.normSeen = none) (hSheaf : x.cfg.normSheaf.toNat ≠ r.sheaf) :
    ∃ t y, exec .threshReleasePosted s = .next t ∧ t.d.thr.posts = l ∧ t.d.job? j = some y ∧ y.phase = x.phase ∧
      y.voteSeen = some r.datum := by
  have run := exec_threshReleasePosted_vote h
  have noNorm : (x.seen r).normSeen = none := by simp [ThrJob.seen, hNorm, hSheaf]
  rw [Dev.vote_waits (x := x.seen r) rfl hGate hBits noNorm] at run
  have tends := Dev.tends_thrTidy ((s.d.setPosts l).setJob j (x.seen r))
  obtain ⟨z, hz, follows⟩ := tends.jobs j (x.seen r) (Dev.job?_setJob_same ..)
  exact ⟨_, z, run, tends.posts, hz, follows.phase, follows.voteSeen⟩

end

/-! ### Chunks that are parked, and updates -/

theorem exec_parkSpaceFreed_parks {s : State} {n : BitVec 16} {q : Word} {c : Ctx} {x : Chunk} {m : Nat} {h : ThrShard}
    {j : ThrJob} (ha : s.d.awake = true) (hc : s.d.ctx? n.toNat = some c) (hx : c.chunk? q = some x)
    (hWaits : x.st = .waitPark) (hw : c.e.window ≠ 0) (hs : s.d.shardOfCtx n.toNat = some (m, h))
    (hj : s.d.job? h.cfg.jent.toNat = some j) (hFits : s.d.parkFits c.e.cap.toNat = true)
    (hLog : j.log.length < 4096) :
    ∃ t y r, exec (.parkSpaceFreed n q) s = .next t ∧ t.d.ctx? n.toNat = some y ∧ y.chunk? q = none ∧
      y.record? q = some r ∧ r.isDone = true ∧ t.d.ctr (ctrThr 0x100) = (s.d.ctr (ctrThr 0x100) + 1) % 2 ^ 64 := by
  obtain ⟨y, seq, works⟩ := Dev.handOver_works hc hs hj hFits hLog x
  obtain ⟨⟨⟨z, r, hz, hChunk, hRecord, hDone, -⟩, -, -⟩, counts⟩ := Dev.resulted_effect hc hw y
  generalize s.d.resulted n.toNat c.e y = e at works hz counts
  have after := works.trans (Dev.tends_thrTidy _).toWorks
  have counted : ctrThr 0x100 ∈ threshCounts := by simp [threshCounts]
  have count := after.ctr_bump counted
  rw [counts _ counted] at count
  rw [seq, Ctx.seq_of_chunk? hx] at hChunk hRecord
  have found := (Dev.ctx?_congr after.red n.toNat).trans ((Dev.ctx?_congr (Dev.bump_red ..) _).trans hz)
  exact ⟨_, z, r, exec_parkSpaceFreed_tries ha hc hx hWaits, found, hChunk, hRecord, hDone, count⟩

section
variable {s : State} {k : Fin 8} {p : Parked} {n : Nat} {h : ThrShard} {c : Ctx} {x : ThrJob}
  (ha : s.d.awake = true) (hp : s.d.nextUpdate k.val = some p) (hs : s.d.shardOfCtx p.ctx.toNat = some (n, h))
  (hc : s.d.ctx? p.ctx.toNat = some c) (hx : s.d.job? h.cfg.jent.toNat = some x)
  (hLost : (s.d.mapEnt h (h.place x.phase p.seq).1).lost = false) (hIdle : s.d.Idle)
include ha hp hs hc hx hLost hIdle

theorem exec_stagingReady_writes (hStamp : (s.d.mapEnt h (h.place x.phase p.seq).1).stamp ≠ p.phase) {f : ThrParam}
    {a b e : Word} (hConsts : s.d.updateConsts x h p.phase = (f, a, b, e)) {w : List Byte}
    (hSlot : ThrParam.slot f (rndFor c.e.rnd c.e.seed p.seq) c.e.cap.toNat a b e p.vals p.state = some w) :
    ∃ t, exec (.stagingReady k) s = .next t ∧ t.d.mem = (s.d.slotWritten n h (h.place x.phase p.seq).1
      (s.d.mapEnt h (h.place x.phase p.seq).1) p.phase w).mem ∧ t.d.ports = s.d.ports := by
  have run := exec_stagingReady_updates ha hp
  rw [Dev.updateChunk_writes hs hc hx hLost hStamp hConsts hSlot] at run
  have works := (s.d.works_writeUpdate h.cfg.jent.toNat x n h p (h.place x.phase p.seq).1
    (s.d.mapEnt h (h.place x.phase p.seq).1) w).trans (Dev.tends_thrTidy _).toWorks
  exact ⟨_, run, works.mem (hIdle.slotWritten _ _ _ _ _ _), works.ports.trans (s.d.slotWritten_ports ..)⟩

theorem exec_stagingReady_repeated (hStamp : (s.d.mapEnt h (h.place x.phase p.seq).1).stamp = p.phase) :
    ∃ t, exec (.stagingReady k) s = .next t ∧ t.d.mem = s.d.mem ∧
      t.d.ctr (ctrThr 0x128) = (s.d.ctr (ctrThr 0x128) + 1) % 2 ^ 64 := by
  have run := exec_stagingReady_updates ha hp
  rw [Dev.updateChunk_repeated hs hc hx hLost hStamp] at run
  have works := (Dev.tends_thrTidy ((s.d.unpark p).bump (ctrThr 0x128))).toWorks
  exact ⟨_, run, works.mem hIdle, works.ctr_bump (by simp [threshCounts])⟩

end

/-! ### Weights that are requested, and slots that are restored -/

/-- A request of weights for a shard that serves its job is handled by what the slot answers. -/
theorem exec_weightReqReceived_serves (s : State) (k tc : Fin 8) : ∃ g,
    exec (.weightReqReceived k tc) s =
      .next (s.put (s.d.serve k.val tc.val (fun h => h.kind == 7 && h.sub == 0x13) g)) ∧
    ∀ (d : Dev) (f : Frame) (c : Ctx) (n : Nat) (h : ThrShard) (x : ThrJob), d.ctx? (ksfCtx f.hdr) = some c →
      d.shardOfCtx (ksfCtx f.hdr) = some (n, h) → c.e.part = f.hdr.part → d.job? h.cfg.jent.toNat = some x →
      h.ready = true → x.own ≠ .rebuild → x.nackUntil = false →
      ∃ rh, g d f = d.answerWeights f k.val (ksfCtx f.hdr) c x h (ksfSeq f.hdr) rh := by
  refine ⟨_, rfl, fun d f c n h x hc hs hPart hx hReady hOwn hNack => ?_⟩
  simp only [hc, hs, hPart, hx, hReady, hNack, decide_eq_false hOwn, Bool.not_true, Bool.or_self, ne_eq,
    not_true_eq_false, Bool.false_eq_true, if_false]
  exact ⟨_, rfl⟩

theorem exec_weightReqReceived_answers {s : State} {k tc : Fin 8} {f : Frame} {c : Ctx} {n : Nat} {h : ThrShard}
    {x : ThrJob} (hHead : s.d.AtHead k.val tc.val f) (hKind : f.hdr.kind = 7) (hSub : f.hdr.sub = 0x13)
    (hc : s.d.ctx? (ksfCtx f.hdr) = some c) (hs : s.d.shardOfCtx (ksfCtx f.hdr) = some (n, h))
    (hPart : c.e.part = f.hdr.part) (hPhase : -1 ≤ seqDist (h.place x.phase (ksfSeq f.hdr)).2 x.phase)
    (hx : s.d.job? h.cfg.jent.toNat = some x) (hReady : h.ready = true) (hOwn : x.own ≠ .rebuild)
    (hNack : x.nackUntil = false) (hValid : (s.d.mapEnt h (h.place x.phase (ksfSeq f.hdr)).1).valid = true)
    (hLost : (s.d.mapEnt h (h.place x.phase (ksfSeq f.hdr)).1).lost = false)
    (hStamp : (s.d.mapEnt h (h.place x.phase (ksfSeq f.hdr)).1).stamp = (h.place x.phase (ksfSeq f.hdr)).2) :
    ∃ t, exec (.weightReqReceived k tc) s = .next t ∧
      t.d.ctr (ctrThr 0x168) = (s.d.ctr (ctrThr 0x168) + 1) % 2 ^ 64 ∧ t.d.thr = s.d.thr ∧ t.d.mem = s.d.mem := by
  obtain ⟨g, run, answers⟩ := exec_weightReqReceived_serves s k tc
  obtain ⟨a, -, handed, left⟩ := Dev.serve_atHead_sends hHead
    (want := fun h => h.kind == 7 && h.sub == 0x13) (by simp [hKind, hSub]) g
  have shard : a.shardOfCtx (ksfCtx f.hdr) = some (n, h) := (handed.shardOfCtx _).trans hs
  have entry := Dev.mapEnt_congr handed.aside.mem h (h.place x.phase (ksfSeq f.hdr)).1
  obtain ⟨rh, answer⟩ := answers a f c n h x ((Dev.ctx?_congr handed.aside.red _).trans hc) shard hPart
    ((Dev.job?_congr handed.thr _).trans hx) hReady hOwn hNack
  rw [← entry] at hValid hLost hStamp
  obtain ⟨e, sent, counted⟩ := Dev.answerWeights_counts hValid hLost hPhase hStamp f k.val (ksfCtx f.hdr) c rh
  rw [answer, counted] at left
  have all := handed.trans sent
  have counts : ctrThr 0x168 ∈ threshCounts := by simp [threshCounts]
  have count := left.tends.toWorks.ctr_bump counts
  rw [all.aside.ctr _ fun out => out counts] at count
  exact ⟨_, run, count, left.thr.trans all.thr, left.aside.mem.trans all.aside.mem⟩

/-- A restored slot of a shard whose copies are LOST needs no room in the log (R304, R307). -/
theorem exec_memSlotRestored_restores {s : State} {c : CmdCtx} {n : BitVec 16} {j q : Word} {h : ThrShard}
    (hRuns : s.d.Runs (.memSlotRestored c n j q) c 0x0706 .operator)
    (hh : Tab.find s.d.thr.shards n.toNat = some h)
    (hClaim : (s.d.touch c).claimedElse c.src (.shard n.toNat) = false) (hOpen : s.d.mem.granClosed = false)
    (hIndex : j.toNat < h.cfg.cps.toNat) (hValid : (s.d.mapEnt h j.toNat).valid = true)
    (hLost : (s.d.mapEnt h j.toNat).lost = true) (hOwn : ∀ x, s.d.job? h.cfg.jent.toNat = some x → x.own = .lost) :
    exec (.memSlotRestored c n j q) s = .next (s.put
      ((((s.d.touch c).restoreSlot n.toNat h j.toNat (s.d.mapEnt h j.toNat) q).thrTidy).reply c 0x0706 .ok .empty)) := by
  have thr : (s.d.touch c).thr = s.d.thr := s.d.touch_thr c
  have entry : (s.d.touch c).mapEnt h j.toNat = s.d.mapEnt h j.toNat := Dev.mapEnt_congr (s.d.touch_mem c) ..
  have room : ∀ (x : ThrJob) (slot : Nat), (s.d.touch c).job? h.cfg.jent.toNat = some x →
      x.otherInSync h.cfg.ctx.toNat slot = false := fun x slot hx => by
    simp [ThrJob.otherInSync, hOwn x ((Dev.job?_congr thr _).symm.trans hx)]
  refine congrArg (goto s) (Dev.runCmd_answers hRuns ?_)
  simp only [thr, hh, hClaim, Dev.touch_mem, hOpen, if_neg (Nat.not_le.mpr hIndex), entry, hValid, hLost,
    Bool.not_true, Bool.or_self, Bool.false_eq_true, if_false]
  cases hx : (s.d.touch c).job? h.cfg.jent.toNat with
  | none => rfl
  | some x => simp only [room x _ hx, Bool.false_and, Bool.false_eq_true, if_false]; rfl

end Sys2Proof.Machine

open Sys2Proof Sys2Proof.Machine

/-- Settles O58: each event by the work that it does, and the work that follows it by what it leaves. -/
theorem thresh : Obligations.Thresh := by
  refine ⟨fun s n h c x ha hh hc hx hReady hDrain hIdle => ?_,
    fun s j x ha hx hSent => exec_threshArrivalRepeat_sends ha hx hSent,
    fun s r l j x ha hPosts hJobs hPart hJob hPhase hVote => ?_,
    fun s n q c x m h j ha hc hx hWaits hw hs hj hFits hLog =>
      exec_parkSpaceFreed_parks ha hc hx hWaits hw hs hj hFits hLog,
    fun s k p n h c x f a b e w ha hp hs hc hx hConsts hLost hStamp hSlot hIdle => ?_,
    fun s k p n h c x f a b e ha hp hs hc hx _ hLost hStamp hIdle =>
      exec_stagingReady_repeated ha hp hs hc hx hLost hIdle hStamp,
    fun s k tc f c n h x hHead hKind hSub hc hs hPart hPhase hx hReady hOwn hNack hValid hLost hStamp =>
      exec_weightReqReceived_answers hHead hKind hSub hc hs hPart hPhase hx hReady hOwn hNack hValid hLost hStamp,
    fun s c n j q h hRuns hh hClaim hOpen hIndex hValid hLost hOwn =>
      exec_memSlotRestored_restores hRuns hh hClaim hOpen hIndex hValid hLost hOwn⟩
  · obtain ⟨t, l, run, found, hMem⟩ := exec_chunkMapBuilt_effect ha hh hc hx hReady hDrain hIdle
    obtain ⟨-, -, -, built⟩ := Dev.mapBuilt_effect hh c.e x
    exact ⟨t, _, run, found, rfl, rfl, rfl, hMem.trans built⟩
  · have votes : s.d.Votes r l j x := ⟨ha, hPosts, hJobs, hPart, hJob, hPhase, hVote⟩
    refine ⟨fun hGate hBits => ?_, fun hGate hBits => ?_, fun hGate hBits hNorm hSheaf =>
      exec_threshReleasePosted_waits votes hGate hBits hNorm hSheaf⟩
    · exact exec_threshReleasePosted_advances votes (Dev.vote_runs (x := x.seen r) rfl hGate hBits)
    · obtain ⟨t, y, run, posts, hy, nextPhase, -, params⟩ :=
        exec_threshReleasePosted_advances votes (Dev.vote_skips (x := x.seen r) rfl hGate hBits)
      exact ⟨t, y, run, posts, hy, nextPhase, params⟩
  · obtain ⟨t, run, hMem, hPorts⟩ := exec_stagingReady_writes ha hp hs hc hx hLost hIdle hStamp hConsts hSlot
    exact ⟨t, run, congrArg MemTier.cells hMem, hPorts⟩
end

section
/-! PROOF. The mirror stream between the copies of a job (R258, R270, R273, R274). -/

namespace Sys2Proof.Machine

/-! ### What the handling of a frame finds as it was -/

theorem Dev.Sends.mirrorJob {d e : Dev} (h : d.Sends e) (f : Header) : e.mirrorJob f = d.mirrorJob f :=
  congrArg (fun t : Thr => t.jobs.find? fun x : Nat × ThrJob => x.2.cfg.part == f.part && x.2.cfg.job == f.job) h.thr

theorem Dev.Sends.mirrorShard {d e : Dev} (h : d.Sends e) (j : Nat) (f : Header) :
    e.mirrorShard j f = d.mirrorShard j f := by
  simp only [Dev.mirrorShard, Dev.shardsOf, h.thr]

theorem Dev.Sends.shardSlotBytes {d e : Dev} (h : d.Sends e) (s : ThrShard) :
    e.shardSlotBytes s = d.shardSlotBytes s := by
  simp only [Dev.shardSlotBytes, Dev.ctx?, Dev.paramOf, h.thr, h.aside.red]

theorem Dev.indexOfSlot_congr {d e : Dev} (h : d.mem = e.mem) (s : ThrShard) (n : Nat) :
    d.indexOfSlot s n = e.indexOfSlot s n := by
  simp only [Dev.indexOfSlot, Dev.mapEnt_congr h]

theorem Dev.Sends.job? {d e : Dev} (h : d.Sends e) {j : Nat} {x : ThrJob} (hx : d.job? j = some x) :
    e.job? j = some x :=
  (Dev.job?_congr h.thr j).trans hx

theorem Dev.Sends.idle {d e : Dev} (h : d.Sends e) (i : d.Idle) : e.Idle := i.congr (congrArg Thr.jobs h.thr)

theorem Dev.devWrite_thr (d : Dev) (a : Nat) (b : List Byte) : (d.devWrite a b).thr = d.thr := by
  obtain ⟨_, _, written⟩ := d.devWrite_shape a b
  rw [written]

/-! ### Frames in order (R273) -/

/-- The job once it has taken a frame in order. -/
def ThrJob.took (x : ThrJob) (now : Nat) : ThrJob :=
  { x with rxNext := x.rxNext + 1, rxSinceAck := x.rxSinceAck + 1, lastRx := now }

/-- An ACK leaves of the device all but the frames since the last one. -/
theorem Dev.sends_sendAck {d : Dev} {j : Nat} {x : ThrJob} (hx : d.job? j = some x) :
    (d.setJob j { x with rxSinceAck := 0 }).Sends (d.sendAck j) := by
  unfold Dev.sendAck
  rw [hx]
  exact Dev.sends_sendMirror ..

theorem Dev.tends_tookInOrder {d : Dev} {j : Nat} {x : ThrJob} (hx : d.job? j = some x) :
    (d.setJob j (x.took d.now)).Tends (d.tookInOrder j) := by
  unfold Dev.tookInOrder
  rw [hx]
  exact Dev.tends_ite _ (Dev.tends_sendAck ..) (.refl _)

/-- The job and the board memory after a frame that was taken in order, and the work that followed. -/
theorem Dev.tookInOrder_effect {d e : Dev} {j : Nat} {x : ThrJob} (h : (d.tookInOrder j).Tends e)
    (hx : d.job? j = some x) (hIdle : d.Idle) :
    ∃ y, e.job? j = some y ∧ (x.took d.now).Follows y ∧ e.mem = d.mem := by
  have tends := (Dev.tends_tookInOrder hx).trans h
  obtain ⟨y, hy, follows⟩ := tends.jobs j _ (d.job?_setJob_same ..)
  exact ⟨y, hy, follows, tends.mem (hIdle.setJob (hIdle.runs hx : x.runs = []))⟩

theorem ThrJob.Follows.rxNext {x y : ThrJob} (h : x.Follows y) : y.rxNext = x.rxNext :=
  (congrArg (fun z : ThrJob => z.rxNext) h.core :)

theorem ThrJob.Follows.sum0 {x y : ThrJob} (h : x.Follows y) : y.sum0 = x.sum0 :=
  (congrArg (fun z : ThrJob => z.sum0) h.core :)

theorem ThrJob.Follows.bulk {x y : ThrJob} (h : x.Follows y) : y.bulk = x.bulk :=
  (congrArg (fun z : ThrJob => z.bulk) h.core :)

theorem ThrJob.Follows.endSeq {x y : ThrJob} (h : x.Follows y) : y.endSeq = x.endSeq :=
  (congrArg (fun z : ThrJob => z.endSeq) h.core :)

/-- A frame of the stream of job `j` stands at the head of a queue, and no phase's updates run. -/
structure Dev.MirrorHead (d : Dev) (k tc : Nat) (f : Frame) (j : Nat) (x : ThrJob) : Prop where
  head : d.AtHead k tc f
  kind : f.hdr.kind = 6
  found : d.mirrorJob f.hdr = some (j, x)
  job : d.job? j = some x
  idle : d.Idle

section
variable {d : Dev} {k tc : Nat} {f : Frame} {j : Nat} {x : ThrJob} (h : d.MirrorHead k tc f j x)
include h

/-- A frame in order is handled, and taken. -/
theorem Dev.MirrorHead.serveMirror {sub : Byte} (hSub : f.hdr.sub = sub) (hOrder : d.inOrder f.hdr = true)
    (g : Dev → Nat → Frame → Dev) :
    ∃ a, d.Hands a ∧ d.Sends a ∧ ((g a j f).tookInOrder j).Tends (d.serveMirror k tc sub g) := by
  have want : d.mirrorWant sub f.hdr = true := by simp [Dev.mirrorWant, h.kind, hSub, hOrder]
  obtain ⟨a, hands, sent, left⟩ := Dev.serve_atHead_sends h.head want fun d fr =>
    match d.mirrorJob fr.hdr with
    | some (j, _) => (g d j fr).tookInOrder j
    | none => d
  rw [sent.mirrorJob, h.found] at left
  exact ⟨a, hands, sent, left.tends.trans (Dev.tends_thrTidy _)⟩

theorem Dev.MirrorHead.inOrder (hSeq : f.hdr.seq = x.rxNext) : d.inOrder f.hdr = true := by
  simp [Dev.inOrder, h.found, hSeq]

end

section
variable {s : State} {k tc : Fin 8} {f : Frame} {j : Nat} {x : ThrJob} (h : s.d.MirrorHead k.val tc.val f j x)
include h

/-! ### STATE and COMMIT (R272, R273) -/

theorem exec_mirrorStateReceived_takes (hSeq : f.hdr.seq = x.rxNext) (hSub : f.hdr.sub = 1) {n : Nat} {sh : ThrShard}
    (hShard : s.d.mirrorShard j f.hdr = some (n, sh))
    (hFits : bitsOf f.hdr.ksf.toNat 47 0 + f.payload.length ≤ (sh.home + sh.peer) * s.d.shardSlotBytes sh) :
    ∃ t y, exec (.mirrorStateReceived k tc) s = .next t ∧ t.d.job? j = some y ∧ y.rxNext = x.rxNext + 1 ∧
      t.d.mem = (s.d.devWrite (sh.cfg.stateBase.toNat + bitsOf f.hdr.ksf.toNat 47 0) f.payload).mem := by
  have serves : ∃ g, exec (.mirrorStateReceived k tc) s = .next (s.put (s.d.serveMirror k.val tc.val 1 g)) ∧
      ∀ d : Dev, s.d.Sends d →
        g d j f = d.devWrite (sh.cfg.stateBase.toNat + bitsOf f.hdr.ksf.toNat 47 0) f.payload := by
    refine ⟨_, rfl, fun d sent => ?_⟩
    simp only [sent.mirrorShard, hShard, sent.shardSlotBytes, if_neg (Nat.not_lt.mpr hFits)]
  obtain ⟨g, run, writes⟩ := serves
  obtain ⟨a, -, sent, left⟩ := h.serveMirror hSub (h.inOrder hSeq) g
  rw [writes a sent] at left
  have thr := a.devWrite_thr (sh.cfg.stateBase.toNat + bitsOf f.hdr.ksf.toNat 47 0) f.payload
  obtain ⟨y, hy, follows, hMem⟩ := Dev.tookInOrder_effect left ((Dev.job?_congr thr j).trans (sent.job? h.job))
    ((sent.idle h.idle).congr (congrArg Thr.jobs thr))
  exact ⟨_, y, run, hy, follows.rxNext, hMem.trans (Dev.devWrite_mem_congr sent.aside.mem ..)⟩

end

/-- A COMMIT sets its map entry, and leaves the jobs. -/
theorem Dev.takeCommit_effect {d : Dev} {j ix slot : Nat} {x : ThrJob} {sh : ThrShard} (hx : d.job? j = some x)
    (hIx : d.indexOfSlot sh slot = some ix) (n : Nat) (stamp : Word) :
    (d.takeCommit j n sh slot stamp).thr.jobs = d.thr.jobs ∧
    (d.takeCommit j n sh slot stamp).mem = (d.setMapEnt sh ix { d.mapEnt sh ix with
      stamp := stamp, stale := false, lost := (d.mapEnt sh ix).lost && d.mem.granClosed }).mem := by
  have counted : ∀ c : Bool, (if c then d.bump (ctrThr 0x148) else d).thr = d.thr ∧
      (if c then d.bump (ctrThr 0x148) else d).mem = d.mem := fun c => by
    split
    · exact ⟨rfl, rfl⟩
    · exact ⟨rfl, rfl⟩
  have set : ∀ (c : Bool) (e : MapEnt),
      (Dev.setMapEnt (if c then d.bump (ctrThr 0x148) else d) sh ix e).thr.jobs = d.thr.jobs := fun c e =>
    congrArg Thr.jobs ((Dev.devWrite_thr ..).trans (counted c).1)
  unfold Dev.takeCommit
  simp only [hx, hIx]
  exact ⟨set .., Dev.setMapEnt_mem_congr (counted _).2 ..⟩

section
variable {s : State} {k tc : Fin 8} {f : Frame} {j : Nat} {x : ThrJob} (h : s.d.MirrorHead k.val tc.val f j x)
include h

theorem exec_mirrorCommitReceived_takes (hSeq : f.hdr.seq = x.rxNext) (hSub : f.hdr.sub = 3) {n ix : Nat}
    {sh : ThrShard} (hShard : s.d.mirrorShard j f.hdr = some (n, sh)) (hBytes : s.d.shardSlotBytes sh ≠ 0)
    (hIx : s.d.indexOfSlot sh (bitsOf f.hdr.ksf.toNat 47 0 / s.d.shardSlotBytes sh) = some ix) :
    ∃ t y, exec (.mirrorCommitReceived k tc) s = .next t ∧ t.d.job? j = some y ∧ y.rxNext = x.rxNext + 1 ∧
      t.d.mem = (s.d.setMapEnt sh ix { s.d.mapEnt sh ix with
        stamp := BitVec.ofNat 32 (ofBe (f.payload.take 4)), stale := false,
        lost := (s.d.mapEnt sh ix).lost && s.d.mem.granClosed }).mem := by
  have serves : ∃ g, exec (.mirrorCommitReceived k tc) s = .next (s.put (s.d.serveMirror k.val tc.val 3 g)) ∧
      ∀ d : Dev, s.d.Sends d → g d j f = d.takeCommit j n sh
        (bitsOf f.hdr.ksf.toNat 47 0 / s.d.shardSlotBytes sh) (BitVec.ofNat 32 (ofBe (f.payload.take 4))) := by
    refine ⟨_, rfl, fun d sent => ?_⟩
    simp only [sent.mirrorShard, hShard, sent.shardSlotBytes, if_neg hBytes]
  obtain ⟨g, run, commits⟩ := serves
  obtain ⟨a, -, sent, left⟩ := h.serveMirror hSub (h.inOrder hSeq) g
  rw [commits a sent] at left
  have mem := sent.aside.mem
  obtain ⟨jobs, set⟩ := Dev.takeCommit_effect (sent.job? h.job) ((Dev.indexOfSlot_congr mem sh _).trans hIx) n
    (BitVec.ofNat 32 (ofBe (f.payload.take 4)))
  obtain ⟨y, hy, follows, hMem⟩ := Dev.tookInOrder_effect left
    ((congrArg (fun l : Tab ThrJob => Tab.find l j) jobs).trans (sent.job? h.job)) ((sent.idle h.idle).congr jobs)
  refine ⟨_, y, run, hy, follows.rxNext, (hMem.trans set).trans ?_⟩
  rw [Dev.mapEnt_congr mem, mem]
  exact Dev.setMapEnt_mem_congr mem ..

/-! ### NOTE (R258) -/

theorem exec_mirrorNoteReceived_takes (hSeq : f.hdr.seq = x.rxNext) (hSub : f.hdr.sub = 4) {n : Nat} {sh : ThrShard}
    (hShard : s.d.mirrorShard j f.hdr = some (n, sh)) :
    ∃ t y flags sq, exec (.mirrorNoteReceived k tc) s = .next t ∧ t.d.job? j = some y ∧
      ((x.account (sh.place x.phase (BitVec.ofNat 32 f.hdr.ksf.toNat)).2
        (sh.cfg.ctx, BitVec.ofNat 32 f.hdr.ksf.toNat) flags sq).took s.d.now).Follows y ∧ t.d.mem = s.d.mem := by
  have serves : ∃ g flags sq, exec (.mirrorNoteReceived k tc) s = .next (s.put (s.d.serveMirror k.val tc.val 4 g)) ∧
      ∀ d : Dev, s.d.Sends d → g d j f = d.modJob j fun x =>
        x.account (sh.place x.phase (BitVec.ofNat 32 f.hdr.ksf.toNat)).2
          (sh.cfg.ctx, BitVec.ofNat 32 f.hdr.ksf.toNat) flags sq := by
    refine ⟨_, BitVec.ofNat 4 (ofBe (slice f.payload 4 4)), BitVec.ofNat 32 (ofBe (f.payload.take 4)), rfl,
      fun d sent => ?_⟩
    simp only [sent.mirrorShard, hShard]
  obtain ⟨g, flags, sq, run, notes⟩ := serves
  obtain ⟨a, hands, sent, left⟩ := h.serveMirror hSub (h.inOrder hSeq) g
  rw [notes a sent] at left
  obtain ⟨y, hy, follows, hMem⟩ := Dev.tookInOrder_effect left (Dev.job?_modJob_same (sent.job? h.job) _)
    ((sent.idle h.idle).modJob j fun x => x.runs_account ..)
  exact ⟨_, y, flags, sq, run, hy, hands.now ▸ follows, hMem.trans sent.aside.mem⟩

end

/-- A chunk of the job's phase counts once among its sums (R258). -/
theorem ThrJob.accounted_account (x : ThrJob) (key : BitVec 16 × Word) (flags : Fl) (sq : Word) :
    (x.account x.phase key flags sq).sum0.accounted =
      if key ∈ x.sum0.counted then x.sum0.accounted else x.sum0.accounted + 1 := by
  simp only [ThrJob.account, beq_self_eq_true, if_true, PhaseSum.add, List.contains_iff_mem]
  split
  · rfl
  · rfl

/-- Accounting leaves of the job all but its sums. -/
theorem ThrJob.account_shape (x : ThrJob) (q : Word) (key : BitVec 16 × Word) (flags : Fl) (sq : Word) :
    ∃ a b, x.account q key flags sq = { x with sum0 := a, sum1 := b } := by
  unfold ThrJob.account
  split
  · exact ⟨_, _, rfl⟩
  · split
    · exact ⟨_, _, rfl⟩
    · exact ⟨_, _, rfl⟩

/-! ### ACK (R271, R273) -/

/-- The job once an ACK has named `n` as the next frame that is expected. -/
def ThrJob.acked (x : ThrJob) (n : Word) (now : Nat) : ThrJob :=
  let rest := x.log.filter fun m => !decide (seqDist m.seq n < 0)
  { x with lastRx := now, log := rest, lastAckAdv := if rest.length != x.log.length then now else x.lastAckAdv }

theorem Dev.tends_takeAck {d : Dev} {j : Nat} {x : ThrJob} (hx : d.job? j = some x) (hEnd : x.endSeq = none) {n : Word}
    (hNext : seqDist n x.txNext ≤ 0) : (d.setJob j (x.acked n d.now)).Tends (d.takeAck j n) := by
  have released : d.takeAck j n =
      (d.setJob j (x.acked n d.now)).releaseWeights j fun q => decide (seqDist q n < 0) := by
    unfold Dev.takeAck
    rw [hx]
    dsimp only
    rw [if_neg (not_lt.mpr hNext)]
    split
    next q hq => exact absurd (hEnd.symm.trans hq) nofun
    next => rfl
  rw [released]
  exact Dev.tends_releaseWeights ..

section
variable {s : State} {k tc : Fin 8} {f : Frame} {j : Nat} {x : ThrJob} (h : s.d.MirrorHead k.val tc.val f j x)
include h

theorem exec_mirrorAckReceived_takes (hSub : f.hdr.sub = 2) (hEnd : x.endSeq = none)
    (hNext : seqDist (BitVec.ofNat 32 (bitsOf f.hdr.ksf.toNat 63 32)) x.txNext ≤ 0) :
    ∃ t y, exec (.mirrorAckReceived k tc) s = .next t ∧ t.d.job? j = some y ∧
      (x.acked (BitVec.ofNat 32 (bitsOf f.hdr.ksf.toNat 63 32)) s.d.now).Follows y := by
  have serves : ∃ g, exec (.mirrorAckReceived k tc) s = .next (s.put (s.d.serve k.val tc.val
        (fun h => h.kind == 6 && h.sub == 2 && (s.d.mirrorJob h).isSome) g).thrTidy) ∧
      ∀ d : Dev, s.d.Sends d → g d f = d.takeAck j (BitVec.ofNat 32 (bitsOf f.hdr.ksf.toNat 63 32)) := by
    refine ⟨_, rfl, fun d sent => ?_⟩
    simp only [sent.mirrorJob, h.found]
  obtain ⟨g, run, acks⟩ := serves
  obtain ⟨a, hands, sent, left⟩ := Dev.serve_atHead_sends h.head
    (want := fun h => h.kind == 6 && h.sub == 2 && (s.d.mirrorJob h).isSome) (by simp [h.kind, hSub, h.found]) g
  rw [acks a sent] at left
  have tends := ((Dev.tends_takeAck (sent.job? h.job) hEnd hNext).trans left.tends).trans (Dev.tends_thrTidy _)
  obtain ⟨y, hy, follows⟩ := tends.jobs j _ (a.job?_setJob_same ..)
  exact ⟨_, y, run, hy, hands.now ▸ follows⟩

end

/-! ### REBUILD_REQ and REBUILD_END (R274) -/

/-- The job of copies that were in sync once they are SOLO, before the arrivals of the phase are sent. -/
def ThrJob.alone (x : ThrJob) : ThrJob := { x.restart with own := .solo, loss := true, both := true, lostUpdates := 0 }

theorem Dev.tends_enterSolo {d : Dev} {j : Nat} {x : ThrJob} (hx : d.job? j = some x) :
    (d.setJob j x.alone).Tends (d.enterSolo j) := by
  unfold Dev.enterSolo
  rw [hx]
  exact ((Dev.tends_releaseWeights ..).trans (Dev.tends_event ..)).trans (Dev.tends_arrive ..)

/-- The copies of a job start at slot 0: of the device the shards alone change. -/
theorem Dev.resetCursors_shape (d : Dev) (l : List (Nat × ThrShard)) :
    ∃ t, l.foldl (fun d e => d.modShard e.1 fun s => { s with cursor := 0 }) d =
      { d with thr := { d.thr with shards := t } } := by
  induction l generalizing d with
  | nil => exact ⟨_, rfl⟩
  | cons e l ih =>
    obtain ⟨t, rest⟩ := ih (d.modShard e.1 fun s => { s with cursor := 0 })
    exact ⟨t, rest⟩

/-- The job of copies that are in sync once a rebuild has ended. -/
def ThrJob.synced (x : ThrJob) : ThrJob :=
  { x with
    own := .inSync, bulk := none, endSeq := none, reqSent := false, lostUpdates := 0,
    nackUntil := decide (x.own = .rebuild) }

theorem Dev.sends_enterInSync {d : Dev} {j : Nat} {x : ThrJob} (hx : d.job? j = some x) :
    (d.setJob j x.synced).Sends (d.enterInSync j) := by
  unfold Dev.enterInSync
  rw [hx]
  exact Dev.sends_event ..

/-- REBUILD_REQ makes copies in sync SOLO, with a bulk copy from the first slot on. -/
theorem Dev.takeRebuildReq_effect {d : Dev} {j : Nat} {x : ThrJob} (hx : d.job? j = some x) (hOwn : x.own = .inSync)
    (hIdle : d.Idle) :
    ∃ y, (d.takeRebuildReq j).job? j = some { y with rxNext := 0, bulk := some (0, 0) } ∧ x.alone.Follows y ∧
      (d.takeRebuildReq j).Idle ∧ (d.takeRebuildReq j).mem = d.mem := by
  have tends := Dev.tends_enterSolo hx
  have alone : (d.setJob j x.alone).Idle := hIdle.setJob (hIdle.runs hx : x.runs = [])
  obtain ⟨y, hy, follows⟩ := tends.jobs j _ (d.job?_setJob_same ..)
  obtain ⟨l, shape⟩ := (d.enterSolo j).resetCursors_shape ((d.enterSolo j).shardsOf j)
  have taken : d.takeRebuildReq j = Dev.modJob
      { d.enterSolo j with thr := { (d.enterSolo j).thr with shards := l } } j fun x =>
        { x with rxNext := 0, bulk := some (0, 0) } := by
    rw [← shape]
    simp [Dev.takeRebuildReq, hx, hOwn]
  rw [taken]
  refine ⟨y, Dev.job?_modJob_same hy _, follows, ?_, tends.mem alone⟩
  exact Dev.Idle.modJob (tends.idle alone) j fun _ => rfl

section
variable {s : State} {k tc : Fin 8} {f : Frame} {j : Nat} {x : ThrJob} (h : s.d.MirrorHead k.val tc.val f j x)
include h

theorem exec_mirrorRebuildReqReceived_takes (hSeq : f.hdr.seq = 0) (hSub : f.hdr.sub = 5) (hOwn : x.own = .inSync) :
    ∃ t y z now, exec (.mirrorRebuildReqReceived k tc) s = .next t ∧ t.d.job? j = some z ∧ x.alone.Follows y ∧
      (({ y with rxNext := 0, bulk := some (0, 0) } : ThrJob).took now).Follows z ∧ t.d.mem = s.d.mem := by
  have order : s.d.inOrder f.hdr = true := by simp [Dev.inOrder, h.found, hSeq, hSub]
  obtain ⟨a, -, sent, left⟩ := h.serveMirror hSub order fun d j _ => d.takeRebuildReq j
  obtain ⟨y, hy, alone, idle, hMem⟩ := Dev.takeRebuildReq_effect (sent.job? h.job) hOwn (sent.idle h.idle)
  obtain ⟨z, hz, follows, kept⟩ := Dev.tookInOrder_effect left hy idle
  exact ⟨_, y, z, _, rfl, hz, alone, follows, kept.trans (hMem.trans sent.aside.mem)⟩

theorem exec_mirrorRebuildEndReceived_takes (hSeq : f.hdr.seq = x.rxNext) (hSub : f.hdr.sub = 6)
    (hOwn : x.own = .rebuild) :
    ∃ t y, exec (.mirrorRebuildEndReceived k tc) s = .next t ∧ t.d.job? j = some y ∧ y.own = .inSync ∧
      y.bulk = none ∧ y.endSeq = none ∧ t.d.mem = s.d.mem := by
  have serves : ∃ g, exec (.mirrorRebuildEndReceived k tc) s = .next (s.put (s.d.serveMirror k.val tc.val 6 g)) ∧
      ∀ d : Dev, s.d.Sends d → g d j f = d.enterInSync j := by
    refine ⟨_, rfl, fun d sent => ?_⟩
    simp only [sent.job? h.job, hOwn, if_true]
  obtain ⟨g, run, ends⟩ := serves
  obtain ⟨a, -, sent, left⟩ := h.serveMirror hSub (h.inOrder hSeq) g
  rw [ends a sent] at left
  have synced := Dev.sends_enterInSync (sent.job? h.job)
  obtain ⟨y, hy, follows, hMem⟩ := Dev.tookInOrder_effect left (synced.job? (a.job?_setJob_same ..))
    (synced.idle ((sent.idle h.idle).setJob (h.idle.runs h.job : x.runs = [])))
  exact ⟨_, y, run, hy, follows.own, follows.bulk, follows.endSeq,
    hMem.trans (synced.aside.mem.trans sent.aside.mem)⟩

end

/-! ### Frames out of order (R273) -/

/-- A frame that is not the next one of its stream, an ACK apart, is counted and answered with an ACK. -/
theorem exec_mirrorOutOfOrder_serves {s : State} (k tc : Fin 8) {f : Frame} {j : Nat} {x : ThrJob}
    (hKind : f.hdr.kind = 6) (hFound : s.d.mirrorJob f.hdr = some (j, x)) (hOrder : s.d.inOrder f.hdr = false)
    (hKnown : 1 ≤ f.hdr.sub.toNat ∧ f.hdr.sub.toNat ≤ 6) (hAck : f.hdr.sub ≠ 2) :
    ∃ want g, exec (.mirrorOutOfOrder k tc) s = .next (s.put (s.d.serve k.val tc.val want g)) ∧
      want f.hdr = true ∧ ∀ d : Dev, s.d.Sends d →
        g d f = ((d.bump (ctrThr 0x140)).modJob j fun x => { x with lastRx := d.now }).sendAck j := by
  refine ⟨_, _, rfl, ?_, fun d sent => ?_⟩
  · simp only [hKind, hOrder, bne_iff_ne.mpr hAck, beq_self_eq_true, Bool.not_false, Bool.and_self, Bool.or_true]
  · simp only [sent.mirrorJob, hFound, Option.isSome_some, hKnown, and_self, decide_true, Bool.and_self, if_true]

section
variable {s : State} {k tc : Fin 8} {f : Frame} {j : Nat} {x : ThrJob} (h : s.d.MirrorHead k.val tc.val f j x)
include h

theorem exec_mirrorOutOfOrder_takes (hSeq : f.hdr.seq ≠ x.rxNext)
    (hSub : f.hdr.sub = 1 ∨ f.hdr.sub = 3 ∨ f.hdr.sub = 4 ∨ f.hdr.sub = 6) :
    ∃ t, exec (.mirrorOutOfOrder k tc) s = .next t ∧
      t.d.job? j = some { x with lastRx := s.d.now, rxSinceAck := 0 } ∧
      t.d.ctr (ctrThr 0x140) = (s.d.ctr (ctrThr 0x140) + 1) % 2 ^ 64 ∧ t.d.mem = s.d.mem := by
  have sub : (1 ≤ f.hdr.sub.toNat ∧ f.hdr.sub.toNat ≤ 6) ∧ f.hdr.sub ≠ 2 ∧ f.hdr.sub ≠ 5 := by
    obtain hSub | hSub | hSub | hSub := hSub <;> simp [hSub]
  obtain ⟨known, notAck, notRequest⟩ := sub
  have order : s.d.inOrder f.hdr = false := by
    simp only [Dev.inOrder, h.found, beq_false_of_ne hSeq, beq_false_of_ne notRequest, Bool.false_and, Bool.or_self]
  obtain ⟨want, g, run, wanted, acks⟩ := exec_mirrorOutOfOrder_serves k tc h.kind h.found order known notAck
  obtain ⟨a, hands, sent, left⟩ := Dev.serve_atHead_sends h.head wanted g
  rw [acks a sent] at left
  have dated : ((a.bump (ctrThr 0x140)).modJob j fun x => { x with lastRx := a.now }).job? j =
      some { x with lastRx := s.d.now } := by
    rw [← hands.now]
    exact Dev.job?_modJob_same (sent.job? h.job) _
  have acked := (Dev.sends_sendAck dated).trans left
  have counts : ctrThr 0x140 ∈ threshCounts := by simp [threshCounts]
  refine ⟨_, run, acked.job? (Dev.job?_setJob_same ..), ?_, acked.aside.mem.trans sent.aside.mem⟩
  have count : (s.d.serve k.val tc.val want g).ctr (ctrThr 0x140) = (a.bump (ctrThr 0x140)).ctr (ctrThr 0x140) :=
    acked.aside.ctr _ fun out => out counts
  rw [← sent.aside.ctr _ fun out => out counts]
  exact count.trans (Dev.ctr_bump_same ..)

end

end Sys2Proof.Machine

open Sys2Proof Sys2Proof.Machine

/-- Settles O59: each frame by what its handling does to the job, and the work that follows it by what it leaves. -/
theorem mirrorStream : Obligations.MirrorStream := by
  intro s k tc f j x hHead hKind hFound hJob hIdle
  have h : s.d.MirrorHead k.val tc.val f j x := ⟨hHead, hKind, hFound, hJob, hIdle⟩
  refine ⟨fun hSeq hSub n sh hShard hFits => ?_, fun hSeq hSub n sh ix hShard hBytes hIx => ?_,
    fun hSeq hSub n sh hShard hPhase => ?_, fun hSub hEnd hAsked hNext => ?_, fun hSeq hSub hOwn => ?_,
    fun hSeq hSub hOwn => exec_mirrorRebuildEndReceived_takes h hSeq hSub hOwn, fun hSeq hSub => ?_⟩
  · obtain ⟨t, y, run, hy, next, hMem⟩ := exec_mirrorStateReceived_takes h hSeq hSub hShard hFits
    exact ⟨t, y, run, hy, next, congrArg MemTier.cells hMem⟩
  · obtain ⟨t, y, run, hy, next, hMem⟩ := exec_mirrorCommitReceived_takes h hSeq hSub hShard hBytes hIx
    exact ⟨t, y, run, hy, next, congrArg MemTier.cells hMem⟩
  · obtain ⟨t, y, flags, sq, run, hy, follows, hMem⟩ := exec_mirrorNoteReceived_takes h hSeq hSub hShard
    rw [hPhase] at follows
    have counted := x.accounted_account (sh.cfg.ctx, BitVec.ofNat 32 f.hdr.ksf.toNat) flags sq
    obtain ⟨_, _, shape⟩ := x.account_shape x.phase (sh.cfg.ctx, BitVec.ofNat 32 f.hdr.ksf.toNat) flags sq
    refine ⟨t, y, run, hy, follows.rxNext.trans ?_, (congrArg PhaseSum.accounted follows.sum0).trans counted,
      follows.phase.trans ?_, hMem⟩
    · rw [shape]; rfl
    · rw [shape]; rfl
  · obtain ⟨t, y, run, hy, follows⟩ := exec_mirrorAckReceived_takes h hSub hEnd hNext
    obtain ⟨next, log, last, -⟩ := follows.stream fun ⟨own, req⟩ => absurd ((hAsked own).symm.trans req) nofun
    exact ⟨t, y, run, hy, log, next, last⟩
  · obtain ⟨t, y, z, _, run, hz, alone, follows, hMem⟩ := exec_mirrorRebuildReqReceived_takes h hSeq hSub hOwn
    have own : y.own = .solo := alone.own
    obtain ⟨next, log, -, -⟩ := alone.stream fun owes => absurd owes.1 nofun
    obtain ⟨kept, same, -, -⟩ := follows.stream fun owes => absurd (own.symm.trans owes.1) nofun
    exact ⟨t, z, run, hz, follows.own.trans own, follows.rxNext, kept.trans next, same.trans log, hMem⟩
  · obtain ⟨t, run, hy, counted, hMem⟩ := exec_mirrorOutOfOrder_takes h hSeq hSub
    exact ⟨t, _, run, hy, rfl, rfl, rfl, counted, hMem⟩
end

section
/-! PROOF. The release of reset, POWER_ON, Howlink's training and self-test (R285, R288, R454 to R458). -/

namespace Sys2Proof.Machine

/-- What every step of a fold leaves alone, the fold leaves alone. -/
theorem foldl_keeps {α β γ : Type} (f : β → γ) {g : β → α → β} (h : ∀ b a, f (g b a) = f b) (l : List α) (b : β) :
    f (l.foldl g b) = f b :=
  List.foldlRecOn (motive := fun c => f c = f b) l g rfl fun c hc a _ => (h c a).trans hc

/-! ### Reset and POWER_ON (R454, R470) -/

theorem exec_internalResetRelease_leaves {s : State} (hReset : s.d.boot.inReset = true)
    (hPin : s.d.boot.resetN = true) :
    exec .internalResetRelease s =
      .next (s.put { s.d with now := 0, boot := { s.d.boot with inReset := false } }) := by
  simp [exec, execInternalResetRelease, goto_eq, hReset, hPin, Dev.leaveReset]

theorem exec_internalResetRelease_held {s : State} (hPin : s.d.boot.resetN = false) :
    exec .internalResetRelease s = .next s := by
  simp [exec, execInternalResetRelease, goto_eq, hPin, State.put]

theorem exec_resetNRelease_leaves {s : State} (hPin : s.d.boot.resetN = false) :
    exec .resetNRelease s = .next (s.put { s.d with
      now := 0, boot := { s.d.boot with inReset := false, resetN := true } }) := by
  simp [exec, execResetNRelease, goto_eq, hPin, Dev.leaveReset]

theorem exec_powerOnComplete_ends {s : State} (b : BitVec 2) (hAwake : s.d.awake = true) (hSt : s.d.boot.st = .powerOn)
    (hRef : s.d.clk.refLost = false) :
    exec (.powerOnComplete b) s = .next (s.put (Dev.lockPlls
      { s.d with boot := { s.d.boot with st := .selfTest, bootSrc := b } } 0x10000)) := by
  simp [exec, execPowerOnComplete, goto_eq, hAwake, hSt, hRef]

/-! ### Howlink's training (R285, R288) -/

theorem exec_howlinkTrainingComplete_trains {s : State} (r : HlTraining) (hAwake : s.d.awake = true)
    (hSt : s.d.boot.st = .selfTest) (hNew : s.d.hl.trained = false) :
    ∃ t, exec (.howlinkTrainingComplete r) s = .next t ∧ t.d.hl = trainedLink r ∧ t.d.boot.st = .selfTest := by
  simp only [exec, execHowlinkTrainingComplete, goto_eq, hAwake, hSt, hNew, decide_true, Bool.and_self, Bool.not_false,
    if_true]
  refine ⟨_, rfl, ?_⟩
  simp only [State.put]
  split_ifs <;> simp [Dev.lockPlls]

/-! ### Self-test (R455, R457, R458) -/

@[simp] theorem Dev.addItem_st (d : Dev) (i : Nat) (b : Bool) (u : Nat) : (d.addItem i b u).boot.st = d.boot.st := rfl

@[simp] theorem Dev.takeBankSpare_st (d : Dev) (die : Nat) : (d.takeBankSpare die).boot.st = d.boot.st := by
  unfold Dev.takeBankSpare; split <;> rfl

@[simp] theorem Dev.repairBank_st (d : Dev) (b : Nat) : (d.repairBank b).boot.st = d.boot.st := by
  unfold Dev.repairBank; split <;> simp [Dev.mapSpare]

theorem ite_st (c : Prop) [Decidable c] (a b : Dev) :
    (if c then a else b).boot.st = if c then a.boot.st else b.boot.st := apply_ite (fun d : Dev => d.boot.st) c a b

theorem Dev.testSpareBank_st (d : Dev) (i : Nat) : (d.testSpareBank i).boot.st = d.boot.st := by
  unfold Dev.testSpareBank
  dsimp only
  split <;> simp [ite_st]

theorem Dev.testBank_st (d : Dev) (b : Nat) : (d.testBank b).boot.st = d.boot.st := by
  unfold Dev.testBank; split <;> simp

theorem Dev.testSpareCore_st (d : Dev) (n : Nat) : (d.testSpareCore n).boot.st = d.boot.st := by
  unfold Dev.testSpareCore; dsimp only; split <;> rfl

theorem Dev.testCore_st (d : Dev) (n : Nat) : (d.testCore n).boot.st = d.boot.st := by
  unfold Dev.testCore; dsimp only; split_ifs <;> rfl

theorem Dev.testLaser_st (d : Dev) (e ix : Nat) : (d.testLaser e ix).boot.st = d.boot.st := by
  unfold Dev.testLaser; dsimp only; split_ifs <;> rfl

theorem foldl_st {α : Type} {g : Dev → α → Dev} (h : ∀ d a, (g d a).boot.st = d.boot.st) (l : List α) (d : Dev) :
    (l.foldl g d).boot.st = d.boot.st := foldl_keeps (fun e : Dev => e.boot.st) h l d

theorem Dev.setItem_st (d : Dev) (i : Nat) (r : ItemRes) : (d.setItem i r).boot.st = d.boot.st := rfl

/-- Self-test leaves the state of the device's start. -/
theorem Dev.selfTest_st (d : Dev) (r : SelfTestResult) : (d.selfTest r).boot.st = d.boot.st := by
  have spareLaser (e : Dev) (k ix : Nat) : (e.testSpareLaser k ix).boot.st = e.boot.st := rfl
  have optics (e : Dev) (x : Port × Bool) : (e.testOptics x).boot.st = e.boot.st := rfl
  have lane (e : Dev) (x : Port × Bool) : (e.testLane x).boot.st = e.boot.st := rfl
  have ring (e : Dev) (c : RingCal) : (e.setRing c.port.val c.ring
    { e.ring c.port.val c.ring with hcal := c.hcal, slope := c.slope }).boot.st = e.boot.st := rfl
  simp only [Dev.selfTest, ite_st, ite_self, Dev.setItem_st, foldl_st, Dev.testSpareBank_st, Dev.testBank_st,
    Dev.testSpareCore_st, Dev.testCore_st, Dev.testLaser_st, spareLaser, optics, lane, ring, implies_true]

/-- The end of self-test is the result's, with its PLLs locked. -/
theorem exec_selfTestComplete_ends {s : State} (r : SelfTestResult) (hAwake : s.d.awake = true)
    (hSt : s.d.boot.st = .selfTest) (hTrained : s.d.hl.trained = true) (hDone : s.d.boot.testDone = false) :
    exec (.selfTestComplete r) s = .next (s.put (let d := (s.d.selfTest r).lockPlls 0xFFFF00040000
      if r.svFail = 0 then d.enterSafeTalk d.testCause else d)) := by
  simp [exec, execSelfTestComplete, goto_eq, hAwake, hSt, hTrained, hDone]

theorem Dev.enterSafeTalk_boot (d : Dev) (cause : BitVec 4) :
    (d.enterSafeTalk cause).boot = { d.boot with st := .safeTalk, cause := cause } := by
  simp [Dev.enterSafeTalk, Dev.bootResult, Dev.mgStart]

theorem Dev.testCause_fatal {d : Dev} (h : (d.boot.items.any fun e => e.2.fatal != 0) = true) : d.testCause = 1 := by
  simp only [Dev.testCause, h, if_true, causeFatal]

theorem Dev.testCause_noOwner {d : Dev} (h : (d.boot.items.any fun e => e.2.fatal != 0) = false)
    (hOwners : d.fuses.validOwners = []) : d.testCause = 4 := by
  simp [Dev.testCause, h, hOwners, causeNoOwner]

theorem Dev.testCause_waits {d : Dev} (h : (d.boot.items.any fun e => e.2.fatal != 0) = false)
    (hOwners : d.fuses.validOwners ≠ []) :
    d.testCause = if d.boot.bootSrc = 0 then 0 else if d.boot.bootSrc = 3 then 5 else 2 := by
  simp [Dev.testCause, h, hOwners, waitCause, causeHold, causeNoImage]

end Sys2Proof.Machine

open Sys2Proof Sys2Proof.Machine

/-- Settles O8: each event by what it does, and the links that training can leave by their failed lanes. -/
theorem bootStages : Obligations.BootStages := by
  refine ⟨fun s => exec_internalResetRelease_leaves,
    fun s hPin => ⟨exec_internalResetRelease_held hPin, exec_resetNRelease_leaves hPin⟩,
    fun s b hAwake hSt hRef => ⟨_, exec_powerOnComplete_ends b hAwake hSt hRef, rfl, rfl⟩,
    ⟨fun s => exec_howlinkTrainingComplete_trains, fun r hMajor => ?_, rfl, ?_, ?_, ?_, ?_, ?_⟩,
    fun s r hAwake hSt hTrained hDone hPass => ?_, fun s r hAwake hSt hTrained hDone hFail => ?_,
    fun d => Dev.testCause_fatal, fun d => Dev.testCause_noOwner, fun d => Dev.testCause_waits⟩
  · simp [trainedLink, hMajor]
  · decide +kernel
  · decide +kernel
  · decide +kernel
  · decide +kernel
  · decide +kernel
  · have run := exec_selfTestComplete_ends r hAwake hSt hTrained hDone
    simp only [if_pos hPass] at run
    refine ⟨_, run, ?_⟩
    rw [State.put, Dev.enterSafeTalk_boot]
    exact ⟨rfl, rfl, rfl⟩
  · have run := exec_selfTestComplete_ends r hAwake hSt hTrained hDone
    simp only [if_neg hFail] at run
    exact ⟨_, run, (s.d.selfTest_st r).trans hSt, rfl⟩

end

section
/-! PROOF. Howlink loses lanes, goes down and comes up (R288, R289, R397). -/

namespace Sys2Proof.Machine

/-! ### Lanes (R288) -/

/-- The first lane that fails gives its place to the spare. -/
theorem exec_howlinkLaneFailure_spare {s : State} {l : Fin 17} (hAwake : s.d.awake = true)
    (hSv : s.d.svRuns 2 = true) (hTrained : s.d.hl.trained = true) (hSpare : s.d.hl.spareUsed = false)
    (hLanes : s.d.hl.lanes = 16) (hl : l.val < 16) :
    exec (.howlinkLaneFailure l) s = .next (s.put (Dev.faultRec
      { s.d with hl := { s.d.hl with spareUsed := true, failedLane := BitVec.ofNat 5 l.val } }
      3 8 l.val 0 2 0 16)) := by
  have carries : s.d.hl.carries l.val = true := by
    have data : l.val ≠ 16 := by omega
    simp [Howlink.carries, hSpare, hLanes, data]
  simp [exec, execHowlinkLaneFailure, goto_eq, hAwake, hSv, hTrained, carries, Howlink.loseLane, hSpare]

/-- With the spare in use the link runs on the half that holds no failed lane. -/
theorem exec_howlinkLaneFailure_half {s : State} {l : Fin 17} (hAwake : s.d.awake = true)
    (hSv : s.d.svRuns 2 = true) (hTrained : s.d.hl.trained = true) (hSpare : s.d.hl.spareUsed = true)
    (hLanes : s.d.hl.lanes = 16) (carries : s.d.hl.carries l.val = true) :
    exec (.howlinkLaneFailure l) s = .next (s.put ((({ s.d with
      hl := { s.d.hl with lanes := 8, upper := decide (s.d.hl.place l.val < 8) } } : Dev).event
        (.howlinkDegraded 8)).faultRec 4 8 l.val 0 4 0 0)) := by
  simp [exec, execHowlinkLaneFailure, goto_eq, hAwake, hSv, hTrained, carries, Howlink.loseLane, hSpare, hLanes]

/-! ### Howlink's event queue while the link is down (R289, R429) -/

theorem Dev.eventTo_howlinkQueue {d : Dev} (h : d.hl.up = false) (e : Ev) (src : Source) :
    (d.eventTo e src).cmd.evHowlink.queue = d.cmd.evHowlink.queue := by
  unfold Dev.eventTo
  dsimp only
  cases src with
  | howlink =>
    simp only [Dev.destUp, h, Bool.false_and, Bool.false_eq_true, if_false]
    split <;> rfl
  | mg0 => split_ifs <;> rfl
  | mg1 => split_ifs <;> rfl

theorem Dev.event_howlinkQueue {d : Dev} (h : d.hl.up = false) (e : Ev) :
    (d.event e).cmd.evHowlink.queue = d.cmd.evHowlink.queue := by
  unfold Dev.event
  split <;> simp [Dev.eventTo_howlinkQueue, h]

/-! ### Going down (R289, R397) -/

theorem Dev.abortOpen_hl (d : Dev) (src : Source) (cause : Nat) (dests : List Source) :
    (d.abortOpen src cause dests).hl = d.hl := by
  unfold Dev.abortOpen
  split
  · rfl
  · dsimp only
    split
    · exact foldl_keeps (fun e : Dev => e.hl) (fun e src => e.eventTo_hl _ src) ..
    · rfl

theorem Dev.abortOpen_howlinkQueue {d : Dev} (h : d.hl.up = false) (src : Source) (cause : Nat) :
    (d.abortOpen src cause [.mg0, .mg1]).cmd.evHowlink.queue = d.cmd.evHowlink.queue := by
  unfold Dev.abortOpen
  split
  · rfl
  · next t _ =>
    have down : (d.dropTxn src t.id).hl.up = false := h
    dsimp only
    split
    · simp only [List.foldl, Dev.eventTo_howlinkQueue, Dev.eventTo_hl, down]; rfl
    · rfl

theorem Dev.mbox_setMbox (d : Dev) (n m : Nat) (x : Mbox) :
    (d.setMbox n x).mbox m = if m = n then x else d.mbox m := by
  split_ifs with h
  · subst h; exact Tab.get_set_same ..
  · exact Tab.get_set_other _ _ _ _ h

/-- Freeing the locks of some mailboxes frees those alone. -/
theorem Dev.freeLocks_shape (l : List Nat) (d : Dev) :
    ∃ m, l.foldl (fun (d : Dev) (n : Nat) => d.setMbox n { d.mbox n with lock := 0 }) d = { d with mbx := m } ∧
      ∀ n, (({ d with mbx := m } : Dev).mbox n).lock = if n ∈ l then 0 else (d.mbox n).lock := by
  induction l generalizing d with
  | nil => exact ⟨_, rfl, fun _ => rfl⟩
  | cons k r ih =>
    obtain ⟨m, shape, freed⟩ := ih (d.setMbox k { d.mbox k with lock := 0 })
    refine ⟨m, shape, fun n => (freed n).trans ?_⟩
    rw [Dev.mbox_setMbox]
    by_cases hr : n ∈ r <;> by_cases hk : n = k <;> simp [hr, hk]

/-- Breaking the locks of some owners leaves no mailbox locked by one, changes no more than the mailboxes, a counter
and the event queues, and while Howlink is down not its queue. -/
theorem Dev.breakLocks_effect {d : Dev} (down : d.hl.up = false) {sel : Byte → Bool} (free : sel 0#8 = false) :
    (d.breakLocks fun _ o => sel o).hl = d.hl ∧
    (d.breakLocks fun _ o => sel o).cmd.evHowlink.queue = d.cmd.evHowlink.queue ∧
    ∀ n, n < 16 → sel ((d.breakLocks fun _ o => sel o).mbox n).lock = false := by
  have chosen (o : Byte) : (o != 0 && sel o) = sel o := by
    by_cases h : o = 0#8 <;> simp [h, free]
  unfold Dev.breakLocks
  simp only [chosen]
  obtain ⟨m, shape, freed⟩ := Dev.freeLocks_shape ((List.range 16).filter fun n => sel (d.mbox n).lock) d
  rw [shape]
  split
  · next none =>
    have unheld := List.filter_eq_nil_iff.mp (List.isEmpty_iff.mp none)
    exact ⟨rfl, rfl, fun n h => Bool.eq_false_iff.mpr (unheld n (List.mem_range.mpr h))⟩
  · refine ⟨by simp, Dev.event_howlinkQueue (by exact down) _, fun n h => ?_⟩
    rw [Dev.mbox, Dev.event_mbx, Dev.bumpBy_mbx]
    refine (congrArg sel (freed n)).trans ?_
    split_ifs with hn
    · exact free
    · simpa [h] using hn

/-- A fold of writes stores bytes and renews lines, and leaves the rest of memory's state. -/
theorem Dev.applyWrites_shape (l : List WaitWrite) (d : Dev) : ∃ c b,
    l.foldl (fun d w => d.applyWrite w.addr w.data) d = { d with mem := { d.mem with cells := c, badLines := b } } := by
  induction l generalizing d with
  | nil => exact ⟨_, _, rfl⟩
  | cons w r ih => exact (ih (d.applyWrite w.addr w.data)).imp fun _ => .imp fun _ h => h

/-- Howlink goes down: the link's own state first, then what it held is given back. -/
theorem Dev.howlinkDown_shape (d : Dev) : ∃ (d1 : Dev) (m : MemTier) (f : FaultSt),
    d.howlinkDown = { (d1.abortOpen .howlink 2 [.mg0, .mg1]).breakLocks (fun _ o => isAgentNo o) with
      mem := m, faults := f } ∧
    d1.hl = { d.hl with up := false } ∧ d1.cmd.evHowlink.queue = [] ∧ m.snoop = [] ∧ m.waits = [] := by
  refine ⟨_, _, _, (Dev.applyWrites_shape _ _).choose_spec.choose_spec, ?_⟩
  exact ⟨rfl, rfl, rfl, rfl⟩

/-- Howlink that has gone down holds nothing for the companion, and no agent's lock is held. -/
theorem Dev.howlinkDown_effect (d : Dev) : d.howlinkDown.hl = { d.hl with up := false } ∧
    d.howlinkDown.cmd.evHowlink.queue = [] ∧ d.howlinkDown.mem.snoop = [] ∧ d.howlinkDown.mem.waits = [] ∧
    ∀ n, n < 16 → isAgentNo (d.howlinkDown.mbox n).lock = false := by
  obtain ⟨d1, m, f, shape, hl, queue, snoop, waits⟩ := d.howlinkDown_shape
  have down : d1.hl.up = false := congrArg Howlink.up hl
  have aborted := d1.abortOpen_hl .howlink 2 [.mg0, .mg1]
  obtain ⟨hlKept, queueKept, freed⟩ :=
    Dev.breakLocks_effect ((congrArg Howlink.up aborted).trans down) (sel := isAgentNo) rfl
  rw [shape]
  exact ⟨hlKept.trans (aborted.trans hl), queueKept.trans ((Dev.abortOpen_howlinkQueue down _ _).trans queue),
    snoop, waits, freed⟩

theorem exec_howlinkLinkDown_goes {s : State} (hAwake : s.d.awake = true) (hUp : s.d.hl.up = true) :
    exec .howlinkLinkDown s = .next (s.put s.d.howlinkDown) := by
  simp [exec, execHowlinkLinkDown, goto_eq, hAwake, hUp]

/-! ### Coming up (R533) -/

/-- The interrupts of Howlink's return are messages alone. -/
theorem Dev.intOnUp_keeps (d : Dev) :
    d.intOnUp.hl = d.hl ∧ d.intOnUp.intPend = d.intPend ∧ d.intOnUp.mbx = d.mbx := by
  have keeps {γ : Type} (f : Dev → γ) (sent : ∀ (e : Dev) v, f (e.sendInt v) = f e) : f d.intOnUp = f d :=
    (foldl_keeps f (fun e i => by split_ifs <;> simp only [sent]) _ _).trans
      (foldl_keeps f (fun e n => by split_ifs <;> simp only [sent]) _ _)
  exact ⟨keeps Dev.hl Dev.sendInt_hl, keeps Dev.intPend Dev.sendInt_intPend, keeps Dev.mbx Dev.sendInt_mbx⟩

theorem exec_howlinkLinkUp_comes {s : State} (hAwake : s.d.awake = true) (hDown : s.d.hl.up = false)
    (hTrained : s.d.hl.trained = true) (hVersion : s.d.hl.verMismatch = false) (hLanes : s.d.hl.lanes ≠ 0) :
    exec .howlinkLinkUp s = .next (s.put ({ s.d with hl := { s.d.hl with up := true } } : Dev).intOnUp) := by
  simp [exec, execHowlinkLinkUp, goto_eq, hAwake, hDown, hTrained, hVersion, hLanes]

end Sys2Proof.Machine

open Sys2Proof Sys2Proof.Machine

/-- Settles O20: each event by what it does, going down by what it gives back. -/
theorem howlinkEvents : Obligations.HowlinkEvents := by
  refine ⟨fun s l hAwake hSv hTrained hSpare hLanes hl => ?_, fun s l hAwake hSv hTrained hSpare hLanes carries => ?_,
    fun s hAwake hUp => ⟨_, exec_howlinkLinkDown_goes hAwake hUp, s.d.howlinkDown_effect⟩,
    fun s hAwake hDown hTrained hVersion hLanes =>
      ⟨_, exec_howlinkLinkUp_comes hAwake hDown hTrained hVersion hLanes, Dev.intOnUp_keeps _⟩⟩
  · exact ⟨_, exec_howlinkLaneFailure_spare hAwake hSv hTrained hSpare hLanes hl, Dev.faultRec_hl ..,
      Dev.faultRec_fseq (by exact hSv) ..⟩
  · refine ⟨_, exec_howlinkLaneFailure_half hAwake hSv hTrained hSpare hLanes carries, ?_⟩
    simp [State.put]
end

section
/-! PROOF. An access of no bytes at all, which falls in the diagnostic window of the companion (R283, R290). -/

namespace Sys2Proof.Machine

/-- A range of no bytes is denied whatever its address (log entry 100). -/
@[simp] theorem Dev.memRight_zero (d : Dev) (a : Nat) : d.memRight a 0 = .denied := by simp [Dev.memRight]

/-- A read of no bytes that begins within the diagnostic window, or at its end, is one of that window and not of
a region: it answers no byte, whatever right the range has. -/
theorem exec_howlinkMemAccess_readNone {s : State} (a : BitVec 52) (hAwake : s.d.awake = true) (hUp : s.d.hl.up = true)
    (hFrom : diagBase ≤ a.toNat) (hTo : a.toNat ≤ diagBase + 0x1000) :
    exec (.howlinkMemAccess { write := false, addr := a, len := 0, data := [], cache := false }) s =
      .next (s.put (s.d.send (.memData []))) := by
  simp [exec, execHowlinkMemAccess, goto_eq, hAwake, hUp, hFrom, hTo, Dev.diagRead]

end Sys2Proof.Machine

open Sys2Proof Sys2Proof.Machine

/-- Refutes O24: the read of no bytes at 0x1000004001000, the end of the diagnostic window, has no right, yet the
window answers it with data. -/
theorem not_companionMemoryAccess : ¬ Obligations.CompanionMemoryAccess := by
  rintro ⟨-, -, -, -, refused, -⟩
  obtain ⟨t, run, sent, -⟩ :=
    refused State.reset 0x1000004001000#52 0 rfl rfl (.inr (by decide)) (Dev.memRight_zero ..)
  rw [exec_howlinkMemAccess_readNone _ rfl rfl (by decide) (by decide)] at run
  cases run
  cases sent
end

section
/-! PROOF. What leaves the bytes of board memory (R283): of each operation of the model that stores none of them, that
the listed cells are the same after it. -/

namespace Sys2Proof.Machine

/-! ### Branches, folds and what stands aside -/

@[simp] theorem ite_cells (c : Prop) [Decidable c] (a b : Dev) :
    (if c then a else b).mem.cells = if c then a.mem.cells else b.mem.cells :=
  apply_ite (fun d : Dev => d.mem.cells) c a b

@[simp] theorem ite_fst_cells {α : Type} (c : Prop) [Decidable c] (a b : Dev × α) :
    (if c then a else b).1.mem.cells = if c then a.1.mem.cells else b.1.mem.cells :=
  apply_ite (fun x : Dev × α => x.1.mem.cells) c a b

@[simp] theorem foldl_cells {α : Type} (l : List α) (d : Dev) {g : Dev → α → Dev}
    (h : ∀ d a, (g d a).mem.cells = d.mem.cells) : (l.foldl g d).mem.cells = d.mem.cells :=
  foldl_keeps (fun e : Dev => e.mem.cells) h l d

@[simp] theorem foldl_fst_cells {α β : Type} (l : List α) (x : Dev × β) {g : Dev × β → α → Dev × β}
    (h : ∀ x a, (g x a).1.mem.cells = x.1.mem.cells) : (l.foldl g x).1.mem.cells = x.1.mem.cells :=
  foldl_keeps (fun y : Dev × β => y.1.mem.cells) h l x

theorem Dev.Aside.cells {cs : Set Nat} {d e : Dev} (h : d.Aside cs e) : e.mem.cells = d.mem.cells :=
  congrArg MemTier.cells h.mem

section
variable (d : Dev)

/-! ### Registers, events and replies -/

@[simp] theorem Dev.writeReg_cells (r : RegDef) (off v : Nat) : (d.writeReg r off v).mem.cells = d.mem.cells := rfl
@[simp] theorem Dev.setRegBit_cells (off i : Nat) (b : Bool) : (d.setRegBit off i b).mem.cells = d.mem.cells := rfl
@[simp] theorem Dev.draw_cells : d.draw.2.mem.cells = d.mem.cells := rfl
@[simp] theorem Dev.drawBit_cells : d.drawBit.2.mem.cells = d.mem.cells := rfl
@[simp] theorem Dev.faultSent_cells (e : Ev) : (d.faultSent e).mem.cells = d.mem.cells := by
  unfold Dev.faultSent
  split <;> simp

@[simp] theorem Dev.recordFault_cells (cls unit_ index sub action left detail : Nat) :
    (d.recordFault cls unit_ index sub action left detail).mem.cells = d.mem.cells := by simp [Dev.recordFault]
@[simp] theorem Dev.hold_cells (c : CmdCtx) (op : Nat) (w : HeldFor) :
    (d.hold c op w).1.mem.cells = d.mem.cells := by simp [Dev.hold]
@[simp] theorem Dev.holdReply_cells (c : CmdCtx) (op : Nat) (w : HeldFor) :
    (d.holdReply c op w).1.mem.cells = d.mem.cells := rfl
@[simp] theorem Dev.finishFor_cells (w : HeldFor) (st : Status) (r : Res) :
    (d.finishFor w st r).mem.cells = d.mem.cells := by simp [Dev.finishFor]

/-! ### The central store -/

@[simp] theorem Dev.lostInBank_cells (bank : Nat) :
    (d.lostInBank bank).mem.cells = d.mem.cells := by simp [Dev.lostInBank]
@[simp] theorem Dev.lostInRow_cells (array index : Nat) :
    (d.lostInRow array index).mem.cells = d.mem.cells := by simp [Dev.lostInRow]
@[simp] theorem Dev.bankCorrected_cells (bank : Nat) :
    (d.bankCorrected bank).mem.cells = d.mem.cells := by simp [Dev.bankCorrected]
@[simp] theorem Dev.readCell_cells (cell : Nat) : (d.readCell cell).1.mem.cells = d.mem.cells := by
  unfold Dev.readCell
  split <;> simp

@[simp] theorem Dev.readList_cells (l : List Nat) : (d.readList l).1.mem.cells = d.mem.cells := by
  induction l generalizing d with
  | nil => rfl
  | cons c r ih => simp [Dev.readList, ih]

@[simp] theorem Dev.readRecord_cells (array index : Nat) : (d.readRecord array index).1.mem.cells = d.mem.cells := by
  unfold Dev.readRecord
  split <;> simp

@[simp] theorem Dev.readRecords_cells (fid : Nat) :
    (d.readRecords fid).1.mem.cells = d.mem.cells := by simp [Dev.readRecords]
@[simp] theorem Dev.readCells_cells (fid i n : Nat) : (d.readCells fid i n).1.mem.cells = d.mem.cells := by
  unfold Dev.readCells
  split <;> simp

@[simp] theorem Dev.setQueue_cells (t : Dest) (cls : Nat) (l : List Copy) :
    (d.setQueue t cls l).mem.cells = d.mem.cells := by simp [Dev.setQueue]
@[simp] theorem Dev.countQ_cells (t : Dest) (cls : Nat) (f : QCount → QCount) :
    (d.countQ t cls f).mem.cells = d.mem.cells := rfl
@[simp] theorem Dev.countP_cells (part : Nat) (f : PCount → PCount) : (d.countP part f).mem.cells = d.mem.cells := rfl
@[simp] theorem Dev.dmaSend_cells (a : Nat) (bytes : List Byte) :
    (d.dmaSend a bytes).mem.cells = d.mem.cells := by simp [Dev.dmaSend]
@[simp] theorem Dev.writeBack_cells (r pos : Nat) (bytes : List Byte) :
    (d.writeBack r pos bytes).mem.cells = d.mem.cells := by simp [Dev.writeBack]
@[simp] theorem Dev.release_cells (fid : Nat) : (d.release fid).mem.cells = d.mem.cells :=
  (d.aside_release ∅ fid).cells

@[simp] theorem Dev.gleanAdd_cells (sampler : Nat) (b : GleanBody) :
    (d.gleanAdd sampler b).mem.cells = d.mem.cells := (d.aside_gleanAdd ..).cells
@[simp] theorem Dev.gleanTake_cells (sampler : Nat) : (d.gleanTake sampler).mem.cells = d.mem.cells := by
  unfold Dev.gleanTake
  split <;> simp

@[simp] theorem Dev.gleanDrain_cells : d.gleanDrain.mem.cells = d.mem.cells := by simp [Dev.gleanDrain]
@[simp] theorem Dev.gleanFrame_cells (fid : Nat) (c : Copy) (outcome : Nat) (cut ce : Bool) :
    (d.gleanFrame fid c outcome cut ce).mem.cells = d.mem.cells := (d.aside_gleanFrame ..).cells
@[simp] theorem Dev.dropCopies_cells (l : List Copy) (outcome : Nat) :
    (d.dropCopies l outcome).mem.cells = d.mem.cells := by simp [Dev.dropCopies]
@[simp] theorem Dev.ageOut_cells (c : Copy) : (d.ageOut c).mem.cells = d.mem.cells := by simp [Dev.ageOut]
@[simp] theorem Dev.setSending_cells (l : Nat) (x : List Sending) : (d.setSending l x).mem.cells = d.mem.cells := rfl
@[simp] theorem Dev.flushPort_cells (l : Nat) : (d.flushPort l).mem.cells = d.mem.cells := by simp [Dev.flushPort]
@[simp] theorem Dev.failFrame_cells (fid outcome : Nat) :
    (d.failFrame fid outcome).mem.cells = d.mem.cells := by simp [Dev.failFrame]
@[simp] theorem Dev.emit_cells (p : Nat) (o : Out) (l : List Instr) :
    (d.emit p o l).mem.cells = d.mem.cells := by simp [Dev.emit]
@[simp] theorem Dev.chargeShapers_cells (l c len : Nat) :
    (d.chargeShapers l c len).mem.cells = d.mem.cells := (d.aside_chargeShapers ∅ l c len).cells

@[simp] theorem Dev.gleanNow_cells (f : Frame) (eg outcome : Nat) :
    (d.gleanNow f eg outcome).mem.cells = d.mem.cells := by simp [Dev.gleanNow]

/-! ### Forwarding lookup -/

@[simp] theorem Dev.countEpoch_cells (k off : Nat) :
    (d.countEpoch k off).mem.cells = d.mem.cells := by simp [Dev.countEpoch]
@[simp] theorem Dev.tableEcc_cells (k : Nat) (t : TableId) (ix : Nat) :
    (d.tableEcc k t ix).mem.cells = d.mem.cells := (d.aside_tableEcc ..).cells
@[simp] theorem Dev.tableRead_cells (k : Nat) (num : Bool) (t : TableId) (ix : Nat) :
    (d.tableRead k num t ix).1.mem.cells = d.mem.cells := (d.aside_tableRead ..).cells
@[simp] theorem Dev.tableReads_cells (k : Nat) (num : Bool) (t : TableId) (l : List Nat) :
    (d.tableReads k num t l).1.mem.cells = d.mem.cells := by
  induction l generalizing d with
  | nil => rfl
  | cons i r ih => simp [Dev.tableReads, ih]

@[simp] theorem Dev.partView_cells (k : Nat) (b : Bank) (part : Nat) :
    (d.partView k b part).1.mem.cells = d.mem.cells := (d.aside_partView ..).cells
@[simp] theorem Dev.emLookup_cells (k : Nat) (b : Bank) (key : BitVec 48) :
    (d.emLookup k b key).1.mem.cells = d.mem.cells := (d.aside_emLookup ..).cells
@[simp] theorem Dev.routeLookup_cells (k : Nat) (b : Bank) (leaf : Nat) :
    (d.routeLookup k b leaf).1.mem.cells = d.mem.cells := (d.aside_routeLookup ..).cells
@[simp] theorem Dev.hit_cells (k : Nat) (key : BitVec 48) : (d.hit k key).mem.cells = d.mem.cells := rfl
@[simp] theorem Dev.readSet_cells (k : Nat) (b : Bank) (n : Nat) :
    (d.readSet k b n).1.mem.cells = d.mem.cells := (d.aside_readSet ..).cells
@[simp] theorem Dev.lookup_cells (k : Nat) (b : Bank) (h : Header) (arr : Option Nat) :
    (d.lookup k b h arr).1.mem.cells = d.mem.cells := (d.looksUp_lookup ..).aside.cells
@[simp] theorem Dev.police_cells (arr : Option (Nat × Nat)) (cls part len : Nat) :
    (d.police arr cls part len).1.mem.cells = d.mem.cells := by
  unfold Dev.police
  split <;> simp

@[simp] theorem Dev.queueLearn_cells (k : Nat) (e : LearnEv) (port : Nat) :
    (d.queueLearn k e port).mem.cells = d.mem.cells := by simp [Dev.queueLearn]
@[simp] theorem Dev.natural_cells (k : Nat) (b : Bank) (src : BitVec 24) (l : Nat) :
    (d.natural k b src l).1.mem.cells = d.mem.cells := by
  unfold Dev.natural
  dsimp only
  split <;> simp

@[simp] theorem Dev.sourceLookup_cells (b : Bank) (h : Header) (p l : Nat) :
    (d.sourceLookup b h p l).mem.cells = d.mem.cells := by
  unfold Dev.sourceLookup
  dsimp only
  split
  · rfl
  · cases (d.emLookup (p / 32) b (keyEndpoint h.part h.src)).2 <;> simp

/-! ### Arriving frames -/

@[simp] theorem Dev.gleanStart_cells (h : Header) (cls sampler : Nat) (arr : Option Nat) (eg : Option Dest) :
    (d.gleanStart h cls sampler arr eg).1.mem.cells = d.mem.cells := (d.aside_gleanStart ∅ h cls sampler arr eg).cells

@[simp] theorem Dev.admitCopies_cells (b : Bank) (f : Frame) (dests : List Dest) (cls : Nat) (sample cut : Bool) :
    (d.admitCopies b f dests cls sample cut).1.mem.cells = d.mem.cells := (d.aside_admitCopies ..).cells
@[simp] theorem Dev.featureDrop_cells (kind : Nat) (dests : List Dest) :
    (d.featureDrop kind dests).1.mem.cells = d.mem.cells := (d.aside_featureDrop ..).cells
@[simp] theorem Dev.postPassing_cells (f : Frame) :
    (d.postPassing f).mem.cells = d.mem.cells := by simp [Dev.postPassing]
@[simp] theorem Dev.forward_cells (ck : Nat) (b : Bank) (f : Frame) (cls : Nat) (lk : Lk) (police cut looked : Bool) :
    (d.forward ck b f cls lk police cut looked).1.mem.cells = d.mem.cells := by
  unfold Dev.forward
  split
  · split <;> simp
  · split <;> simp

@[simp] theorem Dev.take_cells (k : Nat) (t : Taken) : (d.take k t).mem.cells = d.mem.cells := rfl
@[simp] theorem Dev.build_cells (k : Nat) (h : Header) (payload : List Byte) :
    (d.build k h payload).mem.cells = d.mem.cells := (d.aside_build ..).cells
@[simp] theorem Dev.buildTo_cells (l : Nat) (h : Header) (payload : List Byte) :
    (d.buildTo l h payload).mem.cells = d.mem.cells := (d.aside_buildTo ..).cells
@[simp] theorem Dev.ingress_cells (p l : Nat) (h : Header) :
    (d.ingress p l h).1.mem.cells = d.mem.cells := by simp [Dev.ingress]
@[simp] theorem Dev.notice_cells (p l : Nat) (h : Header) :
    (d.notice p l h).mem.cells = d.mem.cells := by simp [Dev.notice]
@[simp] theorem Dev.takeHeader_cells (p : Nat) (h : Header) : (d.takeHeader p h).mem.cells = d.mem.cells := by
  have taken := d.ingress_cells p (d.logical p) h
  unfold Dev.takeHeader
  dsimp only
  split
  next e _ read => rw [read] at taken; split <;> simpa using taken
  next e read => rw [read] at taken; simpa using taken

@[simp] theorem Dev.dataBlock_cells (p : Nat) : (d.dataBlock p).mem.cells = d.mem.cells := by
  unfold Dev.dataBlock
  dsimp only
  split <;> simp

@[simp] theorem Dev.writeCopies_cells (p : Nat) : (d.writeCopies p).mem.cells = d.mem.cells :=
  foldl_cells _ _ fun _ _ => rfl

@[simp] theorem Dev.returnHeader_cells (p : Nat) (h : Header) :
    (d.returnHeader p h).mem.cells = d.mem.cells := by simp [Dev.returnHeader]
@[simp] theorem Dev.bwAdd_cells (p : Nat) (isRx : Bool) (era stamp bytes : Nat) :
    (d.bwAdd p isRx era stamp bytes).mem.cells = d.mem.cells := by
  unfold Dev.bwAdd
  split <;> rfl

@[simp] theorem Dev.frameWhole_cells (payload : List Byte) (e2e : Word) (ptp : Bool) (fid : Nat) :
    (d.frameWhole payload e2e ptp fid).mem.cells = d.mem.cells := by simp [Dev.frameWhole]
@[simp] theorem Dev.failRx_cells (p : Nat) : (d.failRx p).mem.cells = d.mem.cells := by
  unfold Dev.failRx
  split <;> simp

@[simp] theorem Dev.noteCut_cells (r : RxFrame) (payload : List Byte) (e2e : Word) :
    (d.noteCut r payload e2e).mem.cells = d.mem.cells := rfl
@[simp] theorem Dev.goodFrame_cells (p : Nat) (r : RxFrame) (payload : List Byte) (e2e : Word) :
    (d.goodFrame p r payload e2e).mem.cells = d.mem.cells := by
  unfold Dev.goodFrame
  split
  · simp
  · split <;> simp

/-! ### Egress -/

@[simp] theorem Dev.readOn_cells (x : Sending) (n : Nat) :
    (d.readOn x n).1.mem.cells = d.mem.cells := by simp [Dev.readOn]
@[simp] theorem Dev.readQueued_cells (t : Dest) (fid : Nat) :
    (d.readQueued t fid).1.mem.cells = d.mem.cells := by simp [Dev.readQueued]
@[simp] theorem Dev.dropUncorr_cells (c : Copy) : (d.dropUncorr c).mem.cells = d.mem.cells := by simp [Dev.dropUncorr]
@[simp] theorem Dev.beginCopy_cells (l : Nat) (x : Sending) :
    (d.beginCopy l x).1.mem.cells = d.mem.cells := by simp [Dev.beginCopy]
@[simp] theorem Dev.begun_cells (l : Nat) (x : Sending) :
    (d.begun l x).1.mem.cells = d.mem.cells := by simp [Dev.begun]
@[simp] theorem Dev.popQueue_cells (t : Dest) (cls : Nat) : (d.popQueue t cls).mem.cells = d.mem.cells := rfl
@[simp] theorem Dev.startCopy_cells (l : Nat) (c : Copy) (ce launch late : Bool) :
    (d.startCopy l c ce launch late).mem.cells = d.mem.cells := by
  unfold Dev.startCopy
  split <;> simp

@[simp] theorem Dev.ageSelected_cells (c : Copy) :
    (d.ageSelected c).mem.cells = d.mem.cells := by simp [Dev.ageSelected]
@[simp] theorem Dev.sendSelected_cells (l : Nat) (c : Copy) (ce launch late : Bool) :
    (d.sendSelected l c ce launch late).mem.cells = d.mem.cells := by
  unfold Dev.sendSelected
  split
  · simp
  · split <;> simp

@[simp] theorem Dev.selectFromClasses_cells (l : Nat) : (d.selectFromClasses l).mem.cells = d.mem.cells := by
  unfold Dev.selectFromClasses
  split
  · rfl
  · split <;> simp

@[simp] theorem Dev.scanHeads_cells : d.scanHeads.mem.cells = d.mem.cells := by simp [Dev.scanHeads]
@[simp] theorem Dev.rebuild_cells (f : Frame) (x : Sending) : (d.rebuild f x).1.mem.cells = d.mem.cells := rfl
@[simp] theorem Dev.noteSent_cells (n : Nat) (stamp : Option Nat) (late : Bool) :
    (d.noteSent n stamp late).mem.cells = d.mem.cells := (d.aside_noteSent ∅ n stamp late).cells

@[simp] theorem Dev.carried_cells (x : Sending) (f : Frame) : (d.carried x f).2.mem.cells = d.mem.cells := by
  unfold Dev.carried
  dsimp only
  split_ifs <;> simp

@[simp] theorem Dev.finishCopy_cells (p l : Nat) (x : Sending) (r : List Sending) :
    (d.finishCopy p l x r).mem.cells = d.mem.cells := by
  unfold Dev.finishCopy
  split
  · simp
  · simp only [Dev.release_cells, ite_cells, Dev.bumpBy_mem, Dev.bump_mem, Dev.bwAdd_cells, Dev.noteSent_cells,
      ite_self, Dev.countQ_cells, Dev.emit_cells, Dev.setSending_cells]
    cases d.owesRebuild x <;> dsimp only <;> split <;> simp

@[simp] theorem Dev.ageFrom_cells (fid t : Nat) : (d.ageFrom fid t).mem.cells = d.mem.cells := rfl
@[simp] theorem Dev.launchDown_cells (c : Copy) : (d.launchDown c).mem.cells = d.mem.cells := by simp [Dev.launchDown]
@[simp] theorem Dev.launchRelease_cells (p l : Nat) : (d.launchRelease p l).mem.cells = d.mem.cells := by
  unfold Dev.launchRelease
  split
  · dsimp only
    split <;> simp
  · dsimp only
    split <;> simp

@[simp] theorem Dev.takeDesc_cells (r : Nat) : (d.takeDesc r).1.mem.cells = d.mem.cells := rfl
@[simp] theorem Dev.postLaunch_cells (f : Frame) (l t r pos : Nat) :
    (d.postLaunch f l t r pos).mem.cells = d.mem.cells := by
  unfold Dev.postLaunch
  dsimp only
  generalize (if d.regBits baseTime 63 48 = 0 then 1 else if 1000 < d.regBits baseTime 63 48 then 1000
    else d.regBits baseTime 63 48) = ms
  split_ifs
  · simp
  · simp
  · simp
  · split <;> simp
  · split <;> simp

@[simp] theorem Dev.postFrame_cells (f : Frame) (port r pos : Nat) :
    (d.postFrame f port r pos).mem.cells = d.mem.cells := by
  unfold Dev.postFrame
  split
  · split
    · simp
    · dsimp only
      split
      · simp
      · split <;> simp
  · split
    · simp
    · dsimp only
      split
      · simp
      · split <;> simp

@[simp] theorem Dev.deliver_cells (f : Frame) (desc : RxDesc) :
    (d.deliver f desc).mem.cells = d.mem.cells := by simp [Dev.deliver]

/-! ### Chunks of contexts -/

@[simp] theorem Dev.modCtx_cells (c : Nat) (f : Ctx → Ctx) : (d.modCtx c f).mem.cells = d.mem.cells := rfl
@[simp] theorem Dev.modChunk_cells (cid : Nat) (seq : Word) (f : Chunk → Chunk) :
    (d.modChunk cid seq f).mem.cells = d.mem.cells := rfl
@[simp] theorem Dev.modCounts_cells (cid : Nat) (f : CtxCounts → CtxCounts) :
    (d.modCounts cid f).mem.cells = d.mem.cells := rfl
@[simp] theorem Dev.sendNack_cells (cid : Nat) (own : Bool) (part : BitVec 12) (job : BitVec 16) (l : Nat)
    (seq : Word) (kind : Nat) (rh : Bool) :
    (d.sendNack cid own part job l seq kind rh).mem.cells = d.mem.cells := by
  unfold Dev.sendNack
  split <;> simp

@[simp] theorem Dev.ctxNack_cells (cid l : Nat) (seq : Word) (kind : Nat) (rh : Bool) :
    (d.ctxNack cid l seq kind rh).mem.cells = d.mem.cells := by
  unfold Dev.ctxNack
  split <;> simp

@[simp] theorem Dev.ctxNacks_cells (cid : Nat) (ports : List Nat) (seq : Word) (kind : Nat) (rh : Bool) :
    (d.ctxNacks cid ports seq kind rh).mem.cells = d.mem.cells := by simp [Dev.ctxNacks]
@[simp] theorem Dev.finishChunk_cells (cid : Nat) (x : Chunk) (isDone : Bool) (linger : Option Linger) :
    (d.finishChunk cid x isDone linger).mem.cells = d.mem.cells := rfl
@[simp] theorem Dev.abandonChunk_cells (cid : Nat) (x : Chunk) (ports : List Nat) :
    (d.abandonChunk cid x ports).mem.cells = d.mem.cells := by simp [Dev.abandonChunk]
@[simp] theorem Dev.abandonAll_cells (cid : Nat) (x : Chunk) : (d.abandonAll cid x).mem.cells = d.mem.cells := by
  unfold Dev.abandonAll
  split <;> simp

@[simp] theorem Dev.countFlags_cells (cid : Nat) (fl : Fl) :
    (d.countFlags cid fl).mem.cells = d.mem.cells := (d.aside_countFlags ..).cells
@[simp] theorem Dev.encodeChunk_cells (cid : Nat) (root : Bool) (x : Chunk) :
    (d.encodeChunk cid root x).1.mem.cells = d.mem.cells := by simp [Dev.encodeChunk]
@[simp] theorem Dev.emitPartial_cells (cid : Nat) (x : Chunk) : (d.emitPartial cid x).mem.cells = d.mem.cells := by
  unfold Dev.emitPartial
  split <;> simp

@[simp] theorem Dev.markRehomed_cells (cid : Nat) (x : Chunk) : (d.markRehomed cid x).1.mem.cells = d.mem.cells := rfl
@[simp] theorem Dev.partialReady_cells (cid : Nat) (x : Chunk) : (d.partialReady cid x).mem.cells = d.mem.cells := by
  unfold Dev.partialReady
  split <;> simp

@[simp] theorem Dev.rehome_cells (cid : Nat) (x : Chunk) : (d.rehome cid x).mem.cells = d.mem.cells := by
  unfold Dev.rehome
  split <;> simp

@[simp] theorem Dev.sendResultNack_cells (cid : Nat) (c : Ctx) (seq : Word) (rh : Bool) :
    (d.sendResultNack cid c seq rh).mem.cells = d.mem.cells := by simp [Dev.sendResultNack]
@[simp] theorem Dev.endLinger_cells (cid : Nat) (seq : Word) : (d.endLinger cid seq).mem.cells = d.mem.cells := rfl
@[simp] theorem Dev.evictLinger_cells (cap size used : Nat) (l : List (Nat × Word × Linger)) :
    (d.evictLinger cap size used l).mem.cells = d.mem.cells := by
  induction l generalizing d used with
  | nil => rfl
  | cons x r ih => simp [Dev.evictLinger, ih]

@[simp] theorem Dev.keepLinger_cells (cid : Nat) (e : CtxEntry) (payload : List Byte) (sub : BitVec 8) :
    (d.keepLinger cid e payload sub).1.mem.cells = d.mem.cells := by simp [Dev.keepLinger]
@[simp] theorem Dev.resendResult_cells (cid : Nat) (c : Ctx) (seq : Word) (x : Linger) (l : Nat) :
    (d.resendResult cid c seq x l).mem.cells = d.mem.cells := by simp [Dev.resendResult]
@[simp] theorem Dev.completeRoot_cells (cid : Nat) (x : Chunk) : (d.completeRoot cid x).mem.cells = d.mem.cells := by
  unfold Dev.completeRoot
  split <;> simp

@[simp] theorem Dev.endForPort_cells (cid : Nat) (c : Ctx) (x : Chunk) (l : Nat) :
    (d.endForPort cid c x l).mem.cells = d.mem.cells := by simp [Dev.endForPort]
@[simp] theorem Dev.portLeftCtx_cells (l cid : Nat) : (d.portLeftCtx l cid).mem.cells = d.mem.cells := by
  unfold Dev.portLeftCtx
  split <;> simp

@[simp] theorem Dev.portLeft_cells (l : Nat) : (d.portLeft l).mem.cells = d.mem.cells := by simp [Dev.portLeft]
@[simp] theorem Dev.fenceLeft_cells (before : Nat → Nat → Bool) :
    (d.fenceLeft before).mem.cells = d.mem.cells := by simp [Dev.fenceLeft]

/-! ### Ports, rings and lasers -/

@[simp] theorem Dev.setLaser_cells (e ix : Nat) (x : Laser) : (d.setLaser e ix x).mem.cells = d.mem.cells := rfl
@[simp] theorem Dev.setSpare_cells (e f : Nat) (x : Spare) : (d.setSpare e f x).mem.cells = d.mem.cells := rfl
@[simp] theorem Dev.setRing_cells (p : Nat) (r : Ring) (x : RingSt) :
    (d.setRing p r x).mem.cells = d.mem.cells := by simp [Dev.setRing]
@[simp] theorem Dev.mapRings_cells (p : Nat) (f : RingSt → RingSt) : (d.mapRings p f).mem.cells = d.mem.cells := rfl
@[simp] theorem Dev.lightPort_cells (p : Nat) (lit : Bool) : (d.lightPort p lit).mem.cells = d.mem.cells := rfl
@[simp] theorem Dev.crossFloor_cells (floor value unit_ index : Nat) :
    (d.crossFloor floor value unit_ index).mem.cells = d.mem.cells := by simp [Dev.crossFloor]
@[simp] theorem Dev.checkFiber_cells (p : Nat) : (d.checkFiber p).mem.cells = d.mem.cells := by simp [Dev.checkFiber]
@[simp] theorem Dev.sendLink_cells (p : Nat) (bytes : List Byte) :
    (d.sendLink p bytes).mem.cells = d.mem.cells := by simp [Dev.sendLink]
@[simp] theorem Dev.echo_cells (p : Nat) (known : List Byte) :
    (d.echo p known).mem.cells = d.mem.cells := by simp [Dev.echo]
@[simp] theorem Dev.sendPair_cells (p : Nat) : (d.sendPair p).mem.cells = d.mem.cells := by simp [Dev.sendPair]
@[simp] theorem Dev.sendPattern_cells (p : Nat) :
    (d.sendPattern p).mem.cells = d.mem.cells := by simp [Dev.sendPattern]
@[simp] theorem Dev.toTest_cells (p : Nat) (pat : PrbsPattern) :
    (d.toTest p pat).mem.cells = d.mem.cells := by simp [Dev.toTest]
@[simp] theorem Dev.joinLoop_cells (p : Nat) : (d.joinLoop p).mem.cells = d.mem.cells := rfl
@[simp] theorem Dev.setDown_cells (p reason : Nat) :
    (d.setDown p reason).mem.cells = d.mem.cells := by simp [Dev.setDown]
@[simp] theorem Dev.degraded_cells (p step action capacity : Nat) :
    (d.degraded p step action capacity).mem.cells = d.mem.cells := by simp [Dev.degraded]
@[simp] theorem Dev.toDetect_cells (p : Nat) : (d.toDetect p).mem.cells = d.mem.cells := by simp [Dev.toDetect]
@[simp] theorem Dev.exitCommon_cells (p code : Nat) :
    (d.exitCommon p code).mem.cells = d.mem.cells := by simp [Dev.exitCommon]
@[simp] theorem Dev.sendLinkDown_cells (p code : Nat) :
    (d.sendLinkDown p code).mem.cells = d.mem.cells := by simp [Dev.sendLinkDown]
@[simp] theorem Dev.exitToDetect_cells (p code : Nat) (tx : Bool) :
    (d.exitToDetect p code tx).mem.cells = d.mem.cells := by simp [Dev.exitToDetect]
@[simp] theorem Dev.enterExchange_cells (p : Nat) :
    (d.enterExchange p).mem.cells = d.mem.cells := by simp [Dev.enterExchange]
@[simp] theorem Dev.putSwap_cells (e : Nat) (s : Option Swap) : (d.putSwap e s).mem.cells = d.mem.cells := rfl
@[simp] theorem Dev.swapReply_cells (p : Nat) (st : Status) :
    (d.swapReply p st).mem.cells = d.mem.cells := by simp [Dev.swapReply]
@[simp] theorem Dev.startSwap_cells (p : Nat) (dead : Bool) :
    (d.startSwap p dead).mem.cells = d.mem.cells := by simp [Dev.startSwap]
@[simp] theorem Dev.fadeSwap_cells (p : Nat) : (d.fadeSwap p).mem.cells = d.mem.cells := by simp [Dev.fadeSwap]
@[simp] theorem Dev.resumeSwapsBut_cells (e : Nat) (but : Option Nat) :
    (d.resumeSwapsBut e but).mem.cells = d.mem.cells := by
  unfold Dev.resumeSwapsBut
  dsimp only
  split
  · simp
  · split <;> simp

@[simp] theorem Dev.resumeSwaps_cells (e : Nat) :
    (d.resumeSwaps e).mem.cells = d.mem.cells := by simp [Dev.resumeSwaps]
@[simp] theorem Dev.finishSwap_cells (e : Nat) (s : Swap) (paused : Option Nat) :
    (d.finishSwap e s paused).mem.cells = d.mem.cells := by
  unfold Dev.finishSwap
  split <;> simp

@[simp] theorem Dev.dropSwapBut_cells (e : Nat) (s : Swap) (spareFails : Bool) (st : Status) (but : Option Nat) :
    (d.dropSwapBut e s spareFails st but).mem.cells = d.mem.cells := by simp [Dev.dropSwapBut]
@[simp] theorem Dev.dropSwap_cells (e : Nat) (s : Swap) (spareFails : Bool) (st : Status) :
    (d.dropSwap e s spareFails st).mem.cells = d.mem.cells := by simp [Dev.dropSwap]
@[simp] theorem Dev.abandonSwap_cells (p : Nat) : (d.abandonSwap p).mem.cells = d.mem.cells := by
  unfold Dev.abandonSwap
  split
  · split <;> simp
  · rfl

@[simp] theorem Dev.giveUpSwap_cells (p : Nat) : (d.giveUpSwap p).mem.cells = d.mem.cells := by
  unfold Dev.giveUpSwap
  split
  · split <;> simp
  · rfl

@[simp] theorem Dev.settleSwap_cells (p : Nat) : (d.settleSwap p).mem.cells = d.mem.cells := by
  unfold Dev.settleSwap
  split
  · split <;> simp
  · rfl

@[simp] theorem Dev.takeMode_cells (p : Nat) (m : NewMode) :
    (d.takeMode p m).mem.cells = d.mem.cells := by simp [Dev.takeMode]
@[simp] theorem Dev.takeHalf_cells (p : Nat) : (d.takeHalf p).mem.cells = d.mem.cells := by simp [Dev.takeHalf]
@[simp] theorem Dev.startDrain_cells (p : Nat) (why : DrainWhy) :
    (d.startDrain p why).mem.cells = d.mem.cells := by simp [Dev.startDrain]
@[simp] theorem Dev.endDrain_cells (p : Nat) (early : Option Nat) : (d.endDrain p early).mem.cells = d.mem.cells := by
  unfold Dev.endDrain
  dsimp only
  cases (d.port p).drain.getD .restart with
  | mode => dsimp only; split <;> simp
  | swap => dsimp only; split <;> simp
  | _ => simp

@[simp] theorem Dev.lose_cells (p code : Nat) (withTrain tx : Bool) :
    (d.lose p code withTrain tx).mem.cells = d.mem.cells := by
  unfold Dev.lose
  split <;> simp

@[simp] theorem Dev.goDown_cells (p reason code : Nat) (tx : Bool) :
    (d.goDown p reason code tx).mem.cells = d.mem.cells := by
  unfold Dev.goDown
  dsimp only
  cases (d.port p).st <;> simp

@[simp] theorem Dev.trainFail_cells (p : Nat) : (d.trainFail p).mem.cells = d.mem.cells := by simp [Dev.trainFail]
@[simp] theorem Dev.enterActive_cells (p : Nat) :
    (d.enterActive p).mem.cells = d.mem.cells := by simp [Dev.enterActive]
@[simp] theorem Dev.enterPlan_cells (p : Nat) (s : PortState) :
    (d.enterPlan p s).mem.cells = d.mem.cells := by simp [Dev.enterPlan]
@[simp] theorem Dev.bindTo_cells (p l : Nat) : (d.bindTo p l).mem.cells = d.mem.cells := by simp [Dev.bindTo]
@[simp] theorem Dev.evaluate_cells (n : Nat) (d : Dev) (p : Nat) : (Dev.evaluate n d p).mem.cells = d.mem.cells := by
  induction n generalizing d p with
  | zero => rfl
  | succ n ih =>
    unfold Dev.evaluate
    dsimp only
    split
    · rfl
    · split <;> simp [ih]

@[simp] theorem Dev.replan_cells (was : Nat → PlanEntry) (d : Dev) : (Dev.replan was d).mem.cells = d.mem.cells := by
  simp [Dev.replan]

/-! ### Board memory and Thresh -/

@[simp] theorem Dev.setExpander_cells (e : Nat) (x : Expander) : (d.setExpander e x).mem.cells = d.mem.cells := by
  unfold Dev.setExpander
  split <;> rfl

@[simp] theorem Dev.startRetire_cells (a : Nat) :
    (d.startRetire a).mem.cells = d.mem.cells := by simp [Dev.startRetire]
@[simp] theorem Dev.setJob_cells (j : Nat) (x : ThrJob) : (d.setJob j x).mem.cells = d.mem.cells := rfl
@[simp] theorem Dev.modJob_cells (j : Nat) (f : ThrJob → ThrJob) : (d.modJob j f).mem.cells = d.mem.cells := rfl
@[simp] theorem Dev.modShard_cells (n : Nat) (f : ThrShard → ThrShard) :
    (d.modShard n f).mem.cells = d.mem.cells := by simp [Dev.modShard]
@[simp] theorem Dev.sendMirror_cells (j : Nat) (f : MFrame) : (d.sendMirror j f).mem.cells = d.mem.cells := by
  unfold Dev.sendMirror
  split <;> simp

@[simp] theorem Dev.mirror_cells (j : Nat) (sub : Byte) (ksf : Nat) (payload : List Byte) :
    (d.mirror j sub ksf payload).mem.cells = d.mem.cells := by
  unfold Dev.mirror
  split <;> simp

@[simp] theorem Dev.sendAck_cells (j : Nat) : (d.sendAck j).mem.cells = d.mem.cells := by
  unfold Dev.sendAck
  split <;> simp

@[simp] theorem Dev.mirrorSlot_cells (j : Nat) (s : ThrShard) (slot bytes : Nat) (stamp seq : Word) :
    (d.mirrorSlot j s slot bytes stamp seq).mem.cells = d.mem.cells := by simp [Dev.mirrorSlot]
@[simp] theorem Dev.sendWeights_cells (p : Parked) (stale : Bool) :
    (d.sendWeights p stale).mem.cells = d.mem.cells := by
  unfold Dev.sendWeights
  split
  · split <;> simp
  · rfl

@[simp] theorem Dev.unpark_cells (p : Parked) : (d.unpark p).mem.cells = d.mem.cells := rfl
@[simp] theorem Dev.setParked_cells (p : Parked) : (d.setParked p).mem.cells = d.mem.cells := rfl
@[simp] theorem Dev.sendArrivals_cells (j : Nat) (x : ThrJob) :
    (d.sendArrivals j x).mem.cells = d.mem.cells := by simp [Dev.sendArrivals]
@[simp] theorem Dev.arrive_cells (j : Nat) : (d.arrive j).mem.cells = d.mem.cells := by
  unfold Dev.arrive
  split <;> simp

@[simp] theorem Dev.maybeArrive_cells (j : Nat) : (d.maybeArrive j).mem.cells = d.mem.cells := by
  unfold Dev.maybeArrive
  split <;> simp

@[simp] theorem Dev.prefetchOne_cells (p : Parked) : (d.prefetchOne p).mem.cells = d.mem.cells := by
  unfold Dev.prefetchOne
  split
  · rfl
  · split
    · simp
    · split <;> simp

@[simp] theorem Dev.prefetch_cells : d.prefetch.mem.cells = d.mem.cells := by simp [Dev.prefetch]
@[simp] theorem Dev.dropShards_cells : d.dropShards.mem.cells = d.mem.cells := rfl
@[simp] theorem Dev.advance_cells (j : Nat) (x : ThrJob) (skip : Bool) (vote c : Word) :
    (d.advance j x skip vote c).mem.cells = d.mem.cells := rfl
@[simp] theorem Dev.releaseWeights_cells (j : Nat) (go : Word → Bool) :
    (d.releaseWeights j go).mem.cells = d.mem.cells := by
  refine foldl_cells _ _ fun d p => ?_
  split
  · split <;> simp
  · rfl

@[simp] theorem Dev.enterSolo_cells (j : Nat) : (d.enterSolo j).mem.cells = d.mem.cells := by
  unfold Dev.enterSolo
  split <;> simp

@[simp] theorem Dev.maybeRequest_cells (j : Nat) : (d.maybeRequest j).mem.cells = d.mem.cells := by
  unfold Dev.maybeRequest
  split <;> simp

@[simp] theorem Dev.enterRebuild_cells (j : Nat) : (d.enterRebuild j).mem.cells = d.mem.cells := by
  unfold Dev.enterRebuild
  split <;> simp

@[simp] theorem Dev.enterInSync_cells (j : Nat) : (d.enterInSync j).mem.cells = d.mem.cells := by
  unfold Dev.enterInSync
  split <;> simp

@[simp] theorem Dev.handOver_cells (cid : Nat) (x : Chunk) : (d.handOver cid x).mem.cells = d.mem.cells := by
  unfold Dev.handOver
  split
  · split <;> simp
  · rfl

/-! ### Clusters at work -/

@[simp] theorem Dev.gleanMicro_cells (k cid : Nat) (seq : Word) (a : Arith) :
    (d.gleanMicro k cid seq a).mem.cells = d.mem.cells := (d.aside_gleanMicro ..).cells
@[simp] theorem Dev.nackBack_cells (f : Frame) (cid : Nat) (own : Bool) (seq : Word) (kind : Nat) (rh : Bool) :
    (d.nackBack f cid own seq kind rh).mem.cells = d.mem.cells := by simp [Dev.nackBack]
@[simp] theorem Dev.fillShort_cells (k : Nat) : (d.fillShort k).mem.cells = d.mem.cells := by simp [Dev.fillShort]
@[simp] theorem Dev.retireUnit_cells (cid : Nat) (x : Chunk) :
    (d.retireUnit cid x).mem.cells = d.mem.cells := by simp [Dev.retireUnit]
@[simp] theorem Dev.setCorePos_cells (n : Nat) (x : CorePos) : (d.setCorePos n x).mem.cells = d.mem.cells := rfl
@[simp] theorem Dev.setSpareCore_cells (n v : Nat) : (d.setSpareCore n v).mem.cells = d.mem.cells := rfl
@[simp] theorem Dev.stopCore_cells (n : Nat) : (d.stopCore n).mem.cells = d.mem.cells := rfl
@[simp] theorem Dev.coreSramFault_cells (n row : Nat) (ctx : BitVec 16) (seq : Word) :
    (d.coreSramFault n row ctx seq).mem.cells = d.mem.cells := by
  unfold Dev.coreSramFault
  simp only [ite_cells, Dev.detect_mem, Dev.stopCore_cells, Dev.faultRec_mem, ite_self]
  split <;> simp

@[simp] theorem Dev.meetInject_cells (array : Nat) (ixs : List Nat) (cid : Nat) (seq : Word) :
    (d.meetInject array ixs cid seq).1.mem.cells = d.mem.cells := by
  unfold Dev.meetInject
  split <;> simp

@[simp] theorem Dev.toRemembered_cells (f : Frame) (k cid : Nat) (c : Ctx) (r : FinRec) (rh : Bool) :
    (d.toRemembered f k cid c r rh).mem.cells = d.mem.cells := by
  unfold Dev.toRemembered
  split
  · simp
  · split <;> simp

@[simp] theorem Dev.openChunk_cells (k cid : Nat) (c : Ctx) (seq : Word) (rh : Bool) :
    (d.openChunk k cid c seq rh).1.mem.cells = d.mem.cells := by
  cases rh <;> rfl

@[simp] theorem Dev.answerResultNack_cells (k : Nat) (f : Frame) :
    (d.answerResultNack k f).mem.cells = d.mem.cells := by
  unfold Dev.answerResultNack
  dsimp only
  cases d.ctx? (ksfCtx f.hdr) with
  | none => simp
  | some c =>
    dsimp only
    cases (if (c.e.level == 2) = true then d.lingerOf c (ksfSeq f.hdr) else none) with
    | some x => simp
    | none =>
      cases c.chunk? (ksfSeq f.hdr) with
      | some y => simp
      | none => cases c.record? (ksfSeq f.hdr) <;> simp

@[simp] theorem Dev.takeNack_cells (k : Nat) (h : Header) : (d.takeNack k h).mem.cells = d.mem.cells := by
  unfold Dev.takeNack
  dsimp only
  split
  · simp
  · split <;> simp

@[simp] theorem Dev.retryExpiry_cells (cid : Nat) (c : Ctx) (x : Chunk) :
    (d.retryExpiry cid c x).mem.cells = d.mem.cells := by simp [Dev.retryExpiry]
@[simp] theorem Dev.serveSetup_cells (cid : Nat) (c : Ctx) :
    (d.serveSetup cid c).mem.cells = d.mem.cells := by simp [Dev.serveSetup]
@[simp] theorem Dev.setSheaf_cells (n : Nat) (x : Sheaf) : (d.setSheaf n x).mem.cells = d.mem.cells := rfl
@[simp] theorem Dev.releaseSheaf_cells (n : Nat) (x : Sheaf) :
    (d.releaseSheaf n x).mem.cells = d.mem.cells := (d.aside_releaseSheaf ..).cells
@[simp] theorem Dev.sendUp_cells (n : Nat) (x : Sheaf) :
    (d.sendUp n x).mem.cells = d.mem.cells := by simp [Dev.sendUp]
@[simp] theorem Dev.checkSheaf_cells (n : Nat) : (d.checkSheaf n).mem.cells = d.mem.cells := by
  unfold Dev.checkSheaf
  split <;> simp

@[simp] theorem Dev.nextCount_cells (x : Sheaf) (more : Nat) :
    (d.nextCount x more).1.mem.cells = d.mem.cells := by simp [Dev.nextCount]
@[simp] theorem Dev.nextDatum_cells (x : Sheaf) (more : Word) :
    (d.nextDatum x more).1.mem.cells = d.mem.cells := by simp [Dev.nextDatum]
@[simp] theorem Dev.sheafArrival_cells (f : Frame) : (d.sheafArrival f).mem.cells = d.mem.cells := by
  unfold Dev.sheafArrival
  dsimp only
  split <;> simp

/-! ### Transactions dropped, and Thresh at work -/

@[simp] theorem Dev.dropTxn_cells (src : Source) (id : BitVec 16) : (d.dropTxn src id).mem.cells = d.mem.cells := rfl
@[simp] theorem Dev.abortOpen_cells (src : Source) (cause : Nat) (dests : List Source) :
    (d.abortOpen src cause dests).mem.cells = d.mem.cells := by
  unfold Dev.abortOpen
  split <;> simp

@[simp] theorem Dev.gate_cells (j : Nat) (x : ThrJob) : (d.gate_ j x).mem.cells = d.mem.cells := by
  unfold Dev.gate_
  split
  · rfl
  · cases x.normSeen <;> simp

@[simp] theorem Dev.takeRelease_cells (r : SheafRel) (j : Nat) : (d.takeRelease r j).mem.cells = d.mem.cells := by
  unfold Dev.takeRelease
  split <;> simp

@[simp] theorem Dev.tookInOrder_cells (j : Nat) : (d.tookInOrder j).mem.cells = d.mem.cells := by
  unfold Dev.tookInOrder
  split <;> simp

@[simp] theorem Dev.takeAck_cells (j : Nat) (n : Word) : (d.takeAck j n).mem.cells = d.mem.cells := by
  unfold Dev.takeAck
  split
  · rfl
  · split
    · simp
    · split <;> simp

@[simp] theorem Dev.takeRebuildReq_cells (j : Nat) : (d.takeRebuildReq j).mem.cells = d.mem.cells := by
  unfold Dev.takeRebuildReq
  split <;> simp

@[simp] theorem Dev.endBulk_cells (j : Nat) : (d.endBulk j).mem.cells = d.mem.cells := by simp [Dev.endBulk]
@[simp] theorem Dev.bulkSlot_cells (j n : Nat) (s : ThrShard) (slot : Nat) (last : Bool) :
    (d.bulkSlot j n s slot last).mem.cells = d.mem.cells := by simp [Dev.bulkSlot]
@[simp] theorem Dev.answerWeights_cells (f : Frame) (k cid : Nat) (c : Ctx) (x : ThrJob) (s : ThrShard)
    (seq : Word) (rh : Bool) :
    (d.answerWeights f k cid c x s seq rh).mem.cells = d.mem.cells := by simp [Dev.answerWeights]

/-! ### The memory tiers at work -/

@[simp] theorem Dev.memDenied_cells (a : Nat) : (d.memDenied a).mem.cells = d.mem.cells := by simp [Dev.memDenied]
@[simp] theorem Dev.track_cells (line : Nat) : (d.track line).mem.cells = d.mem.cells := by simp [Dev.track]
@[simp] theorem Dev.countUncorr_cells (a : Nat) : (d.countUncorr a).mem.cells = d.mem.cells := rfl
@[simp] theorem Dev.hostRead_cells (a n : Nat) : (d.hostRead a n).mem.cells = d.mem.cells := by simp [Dev.hostRead]
@[simp] theorem Dev.failDevice_cells (n : Nat) : (d.failDevice n).mem.cells = d.mem.cells := by simp [Dev.failDevice]
@[simp] theorem Dev.failPage_cells (a : Nat) : (d.failPage a).mem.cells = d.mem.cells := by simp [Dev.failPage]
@[simp] theorem Dev.setRole_cells (e r : Nat) : (d.setRole e r).mem.cells = d.mem.cells := by simp [Dev.setRole]
@[simp] theorem Dev.startExpCopy_cells (e f : Nat) :
    (d.startExpCopy e f).mem.cells = d.mem.cells := by simp [Dev.startExpCopy]
@[simp] theorem Dev.restripe_cells (e f : Nat) : (d.restripe e f).mem.cells = d.mem.cells := rfl
@[simp] theorem Dev.pick_cells (l : List α) : (d.pick l).1.mem.cells = d.mem.cells := rfl
@[simp] theorem Dev.restage_cells (p : Parked) : (d.restage p).mem.cells = d.mem.cells := by
  unfold Dev.restage
  split
  · rfl
  · split <;> simp

@[simp] theorem Dev.rebuildFrame_cells (j : Nat) (f : MFrame) :
    (d.rebuildFrame j f).mem.cells = d.mem.cells := by simp [Dev.rebuildFrame]
@[simp] theorem Dev.markBad_cells (a : Nat) : (d.markBad a).mem.cells = d.mem.cells := by simp [Dev.markBad]

/-! ### Cores, banks and faults -/

@[simp] theorem Dev.checkCores_cells (n : Nat) : (d.checkCores n).mem.cells = d.mem.cells := by simp [Dev.checkCores]
@[simp] theorem Dev.closeCluster_cells (k : Nat) :
    (d.closeCluster k).mem.cells = d.mem.cells := by simp [Dev.closeCluster]
@[simp] theorem Dev.fillPosition_cells (n : Nat) :
    (d.fillPosition n).mem.cells = d.mem.cells := by simp [Dev.fillPosition]
@[simp] theorem Dev.emptyPosition_cells (n : Nat) :
    (d.emptyPosition n).mem.cells = d.mem.cells := by simp [Dev.emptyPosition]
@[simp] theorem Dev.failChunk_cells (n : Nat) (ctx : BitVec 16) (seq : Word) :
    (d.failChunk n ctx seq).mem.cells = d.mem.cells := by
  unfold Dev.failChunk
  split <;> simp

@[simp] theorem Dev.takeBankSpare_cells (die : Nat) :
    (d.takeBankSpare die).mem.cells = d.mem.cells := by simp [Dev.takeBankSpare]
@[simp] theorem Dev.checkStore_cells (b : Nat) : (d.checkStore b).mem.cells = d.mem.cells := by simp [Dev.checkStore]
@[simp] theorem Dev.mapSpare_cells (b : Nat) : (d.mapSpare b).mem.cells = d.mem.cells := by simp [Dev.mapSpare]
@[simp] theorem Dev.replaceBank_cells (b : Nat) :
    (d.replaceBank b).mem.cells = d.mem.cells := by simp [Dev.replaceBank]
@[simp] theorem Dev.swapCore_cells (n : Nat) : (d.swapCore n).mem.cells = d.mem.cells := by simp [Dev.swapCore]
@[simp] theorem Dev.swapBank_cells (b : Nat) (limit : Bool) :
    (d.swapBank b limit).mem.cells = d.mem.cells := by simp [Dev.swapBank]
@[simp] theorem Dev.swapExpander_cells (e : Nat) (limit : Bool) :
    (d.swapExpander e limit).mem.cells = d.mem.cells := by
  unfold Dev.swapExpander
  split <;> simp

@[simp] theorem Dev.serveFailure_cells (f : Failure) :
    (d.serveFailure f).mem.cells = d.mem.cells := by simp [Dev.serveFailure]
@[simp] theorem Dev.nextSwaps_cells (n : Nat) (d : Dev) : (Dev.nextSwaps n d).mem.cells = d.mem.cells := by
  induction n generalizing d with
  | zero => rfl
  | succ n ih =>
    unfold Dev.nextSwaps
    split
    · rfl
    · split <;> simp [ih]

@[simp] theorem Dev.serveFailures_cells : d.serveFailures.mem.cells = d.mem.cells := by simp [Dev.serveFailures]

/-! ### Counters -/

@[simp] theorem Dev.pevTick_cells : d.pevTick.mem.cells = d.mem.cells := rfl
@[simp] theorem Dev.writePevSel_cells (n v : Nat) : (d.writePevSel n v).mem.cells = d.mem.cells := by
  unfold Dev.writePevSel
  split <;> simp

@[simp] theorem Dev.cutWindow_cells : d.cutWindow.mem.cells = d.mem.cells := by simp [Dev.cutWindow]
@[simp] theorem Dev.writeBwCtl_cells (v : Nat) : (d.writeBwCtl v).mem.cells = d.mem.cells := by simp [Dev.writeBwCtl]
@[simp] theorem Dev.readPeak_cells (p : Nat) (tx : Bool) :
    (d.readPeak p tx).1.mem.cells = d.mem.cells := by simp [Dev.readPeak]
@[simp] theorem Dev.readGlean_cells (e : GleanEnt) : (d.readGlean e).1.mem.cells = d.mem.cells := by
  unfold Dev.readGlean
  split <;> simp

/-! ### Link bring-up -/

@[simp] theorem Dev.enterTrain_cells (p : Nat) : (d.enterTrain p).mem.cells = d.mem.cells := rfl
@[simp] theorem Dev.leaveDetect_cells (p : Nat) :
    (d.leaveDetect p).mem.cells = d.mem.cells := by simp [Dev.leaveDetect]
@[simp] theorem Dev.countLink_cells (p n : Nat) : (d.countLink p n).mem.cells = d.mem.cells := rfl
@[simp] theorem Dev.takePair_cells (p : Nat) (id feat : LinkMsg) :
    (d.takePair p id feat).mem.cells = d.mem.cells := by simp [Dev.takePair]
@[simp] theorem Dev.loseFraming_cells (p : Nat) :
    (d.loseFraming p).mem.cells = d.mem.cells := by simp [Dev.loseFraming]
@[simp] theorem Dev.checkPattern_cells (p : Nat) :
    (d.checkPattern p).mem.cells = d.mem.cells := by simp [Dev.checkPattern]
@[simp] theorem Dev.restartIdle_cells (p : Nat) : (d.restartIdle p).mem.cells = d.mem.cells := by
  unfold Dev.restartIdle
  dsimp only
  split <;> simp

/-! ### Mailboxes -/

@[simp] theorem Dev.setMbox_cells (n : Nat) (m : Mbox) :
    (d.setMbox n m).mem.cells = d.mem.cells := by simp [Dev.setMbox]
@[simp] theorem Dev.mbxOverflow_cells (n bit : Nat) : (d.mbxOverflow n bit).mem.cells = d.mem.cells := rfl
@[simp] theorem Dev.postH2d_cells (a : RegActor) (n : Nat) (w : Word) :
    (d.postH2d a n w).mem.cells = d.mem.cells := by simp [Dev.postH2d]
@[simp] theorem Dev.postD2h_cells (a : RegActor) (n : Nat) (w : Word) :
    (d.postD2h a n w).mem.cells = d.mem.cells := by simp [Dev.postD2h]
@[simp] theorem Dev.popH2d_cells (a : RegActor) (n : Nat) : (d.popH2d a n).1.mem.cells = d.mem.cells := by
  unfold Dev.popH2d
  split <;> simp

@[simp] theorem Dev.popD2h_cells (a : RegActor) (n : Nat) : (d.popD2h a n).1.mem.cells = d.mem.cells := by
  unfold Dev.popD2h
  split <;> simp

@[simp] theorem Dev.readLock_cells (a : RegActor) (n : Nat) :
    (d.readLock a n).1.mem.cells = d.mem.cells := by simp [Dev.readLock]
@[simp] theorem Dev.writeLock_cells (a : RegActor) (n : Nat) :
    (d.writeLock a n).mem.cells = d.mem.cells := by simp [Dev.writeLock]
@[simp] theorem Dev.breakLocks_cells (sel : Nat → Byte → Bool) :
    (d.breakLocks sel).mem.cells = d.mem.cells := by simp [Dev.breakLocks]

/-! ### The management links and Howlink -/

@[simp] theorem Dev.mgStart_cells (m : Nat) : (d.mgStart m).mem.cells = d.mem.cells := by simp [Dev.mgStart]
@[simp] theorem Dev.mgSend_cells (m : Nat) (typ : Byte) (b : List Byte) :
    (d.mgSend m typ b).mem.cells = d.mem.cells := by
  have sent : ∀ (e : Dev) (l : List (List Byte)),
      (l.foldl (fun (d : Dev) x => d.send (.eth m (d.mg m).mac 0x88B5 x)) e).mem.cells = e.mem.cells :=
    fun e l => foldl_cells l e fun _ _ => rfl
  simp [Dev.mgSend, sent]

@[simp] theorem Dev.mgSendPair_cells (m : Nat) : (d.mgSendPair m).mem.cells = d.mem.cells := by simp [Dev.mgSendPair]
@[simp] theorem Dev.dropQueued_cells (s : Source) : (d.dropQueued s).mem.cells = d.mem.cells := rfl
@[simp] theorem Dev.mgLeave_cells (m code : Nat) : (d.mgLeave m code).mem.cells = d.mem.cells := by simp [Dev.mgLeave]
@[simp] theorem Dev.mgEnter_cells (m : Nat) : (d.mgEnter m).mem.cells = d.mem.cells := by simp [Dev.mgEnter]
@[simp] theorem Dev.mgTakePair_cells (m : Nat) (id feat : LinkMsg) :
    (d.mgTakePair m id feat).mem.cells = d.mem.cells := by simp [Dev.mgTakePair]
@[simp] theorem Dev.mgExch_cells (m : Nat) (payload : List Byte) :
    (d.mgExch m payload).mem.cells = d.mem.cells := by simp [Dev.mgExch]
@[simp] theorem Dev.mgDeliver_cells (m : Nat) (typ : Byte) (payload : List Byte) :
    (d.mgDeliver m typ payload).mem.cells = d.mem.cells := by simp [Dev.mgDeliver]
@[simp] theorem Dev.mgRxErr_cells (m : Nat) : (d.mgRxErr m).mem.cells = d.mem.cells := rfl
@[simp] theorem Dev.setReasm_cells (m : Nat) (r : Option Reasm) :
    (d.setReasm m r).mem.cells = d.mem.cells := by simp [Dev.setReasm]
@[simp] theorem Dev.mgSegment_cells (m : Nat) (r : Reasm) (data : List Byte) :
    (d.mgSegment m r data).mem.cells = d.mem.cells := by simp [Dev.mgSegment]
@[simp] theorem Dev.mgEthSegment_cells (m : Nat) (payload : List Byte) :
    (d.mgEthSegment m payload).mem.cells = d.mem.cells := by
  unfold Dev.mgEthSegment
  split
  · simp
  · split <;> simp

@[simp] theorem Dev.writeMglCtl_cells (m v : Nat) : (d.writeMglCtl m v).mem.cells = d.mem.cells := by
  unfold Dev.writeMglCtl
  split <;> simp

@[simp] theorem Dev.intOnUp_cells : d.intOnUp.mem.cells = d.mem.cells := by simp [Dev.intOnUp]

/-! ### The time base -/

@[simp] theorem Dev.setTime_cells (t : TimeBase) : (d.setTime t).mem.cells = d.mem.cells := rfl
@[simp] theorem Dev.carry_cells (ns frac : Nat) : (d.carry ns frac).mem.cells = d.mem.cells := rfl
@[simp] theorem Dev.timeEdge_cells : d.timeEdge.mem.cells = d.mem.cells := by
  unfold Dev.timeEdge
  split_ifs <;> simp

@[simp] theorem Dev.timeState_cells (st : TimeState) (cause : Nat) :
    (d.timeState st cause).mem.cells = d.mem.cells := by simp [Dev.timeState]
@[simp] theorem Dev.holdover_cells (cause : Nat) :
    (d.holdover cause).mem.cells = d.mem.cells := by simp [Dev.holdover]
@[simp] theorem Dev.stepTime_cells (sec : BitVec 48) (ns frac cause : Nat) :
    (d.stepTime sec ns frac cause).mem.cells = d.mem.cells := by simp [Dev.stepTime]
@[simp] theorem Dev.jumpRefused_cells (src : Nat) (offset : Int) :
    (d.jumpRefused src offset).mem.cells = d.mem.cells := by simp [Dev.jumpRefused]
@[simp] theorem Dev.servoRefused_cells (offset : Int) :
    (d.servoRefused offset).mem.cells = d.mem.cells := by simp [Dev.servoRefused]
@[simp] theorem Dev.toNs_cells (offset : Int) : (d.toNs offset).2.mem.cells = d.mem.cells := by
  unfold Dev.toNs
  split_ifs <;> simp

@[simp] theorem Dev.setDomain_cells (b : Bool) (x : Domain) : (d.setDomain b x).mem.cells = d.mem.cells := rfl
@[simp] theorem Dev.setPtpState_cells (m : Nat) (v : BitVec 2) : (d.setPtpState m v).mem.cells = d.mem.cells := rfl
@[simp] theorem Dev.servoMeasure_cells (offset : Int) :
    (d.servoMeasure offset).mem.cells = d.mem.cells := by simp [Dev.servoMeasure]
@[simp] theorem Dev.slaveOn_cells (m : Nat) : (d.slaveOn m).mem.cells = d.mem.cells := by simp [Dev.slaveOn]
@[simp] theorem Dev.switchDomain_cells (commanded : Bool) :
    (d.switchDomain commanded).1.mem.cells = d.mem.cells := by simp [Dev.switchDomain]
@[simp] theorem Dev.bmca_cells : d.bmca.mem.cells = d.mem.cells := by simp [Dev.bmca]
@[simp] theorem Dev.readNow_cells (a : RegActor) : (d.readNow a).1.mem.cells = d.mem.cells := by simp [Dev.readNow]
@[simp] theorem Dev.readPpsIn_cells (a : RegActor) :
    (d.readPpsIn a).1.mem.cells = d.mem.cells := by simp [Dev.readPpsIn]

/-! ### Register writes -/

@[simp] theorem Dev.plainWrite_cells (off v : Nat) : (d.plainWrite off v).mem.cells = d.mem.cells := by
  unfold Dev.plainWrite
  split <;> simp

@[simp] theorem Dev.writeIntStatus_cells (v : Dword) :
    (d.writeIntStatus v).mem.cells = d.mem.cells := by simp [Dev.writeIntStatus]
@[simp] theorem Dev.writeIntMask_cells (v : Dword) :
    (d.writeIntMask v).mem.cells = d.mem.cells := by simp [Dev.writeIntMask]
@[simp] theorem Dev.writeIntTest_cells (v : Dword) :
    (d.writeIntTest v).mem.cells = d.mem.cells := by simp [Dev.writeIntTest]
@[simp] theorem Dev.writeRingCtl_cells (r v : Nat) :
    (d.writeRingCtl r v).mem.cells = d.mem.cells := by simp [Dev.writeRingCtl]
@[simp] theorem Dev.writeRingBase_cells (r v : Nat) :
    (d.writeRingBase r v).mem.cells = d.mem.cells := by simp [Dev.writeRingBase]
@[simp] theorem Dev.writeLoop_cells (p v : Nat) : (d.writeLoop p v).mem.cells = d.mem.cells := by
  unfold Dev.writeLoop
  split <;> simp

@[simp] theorem Dev.writeClassCfg_cells (c v : Nat) :
    (d.writeClassCfg c v).mem.cells = d.mem.cells := by simp [Dev.writeClassCfg]
@[simp] theorem Dev.writeResLimit_cells (v : Nat) :
    (d.writeResLimit v).mem.cells = d.mem.cells := by simp [Dev.writeResLimit]
@[simp] theorem Dev.writeTimeCtl_cells (v : Nat) :
    (d.writeTimeCtl v).mem.cells = d.mem.cells := by simp [Dev.writeTimeCtl]
@[simp] theorem Dev.writePpsCtl_cells (v : Nat) : (d.writePpsCtl v).mem.cells = d.mem.cells := rfl
@[simp] theorem Dev.writeGlb_cells (off : Nat) (v : Dword) :
    (d.writeGlb off v).mem.cells = d.mem.cells := by simp [Dev.writeGlb]
@[simp] theorem Dev.writeMbx_cells (a : RegActor) (off : Nat) (v : Dword) :
    (d.writeMbx a off v).mem.cells = d.mem.cells := by simp [Dev.writeMbx]
@[simp] theorem Dev.writeOther_cells (off v : Nat) :
    (d.writeOther off v).mem.cells = d.mem.cells := by simp [Dev.writeOther]
@[simp] theorem Dev.writeWindow_cells (a : RegActor) (off width : Nat) (v : Dword) :
    (d.writeWindow a off width v).mem.cells = d.mem.cells := by
  unfold Dev.writeWindow
  split <;> simp

/-! ### Light -/

@[simp] theorem Dev.resweep_cells (p : Nat) (r : Ring) (lock : RingLock) :
    (d.resweep p r lock).mem.cells = d.mem.cells := rfl
@[simp] theorem Dev.lockFail_cells (p : Nat) (r : Ring) (tx : Bool) :
    (d.lockFail p r tx).1.mem.cells = d.mem.cells := by simp [Dev.lockFail]
@[simp] theorem Dev.wrongLock_cells (p : Nat) (r : Ring) : (d.wrongLock p r).mem.cells = d.mem.cells := by
  unfold Dev.wrongLock
  split
  · dsimp only
    split
    · simp
    · split <;> simp
  · dsimp only
    split
    · simp
    · split <;> simp

@[simp] theorem Dev.acceptLock_cells (p : Nat) (r : Ring) :
    (d.acceptLock p r).mem.cells = d.mem.cells := by simp [Dev.acceptLock]
@[simp] theorem Dev.dwell_cells (p : Nat) (r : Ring) (hit : Bool) :
    (d.dwell p r hit).mem.cells = d.mem.cells := by simp [Dev.dwell]
@[simp] theorem Dev.reachSwap_cells (p : Nat) : (d.reachSwap p).mem.cells = d.mem.cells := by
  unfold Dev.reachSwap
  split
  · dsimp only
    split
    · simp
    · split <;> simp
  · dsimp only
    split
    · simp
    · split <;> simp

@[simp] theorem Dev.reachHalf_cells (e ix p : Nat) :
    (d.reachHalf e ix p).mem.cells = d.mem.cells := by simp [Dev.reachHalf]
@[simp] theorem Dev.fadeAction_cells (e ix p lvl : Nat) (fade : Int) :
    (d.fadeAction e ix p lvl fade).mem.cells = d.mem.cells := by
  unfold Dev.fadeAction
  split <;> simp

@[simp] theorem Dev.fadeLevels_cells (e ix p : Nat) (fade : Int) (l : List (Nat × Nat)) :
    (d.fadeLevels e ix p fade l).mem.cells = d.mem.cells := by
  induction l generalizing d with
  | nil => rfl
  | cons x r ih => simp [Dev.fadeLevels, ih]

@[simp] theorem Dev.firstReading_cells (e ix : Nat) (reading : BitVec 16) :
    (d.firstReading e ix reading).mem.cells = d.mem.cells := by simp [Dev.firstReading]
@[simp] theorem Dev.payHalf_cells (e ix p : Nat) : (d.payHalf e ix p).mem.cells = d.mem.cells := by simp [Dev.payHalf]
@[simp] theorem Dev.reading1ms_cells (e ix : Nat) (reading : BitVec 16) :
    (d.reading1ms e ix reading).mem.cells = d.mem.cells := by
  unfold Dev.reading1ms
  dsimp only
  split
  · simp
  · split <;> simp

@[simp] theorem Dev.laserFails_cells (e ix p : Nat) : (d.laserFails e ix p).mem.cells = d.mem.cells := by
  have lost (x : Laser) (y : Spare) (c : Prop) [Decidable c] : (if c then (d.setLaser e ix x).setSpare e (ix - 32) y
      else d.setLaser e ix x).mem.cells = d.mem.cells := by simp
  unfold Dev.laserFails
  dsimp only
  generalize same : (if decide (32 ≤ ix ∧ ix < 37) = true then _ else _ : Dev) = d1
  have kept : d1.mem.cells = d.mem.cells := same ▸ lost ..
  generalize (d1.port p).st = st
  split
  · exact kept
  · cases d1.swapOfPort p with
    | some s =>
      obtain ⟨_, _, step, _⟩ := s
      cases step <;> cases st <;> simp [kept]
    | none => cases st <;> simp [kept]

@[simp] theorem Dev.sendSwapReq_cells (s : Swap) :
    (d.sendSwapReq s).mem.cells = d.mem.cells := by simp [Dev.sendSwapReq]
@[simp] theorem Dev.retrainSwap_cells (e : Nat) (s : Swap) : (d.retrainSwap e s).mem.cells = d.mem.cells := by
  unfold Dev.retrainSwap
  split <;> simp

@[simp] theorem Dev.ackSwap_cells (p : Nat) (h : PartnerHold) :
    (d.ackSwap p h).mem.cells = d.mem.cells := by simp [Dev.ackSwap]
@[simp] theorem Dev.leaveForLaser_cells (p : Nat) : (d.leaveForLaser p).mem.cells = d.mem.cells := by
  unfold Dev.leaveForLaser
  split <;> simp

@[simp] theorem Dev.endHold_cells (p : Nat) (h : PartnerHold) : (d.endHold p h).mem.cells = d.mem.cells := by
  unfold Dev.endHold
  dsimp only
  split <;> simp

/-! ### Staged changes -/

@[simp] theorem Dev.setPlan_cells (l : Nat) (e : PlanEntry) :
    (d.setPlan l e).mem.cells = d.mem.cells := by simp [Dev.setPlan]
@[simp] theorem Dev.setAutoRemap_cells (e : Nat) (on : Bool) : (d.setAutoRemap e on).mem.cells = d.mem.cells := rfl
@[simp] theorem Dev.setPortMap_cells (p : PortMapSetP) :
    (d.setPortMap p).mem.cells = d.mem.cells := by simp [Dev.setPortMap]
@[simp] theorem Dev.changeMode_cells (p : Nat) (m : NewMode) : (d.changeMode p m).mem.cells = d.mem.cells := by
  unfold Dev.changeMode
  dsimp only
  cases ((d.giveUpSwap p).port p).st <;> simp

@[simp] theorem Dev.setOptPortMode_cells (p : OptPortModeP) : (d.setOptPortMode p).mem.cells = d.mem.cells := rfl
@[simp] theorem Dev.setCampusFreq_cells (p : OptCampusFreqP) : (d.setCampusFreq p).mem.cells = d.mem.cells := rfl
@[simp] theorem Dev.setPeers_cells (l : List (BitVec 24)) : (d.setPeers l).mem.cells = d.mem.cells := rfl
@[simp] theorem Dev.setMirror_cells (p : MirrorSetP) : (d.setMirror p).mem.cells = d.mem.cells := rfl
@[simp] theorem Dev.setPartRes_cells (p : PartReserveP) : (d.setPartRes p).mem.cells = d.mem.cells := rfl
@[simp] theorem Dev.setShaperP_cells (p : ShaperSetP) : (d.setShaperP p).mem.cells = d.mem.cells := rfl
@[simp] theorem Dev.setGroupShaper_cells (p : GroupShaperSetP) : (d.setGroupShaper p).mem.cells = d.mem.cells := rfl
@[simp] theorem Dev.setPolicer_cells (p : PolicerSetP) : (d.setPolicer p).mem.cells = d.mem.cells := rfl
@[simp] theorem Dev.setPolicerMap_cells (p : PolicerMapP) : (d.setPolicerMap p).mem.cells = d.mem.cells := by
  unfold Dev.setPolicerMap
  split
  · split <;> rfl
  · split <;> rfl

@[simp] theorem Dev.startCtx_cells (cid : Nat) (e : CtxEntry) (since : Nat) :
    (d.startCtx cid e since).mem.cells = d.mem.cells := by simp [Dev.startCtx]
@[simp] theorem Dev.closeCtx_cells (c : BitVec 16) : (d.closeCtx c).mem.cells = d.mem.cells := by
  unfold Dev.closeCtx
  dsimp only
  split
  · split <;> simp
  · rfl

@[simp] theorem Dev.resizeCtx_cells (p : CtxResizeP) : (d.resizeCtx p).mem.cells = d.mem.cells := rfl
@[simp] theorem Dev.closeSheaf_cells (n : BitVec 16) : (d.closeSheaf n).mem.cells = d.mem.cells := rfl
@[simp] theorem Dev.setSheafEntry_cells (p : SheafSetP) : (d.setSheafEntry p).mem.cells = d.mem.cells := by
  unfold Dev.setSheafEntry
  split
  · exact Dev.closeSheaf_cells ..
  · exact Dev.checkSheaf_cells ..

@[simp] theorem Dev.setJobEntry_cells (p : ThrJobSetP) : (d.setJobEntry p).mem.cells = d.mem.cells := by
  unfold Dev.setJobEntry
  split
  · rfl
  · split <;> simp

@[simp] theorem Dev.closeJob_cells (j : Byte) : (d.closeJob j).mem.cells = d.mem.cells := rfl
@[simp] theorem Dev.setParam_cells (p : ThrParamSetP) : (d.setParam p).mem.cells = d.mem.cells := rfl
@[simp] theorem Dev.closeShard_cells (n : BitVec 16) : (d.closeShard n).mem.cells = d.mem.cells := rfl
@[simp] theorem Dev.setShard_cells (p : ThrShardSetP) :
    (d.setShard p).mem.cells = d.mem.cells := by simp [Dev.setShard]
@[simp] theorem Dev.setRegion_cells (p : MemRegionSetP) : (d.setRegion p).mem.cells = d.mem.cells := rfl

/-! ### Learning, ageing and reading of the tables -/

@[simp] theorem Dev.bothBanks_cells (f : Bank → Bank) : (d.bothBanks f).mem.cells = d.mem.cells := rfl
@[simp] theorem Dev.forgetKey_cells (key : BitVec 48) :
    (d.forgetKey key).mem.cells = d.mem.cells := by simp [Dev.forgetKey]
@[simp] theorem Dev.leafOn_cells (k l : Nat) : (d.leafOn k l).1.mem.cells = d.mem.cells := by
  unfold Dev.leafOn
  dsimp only
  split <;> simp

@[simp] theorem Dev.viaLeaf_cells (k : Nat) (port : Option Nat) : (d.viaLeaf k port).1.mem.cells = d.mem.cells := by
  unfold Dev.viaLeaf
  split
  · rfl
  · split
    · dsimp only
      split <;> simp
    · simp

@[simp] theorem Dev.tellPeers_cells (k : Nat) (key : BitVec 48) (event : Nat) (port : Option Nat) :
    (d.tellPeers k key event port).mem.cells = d.mem.cells := by simp [Dev.tellPeers]
@[simp] theorem Dev.learnFull_cells (k : Nat) (key : BitVec 48) :
    (d.learnFull k key).mem.cells = d.mem.cells := by simp [Dev.learnFull]
@[simp] theorem Dev.outrank_cells (key : BitVec 48) : (d.outrank key).mem.cells = d.mem.cells := by simp [Dev.outrank]
@[simp] theorem Dev.learnEntry_cells (k : Nat) (e : EmEntry) :
    (d.learnEntry k e).mem.cells = d.mem.cells := by simp [Dev.learnEntry]
@[simp] theorem Dev.applyLearn_cells (k : Nat) (e : LearnEv) : (d.applyLearn k e).mem.cells = d.mem.cells := by
  unfold Dev.applyLearn
  split
  · simp
  · split
    · split
      · simp
      · dsimp only
        split <;> simp
    · split <;> simp

@[simp] theorem Dev.applySweep_cells (key : BitVec 48) : (d.applySweep key).mem.cells = d.mem.cells := by
  unfold Dev.applySweep
  split <;> simp

@[simp] theorem Dev.visit_cells (e : EmEntry) : (d.visit e).mem.cells = d.mem.cells := by simp [Dev.visit]
@[simp] theorem Dev.searchTable_cells (k : SearchKey) : (d.searchTable k).1.mem.cells = d.mem.cells := by
  unfold Dev.searchTable
  split
  · dsimp only
    split <;> simp
  · dsimp only
    split <;> simp
  · simp
  · simp
  · simp
  · simp

@[simp] theorem Dev.noteCursor_cells (c : Nat) : (d.noteCursor c).mem.cells = d.mem.cells := by simp [Dev.noteCursor]

/-! ### Transactions -/

@[simp] theorem Dev.flipTables_cells (ops : List Staged) :
    (d.flipTables ops).mem.cells = d.mem.cells := by simp [Dev.flipTables]
@[simp] theorem Dev.setTxn_cells (t : Txn) : (d.setTxn t).mem.cells = d.mem.cells := rfl
@[simp] theorem Dev.addStaged_cells (t : Txn) (x : Staged) : (d.addStaged t x).mem.cells = d.mem.cells := rfl
@[simp] theorem Dev.setNextTxnId_cells (s : Source) (v : BitVec 16) :
    (d.setNextTxnId s v).mem.cells = d.mem.cells := by
  unfold Dev.setNextTxnId
  split <;> rfl

@[simp] theorem Dev.finishCommit_cells (t : Txn) (st : Status) (ns : Nat) (r : Res) :
    (d.finishCommit t st ns r).mem.cells = d.mem.cells := by
  unfold Dev.finishCommit
  dsimp only
  split <;> simp

@[simp] theorem Dev.spoil_cells (t : Txn) : (d.spoil t).mem.cells = d.mem.cells := rfl
@[simp] theorem Dev.unready_cells : d.unready.mem.cells = d.mem.cells := rfl

/-! ### Reset and self-test -/

@[simp] theorem Dev.leaveReset_cells : d.leaveReset.mem.cells = d.mem.cells := rfl
@[simp] theorem Dev.lockPlls_cells (mask : Nat) : (d.lockPlls mask).mem.cells = d.mem.cells := rfl
@[simp] theorem Dev.setItem_cells (i : Nat) (r : ItemRes) : (d.setItem i r).mem.cells = d.mem.cells := rfl
@[simp] theorem Dev.addItem_cells (i : Nat) (repaired : Bool) (u : Nat) :
    (d.addItem i repaired u).mem.cells = d.mem.cells := rfl
@[simp] theorem Dev.repairBank_cells (b : Nat) : (d.repairBank b).mem.cells = d.mem.cells := by simp [Dev.repairBank]
@[simp] theorem Dev.testSpareBank_cells (i : Nat) : (d.testSpareBank i).mem.cells = d.mem.cells := by
  unfold Dev.testSpareBank
  dsimp only
  split <;> simp

@[simp] theorem Dev.testBank_cells (b : Nat) : (d.testBank b).mem.cells = d.mem.cells := by simp [Dev.testBank]
@[simp] theorem Dev.testSpareCore_cells (s : Nat) : (d.testSpareCore s).mem.cells = d.mem.cells := by
  unfold Dev.testSpareCore
  split <;> simp

@[simp] theorem Dev.testCore_cells (n : Nat) : (d.testCore n).mem.cells = d.mem.cells := by simp [Dev.testCore]
@[simp] theorem Dev.testLane_cells (x : Port × Bool) :
    (d.testLane x).mem.cells = d.mem.cells := by simp [Dev.testLane]
@[simp] theorem Dev.testSpareLaser_cells (e ix : Nat) :
    (d.testSpareLaser e ix).mem.cells = d.mem.cells := by simp [Dev.testSpareLaser]
@[simp] theorem Dev.testLaser_cells (e ix : Nat) :
    (d.testLaser e ix).mem.cells = d.mem.cells := by simp [Dev.testLaser]
@[simp] theorem Dev.testOptics_cells (x : Port × Bool) :
    (d.testOptics x).mem.cells = d.mem.cells := by simp [Dev.testOptics]
@[simp] theorem Dev.selfTest_cells (r : SelfTestResult) :
    (d.selfTest r).mem.cells = d.mem.cells := by simp [Dev.selfTest]
@[simp] theorem Dev.bootResult_cells : d.bootResult.mem.cells = d.mem.cells := by simp [Dev.bootResult]
@[simp] theorem Dev.enterSafeTalk_cells (cause : BitVec 4) :
    (d.enterSafeTalk cause).mem.cells = d.mem.cells := by simp [Dev.enterSafeTalk]

/-! ### The image and its configuration -/

@[simp] theorem Dev.setMglMode_cells (m v : Nat) :
    (d.setMglMode m v).mem.cells = d.mem.cells := by simp [Dev.setMglMode]
@[simp] theorem Dev.enterBoot_cells : d.enterBoot.mem.cells = d.mem.cells := by simp [Dev.enterBoot]
@[simp] theorem Dev.backToSafeTalk_cells (cause : BitVec 4) :
    (d.backToSafeTalk cause).mem.cells = d.mem.cells := by simp [Dev.backToSafeTalk]
@[simp] theorem Dev.rejectImage_cells (code : Nat) :
    (d.rejectImage code).mem.cells = d.mem.cells := by simp [Dev.rejectImage]
@[simp] theorem Dev.applyRole_cells (c : BootCfg) : (d.applyRole c).mem.cells = d.mem.cells := rfl
@[simp] theorem Dev.applyMemory_cells (c : BootCfg) : (d.applyMemory c).mem.cells = d.mem.cells := rfl
@[simp] theorem Dev.applyMode_cells (x : PortModeCfg) :
    (d.applyMode x).mem.cells = d.mem.cells := by simp [Dev.applyMode]
@[simp] theorem Dev.applyRef_cells (x : Fin 16 × LaserIx × BitVec 16) :
    (d.applyRef x).mem.cells = d.mem.cells := by simp [Dev.applyRef]
@[simp] theorem Dev.checkBands_cells : d.checkBands.mem.cells = d.mem.cells := by simp [Dev.checkBands]
@[simp] theorem Dev.applyOptics_cells (c : BootCfg) :
    (d.applyOptics c).mem.cells = d.mem.cells := by simp [Dev.applyOptics]

theorem fwd_update_cells (d : Dev) (f : Fwd) : ({ d with fwd := f } : Dev).mem.cells = d.mem.cells := rfl
@[simp] theorem Dev.applyFabric_cells : d.applyFabric.mem.cells = d.mem.cells := by
  unfold Dev.applyFabric
  generalize List.range 512 = ports
  generalize List.range 16 = banks
  refine (fwd_update_cells _ _).trans ?_
  refine (foldl_cells banks _ ?_).trans (foldl_cells ports d ?_)
  · exact fun _ _ => rfl
  · exact fun _ _ => rfl

@[simp] theorem Dev.applyPlan_cells (c : BootCfg) : (d.applyPlan c).mem.cells = d.mem.cells := by simp [Dev.applyPlan]
@[simp] theorem Dev.applyAccess_cells (c : BootCfg) : (d.applyAccess c).mem.cells = d.mem.cells := rfl
@[simp] theorem Dev.enterReady_cells (c : BootCfg) : (d.enterReady c).mem.cells = d.mem.cells := by
  unfold Dev.enterReady
  generalize List.range 512 = l
  refine (foldl_cells l _ fun d p => ?_).trans (by simp)
  split_ifs <;> simp

@[simp] theorem Dev.checkFloors_cells : d.checkFloors.mem.cells = d.mem.cells := by
  unfold Dev.checkFloors
  split <;> simp

@[simp] theorem Dev.loadImage_cells (src : Source) (o : Nat) (last : Bool) (bytes : List Byte) :
    (d.loadImage src o last bytes).mem.cells = d.mem.cells := rfl

/-! ### Security -/

@[simp] theorem Dev.rawAnswer_cells (a : Arrival) (st : Status) : (d.rawAnswer a st).mem.cells = d.mem.cells := by
  unfold Dev.rawAnswer
  split
  · rfl
  · split <;> simp

@[simp] theorem Dev.mgSourceErr_cells (a : Source) : (d.mgSourceErr a).mem.cells = d.mem.cells := by
  unfold Dev.mgSourceErr
  split <;> simp

@[simp] theorem Dev.spdmSend_cells (m code : Nat) (fields : List Nat) :
    (d.spdmSend m code fields).mem.cells = d.mem.cells := by simp [Dev.spdmSend]
@[simp] theorem Dev.spdmError_cells (m err : Nat) : (d.spdmError m err).mem.cells = d.mem.cells := rfl
@[simp] theorem Dev.spdmStep_cells (m n : Nat) : (d.spdmStep m n).mem.cells = d.mem.cells := by simp [Dev.spdmStep]
@[simp] theorem Dev.spdmFree_cells (m code : Nat) (fields : List Nat) :
    (d.spdmFree m code fields).mem.cells = d.mem.cells := by simp [Dev.spdmFree]
@[simp] theorem Dev.endSession_cells (m : Nat) (id : Byte) :
    (d.endSession m id).mem.cells = d.mem.cells := by simp [Dev.endSession]

/-! ### The scheduler and the core clock -/

@[simp] theorem Dev.drainLine_cells (l : Nat) : (d.drainLine l).mem.cells = d.mem.cells := by
  unfold Dev.drainLine
  split <;> simp

@[simp] theorem Dev.endTurn_cells : d.endTurn.mem.cells = d.mem.cells := rfl
@[simp] theorem Dev.deliverEvent_cells (s : Source) : (d.deliverEvent s).mem.cells = d.mem.cells := by
  unfold Dev.deliverEvent
  split
  · split
    · dsimp only
      split <;> simp
    · dsimp only
      split <;> simp
    · dsimp only
      split <;> simp
  · dsimp only
    split <;> rfl

@[simp] theorem Dev.countWait_cells (cid : Nat) (c : Ctx) :
    (d.countWait cid c).mem.cells = d.mem.cells := by simp [Dev.countWait]
@[simp] theorem Dev.countCorrected_cells : d.countCorrected.mem.cells = d.mem.cells := by
  unfold Dev.countCorrected
  refine (foldl_cells _ _ fun d m => by simp).trans ?_
  simp only [ite_cells, Dev.bumpBy_mem, ite_self]
  exact foldl_cells _ _ fun _ _ => rfl

@[simp] theorem Dev.checkPatterns_cells : d.checkPatterns.mem.cells = d.mem.cells := by simp [Dev.checkPatterns]

end

/-! ### Answers, and what runs an effect: commands, window accesses, SPDM messages, frames at a cluster -/

@[simp] theorem answer_cells (d : Dev) (st : Status) : (answer d st).1.mem.cells = d.mem.cells := by simp [answer]
@[simp] theorem answerOk_cells (d : Dev) (l : List Nat) : (answerOk d l).1.mem.cells = d.mem.cells := by simp [answerOk]

@[simp] theorem needs_cells (n : Nat) (f : Dev → Dev × Option (Status × Res)) (d : Dev)
    (h : (f d).1.mem.cells = d.mem.cells) : (needs n f d).1.mem.cells = d.mem.cells := by
  unfold needs
  split
  · exact h
  · simp

theorem memWf_runCmd (d : Dev) (i : Instr) (c : CmdCtx) (op : Nat) (cls : PrivClass)
    {f : Dev → Dev × Option (Status × Res)}
    (h : ∀ e, memWf e.mem.cells = true → memWf (f e).1.mem.cells = true) (hd : memWf d.mem.cells = true) :
    memWf (d.runCmd i c op cls f).mem.cells = true := by
  have ran := h (d.touch c) (by simpa using hd)
  unfold Dev.runCmd
  split
  · exact hd
  · exact hd
  · simpa using hd
  · split
    · exact hd
    · split <;> simp_all

@[simp] theorem Dev.runCmd_cells (d : Dev) (i : Instr) (c : CmdCtx) (op : Nat) (cls : PrivClass)
    {f : Dev → Dev × Option (Status × Res)} (h : ∀ e, (f e).1.mem.cells = e.mem.cells) :
    (d.runCmd i c op cls f).mem.cells = d.mem.cells := by
  have ran := h (d.touch c)
  unfold Dev.runCmd
  split
  · rfl
  · rfl
  · simp
  · split
    · rfl
    · split <;> simp_all

@[simp] theorem Dev.winWrite_cells (d : Dev) (a : RegActor) (off : Nat) {f : Dev → Dev}
    (h : (f d).mem.cells = d.mem.cells) : (d.winWrite a off f).mem.cells = d.mem.cells := by
  unfold Dev.winWrite
  split
  · rfl
  · rfl
  · exact h

@[simp] theorem Dev.winRead_cells (d : Dev) (a : RegActor) (off : Nat) {f : Dev → Dev × Nat}
    (h : (f d).1.mem.cells = d.mem.cells) : (d.winRead a off f).mem.cells = d.mem.cells := by
  unfold Dev.winRead
  split
  · rfl
  · rfl
  · exact h

@[simp] theorem Dev.spdmRun_cells (d : Dev) (s : SpdmCtx) (need : Nat) {f : Dev → Dev}
    (h : (f d).mem.cells = d.mem.cells) : (d.spdmRun s need f).mem.cells = d.mem.cells := by
  unfold Dev.spdmRun
  split_ifs <;> simp [h]

@[simp] theorem Dev.inSession_cells (d : Dev) (s : SpdmCtx) {f : Dev → Dev}
    (h : (f d).mem.cells = d.mem.cells) : (d.inSession s f).mem.cells = d.mem.cells := by
  refine d.spdmRun_cells s 3 ?_
  split
  · split
    · exact h
    · simp
  · simp

theorem memWf_serve (d : Dev) (k tc : Nat) (want : Header → Bool) {f : Dev → Frame → Dev}
    (h : ∀ e x, memWf e.mem.cells = true → memWf (f e x).mem.cells = true) (hd : memWf d.mem.cells = true) :
    memWf (d.serve k tc want f).mem.cells = true := by
  unfold Dev.serve
  split
  · exact hd
  · split
    · exact hd
    · dsimp only
      split_ifs
      · exact hd
      · simpa using hd
      · simpa using hd
      · simpa using hd
      · rw [Dev.release_cells, Dev.noteSent_cells]
        exact h _ _ (by simpa using hd)

@[simp] theorem Dev.serve_cells (d : Dev) (k tc : Nat) (want : Header → Bool) {f : Dev → Frame → Dev}
    (h : ∀ e x, (f e x).mem.cells = e.mem.cells) : (d.serve k tc want f).mem.cells = d.mem.cells := by
  unfold Dev.serve
  split
  · rfl
  · split
    · rfl
    · split_ifs <;> simp [h]

/-! ### Staged modes, frames taken back and groups of transactions -/

@[simp] theorem Dev.changeModes_cells (was d : Dev) (ops : List Staged) :
    (Dev.changeModes was d ops).mem.cells = d.mem.cells := by
  simp [Dev.changeModes]

theorem Dev.untake_cells {d e : Dev} {k svc : Nat} {t : Taken} (h : d.untake k svc = some (t, e)) :
    e.mem.cells = d.mem.cells := by
  unfold Dev.untake at h
  dsimp only at h
  split at h
  · cases h
  · cases h; rfl

theorem Dev.admitMember_cells (a : Dev × Dev) (t : Txn) : (Dev.admitMember a t).1.mem.cells = a.1.mem.cells := by
  unfold Dev.admitMember
  split
  · rfl
  · split <;> simp

theorem Dev.nextBehind_cells {d e : Dev} {i : Instr} (h : d.nextBehind = some (e, i)) : e.mem.cells = d.mem.cells := by
  unfold Dev.nextBehind at h
  split at h
  · cases h
  · obtain ⟨_, _, hs⟩ := List.exists_of_findSome?_eq_some h
    split at hs
    · cases hs; rfl
    · cases hs

/-! ### The scheduler -/

/-- A slot that comes to a requester leaves the bytes of board memory. -/
def SlotTry.LeavesCells (d : Dev) : SlotTry → Prop
  | .moved e _ => e.mem.cells = d.mem.cells
  | _ => True

theorem Dev.tryRead_cells (d : Dev) (used : List Nat) (l : Nat) : (d.tryRead used l).LeavesCells d := by
  unfold Dev.tryRead
  split
  · trivial
  · dsimp only
    split_ifs <;> simp [SlotTry.LeavesCells]

theorem Dev.tryFetch_cells (d : Dev) (used : List Nat) (t : Dest) : (d.tryFetch used t).LeavesCells d := by
  unfold Dev.tryFetch
  split
  · trivial
  · dsimp only
    split_ifs <;> simp [SlotTry.LeavesCells]

theorem Dev.tryReader_cells (d : Dev) (used : List Nat) (k : Nat) : (d.tryReader used k).LeavesCells d := by
  unfold Dev.tryReader
  split
  · exact d.tryFetch_cells ..
  · exact d.tryRead_cells ..

theorem Dev.tryCluster_cells (d : Dev) (used : List Nat) (k : Nat) : (d.tryCluster used k).LeavesCells d :=
  d.tryFetch_cells ..

theorem Dev.tryWrite_cells (d : Dev) (used : List Nat) (k : Nat) : (d.tryWrite used k).LeavesCells d := by
  unfold Dev.tryWrite
  split
  · trivial
  · dsimp only
    split <;> simp [SlotTry.LeavesCells]

theorem Grants.offer_cells {try_ : Dev → List Nat → Nat → SlotTry} (h : ∀ d used k, (try_ d used k).LeavesCells d)
    (g : Grants) (k : Nat) : (g.offer try_ k).d.mem.cells = g.d.mem.cells := by
  have tried := h g.d g.used k
  unfold Grants.offer
  split
  · rfl
  · split <;> simp_all [SlotTry.LeavesCells]

theorem Grants.rounds_cells {try_ : Dev → List Nat → Nat → SlotTry} (h : ∀ d used k, (try_ d used k).LeavesCells d)
    (who : List Nat) (n : Nat) (first : List Nat) (g : Grants) :
    (Grants.rounds try_ who n first g).d.mem.cells = g.d.mem.cells := by
  have folded : ∀ (l : List Nat) (g : Grants), (l.foldl (Grants.offer try_) g).d.mem.cells = g.d.mem.cells := by
    intro l g
    induction l generalizing g with
    | nil => rfl
    | cons k l ih => exact (ih _).trans (g.offer_cells h k)
  induction n generalizing first g with
  | zero => rfl
  | succ n ih => exact (ih _ _).trans (folded _ _)

@[simp] theorem Dev.schedule_cells (d : Dev) : d.schedule.mem.cells = d.mem.cells := by
  unfold Dev.schedule
  dsimp only
  rw [Grants.rounds_cells Dev.tryWrite_cells]
  dsimp only
  rw [Grants.rounds_cells Dev.tryCluster_cells]
  dsimp only
  rw [Grants.rounds_cells Dev.tryReader_cells]
  simp

theorem Dev.cells_of_begun {d e : Dev} {l : Nat} {x : Sending} {y : Option Sending} (h : d.begun l x = (e, y)) :
    e.mem.cells = d.mem.cells := by
  rw [← d.begun_cells l x, h]

end Sys2Proof.Machine
end

section
/-! PROOF. What writes board memory keeps it canonical (R207, R241, R252 to R276, R283, R303, R472): the companion's
writes, chunk maps, updates and mirror frames, finished chunks, expanders that are lost, the flip, reset and the core
clock. -/

namespace Sys2Proof.Machine

/-! ### Folds and the companion's writes -/

theorem memWf_foldl {α : Type} (l : List α) {g : Dev → α → Dev} {d : Dev} (h : memWf d.mem.cells = true)
    (step : ∀ (e : Dev) (a : α), memWf e.mem.cells = true → memWf (g e a).mem.cells = true) :
    memWf (l.foldl g d).mem.cells = true :=
  List.foldlRecOn (motive := fun e : Dev => memWf e.mem.cells = true) l g h fun e he a _ => step e a he

theorem memWf_foldl_fst {α β : Type} (l : List α) {g : Dev × β → α → Dev × β} {x : Dev × β}
    (h : memWf x.1.mem.cells = true)
    (step : ∀ (y : Dev × β) (a : α), memWf y.1.mem.cells = true → memWf (g y a).1.mem.cells = true) :
    memWf (l.foldl g x).1.mem.cells = true :=
  List.foldlRecOn (motive := fun y : Dev × β => memWf y.1.mem.cells = true) l g h fun y hy a _ => step y a hy

section
variable {d : Dev} (h : memWf d.mem.cells = true)
include h

theorem memWf_hostWriteLine (a : Nat) (b : List Byte) : memWf (d.hostWriteLine a b).mem.cells = true := by
  unfold Dev.hostWriteLine
  split
  · exact h
  · exact memWf_applyWrite d a b h

theorem memWf_hostWrite (a : Nat) (b : List Byte) : memWf (d.hostWrite a b).mem.cells = true := by
  unfold Dev.hostWrite
  dsimp only
  split
  · exact memWf_applyWrite d a b h
  · exact memWf_writeLines _ (fun _ a b he => memWf_hostWriteLine he a b) _ d a b h

@[simp] theorem memWf_drainWrites : memWf d.drainWrites.mem.cells = true := by
  refine memWf_foldl _ h fun e w he => ?_
  split
  · exact he
  · exact memWf_applyWrite e w.addr w.data he

/-! ### Chunk maps -/

@[simp] theorem memWf_setMapEnt (s : ThrShard) (j : Nat) (m : MapEnt) : memWf (d.setMapEnt s j m).mem.cells = true :=
  memWf_devWrite d _ _ h

@[simp] theorem memWf_stampSlot (n : Nat) (s : ThrShard) (j : Nat) (m : MapEnt) :
    memWf (d.stampSlot n s j m).mem.cells = true := by
  simp [Dev.stampSlot, h]

theorem memWf_buildMap (s : ThrShard) (e : CtxEntry) (phase : Word) :
    memWf (d.buildMap s e phase).mem.cells = true :=
  memWf_foldl_fst _ h fun _ _ hy => memWf_setMapEnt hy ..

theorem memWf_markLost (s : ThrShard) (from_ : Nat) : memWf (d.markLost s from_).1.mem.cells = true := by
  refine memWf_foldl_fst _ h fun y j hy => ?_
  dsimp only
  split <;> simp [hy]

theorem memWf_loseSlots (n : Nat) (s : ThrShard) (from_ : Nat) : memWf (d.loseSlots n s from_).mem.cells = true := by
  by_cases built : s.ready = true
  · simp [Dev.loseSlots_built built, memWf_markLost h]
  · simp [Dev.loseSlots, built, h]

theorem memWf_unloseSlots (n : Nat) (s : ThrShard) : memWf (d.unloseSlots n s).mem.cells = true := by
  unfold Dev.unloseSlots
  rw [Dev.modShard_cells]
  refine memWf_foldl _ h fun e j he => ?_
  dsimp only
  split <;> simp [he]

theorem memWf_loseEntry (n : Nat) (s : ThrShard) (ix : Nat) (m : MapEnt) :
    memWf (d.loseEntry n s ix m).mem.cells = true := by
  unfold Dev.loseEntry
  split <;> simp [h]

theorem memWf_rewriteEntry (n : Nat) (s : ThrShard) (ix : Nat) : memWf (d.rewriteEntry n s ix).mem.cells = true := by
  unfold Dev.rewriteEntry
  split <;> simp [h]

/-! ### The work that follows -/

@[simp] theorem memWf_loseUpdates (j : Nat) (x : ThrJob) (q : Word) : memWf (d.loseUpdates j x q).mem.cells = true := by
  refine memWf_foldl _ h fun _ e he => memWf_foldl _ he fun z i hz => ?_
  dsimp only
  split <;> simp [hz]

theorem memWf_phaseDone (j : Nat) : memWf (d.phaseDone j).mem.cells = true := by
  unfold Dev.phaseDone
  split
  · exact h
  · split
    · exact h
    · dsimp only
      split_ifs <;> simp [h]

@[simp] theorem memWf_thrTidy : memWf d.thrTidy.mem.cells = true := by
  unfold Dev.thrTidy
  rw [foldl_cells _ _ fun _ _ => Dev.maybeRequest_cells .., Dev.dropShards_cells]
  refine memWf_foldl _ (by simpa using h) fun _ e he => memWf_foldl _ (by simpa using he) fun _ _ hz => ?_
  exact memWf_phaseDone hz e.1

/-! ### Howlink -/

@[simp] theorem memWf_howlinkDown : memWf d.howlinkDown.mem.cells = true :=
  memWf_foldl _ (by simpa using h) fun e w he => memWf_applyWrite e w.addr w.data he

/-! ### Expanders -/

@[simp] theorem memWf_loseEverySlot : memWf d.loseEverySlot.mem.cells = true :=
  memWf_foldl _ h fun _ e he => memWf_loseSlots he e.1 e.2 0

@[simp] theorem memWf_emptyStripes (e : Nat) : memWf (d.emptyStripes e).mem.cells = true := memWf_filter _ _ h

@[simp] theorem memWf_uncorrGranary (a : Nat) : memWf (d.uncorrGranary a).mem.cells = true := by
  refine memWf_foldl _ (by simpa using h) fun _ e he => ?_
  dsimp only
  split
  · exact he
  · split
    · exact memWf_loseEntry he ..
    · exact he

@[simp] theorem memWf_uncorrPark (p : Parked) : memWf (d.uncorrPark p).mem.cells = true := by
  unfold Dev.uncorrPark
  split
  · simp [h]
  · split
    · simp [h]
    · dsimp only
      split <;> simp [h]

@[simp] theorem memWf_uncorrRegion (a : Nat) (k : RegionKind) : memWf (d.uncorrRegion a k).mem.cells = true := by
  unfold Dev.uncorrRegion
  dsimp only
  cases k with
  | host => simp [h]
  | map =>
    dsimp only
    split
    · simp [memWf_rewriteEntry h]
    · exact h
  | mlog =>
    dsimp only
    split
    · split <;> simp [h]
    · simp [h]
  | _ => dsimp only; split <;> simp [h]

theorem memWf_failUpdate (n : Nat) (ctx : BitVec 16) (seq : Word) :
    memWf (d.failUpdate n ctx seq).mem.cells = true := by
  unfold Dev.failUpdate
  split <;> simp [h]

/-! ### Updates, copies -/

theorem memWf_writeUpdate (j : Nat) (x : ThrJob) (n : Nat) (s : ThrShard) (p : Parked) (ix : Nat) (m : MapEnt)
    (b : List Byte) : memWf (d.writeUpdate j x n s p ix m b).mem.cells = true := by
  have written := memWf_devWrite d (s.cfg.stateBase.toNat + m.slot * b.length) b h
  unfold Dev.writeUpdate
  dsimp only
  split
  · split <;> simp [written]
  · simp [written]

theorem memWf_updateChunk (p : Parked) : memWf (d.updateChunk p).mem.cells = true := by
  unfold Dev.updateChunk
  split
  · split
    · simp [h]
    · dsimp only
      split
      · simp [h]
      · split
        · simp [h]
        · split
          · exact memWf_writeUpdate h ..
          · simp [h]
  · simp [h]

theorem memWf_takeCommit (j n : Nat) (sh : ThrShard) (slot : Nat) (stamp : Word) :
    memWf (d.takeCommit j n sh slot stamp).mem.cells = true := by
  unfold Dev.takeCommit
  split
  · simp [h]
  · exact h

theorem memWf_restoreSlot (n : Nat) (s : ThrShard) (ix : Nat) (m : MapEnt) (phase : Word) :
    memWf (d.restoreSlot n s ix m phase).mem.cells = true := by
  unfold Dev.restoreSlot
  dsimp only
  split
  · simp [h]
  · split <;> simp [h]

theorem memWf_enterLost (j : Nat) (x : ThrJob) : memWf (d.enterLost j x).mem.cells = true := by
  unfold Dev.enterLost
  rw [Dev.event_mem]
  exact memWf_foldl _ (by simpa using h) fun _ e he => memWf_loseSlots he e.1 e.2 e.2.cursor

theorem memWf_setShardRole (p : ThrShardRoleP) : memWf (d.setShardRole p).mem.cells = true := by
  have kept := memWf_foldl (d.shardsOf p.j.toNat) h fun _ e he => memWf_unloseSlots he e.1 e.2
  unfold Dev.setShardRole
  dsimp only
  split
  · exact h
  · split
    · split
      · simp [h]
      · split <;> simp [h, kept]
      · exact h
    · split <;> simp [h]

/-! ### Frames -/

theorem memWf_serveMirror (k tc : Nat) (sub : Byte) {f : Dev → Nat → Frame → Dev}
    (hf : ∀ e j x, memWf e.mem.cells = true → memWf (f e j x).mem.cells = true) :
    memWf (d.serveMirror k tc sub f).mem.cells = true := by
  refine memWf_thrTidy (memWf_serve d k tc _ (fun e x he => ?_) h)
  split
  · simp [hf e _ x he]
  · exact he

theorem memWf_complete (cid : Nat) (x : Chunk) : memWf (d.complete cid x).mem.cells = true := by
  unfold Dev.complete
  split
  · exact h
  · split_ifs <;> simp [h]

theorem memWf_completeFull (cid : Nat) : memWf (d.completeFull cid).mem.cells = true := by
  unfold Dev.completeFull
  split
  · exact h
  · exact memWf_foldl _ h fun _ x he => memWf_complete he cid x

theorem memWf_combine (k cid : Nat) (c : Ctx) (x : Chunk) (f : Frame) :
    memWf (d.combine k cid c x f).mem.cells = true := by
  unfold Dev.combine
  dsimp only
  split
  · exact memWf_complete (by simpa using h) ..
  · simp [h]

theorem memWf_newChunk (k cid : Nat) (c : Ctx) (f : Frame) : memWf (d.newChunk k cid c f).mem.cells = true := by
  unfold Dev.newChunk
  dsimp only
  split
  · simp [h]
  · split
    · simp [h]
    · split
      · simp [h]
      · exact memWf_combine (by simpa using h) ..

theorem memWf_contribution (k : Nat) (f : Frame) : memWf (d.contribution k f).mem.cells = true := by
  unfold Dev.contribution
  dsimp only
  split
  · simp [h]
  next c _ =>
    generalize formatOk _ f.hdr = fits
    split
    · simp [h]
    · split
      · simp [h]
      · split
        · simp [h]
        · split
          · simp [h]
          · split
            · split
              · exact memWf_newChunk (by simpa using h) ..
              · simp [h]
            · split
              · simp [h]
              · split
                · simp [h]
                · simp [h]
                · split
                  · simp [h]
                  · exact memWf_combine (by simpa using h) ..
            · exact memWf_newChunk h ..

theorem memWf_setCtxEntry (p : CtxSetP) : memWf (d.setCtxEntry p).mem.cells = true := by
  unfold Dev.setCtxEntry
  dsimp only
  split
  · split
    · exact memWf_completeFull (by simpa using h) _
    · exact memWf_completeFull (by simpa using h) _
    · split <;> simp [h]
    · exact h
  · simp [h]

theorem memWf_reformCtx (p : CtxReformP) : memWf (d.reformCtx p).mem.cells = true := by
  unfold Dev.reformCtx
  dsimp only
  split
  · exact h
  · exact memWf_completeFull (by simpa using h) _

/-! ### Transactions -/

theorem memWf_applyStaged (x : Staged) : memWf (d.applyStaged x).mem.cells = true := by
  cases x with
  | ctxSet p => exact memWf_setCtxEntry h p
  | ctxReform p => exact memWf_reformCtx h p
  | thrShardRole p => exact memWf_setShardRole h p
  | _ => simp [Dev.applyStaged, h]

theorem memWf_flip (ops : List Staged) : memWf (d.flip ops).mem.cells = true := by
  have tables : memWf (if (ops.filter Staged.isTable).isEmpty then d
      else d.flipTables (ops.filter Staged.isTable)).mem.cells = true := by
    split <;> simp [h]
  have applied := memWf_foldl (ops.filter fun x => !Staged.isTable x) tables fun _ x he => memWf_applyStaged he x
  simp only [Dev.flip, ite_cells, Dev.replan_cells, Dev.fenceLeft_cells, Dev.changeModes_cells, ite_self]
  exact applied

theorem memWf_stage (c : CmdCtx) (x : Staged) : memWf (d.stage c x).1.mem.cells = true := by
  unfold Dev.stage
  split
  · exact h
  · dsimp only
    split_ifs
    · exact h
    · exact h
    · exact h
    · split
      · exact h
      · simp [h]

theorem memWf_stagedOnly (i : Instr) (c : CmdCtx) (x : Staged) : memWf (d.stagedOnly i c x).mem.cells = true := by
  refine memWf_runCmd d i c _ _ (fun e he => ?_) h
  split
  · exact he
  · exact memWf_stage he c x

theorem memWf_stagedOrNow (i : Instr) (c : CmdCtx) (x : Staged) : memWf (d.stagedOrNow i c x).mem.cells = true := by
  refine memWf_runCmd d i c _ _ (fun e he => ?_) h
  split
  · exact memWf_stage he c x
  · split
    · exact he
    · split
      · exact he
      · exact memWf_applyStaged he x

theorem memWf_applyStagedAll (l : List Staged) : memWf (d.applyStagedAll l).mem.cells = true := by
  unfold Dev.applyStagedAll
  dsimp only
  split
  · exact h
  · split
    · exact h
    · exact memWf_flip (by exact h) l

theorem memWf_applyRest (c : BootCfg) : memWf (d.applyRest c).mem.cells = true :=
  memWf_applyStagedAll (by simpa using h) _

@[simp] theorem memWf_enterReset : memWf d.enterReset.mem.cells = true := memWf_filter _ _ h

theorem memWf_clock : memWf d.clock.mem.cells = true := by
  unfold Dev.clock
  dsimp only
  split
  · exact h
  · simp only [Dev.deliverEvent_cells, Dev.pevTick_cells]
    refine memWf_thrTidy ?_
    simp only [Dev.checkPatterns_cells, Dev.countCorrected_cells, Dev.serveFailures_cells, Dev.gleanDrain_cells,
      Dev.schedule_cells, foldl_cells, Dev.countWait_cells, implies_true, ite_cells, Dev.timeEdge_cells, ite_self]
    exact h

end

end Sys2Proof.Machine
end

section
/-! PROOF. Every step keeps board memory canonical: the commands one by one, then a core clock and a step. -/

namespace Sys2Proof.Machine

/-- The outcome, where it is a next state, holds canonical memory if the state did. -/
def State.KeepsMemory (s : State) (o : Host.Outcome State Fault Refusal) : Prop :=
  memWf s.d.mem.cells = true → ∀ t, o = .next t → memWf t.d.mem.cells = true

@[simp] theorem State.keepsMemory_goto (s : State) (d : Dev) :
    s.KeepsMemory (goto s d) ↔ (memWf s.d.mem.cells = true → memWf d.mem.cells = true) :=
  ⟨fun h hs => h hs _ rfl, fun h hs t run => by rw [goto_next run]; exact h hs⟩

theorem State.keepsMemory_runCmd (s : State) (i : Instr) (c : CmdCtx) (op : Nat) (cls : PrivClass)
    {f : Dev → Dev × Option (Status × Res)} (h : ∀ e, (f e).1.mem.cells = e.mem.cells) :
    s.KeepsMemory (goto s (s.d.runCmd i c op cls f)) := by
  simp [Dev.runCmd_cells _ _ _ _ _ h]

theorem State.keepsMemory_serve (s : State) (k tc : Nat) (want : Header → Bool) {f : Dev → Frame → Dev}
    (h : ∀ e x, (f e x).mem.cells = e.mem.cells) : s.KeepsMemory (goto s (s.d.serve k tc want f)) := by
  simp [Dev.serve_cells _ _ _ _ h]

theorem State.keepsMemory_stagedOnly (s : State) (i : Instr) (c : CmdCtx) (x : Staged) :
    s.KeepsMemory (goto s (s.d.stagedOnly i c x)) :=
  (s.keepsMemory_goto _).mpr fun h => memWf_stagedOnly h i c x

theorem State.keepsMemory_stagedOrNow (s : State) (i : Instr) (c : CmdCtx) (x : Staged) :
    s.KeepsMemory (goto s (s.d.stagedOrNow i c x)) :=
  (s.keepsMemory_goto _).mpr fun h => memWf_stagedOrNow h i c x

/-! ### Arriving frames -/

@[simp] theorem execFrameTailReceived_keeps (p : Port) (payload : List Byte) (e2e link : Word) (s : State) :
    s.KeepsMemory (execFrameTailReceived p payload e2e link s) := by
  unfold execFrameTailReceived
  dsimp only
  split <;> simp

/-! ### Egress -/

@[simp] theorem execCopySelected_keeps (p : Port) (s : State) : s.KeepsMemory (execCopySelected p s) := by
  unfold execCopySelected
  dsimp only
  split
  · simp
  · split <;> simp

@[simp] theorem execPtpEventFrameEgress_keeps (p : Port) (s : State) :
    s.KeepsMemory (execPtpEventFrameEgress p s) := by
  unfold execPtpEventFrameEgress
  dsimp only
  split
  · simp
  · split
    · simp
    · split
      next begun => simp [Dev.cells_of_begun begun]
      next begun => split <;> simp [Dev.cells_of_begun begun]

@[simp] theorem execCopySent_keeps (p : Port) (s : State) : s.KeepsMemory (execCopySent p s) := by
  unfold execCopySent
  dsimp only
  split
  · simp
  · split
    · split
      next begun => simp [Dev.cells_of_begun begun]
      next begun => simp [Dev.cells_of_begun begun]
    · simp

@[simp] theorem execAgentFrameDelivery_keeps (tc : Fin 8) (raw : List Byte) (s : State) :
    s.KeepsMemory (execAgentFrameDelivery tc raw s) := by
  unfold execAgentFrameDelivery
  dsimp only
  split
  · simp
  · split
    · simp
    · split
      · simp
      · split <;> simp

/-! ### Clusters at work -/

@[simp] theorem execContributionServed_keeps (k tc : Fin 8) (s : State) :
    s.KeepsMemory (execContributionServed k tc s) := by
  exact (State.keepsMemory_goto ..).mpr fun h => memWf_serve _ _ _ _ (fun d f hd => memWf_contribution hd k.val f) h

@[simp] theorem execResultNotice_keeps (k : Fin 8) (s : State) : s.KeepsMemory (execResultNotice k s) := by
  unfold execResultNotice
  dsimp only
  split
  · simp
  · split
    · simp
    · split
      · simp
      · split <;> simp

@[simp] theorem execGatherTimerExpiry_keeps (ctx : BitVec 16) (seq : Word) (s : State) :
    s.KeepsMemory (execGatherTimerExpiry ctx seq s) := by
  unfold execGatherTimerExpiry
  dsimp only
  split <;> simp

@[simp] theorem execRetryTimerExpiry_keeps (ctx : BitVec 16) (seq : Word) (s : State) :
    s.KeepsMemory (execRetryTimerExpiry ctx seq s) := by
  unfold execRetryTimerExpiry
  dsimp only
  split <;> simp

@[simp] theorem execCreditReturn_keeps (ctx : BitVec 16) (seq : Word) (s : State) :
    s.KeepsMemory (execCreditReturn ctx seq s) := by
  unfold execCreditReturn
  dsimp only
  split <;> simp

@[simp] theorem execPartnerCreditFree_keeps (ctx : BitVec 16) (seq : Word) (s : State) :
    s.KeepsMemory (execPartnerCreditFree ctx seq s) := by
  unfold execPartnerCreditFree
  dsimp only
  split <;> simp

@[simp] theorem execSetupHeadServed_keeps (s : State) : s.KeepsMemory (execSetupHeadServed s) := by
  unfold execSetupHeadServed
  dsimp only
  split <;> simp

@[simp] theorem execSetupStall_keeps (s : State) : s.KeepsMemory (execSetupStall s) := by
  unfold execSetupStall
  dsimp only
  split <;> simp

@[simp] theorem execResizeBoundaryReached_keeps (ctx : BitVec 16) (s : State) :
    s.KeepsMemory (execResizeBoundaryReached ctx s) := by
  unfold execResizeBoundaryReached
  dsimp only
  split <;> simp

@[simp] theorem execContextDrainEnd_keeps (ctx : BitVec 16) (s : State) :
    s.KeepsMemory (execContextDrainEnd ctx s) := by
  unfold execContextDrainEnd
  dsimp only
  split <;> simp

@[simp] theorem execSheafReleasePassing_keeps (k : Fin 8) (s : State) :
    s.KeepsMemory (execSheafReleasePassing k s) := by
  unfold execSheafReleasePassing
  dsimp only
  split
  · simp
  · split
    · simp
    · split <;> simp

@[simp] theorem execSheafRetryExpiry_keeps (n : Fin 8192) (s : State) : s.KeepsMemory (execSheafRetryExpiry n s) := by
  unfold execSheafRetryExpiry
  dsimp only
  split <;> simp

@[simp] theorem execSheafStuck_keeps (n : Fin 8192) (s : State) : s.KeepsMemory (execSheafStuck n s) := by
  unfold execSheafStuck
  dsimp only
  split <;> simp

/-! ### Transactions dropped, and Thresh at work -/

@[simp] theorem execChunkMapBuilt_keeps (shard : Fin 16384) (s : State) :
    s.KeepsMemory (execChunkMapBuilt shard s) := by
  unfold execChunkMapBuilt
  refine (State.keepsMemory_goto ..).mpr fun h => ?_
  dsimp only
  split
  · exact h
  next sh _ =>
    split
    next c x _ _ =>
      have built := memWf_buildMap h sh c.e x.phase
      split
      · exact h
      · refine memWf_thrTidy ?_
        simp only [Dev.maybeRequest_cells, Dev.event_mem]
        split
        · exact memWf_loseSlots (by simpa using built) ..
        · split
          · exact memWf_loseSlots (by simpa using built) ..
          · simpa using built
    · exact h

@[simp] theorem execThreshArrivalRepeat_keeps (j : Fin 64) (s : State) :
    s.KeepsMemory (execThreshArrivalRepeat j s) := by
  unfold execThreshArrivalRepeat
  dsimp only
  split <;> simp

@[simp] theorem execThreshReleasePosted_keeps (s : State) : s.KeepsMemory (execThreshReleasePosted s) := by
  unfold execThreshReleasePosted
  refine (State.keepsMemory_goto ..).mpr fun h => ?_
  dsimp only
  split
  · exact h
  · split
    · exact h
    · exact memWf_thrTidy (by simpa using h)

@[simp] theorem execStagingReady_keeps (k : Fin 8) (s : State) : s.KeepsMemory (execStagingReady k s) := by
  unfold execStagingReady
  refine (State.keepsMemory_goto ..).mpr fun h => ?_
  split
  · exact memWf_thrTidy (memWf_updateChunk h _)
  · exact h

@[simp] theorem execParkSpaceFreed_keeps (ctx : BitVec 16) (seq : Word) (s : State) :
    s.KeepsMemory (execParkSpaceFreed ctx seq s) := by
  unfold execParkSpaceFreed
  refine (State.keepsMemory_goto ..).mpr fun h => ?_
  split
  · split <;> simp [h]
  · exact h

@[simp] theorem execMirrorStateReceived_keeps (k tc : Fin 8) (s : State) :
    s.KeepsMemory (execMirrorStateReceived k tc s) := by
  refine (State.keepsMemory_goto ..).mpr fun h => memWf_serveMirror h _ _ _ fun d j _ hd => ?_
  split
  · exact hd
  · dsimp only
    split
    · exact hd
    · exact memWf_devWrite d _ _ hd

@[simp] theorem execMirrorAckReceived_keeps (k tc : Fin 8) (s : State) :
    s.KeepsMemory (execMirrorAckReceived k tc s) := by
  refine (State.keepsMemory_goto ..).mpr fun h => memWf_thrTidy (memWf_serve _ _ _ _ (fun d f hd => ?_) h)
  split <;> simp [hd]

@[simp] theorem execMirrorCommitReceived_keeps (k tc : Fin 8) (s : State) :
    s.KeepsMemory (execMirrorCommitReceived k tc s) := by
  refine (State.keepsMemory_goto ..).mpr fun h => memWf_serveMirror h _ _ _ fun d j _ hd => ?_
  split
  · exact hd
  · dsimp only
    split
    · exact hd
    · exact memWf_takeCommit hd ..

@[simp] theorem execMirrorNoteReceived_keeps (k tc : Fin 8) (s : State) :
    s.KeepsMemory (execMirrorNoteReceived k tc s) := by
  refine (State.keepsMemory_goto ..).mpr fun h => memWf_serveMirror h _ _ _ fun d j _ hd => ?_
  split <;> simp [hd]

@[simp] theorem execMirrorRebuildReqReceived_keeps (k tc : Fin 8) (s : State) :
    s.KeepsMemory (execMirrorRebuildReqReceived k tc s) := by
  refine (State.keepsMemory_goto ..).mpr fun h => memWf_serveMirror h _ _ _ fun d j _ hd => ?_
  simp [hd]

@[simp] theorem execMirrorRebuildEndReceived_keeps (k tc : Fin 8) (s : State) :
    s.KeepsMemory (execMirrorRebuildEndReceived k tc s) := by
  refine (State.keepsMemory_goto ..).mpr fun h => memWf_serveMirror h _ _ _ fun d j _ hd => ?_
  split <;> simp [hd]

@[simp] theorem execMirrorOutOfOrder_keeps (k tc : Fin 8) (s : State) :
    s.KeepsMemory (execMirrorOutOfOrder k tc s) := by
  refine s.keepsMemory_serve _ _ _ fun d f => ?_
  split
  · split <;> simp
  · rfl

@[simp] theorem execMirrorRtoExpiry_keeps (j : Fin 64) (s : State) : s.KeepsMemory (execMirrorRtoExpiry j s) := by
  unfold execMirrorRtoExpiry
  dsimp only
  split <;> simp

@[simp] theorem execMirrorDeadExpiry_keeps (j : Fin 64) (s : State) : s.KeepsMemory (execMirrorDeadExpiry j s) := by
  unfold execMirrorDeadExpiry
  refine (State.keepsMemory_goto ..).mpr fun h => ?_
  split
  · split
    · simp [h]
    · exact memWf_thrTidy (memWf_enterLost h ..)
    · exact h
  · exact h

@[simp] theorem execBulkCopySlot_keeps (j : Fin 64) (s : State) : s.KeepsMemory (execBulkCopySlot j s) := by
  unfold execBulkCopySlot
  dsimp only
  split
  · simp
  · split
    · simp
    · split <;> simp

@[simp] theorem execWeightReqReceived_keeps (k tc : Fin 8) (s : State) :
    s.KeepsMemory (execWeightReqReceived k tc s) := by
  refine s.keepsMemory_serve _ _ _ fun d f => ?_
  dsimp only
  split
  · split
    · simp
    · split
      · simp
      · split <;> simp
  · simp

@[simp] theorem execThrRead_keeps (c : CmdCtx) (isShard : Bool) (ix : BitVec 16) (s : State) :
    s.KeepsMemory (execThrRead c isShard ix s) := by
  refine s.keepsMemory_runCmd _ _ _ _ fun d => ?_
  split
  · split
    · rfl
    · split <;> rfl
  · split
    · rfl
    · split <;> rfl

@[simp] theorem execThrMapRead_keeps (c : CmdCtx) (shard : BitVec 16) (first : Word) (count : BitVec 16) (s : State) :
    s.KeepsMemory (execThrMapRead c shard first count s) := by
  refine s.keepsMemory_runCmd _ _ _ _ fun d => ?_
  split
  · rfl
  · split <;> rfl

/-! ### The memory tiers at work -/

@[simp] theorem execHowlinkMemAccess_keeps (m : MemAccess) (s : State) :
    s.KeepsMemory (execHowlinkMemAccess m s) := by
  unfold execHowlinkMemAccess
  refine (State.keepsMemory_goto ..).mpr fun h => ?_
  dsimp only
  generalize (if m.write = true then m.data.length else m.len) = n
  have tracked : memWf (if m.cache = true then (linesOf m.addr.toNat n).foldl (fun d l => d.track l) s.d
      else s.d).mem.cells = true := by
    simp [h]
  split
  · exact h
  · split
    · exact h
    · split
      · split
        · exact memWf_hostWrite tracked ..
        · rw [Dev.hostRead_cells]
          exact tracked
      · simpa using h
      · split <;> simpa using h

@[simp] theorem execSnoopResponse_keeps (line : BitVec 52) (s : State) :
    s.KeepsMemory (execSnoopResponse line s) := by
  unfold execSnoopResponse
  refine (State.keepsMemory_goto ..).mpr fun h => ?_
  dsimp only
  split <;> simp [h]

@[simp] theorem execPageCopyComplete_keeps (s : State) : s.KeepsMemory (execPageCopyComplete s) := by
  unfold execPageCopyComplete
  dsimp only
  split <;> simp

@[simp] theorem execExpanderCopyComplete_keeps (s : State) : s.KeepsMemory (execExpanderCopyComplete s) := by
  unfold execExpanderCopyComplete
  dsimp only
  split <;> simp

@[simp] theorem execExpanderLoss_keeps (e : Fin 4) (s : State) : s.KeepsMemory (execExpanderLoss e s) := by
  unfold execExpanderLoss
  refine (State.keepsMemory_goto ..).mpr fun h => ?_
  dsimp only
  split
  · exact h
  · have emptied : ∀ d : Dev, d.mem.cells = s.d.mem.cells →
        memWf (d.loseEverySlot.emptyStripes e.val).mem.cells = true := fun d same =>
      memWf_emptyStripes (memWf_loseEverySlot (by rw [same]; exact h)) _
    split
    · refine memWf_thrTidy ?_
      simp only [Dev.faultRec_mem, Dev.event_mem, Dev.setRole_cells, Dev.restripe_cells]
      refine emptied _ ?_
      split
      · split <;> simp
      · rfl
    · refine memWf_thrTidy ?_
      simp only [Dev.faultRec_mem, Dev.event_mem]
      split
      all_goals
        simp only [Dev.setRole_cells]
        refine emptied _ ?_
        split
        · split <;> simp
        · rfl

@[simp] theorem execSpareExpanderLoss_keeps (s : State) : s.KeepsMemory (execSpareExpanderLoss s) := by
  unfold execSpareExpanderLoss
  dsimp only
  split <;> simp

@[simp] theorem execNearTierUncorrectableRead_keeps (addr : BitVec 52) (s : State) :
    s.KeepsMemory (execNearTierUncorrectableRead addr s) := by
  unfold execNearTierUncorrectableRead
  refine (State.keepsMemory_goto ..).mpr fun h => ?_
  dsimp only
  split
  · exact h
  · split
    · simp [h]
    · split
      · split <;> simp [h]
      · exact h

@[simp] theorem execMemSlotRestored_keeps (c : CmdCtx) (shard : BitVec 16) (j phase : Word) (s : State) :
    s.KeepsMemory (execMemSlotRestored c shard j phase s) := by
  refine (State.keepsMemory_goto ..).mpr fun h => memWf_runCmd _ _ _ _ _ (fun d hd => ?_) h
  split
  · exact hd
  · split
    · exact hd
    · split
      · exact hd
      · split
        · exact hd
        · dsimp only
          split
          · exact hd
          · split
            · split
              · exact hd
              · exact memWf_thrTidy (memWf_restoreSlot hd ..)
            · split
              · exact hd
              · exact memWf_thrTidy (memWf_restoreSlot hd ..)

/-! ### Cores, banks and faults -/

@[simp] theorem execCoreCheckFailure_keeps (k q : Fin 8) (work : CoreWork) (replayOk : Bool) (s : State) :
    s.KeepsMemory (execCoreCheckFailure k q work replayOk s) := by
  unfold execCoreCheckFailure
  refine (State.keepsMemory_goto ..).mpr fun h => ?_
  dsimp only
  split
  · exact h
  · split
    · simp [h]
    · split <;> simp [h]
    · split
      · simp [h]
      · exact memWf_failUpdate (by simpa using h) ..
    · simp [h]

@[simp] theorem execBankRetire_keeps (s : State) : s.KeepsMemory (execBankRetire s) := by
  unfold execBankRetire
  dsimp only
  split <;> simp

/-! ### Counters -/

@[simp] theorem execCntQueueRead_keeps (c : CmdCtx) (q : QueueName) (s : State) :
    s.KeepsMemory (execCntQueueRead c q s) := by
  unfold execCntQueueRead
  split <;> simp

@[simp] theorem execCntPartRead_keeps (c : CmdCtx) (part : BitVec 16) (s : State) :
    s.KeepsMemory (execCntPartRead c part s) := by
  refine s.keepsMemory_runCmd _ _ _ _ fun d => ?_
  dsimp only
  split
  · rfl
  · split
    · rfl
    · split <;> rfl

@[simp] theorem execGleanRead_keeps (c : CmdCtx) (first : Word) (count : BitVec 16) (s : State) :
    s.KeepsMemory (execGleanRead c first count s) := by
  refine s.keepsMemory_runCmd _ _ _ _ fun d => needs_cells _ _ _ ?_
  dsimp only
  split
  · rfl
  · exact foldl_fst_cells _ _ fun a e => Dev.readGlean_cells a.1 e

/-! ### Link bring-up -/

@[simp] theorem execSyncBlockReceived_keeps (b : ArrivedBlock) (s : State) :
    s.KeepsMemory (execSyncBlockReceived b s) := by
  unfold execSyncBlockReceived
  dsimp only
  split
  · simp
  · split
    · simp
    · split
      · split <;> simp
      · split
        · split <;> simp
        · simp

@[simp] theorem execPortPrbs_keeps (c : CmdCtx) (port : BitVec 16) (pat : PrbsPattern) (s : State) :
    s.KeepsMemory (execPortPrbs c port pat s) := by
  unfold execPortPrbs
  split <;> simp

@[simp] theorem execPortRestart_keeps (c : CmdCtx) (port : BitVec 16) (immediate : Bool) (s : State) :
    s.KeepsMemory (execPortRestart c port immediate s) := by
  refine s.keepsMemory_runCmd _ _ _ _ fun d => ?_
  dsimp only
  split
  · rfl
  · split
    · rfl
    · split
      · simp
      · split <;> simp
      · simp

@[simp] theorem execEnableWaitTimeout_keeps (p : Port) (s : State) : s.KeepsMemory (execEnableWaitTimeout p s) := by
  unfold execEnableWaitTimeout
  dsimp only
  split
  · split <;> simp
  · simp

/-! ### The management links and Howlink -/

@[simp] theorem execMgPacketReceived_keeps (m : Fin 2) (r : MgRx) (s : State) :
    s.KeepsMemory (execMgPacketReceived m r s) := by
  unfold execMgPacketReceived
  split <;> simp

@[simp] theorem execHowlinkLinkDown_keeps (s : State) : s.KeepsMemory (execHowlinkLinkDown s) := by
  unfold execHowlinkLinkDown
  refine (State.keepsMemory_goto ..).mpr fun h => ?_
  split <;> simp [h]

@[simp] theorem execHowlinkLaneFailure_keeps (lane : Fin 17) (s : State) :
    s.KeepsMemory (execHowlinkLaneFailure lane s) := by
  unfold execHowlinkLaneFailure
  refine (State.keepsMemory_goto ..).mpr fun h => ?_
  dsimp only
  split
  · exact h
  · split
    · simpa using h
    · split
      · simpa using h
      · simp only [Dev.faultRec_mem, Dev.event_mem]
        split
        · exact memWf_howlinkDown h
        · exact h

/-! ### Light -/

@[simp] theorem execToneWindow_keeps (p : Port) (ring : Ring) (w : ToneWindow) (s : State) :
    s.KeepsMemory (execToneWindow p ring w s) := by
  unfold execToneWindow
  dsimp only
  split
  · simp
  · split <;> simp

@[simp] theorem execLaserReading10us_keeps (e : Fin 16) (l : LaserIx) (reading : BitVec 16)
    (driveFault : Bool) (s : State) :
    s.KeepsMemory (execLaserReading10us e l reading driveFault s) := by
  unfold execLaserReading10us
  dsimp only
  split
  · simp
  · split
    · simp
    · split <;> simp

@[simp] theorem execSpareTuned_keeps (e : Fin 16) (s : State) : s.KeepsMemory (execSpareTuned e s) := by
  unfold execSpareTuned
  dsimp only
  split <;> simp

@[simp] theorem execSpareTuneTimeout_keeps (e : Fin 16) (s : State) : s.KeepsMemory (execSpareTuneTimeout e s) := by
  unfold execSpareTuneTimeout
  dsimp only
  split <;> simp

@[simp] theorem execSwapReqResend_keeps (e : Fin 16) (s : State) : s.KeepsMemory (execSwapReqResend e s) := by
  unfold execSwapReqResend
  dsimp only
  split
  · simp
  · split <;> simp

@[simp] theorem execSwapAckReceived_keeps (p : Port) (token : Byte) (s : State) :
    s.KeepsMemory (execSwapAckReceived p token s) := by
  unfold execSwapAckReceived
  dsimp only
  split
  · simp
  · split <;> simp

@[simp] theorem execSwapNow_keeps (e : Fin 16) (s : State) : s.KeepsMemory (execSwapNow e s) := by
  unfold execSwapNow
  dsimp only
  split <;> simp

@[simp] theorem execSwapNakReceived_keeps (p : Port) (token : Byte) (s : State) :
    s.KeepsMemory (execSwapNakReceived p token s) := by
  unfold execSwapNakReceived
  dsimp only
  split
  · simp
  · split <;> simp

@[simp] theorem execSwapDoneReceived_keeps (p : Port) (token : Byte) (s : State) :
    s.KeepsMemory (execSwapDoneReceived p token s) := by
  unfold execSwapDoneReceived
  dsimp only
  split
  · simp
  · split
    · simp
    · split
      · split
        · simp
        · split <;> simp
      · simp

@[simp] theorem execSwapPauseTimeout_keeps (e : Fin 16) (spareOk oldOk : Bool) (s : State) :
    s.KeepsMemory (execSwapPauseTimeout e spareOk oldOk s) := by
  unfold execSwapPauseTimeout
  split
  · dsimp only
    split <;> simp
  · split
    · dsimp only
      split <;> simp
    · dsimp only
      split <;> simp

@[simp] theorem execSwapReqReceived_keeps (p : Port) (token : Byte) (both : Bool) (s : State) :
    s.KeepsMemory (execSwapReqReceived p token both s) := by
  unfold execSwapReqReceived
  dsimp only
  cases (Dev.countLink s.d p.val 1).swapOfPort p.val with
  | some w =>
    obtain ⟨_, _, step, _⟩ := w
    cases step <;> simp
  | none => simp

@[simp] theorem execSwapNowReceived_keeps (p : Port) (token : Byte) (s : State) :
    s.KeepsMemory (execSwapNowReceived p token s) := by
  unfold execSwapNowReceived
  dsimp only
  split
  · simp
  · split <;> simp

@[simp] theorem execSwapDone_keeps (p : Port) (s : State) : s.KeepsMemory (execSwapDone p s) := by
  unfold execSwapDone
  dsimp only
  split <;> simp

@[simp] theorem execPartnerSwapHoldExpiry_keeps (p : Port) (s : State) :
    s.KeepsMemory (execPartnerSwapHoldExpiry p s) := by
  unfold execPartnerSwapHoldExpiry
  dsimp only
  split <;> simp

@[simp] theorem execBandSwitchSettled_keeps (e : Fin 16) (s : State) : s.KeepsMemory (execBandSwitchSettled e s) := by
  unfold execBandSwitchSettled
  dsimp only
  split <;> simp

@[simp] theorem execOptLaserRef_keeps (c : CmdCtx) (engine laser : Byte) (value : Option (BitVec 16)) (s : State) :
    s.KeepsMemory (execOptLaserRef c engine laser value s) := by
  unfold execOptLaserRef
  split
  · split <;> simp
  · split <;> simp

/-! ### Staged changes -/

@[simp] theorem execCtxRead_keeps (c : CmdCtx) (ctx : BitVec 16) (s : State) :
    s.KeepsMemory (execCtxRead c ctx s) := by
  refine s.keepsMemory_runCmd _ _ _ _ fun d => ?_
  dsimp only
  split
  · split <;> rfl
  · rfl

@[simp] theorem execSheafRead_keeps (c : CmdCtx) (n : BitVec 16) (s : State) :
    s.KeepsMemory (execSheafRead c n s) := by
  refine s.keepsMemory_runCmd _ _ _ _ fun d => ?_
  split
  · rfl
  · split <;> rfl

/-! ### Learning, ageing and reading of the tables -/

@[simp] theorem execCongestionNoticeReceived_keeps (k : Fin 16) (s : State) :
    s.KeepsMemory (execCongestionNoticeReceived k s) := by
  unfold execCongestionNoticeReceived
  dsimp only
  split
  · simp
  next t e taken =>
    have same : e.mem.cells = s.d.mem.cells := by
      split at taken
      · exact Dev.untake_cells taken
      · cases taken
    split
    · simp [same]
    · split
      · simp [same]
      · split <;> simp [same]

@[simp] theorem execLearnQueueDrain_keeps (k : Fin 16) (s : State) : s.KeepsMemory (execLearnQueueDrain k s) := by
  unfold execLearnQueueDrain
  dsimp only
  split <;> simp

@[simp] theorem execLearnRingApply_keeps (s : State) : s.KeepsMemory (execLearnRingApply s) := by
  unfold execLearnRingApply
  dsimp only
  split
  · simp
  · split
    · simp
    · split <;> simp

@[simp] theorem execLearnFrameReceived_keeps (k : Fin 16) (s : State) :
    s.KeepsMemory (execLearnFrameReceived k s) := by
  unfold execLearnFrameReceived
  dsimp only
  split
  · simp
  next t e taken =>
    have same : e.mem.cells = s.d.mem.cells := by
      split at taken
      · exact Dev.untake_cells taken
      · cases taken
    simp [same]

@[simp] theorem execSweeperVisit_keeps (s : State) : s.KeepsMemory (execSweeperVisit s) := by
  unfold execSweeperVisit
  dsimp only
  split
  · simp
  · split <;> simp

@[simp] theorem execSearch_keeps (c : CmdCtx) (k : SearchKey) (s : State) : s.KeepsMemory (execSearch c k s) := by
  refine s.keepsMemory_runCmd _ _ _ _ fun d => ?_
  have searched := d.searchTable_cells k
  split
  · rfl
  · split
    next read => rw [read] at searched; exact searched
    next read => rw [read] at searched; exact searched

/-! ### Transactions -/

@[simp] theorem execRollback_keeps (c : CmdCtx) (s : State) : s.KeepsMemory (execRollback c s) := by
  refine s.keepsMemory_runCmd _ _ _ _ fun d => ?_
  split
  · split <;> rfl
  · rfl

@[simp] theorem execTxnStatus_keeps (c : CmdCtx) (who : Option Source) (s : State) :
    s.KeepsMemory (execTxnStatus c who s) := by
  refine s.keepsMemory_runCmd _ _ _ _ fun d => ?_
  split <;> rfl

@[simp] theorem execCommit_keeps (c : CmdCtx) (s : State) : s.KeepsMemory (execCommit c s) := by
  refine s.keepsMemory_runCmd _ _ _ _ fun d => ?_
  split
  · rfl
  · split
    · rfl
    · dsimp only
      split <;> rfl

@[simp] theorem execCommitReady_keeps (s : State) : s.KeepsMemory (execCommitReady s) := by
  have admitted : ∀ (l : List Txn) (a : Dev × Dev), (l.foldl Dev.admitMember a).1.mem.cells = a.1.mem.cells :=
    fun l a => foldl_fst_cells l a Dev.admitMember_cells
  simp [execCommitReady, admitted]

@[simp] theorem execCommitFlip_keeps (s : State) : s.KeepsMemory (execCommitFlip s) := by
  unfold execCommitFlip
  refine (State.keepsMemory_goto ..).mpr fun h => ?_
  dsimp only
  split
  · exact h
  · simp [memWf_flip h]

@[simp] theorem execDrainWaitTimeout_keeps (src : Source) (txn : BitVec 16) (s : State) :
    s.KeepsMemory (execDrainWaitTimeout src txn s) := by
  unfold execDrainWaitTimeout
  dsimp only
  split
  · simp
  · split <;> simp

/-! ### Reset and self-test -/

@[simp] theorem execResetNAssert_keeps (s : State) : s.KeepsMemory (execResetNAssert s) := by
  unfold execResetNAssert
  refine (State.keepsMemory_goto ..).mpr fun h => ?_
  dsimp only
  split <;> simp [h]

@[simp] theorem execHowlinkResetMessage_keeps (s : State) : s.KeepsMemory (execHowlinkResetMessage s) := by
  unfold execHowlinkResetMessage
  refine (State.keepsMemory_goto ..).mpr fun h => ?_
  split <;> simp [h]

@[simp] theorem execDevResetDelayExpiry_keeps (s : State) : s.KeepsMemory (execDevResetDelayExpiry s) := by
  unfold execDevResetDelayExpiry
  refine (State.keepsMemory_goto ..).mpr fun h => ?_
  split <;> simp [h]

@[simp] theorem execRailOutOfRegulation_keeps (s : State) : s.KeepsMemory (execRailOutOfRegulation s) := by
  intro h t run
  unfold execRailOutOfRegulation at run
  split at run
  · cases run
  · cases run; exact h

/-! ### The image and its configuration -/

@[simp] theorem execImageCheckComplete_keeps (cfg : Option BootCfg) (s : State) :
    s.KeepsMemory (execImageCheckComplete cfg s) := by
  unfold execImageCheckComplete
  generalize firstFail (imageChecks s.d.fuses s.d.boot.image) = n
  refine (State.keepsMemory_goto ..).mpr fun h => ?_
  dsimp only
  split
  · exact h
  · split
    · simpa using h
    · split
      · split
        · exact h
        · simpa using h
      · simpa using h
      · simpa using h

@[simp] theorem execBootApplyComplete_keeps (s : State) : s.KeepsMemory (execBootApplyComplete s) := by
  unfold execBootApplyComplete
  refine (State.keepsMemory_goto ..).mpr fun h => ?_
  dsimp only
  split
  · exact h
  · split
    · exact h
    · rw [Dev.enterReady_cells]
      exact memWf_applyRest (by simpa using h) _

/-! ### Security -/

@[simp] theorem execDevReset_keeps (c : CmdCtx) (delayUs : Word) (s : State) :
    s.KeepsMemory (execDevReset c delayUs s) := by
  have ran : (s.d.runCmd (.devReset c delayUs) c 0x0103 .owner fun d =>
      if 1000000 < delayUs.toNat then answer d .badParam
      else answer { d with boot := { d.boot with resetAt := some (d.now + delayUs.toNat * clkUs) } } .ok).mem.cells =
      s.d.mem.cells := Dev.runCmd_cells _ _ _ _ _ fun d => by split <;> rfl
  unfold execDevReset
  refine (State.keepsMemory_goto ..).mpr fun h => ?_
  dsimp only
  split
  · exact memWf_enterReset (ran ▸ h)
  · exact ran ▸ h

@[simp] theorem execDevRole_keeps (c : CmdCtx) (role : Option (BitVec 2)) (s : State) :
    s.KeepsMemory (execDevRole c role s) := by
  unfold execDevRole
  split
  · split <;> simp
  · split <;> simp

@[simp] theorem execDevEventMask_keeps (c : CmdCtx) (dest : Byte) (mask : BitVec 16) (s : State) :
    s.KeepsMemory (execDevEventMask c dest mask s) := by
  unfold execDevEventMask
  split <;> simp

@[simp] theorem execSecOwnerEnroll_keeps (c : CmdCtx) (hash : BitVec 256) (s : State) :
    s.KeepsMemory (execSecOwnerEnroll c hash s) := by
  refine s.keepsMemory_runCmd _ _ _ _ fun d => needs_cells _ _ _ ?_
  split <;> simp

@[simp] theorem execGetMeasurements_keeps (s : SpdmCtx) (index : Byte) (signed : Bool) (nonce : BitVec 256)
    (st : State) :
    st.KeepsMemory (execGetMeasurements s index signed nonce st) := by
  unfold execGetMeasurements
  refine (State.keepsMemory_goto ..).mpr fun h => ?_
  rw [Dev.spdmRun_cells]
  · exact h
  · split
    · simp
    · split_ifs <;> simp

@[simp] theorem execFinish_keeps (s : SpdmCtx) (key : BitVec 512) (verified : Bool) (st : State) :
    st.KeepsMemory (execFinish s key verified st) := by
  unfold execFinish
  refine (State.keepsMemory_goto ..).mpr fun h => ?_
  rw [Dev.spdmRun_cells]
  · exact h
  · dsimp only
    split
    · simp
    · split
      · simp
      · split
        · simp
        · split <;> simp

/-! ### Every command, and every step -/

/-- Every command keeps board memory in its canonical form: those that only read it or touch none of it by their
own equations, the staged ones by their handlers, the others by the rules above. -/
theorem exec_keeps (i : Instr) (s : State) : s.KeepsMemory (exec i s) := by
  cases i with
  | frameHeaderTaken | ingressOverrun | tableEntryRewrite =>
    simp [exec, execFrameHeaderTaken, execIngressOverrun, execTableEntryRewrite]
  | tokenRefill | decayTick | headScan | launchRelease | txDescriptorTaken =>
    simp [exec, execTokenRefill, execDecayTick, execHeadScan, execLaunchRelease, execTxDescriptorTaken]
  | resultNackReceived | nackReceived | lingerExpiry | sheafArrival =>
    simp [exec, execResultNackReceived, execNackReceived, execLingerExpiry, execSheafArrival]
  | mirrorAckInterval =>
    simp [exec, execMirrorAckInterval]
  | pageCorrLimit | memRegionRead | memPageRetire | memPageList | memStatus =>
    simp [exec, execPageCorrLimit, execMemRegionRead, execMemPageRetire, execMemPageList, execMemStatus]
  | spareIdleTest | expanderCorrLimit | memExpSwap | bankReplacementStart | coreRetestComplete | diagFaultRead
  | diagSpareRead | diagSelftestRead | diagEolRead | diagSpareForce | diagInject =>
    simp [exec, execSpareIdleTest, execExpanderCorrLimit, execMemExpSwap, execBankReplacementStart,
      execCoreRetestComplete, execDiagFaultRead, execDiagSpareRead, execDiagSelftestRead, execDiagEolRead,
      execDiagSpareForce, execDiagInject]
  | cntPevSelWrite | cntPevSet | bwWindowEnd | cntBwCtlWrite | portBwPeakRead | gleanSet | gleanArm =>
    simp [exec, execCntPevSelWrite, execCntPevSet, execBwWindowEnd, execCntBwCtlWrite, execPortBwPeakRead,
      execGleanSet, execGleanArm]
  | lightDetected | absentTimeout | trainingFrameReceived | trainingFrameSent | trainTimeout | lockAchieved
  | lockTimeout | exchPairReceived | exchAckReceived | exchRepeatTimer | exchangeTimeout | linkDownReceived
  | lossOfSignal | lossOfLock | uncorrectableCodeword | portQueuesEmpty | drainTimeLimit | prbsRelock
  | enableDrainEnd | planRead | portMapRead | portRead =>
    simp [exec, execLightDetected, execAbsentTimeout, execTrainingFrameReceived, execTrainingFrameSent,
      execTrainTimeout, execLockAchieved, execLockTimeout, execExchPairReceived, execExchAckReceived,
      execExchRepeatTimer, execExchangeTimeout, execLinkDownReceived, execLossOfSignal, execLossOfLock,
      execUncorrectableCodeword, execPortQueuesEmpty, execDrainTimeLimit, execPrbsRelock, execEnableDrainEnd,
      execPlanRead, execPortMapRead, execPortRead]
  | mbxH2dPostWrite | mbxD2hPostWrite | mbxH2dPopRead | mbxD2hPopRead | mbxLockRead | mbxLockWrite
  | mbxLockBreakWrite =>
    simp [exec, execMbxH2dPostWrite, execMbxD2hPostWrite, execMbxH2dPopRead, execMbxD2hPopRead, execMbxLockRead,
      execMbxLockWrite, execMbxLockBreakWrite]
  | mgSignalDetect | mgStageTimeout | mgExchPacket | mgExchRepeat | mgKeepSend | mgKeepTimeout | mgLossOfSignal
  | mgSyncLoss | mgAnRestart | mglCtlWrite | howlinkLinkUp =>
    simp [exec, execMgSignalDetect, execMgStageTimeout, execMgExchPacket, execMgExchRepeat, execMgKeepSend,
      execMgKeepTimeout, execMgLossOfSignal, execMgSyncLoss, execMgAnRestart, execMglCtlWrite, execHowlinkLinkUp]
  | secondsCarry | ppsWidthEnd | ptpSyncReceived | syncTimeout | ptpSyncSend | refclkLoss | refclkReturn
  | pllLockLoss | ppsInEdge | timeNowNsRead | timePpsInNsRead | timeRead | timeStep | timeAdjust | timeRateSet
  | ptpSet | ptpDomainSelect | launchRead =>
    simp [exec, execSecondsCarry, execPpsWidthEnd, execPtpSyncReceived, execSyncTimeout, execPtpSyncSend,
      execRefclkLoss, execRefclkReturn, execPllLockLoss, execPpsInEdge, execTimeNowNsRead, execTimePpsInNsRead,
      execTimeRead, execTimeStep, execTimeAdjust, execTimeRateSet, execPtpSet, execPtpDomainSelect,
      execLaunchRead]
  | glbIntStatusWrite | glbIntMaskWrite | glbIntTestWrite | glbTxrTailWrite | glbRxrTailWrite | glbRingCtlWrite
  | portLoopCtlWrite | storeClassCfgWrite | storeResLimitWrite | fwdAgeCtlWrite | registerWrite =>
    simp [exec, execGlbIntStatusWrite, execGlbIntMaskWrite, execGlbIntTestWrite, execGlbTxrTailWrite,
      execGlbRxrTailWrite, execGlbRingCtlWrite, execPortLoopCtlWrite, execStoreClassCfgWrite,
      execStoreResLimitWrite, execFwdAgeCtlWrite, execRegisterWrite]
  | heaterLoopUpdate | sweepEndNoLock | lockFailureClearTimer | laserReading1ms | rateDownReceived | optBandSet
  | optRead | optSwap | optRelock | optLightRead =>
    simp [exec, execHeaterLoopUpdate, execSweepEndNoLock, execLockFailureClearTimer, execLaserReading1ms,
      execRateDownReceived, execOptBandSet, execOptRead, execOptSwap, execOptRelock, execOptLightRead]
  | policerRead =>
    simp [exec, execPolicerRead]
  | nextWalk | flushByPort =>
    simp [exec, execNextWalk, execFlushByPort]
  | epochDrainEnd | replayEnd =>
    simp [exec, execEpochDrainEnd, execReplayEnd]
  | begin_ | transactionIdleExpiry =>
    simp [exec, execBegin, execTransactionIdleExpiry]
  | resetNRelease | internalResetRelease | powerOnComplete | howlinkTrainingComplete | selfTestComplete =>
    simp [exec, execResetNRelease, execInternalResetRelease, execPowerOnComplete, execHowlinkTrainingComplete,
      execSelfTestComplete]
  | flashImageReadComplete | imageLoad =>
    simp [exec, execFlashImageReadComplete, execImageLoad]
  | commandArrival | devInfo | devState | devAdmit | devNop | secRead | secOwnerRevoke | secRollbackSet
  | fuseBlowTick | secCertRead | heartbeatTick | progressWatchTimeout | thermalSensorScan | tckEdge =>
    simp [exec, execCommandArrival, execDevInfo, execDevState, execDevAdmit, execDevNop, execSecRead,
      execSecOwnerRevoke, execSecRollbackSet, execFuseBlowTick, execSecCertRead, execHeartbeatTick,
      execProgressWatchTimeout, execThermalSensorScan, execTckEdge]
  | getVersion | getCapabilities | negotiateAlgorithms | getDigests | getCertificate | challenge | keyExchange
  | heartbeat | keyUpdate | endSession =>
    simp [exec, execGetVersion, execGetCapabilities, execNegotiateAlgorithms, execGetDigests, execGetCertificate,
      execChallenge, execKeyExchange, execHeartbeat, execKeyUpdate, execEndSession]
  | planSet | planGroup | portMapSet | optPortMode | optCampusFreq | emInsert | emDelete | rehash | routeSet
  | groupSet | partSet | portsetSet | learnPeers | mirrorSet | partReserve | ctxSet | ctxClose | ctxReform
  | ctxResize | sheafSet | sheafClose | thrJobSet | thrJobClose | thrParamSet | thrShardSet | thrShardClose
  | thrShardRole | memRegionSet =>
    exact s.keepsMemory_stagedOnly _ _ _
  | shaperSet | groupShaperSet | policerSet | policerMap =>
    exact s.keepsMemory_stagedOrNow _ _ _
  | _ => simp [exec]

theorem turnStep_keeps (s : State) : s.KeepsMemory (turnStep s) := by
  intro h t run
  unfold turnStep at run
  split at run
  next d i front =>
    have ran := exec_keeps i { s with d := d } ((congrArg memWf (Dev.nextBehind_cells front)).trans h)
    split at run
    next u next_ =>
      cases run
      simpa using ran u next_
    · cases run
    · cases run
  · cases run
    exact h

theorem loopStep_keeps (s : State) : s.KeepsMemory (loopStep s) := by
  unfold loopStep
  split
  · exact fun h => exec_keeps _ _ h
  · exact fun h t run => by cases run; exact h

theorem execTick_keeps (s : State) : s.KeepsMemory (execTick s) := by
  intro h t run
  unfold execTick at run
  split at run
  next u turned =>
    split at run
    next v looped =>
      cases run
      exact memWf_clock (loopStep_keeps u (turnStep_keeps s h u turned) v looped)
    · cases run
    · cases run
  · cases run
  · cases run

theorem step_keeps (s : State) : s.KeepsMemory (step s) := by
  unfold step
  split
  · exact execTick_keeps s
  · exact fun h => exec_keeps _ _ h

end Sys2Proof.Machine

open Sys2Proof Sys2Proof.Machine

/-- Settles O4: a step is a command or a core clock, and each keeps board memory canonical. -/
theorem memoryStaysCanonical : Obligations.MemoryStaysCanonical :=
  fun s t canonical run => step_keeps s canonical t run

end

section
/-! PROOF. Whole-chip reset: what it leaves of the fuses, and what its four ways leave of the device (R312, R470, R472,
R476). -/

namespace Sys2Proof.Machine

/-! ### Tail marks (R471) -/

@[simp] theorem Dev.tailMark_boot (d : Dev) (l : Nat) : (d.tailMark l).boot = d.boot := by
  unfold Dev.tailMark; split <;> rfl
@[simp] theorem Dev.tailMark_fuses (d : Dev) (l : Nat) : (d.tailMark l).fuses = d.fuses := by
  unfold Dev.tailMark; split <;> rfl
@[simp] theorem Dev.tailMark_opt (d : Dev) (l : Nat) : (d.tailMark l).opt = d.opt := by
  unfold Dev.tailMark; split <;> rfl

/-- The device with every copy on the wire ended by a tail mark. -/
def Dev.tailMarked (d : Dev) : Dev := (List.range 512).foldl (fun (d : Dev) (l : Nat) => d.tailMark l) d

@[simp] theorem Dev.tailMarked_boot (d : Dev) : d.tailMarked.boot = d.boot :=
  foldl_keeps (fun e : Dev => e.boot) Dev.tailMark_boot _ d
@[simp] theorem Dev.tailMarked_fuses (d : Dev) : d.tailMarked.fuses = d.fuses :=
  foldl_keeps (fun e : Dev => e.fuses) Dev.tailMark_fuses _ d
@[simp] theorem Dev.tailMarked_opt (d : Dev) : d.tailMarked.opt = d.opt :=
  foldl_keeps (fun e : Dev => e.opt) Dev.tailMark_opt _ d

/-! ### Band switches that move (R312) -/

/-- Setting or clearing one band switch leaves the others. -/
theorem getLsbD_band_other (v : BitVec 16) {n k : Nat} (b : Bool) (hk : k < 16) (h : n ≠ k) :
    (if b then v ||| BitVec.ofNat 16 (1 <<< n) else v &&& ~~~BitVec.ofNat 16 (1 <<< n)).getLsbD k = v.getLsbD k := by
  have bit : (BitVec.ofNat 16 (1 <<< n)).getLsbD k = false := by
    rw [BitVec.getLsbD_ofNat, Nat.one_shiftLeft, Nat.testBit_two_pow_of_ne h, Bool.and_false]
  cases b
  · rw [if_neg Bool.false_ne_true, BitVec.getLsbD_and, BitVec.getLsbD_not, bit, decide_eq_true hk]
    exact Bool.and_true _
  · rw [if_pos rfl, BitVec.getLsbD_or, bit, Bool.or_false]

@[simp] theorem Dev.settledBands_boot (d : Dev) : d.settledBands.boot = d.boot := by
  unfold Dev.settledBands
  refine foldl_keeps (fun e : Dev => e.boot) (fun _ _ => ?_) _ d
  rfl

/-- Of the fuses the band switches that moved change alone. -/
theorem Dev.settledBands_fuses (d : Dev) : ∃ b, d.settledBands.fuses = { d.fuses with band := b } ∧
    ∀ k, k < 16 → (∀ e ∈ d.opt.moving, e.1 ≠ k) → b.getLsbD k = d.fuses.band.getLsbD k := by
  have others : { d.settledBands.fuses with band := d.fuses.band } = d.fuses := by
    unfold Dev.settledBands
    refine foldl_keeps (fun e : Dev => { e.fuses with band := d.fuses.band }) (fun _ _ => ?_) _ d
    rfl
  refine ⟨_, congrArg (fun f : Fuses => { f with band := d.settledBands.fuses.band }) others, fun k hk rests => ?_⟩
  unfold Dev.settledBands
  exact List.foldlRecOn (motive := fun x : Dev => x.fuses.band.getLsbD k = d.fuses.band.getLsbD k) _ _ rfl
    fun x hx e he => (getLsbD_band_other x.fuses.band x.drawBit.1 hk (rests e he)).trans hx

/-! ### Fuses that are being blown (R464, R476) -/

@[simp] theorem Dev.settledRollback_boot (d : Dev) : d.settledRollback.boot = d.boot := by
  unfold Dev.settledRollback; split_ifs <;> rfl

/-- Of the fuses the next one of the counter can be blown, and it alone. -/
theorem Dev.settledRollback_fuses (d : Dev) : ∃ n, d.settledRollback.fuses = { d.fuses with rollback := n } ∧
    (n = d.fuses.rollback ∨ (d.fuses.rollback < d.boot.rollTarget ∧ n = d.fuses.rollback + 1)) := by
  unfold Dev.settledRollback
  split_ifs with target
  · refine ⟨_, rfl, ?_⟩
    cases d.drawBit.1
    · exact .inl rfl
    · exact .inr ⟨target, rfl⟩
  · exact ⟨_, rfl, .inl rfl⟩

/-- An owner slot that is being programmed can end FAILED, and the other fuses stay. -/
theorem Dev.settledOwner_fuses (d : Dev) : d.settledOwner.fuses = d.fuses ∨
    ∃ n h, d.boot.enrolling = some n ∧ (d.fuses.owner n).1 = 1 ∧
      d.settledOwner.fuses = d.fuses.setOwner n (3, h) := by
  unfold Dev.settledOwner
  split
  · exact .inl rfl
  next n enrolls =>
    dsimp only
    split_ifs with ends
    · exact .inl rfl
    · have valid : (d.fuses.owner n).1 = 1 := by simpa using (not_or.mp (mt (Bool.or_eq_true _ _).mpr ends)).2
      exact .inr ⟨n, _, enrolls, valid, rfl⟩

/-- Setting an owner slot changes nothing else of the fuses. -/
theorem Fuses.setOwner_keeps (f : Fuses) (n : Nat) (x : BitVec 2 × BitVec 256) :
    (f.setOwner n x).serial = f.serial ∧ (f.setOwner n x).secret = f.secret ∧
    (f.setOwner n x).rollback = f.rollback ∧ (f.setOwner n x).band = f.band := by
  unfold Fuses.setOwner; split <;> exact ⟨rfl, rfl, rfl, rfl⟩

/-- A slot after another was set is what it was, or it is the slot that was set. -/
theorem Fuses.owner_setOwner (f : Fuses) (n m : Nat) (x : BitVec 2 × BitVec 256) :
    (f.setOwner n x).owner m = f.owner m ∨ (f.owner m = f.owner n ∧ (f.setOwner n x).owner m = x) := by
  unfold Fuses.setOwner
  split <;> unfold Fuses.owner <;> split <;> simp

/-! ### What whole-chip reset leaves (R472) -/

theorem FaultSt.keptCores_keys (f : FaultSt) : f.keptCores.cores.map Prod.fst =
    (f.cores.filter fun e => e.2.spare != 0 && decide (e.2.st ≠ .empty)).map Prod.fst := by
  rw [FaultSt.keptCores, List.map_map]
  rfl

theorem Dev.enterReset_faults (d : Dev) : d.enterReset.faults = d.faults.keptCores := by
  rw [Dev.enterReset]

theorem Dev.enterReset_fuses (d : Dev) : d.enterReset.fuses = d.tailMarked.settledBands.settledFuses.fuses := by
  rw [Dev.enterReset, Dev.tailMarked]

/-- What reset leaves of the fuses: but for the switches that moved, the counter's next fuse and an owner slot that was
being programmed, they stay. -/
theorem Dev.enterReset_fuses_cases (d : Dev) : ∃ b n,
    (∀ k, k < 16 → (∀ e ∈ d.opt.moving, e.1 ≠ k) → b.getLsbD k = d.fuses.band.getLsbD k) ∧
    (n = d.fuses.rollback ∨ (d.fuses.rollback < d.boot.rollTarget ∧ n = d.fuses.rollback + 1)) ∧
    (d.enterReset.fuses = { d.fuses with band := b, rollback := n } ∨
      ∃ m h, d.boot.enrolling = some m ∧ (d.fuses.owner m).1 = 1 ∧
        d.enterReset.fuses = Fuses.setOwner { d.fuses with band := b, rollback := n } m (3, h)) := by
  obtain ⟨b, hBands, hBand⟩ := d.tailMarked.settledBands_fuses
  obtain ⟨n, hRoll, hNext⟩ := d.tailMarked.settledBands.settledRollback_fuses
  have hOwner := d.tailMarked.settledBands.settledRollback.settledOwner_fuses
  rw [Dev.settledBands_boot, Dev.tailMarked_boot, hBands, Dev.tailMarked_fuses] at hNext
  rw [Dev.settledRollback_boot, Dev.settledBands_boot, Dev.tailMarked_boot, hRoll, hBands,
    Dev.tailMarked_fuses] at hOwner
  rw [Dev.tailMarked_opt, Dev.tailMarked_fuses] at hBand
  refine ⟨b, n, hBand, hNext, ?_⟩
  rw [Dev.enterReset_fuses, Dev.settledFuses]
  exact hOwner

/-- Whole-chip reset leaves what R472 names and nothing else. -/
theorem Dev.inReset_enterReset (d : Dev) : InReset d d.enterReset := by
  obtain ⟨b, n, hBand, hRoll, hFuses⟩ := d.enterReset_fuses_cases
  have kept : d.enterReset.fuses.serial = d.fuses.serial ∧ d.enterReset.fuses.secret = d.fuses.secret ∧
      d.enterReset.fuses.rollback = n ∧ d.enterReset.fuses.band = b := by
    obtain same | ⟨m, h, -, -, failed⟩ := hFuses
    · rw [same]; exact ⟨rfl, rfl, rfl, rfl⟩
    · rw [failed]; exact Fuses.setOwner_keeps ..
  obtain ⟨hSerial, hSecret, hCount, hSwitches⟩ := kept
  have owners (k : Nat) : d.enterReset.fuses.owner k = d.fuses.owner k ∨
      (d.boot.enrolling.isSome = true ∧ (d.fuses.owner k).1 = 1 ∧ (d.enterReset.fuses.owner k).1 = 3) := by
    obtain same | ⟨m, h, enrolls, valid, failed⟩ := hFuses
    · rw [same]
      exact .inl rfl
    · rw [failed, enrolls]
      exact (Fuses.owner_setOwner _ m k (3, h)).imp id fun ⟨slot, ends⟩ =>
        ⟨rfl, (congrArg Prod.fst slot).trans valid, congrArg Prod.fst ends⟩
  exact {
    boot := rfl, fuses := ⟨hSerial, hSecret⟩, owners := fun k _ => owners k
    rollback := hRoll.imp hCount.trans fun ⟨below, blown⟩ => ⟨below, hCount.trans blown⟩
    band := by rwa [hSwitches]
    clk := rfl, mem := rfl, store := rfl
    cores := by rw [Dev.enterReset_faults]; exact ⟨rfl, d.faults.keptCores_keys⟩
    lasers := rfl, tables := ⟨rfl, rfl, rfl, rfl⟩, links := ⟨rfl, rfl, rfl, rfl, rfl, rfl⟩
    ports := ⟨rfl, rfl, rfl, rfl⟩, logs := ⟨rfl, rfl, rfl, rfl, rfl, rfl⟩ }

/-- What reset leaves does not hang on the command path, the delay that arms a reset, the interrupts, the counters
and what was sent. -/
theorem InReset.of_answered {d t : Dev} {c : Cmd} {a : Option Nat} {i : Dword} {k : Tab Dword} {o : List Out}
    (h : InReset { d with cmd := c, boot := { d.boot with resetAt := a }, intPend := i, ctrs := k, out := o } t) :
    InReset d t := { h with }

/-! ### The ways into reset (R470) -/

theorem exec_resetNAssert_enters {s : State} (h : s.d.boot.inReset = false) :
    exec .resetNAssert s =
      .next (s.put (Dev.enterReset { s.d with boot := { s.d.boot with resetN := false } })) := by
  simp [exec, execResetNAssert, goto_eq, h]

theorem exec_resetNAssert_held {s : State} (h : s.d.boot.inReset = true) :
    exec .resetNAssert s = .next (s.put { s.d with boot := { s.d.boot with resetN := false } }) := by
  simp [exec, execResetNAssert, goto_eq, h]

/-- A RESET message over Howlink enters reset where the link of an awake device is up and trained. -/
theorem exec_howlinkResetMessage (s : State) : exec .howlinkResetMessage s =
    .next (if s.d.awake = true ∧ s.d.hl.up = true ∧ s.d.hl.trained = true then s.put s.d.enterReset else s) := by
  simp only [exec, execHowlinkResetMessage, goto_eq, Bool.and_eq_true, and_assoc]
  split_ifs <;> rfl

/-- The end of DEV_RESET's delay enters reset where a delay of an awake device runs. -/
theorem exec_devResetDelayExpiry (s : State) : exec .devResetDelayExpiry s =
    .next (if s.d.awake = true ∧ s.d.boot.resetAt.isSome = true then s.put s.d.enterReset else s) := by
  simp only [exec, execDevResetDelayExpiry, goto_eq, Bool.and_eq_true]
  split_ifs <;> rfl

/-- A DEV_RESET without a delay answers and enters reset. -/
theorem exec_devReset_now {s : State} {c : CmdCtx} (h : s.d.Runs (.devReset c 0) c 0x0103 .owner) :
    ∃ t, exec (.devReset c 0) s = .next t ∧ t.pending = s.pending ∧ InReset s.d t.d := by
  refine ⟨_, exec_devReset h (by decide), rfl, ?_⟩
  obtain ⟨_, _, _, _, answered⟩ := ((s.d.touch c).armReset 0).reply_shape c 0x0103 .ok .empty
  rw [if_pos rfl, State.put_d, answered]
  exact InReset.of_answered (Dev.inReset_enterReset _)

end Sys2Proof.Machine

open Sys2Proof Sys2Proof.Machine

/-- Settles O7: each way into reset by the state that it leaves, and each event elsewhere by its guard. -/
theorem wholeChipResetClears : Obligations.WholeChipResetClears := by
  refine ⟨fun s h => ⟨_, exec_resetNAssert_enters h, rfl, Dev.inReset_enterReset _⟩,
    fun s => exec_resetNAssert_held,
    fun s hAwake hUp hTrained => ⟨s.put s.d.enterReset, ?_, rfl, s.d.inReset_enterReset⟩, fun s h => ?_,
    fun s hAwake hArmed => ⟨s.put s.d.enterReset, ?_, rfl, s.d.inReset_enterReset⟩, fun s h => ?_,
    fun s c => exec_devReset_now⟩
  · rw [exec_howlinkResetMessage, if_pos ⟨hAwake, hUp, hTrained⟩]
  · rw [exec_howlinkResetMessage, if_neg]
    rintro ⟨hAwake, hUp, hTrained⟩
    simp [hAwake, hUp, hTrained] at h
  · rw [exec_devResetDelayExpiry, if_pos ⟨hAwake, hArmed⟩]
  · rw [exec_devResetDelayExpiry, if_neg]
    rintro ⟨hAwake, hArmed⟩
    simp [hAwake, Option.isSome_iff_ne_none.mp hArmed] at h
end

section
/-! PROOF. Band switches, and the reads of ports and optics (R312, R327, R329, R355, R378). -/

namespace Sys2Proof.Machine

/-! ### The end of held commands (R406, R426) -/

@[simp] theorem Dev.setEvDest_held (d : Dev) (src : Source) (e : EvDest) :
    (d.setEvDest src e).cmd.held = d.cmd.held := by
  cases src <;> rfl

@[simp] theorem Dev.eventTo_held (d : Dev) (e : Ev) (src : Source) : (d.eventTo e src).cmd.held = d.cmd.held := by
  unfold Dev.eventTo
  dsimp only
  split_ifs <;> simp

@[simp] theorem Dev.event_held (d : Dev) (e : Ev) : (d.event e).cmd.held = d.cmd.held := by
  unfold Dev.event
  split_ifs
  · simp
  · rfl

@[simp] theorem Dev.reply_held (d : Dev) (c : CmdCtx) (op : Nat) (st : Status) (r : Res) :
    (d.reply c op st r).cmd.held = d.cmd.held := by
  obtain ⟨_, h⟩ := d.reply_cmd c op st r
  rw [h]

@[simp] theorem Dev.finishFor_opt (d : Dev) (w : HeldFor) (st : Status) (r : Res) :
    (d.finishFor w st r).opt = d.opt := by
  obtain ⟨_, _, _, _, h⟩ := d.finishFor_shape w st r; rw [h]
@[simp] theorem Dev.finishFor_fuses (d : Dev) (w : HeldFor) (st : Status) (r : Res) :
    (d.finishFor w st r).fuses = d.fuses := by
  obtain ⟨_, _, _, _, h⟩ := d.finishFor_shape w st r; rw [h]
@[simp] theorem Dev.finishFor_ports (d : Dev) (w : HeldFor) (st : Status) (r : Res) :
    (d.finishFor w st r).ports = d.ports := by
  obtain ⟨_, _, _, _, h⟩ := d.finishFor_shape w st r; rw [h]

/-- A held command that ends is held no more. -/
theorem Dev.finishHeld_held (d : Dev) (h : HeldReply) (st : Status) (r : Res) :
    (d.finishHeld h st r).cmd.held = d.cmd.held.erase h := by
  unfold Dev.finishHeld
  dsimp only
  split_ifs
  · rw [Dev.event_held]
  · rw [Dev.reply_held]

/-- Every held command that waited for a unit is held no more. -/
theorem Dev.finishFor_held (d : Dev) (w : HeldFor) (st : Status) (r : Res) :
    (d.finishFor w st r).cmd.held = d.cmd.held.diff (d.cmd.held.filter fun h => h.what == w) := by
  rw [List.diff_eq_foldl, Dev.finishFor]
  exact (List.foldl_hom (fun e : Dev => e.cmd.held) fun e h => (e.finishHeld_held h st r).symm).symm

/-- A list without its entries of a kind holds none of them. -/
theorem not_of_mem_diff_filter {α : Type} [DecidableEq α] {l : List α} {p : α → Bool} {x : α}
    (h : x ∈ l.diff (l.filter p)) : ¬p x = true := by
  intro hp
  have left := List.count_pos_iff.mpr h
  rw [List.count_diff, List.count_filter hp, Nat.sub_self] at left
  exact Nat.lt_irrefl 0 left

theorem Dev.finishFor_ends (d : Dev) (w : HeldFor) (st : Status) (r : Res) :
    ∀ h ∈ (d.finishFor w st r).cmd.held, h.what ≠ w := by
  intro h held
  rw [Dev.finishFor_held] at held
  simpa using not_of_mem_diff_filter held

/-! ### Band switches (R312, R327, R329) -/

/-- The device while the band switch of an engine moves. -/
def Dev.moveBand (d : Dev) (e : Nat) (b : Bool) : Dev :=
  { d with opt := { d.opt with moving := Tab.put d.opt.moving e b } }

/-- The device once the band switch of an engine has settled. -/
def Dev.settleBand (d : Dev) (e : Nat) (b : Bool) : Dev :=
  { d with opt := { d.opt with moving := Tab.del d.opt.moving e },
           fuses := { d.fuses with band := BitVec.ofNat 16 (withBit d.fuses.band.toNat e b) } }

/-- A bit after another bit was set or cleared, and that bit itself. -/
theorem testBit_withBit (v i k : Nat) (b : Bool) :
    (withBit v i b).testBit k = if k = i then b else v.testBit k := by
  unfold withBit
  cases b
  · rw [if_neg Bool.false_ne_true, testBit_sub_and, Nat.one_shiftLeft, Nat.testBit_two_pow]
    obtain rfl | other := eq_or_ne k i
    · simp
    · simp [other, other.symm]
  · rw [if_pos rfl, Nat.testBit_or, Nat.one_shiftLeft, Nat.testBit_two_pow]
    obtain rfl | other := eq_or_ne k i
    · simp
    · simp [other, other.symm]

theorem Dev.settleBand_band (d : Dev) (e : Nat) (b : Bool) {k : Nat} (hk : k < 16) :
    (d.settleBand e b).fuses.band.getLsbD k = if k = e then b else d.fuses.band.getLsbD k := by
  rw [Dev.settleBand, BitVec.getLsbD_ofNat, decide_eq_true hk, Bool.true_and, testBit_withBit]
  rfl

/-- OPT_BAND_SET to TERMINATE moves a switch at rest, and its reply is held. -/
theorem exec_optBandSet_moves {s : State} {c : CmdCtx} {e : Byte}
    (h : s.d.Runs (.optBandSet c e true) c 0x0302 .owner) (he : e.toNat < 16)
    (hRest : Tab.find s.d.opt.moving e.toNat = none) : exec (.optBandSet c e true) s =
      .next (s.put (((s.d.touch c).moveBand e.toNat true).holdReply c 0x0302 (.band e.toNat)).1) := by
  refine congrArg (goto s) (Dev.runCmd_holds h ?_)
  refine (if_neg (Nat.not_le.mpr he)).trans ((if_neg ?_).trans rfl)
  rw [Dev.touch_opt, hRest]
  exact Bool.false_ne_true

/-- A switch that moves settles, and the command that waits for it ends. -/
theorem exec_bandSwitchSettled_ends {s : State} {e : Fin 16} {b : Bool} (hAwake : s.d.awake = true)
    (hMoves : Tab.find s.d.opt.moving e.val = some b) : exec (.bandSwitchSettled e) s =
      .next (s.put ((s.d.settleBand e.val b).finishFor (.band e.val) .ok .empty)) := by
  simp [exec, execBandSwitchSettled, goto_eq, hAwake, hMoves, Dev.settleBand]

/-! ### Reads of ports and optics (R329, R355, R378) -/

/-- Calibration values of the rings of an engine's ports, as OPT_LIGHT_READ answers them. -/
def Dev.ringFields (d : Dev) (e : Nat) : List Nat :=
  (List.range 64).flatMap fun i =>
    let x := d.ring (32 * e + i / 2) (if i % 2 = 0 then .tx else .rx)
    [x.hcal.toNat, unsignedOf 32 x.slope]

theorem Dev.length_ringFields (d : Dev) (e : Nat) : (d.ringFields e).length = 128 := by
  simp [Dev.ringFields, List.length_flatMap]

/-- OPT_LIGHT_READ answers the registers of R356 and the rings' calibration. -/
theorem exec_optLightRead {s : State} {c : CmdCtx} {e : Byte} (h : s.d.Runs (.optLightRead c e) c 0x0308 .observer)
    (he : e.toNat < 16) : exec (.optLightRead c e) s = .next (s.put ((s.d.touch c).reply c 0x0308 .ok
      (.fields (s.d.spareStatusReg e.toNat :: ((List.range 32).map fun i => s.d.lightStatusReg (32 * e.toNat + i)) ++
        ((List.range 37).map fun i => s.d.laserRefReg e.toNat i) ++ s.d.ringFields e.toNat)))) :=
  goto_runCmd_answers h (if_neg (Nat.not_le.mpr he))

end Sys2Proof.Machine

open Sys2Proof Sys2Proof.Machine

/-- Settles O45: the switch by the device that it leaves, and each read by its fields for numbers in range. -/
theorem bandsAndOpticsReads : Obligations.BandsAndOpticsReads := by
  refine ⟨fun s c e h he hRest => ?_, fun s e b hAwake hMoves => ?_,
    fun s c l h hl => goto_runCmd_answers h (if_neg (Nat.not_le.mpr hl)),
    fun s c e h he => goto_runCmd_answers h (if_neg (Nat.not_le.mpr he)),
    fun s c l h hl => goto_runCmd_answers h (if_neg (Nat.not_le.mpr hl)),
    fun s c e h he => goto_runCmd_answers h (if_neg (Nat.not_le.mpr he)),
    fun s c e h he => ⟨_, s.d.length_ringFields e.toNat, exec_optLightRead h he⟩⟩
  · exact ⟨_, exec_optBandSet_moves h he hRest, Tab.find_put_same .., rfl, rfl, Dev.holdReply_held ..⟩
  · refine ⟨_, exec_bandSwitchSettled_ends hAwake hMoves, ?_, ?_, fun k hk other => ?_, Dev.finishFor_ports ..,
      Dev.finishFor_ends _ _ _ _⟩
    · rw [State.put_d, Dev.finishFor_opt]
      exact Tab.find_del_same ..
    · rw [State.put_d, Dev.finishFor_fuses, Dev.settleBand_band _ _ _ e.isLt, if_pos rfl]
    · rw [State.put_d, Dev.finishFor_fuses, Dev.settleBand_band _ _ _ hk, if_neg other]
end

section
/-! PROOF. Work at one port, which leaves the optics, the tables and the other ports: a port that goes DOWN (R63, R339,
R374). -/

namespace Sys2Proof.Machine

/-! ### Work at one port -/

/-- `e` comes from `d` by work that leaves the optics, the tables and the ports but `p` alone. -/
structure Dev.AtPort (p : Nat) (d e : Dev) : Prop where
  opt : e.opt = d.opt
  fwd : e.fwd = d.fwd
  other : ∀ q, q ≠ p → e.port q = d.port q

theorem Dev.AtPort.refl (p : Nat) (d : Dev) : d.AtPort p d := ⟨rfl, rfl, fun _ _ => rfl⟩

theorem Dev.AtPort.trans {p : Nat} {a b c : Dev} (h : a.AtPort p b) (k : b.AtPort p c) : a.AtPort p c :=
  ⟨k.opt.trans h.opt, k.fwd.trans h.fwd, fun q hq => (k.other q hq).trans (h.other q hq)⟩

theorem Dev.atPort_ite {p : Nat} {d e f : Dev} (c : Prop) [Decidable c] (he : d.AtPort p e) (hf : d.AtPort p f) :
    d.AtPort p (if c then e else f) := by
  split
  · exact he
  · exact hf

theorem Dev.atPort_setPort (d : Dev) (p : Nat) (x : PortSt) : d.AtPort p (d.setPort p x) :=
  ⟨rfl, rfl, fun _ hq => d.port_setPort_other x hq⟩

/-! ### A port that goes DOWN (R339, R374) -/

/-- Work on the store, the counts and the reports leaves every port as it was. -/
theorem Dev.atPort_of_shape {d e : Dev} (p : Nat) (hPorts : e.ports = d.ports) (hOpt : e.opt = d.opt)
    (hFwd : e.fwd = d.fwd) : d.AtPort p e := ⟨hOpt, hFwd, fun q _ => Dev.port_congr hPorts q⟩

theorem Dev.atPort_event (d : Dev) (p : Nat) (e : Ev) : d.AtPort p (d.event e) :=
  Dev.atPort_of_shape p (d.event_ports e) (d.event_opt e) (d.event_fwd e)

theorem Dev.atPort_faultRec (d : Dev) (p cls unit_ index sub action left detail : Nat) :
    d.AtPort p (d.faultRec cls unit_ index sub action left detail) := by
  obtain ⟨_, _, _, _, h⟩ := d.faultRec_shape cls unit_ index sub action left detail
  rw [h]
  exact ⟨rfl, rfl, fun _ _ => rfl⟩

theorem Dev.atPort_dropCopies (d : Dev) (p : Nat) (l : List Copy) (outcome : Nat) :
    d.AtPort p (d.dropCopies l outcome) := by
  induction l generalizing d with
  | nil => exact .refl ..
  | cons c r ih =>
    have dropped : d.AtPort p ((d.gleanFrame c.fid c outcome false false).release c.fid) := by
      obtain ⟨_, _, hGlean⟩ := d.gleanFrame_shape c.fid c outcome false false
      obtain ⟨_, _, _, _, hRelease⟩ := (d.gleanFrame c.fid c outcome false false).release_shape c.fid
      rw [hRelease, hGlean]
      exact ⟨rfl, rfl, fun _ _ => rfl⟩
    exact dropped.trans (ih _)

/-- A change of the store alone is of that kind. -/
theorem Dev.atPort_store (d : Dev) (p : Nat) (s : Store) : d.AtPort p { d with store := s } :=
  ⟨rfl, rfl, fun _ _ => rfl⟩

theorem Dev.atPort_failFrame (d : Dev) (p fid outcome : Nat) : d.AtPort p (d.failFrame fid outcome) := by
  unfold Dev.failFrame
  exact (d.atPort_store p _).trans (Dev.atPort_dropCopies ..)

/-- The frame in reception fails (R63). -/
theorem Dev.atPort_failRx (d : Dev) (p : Nat) : d.AtPort p (d.failRx p) := by
  unfold Dev.failRx
  split
  · exact .refl ..
  · exact List.foldlRecOn (motive := fun e : Dev => d.AtPort p e) _ _ (d.atPort_setPort ..) fun e he fid _ =>
      he.trans (e.atPort_failFrame p fid 4)

theorem Dev.atPort_crossFloor (d : Dev) (p floor value unit_ index : Nat) :
    d.AtPort p (d.crossFloor floor value unit_ index) := by
  have noted : ∀ f : FaultSt, d.AtPort p { d with faults := f } := fun _ => ⟨rfl, rfl, fun _ _ => rfl⟩
  unfold Dev.crossFloor
  exact Dev.atPort_ite _ (.refl ..) (((noted _).trans (Dev.atPort_event ..)).trans (Dev.atPort_faultRec ..))

theorem Dev.atPort_checkFiber (d : Dev) (p q : Nat) : d.AtPort p (d.checkFiber q) := by
  unfold Dev.checkFiber
  exact (Dev.atPort_ite _ (d.atPort_crossFloor ..) (.refl ..)).trans
    (Dev.atPort_ite _ (Dev.atPort_crossFloor ..) (.refl ..))

theorem Dev.atPort_degraded (d : Dev) (p q step action capacity : Nat) :
    d.AtPort p (d.degraded q step action capacity) :=
  (d.atPort_event ..).trans (Dev.atPort_faultRec ..)

theorem Dev.atPort_setDown (d : Dev) (p reason : Nat) : d.AtPort p (d.setDown p reason) :=
  ((d.atPort_failRx p).trans (Dev.atPort_setPort ..)).trans (Dev.atPort_checkFiber ..)

/-- A port that goes DOWN shows the reason. -/
theorem Dev.port_setDown (d : Dev) (p reason : Nat) :
    ((d.setDown p reason).port p).st = .down ∧ ((d.setDown p reason).port p).reason = reason := by
  rw [Dev.setDown, (Dev.quiet_checkFiber _ [] p).port, Dev.port_setPort_same]
  exact ⟨rfl, rfl⟩

/-- The record of a port that goes DOWN, and its event where its laser or its level took it (R490). -/
def Dev.reportDown (d : Dev) (reason unit_ index sub left : Nat) : Dev :=
  (if reason = 1 then d else d.event (.serviceDegraded unit_ index 2 0)).faultRec 4 unit_ index sub 5 left 0

theorem Dev.atPort_reportDown (d : Dev) (p reason unit_ index sub left : Nat) :
    d.AtPort p (d.reportDown reason unit_ index sub left) :=
  (Dev.atPort_ite _ (.refl ..) (d.atPort_event ..)).trans (Dev.atPort_faultRec ..)

theorem Dev.quiet_reportDown (d : Dev) (cs : List Nat) (reason unit_ index sub left : Nat) :
    d.Quiet cs (d.reportDown reason unit_ index sub left) := by
  unfold Dev.reportDown
  split
  · exact d.quiet_faultRec ..
  · exact (d.quiet_event ..).trans (Dev.quiet_faultRec ..)

/-- A port in DETECT goes DOWN without an exit. -/
theorem Dev.goDown_of_detect {d : Dev} {p : Nat} (h : (d.port p).st = .detect) (reason code : Nat) (tx : Bool) :
    d.goDown p reason code tx = (d.setDown p reason).reportDown reason (if reason = 1 then 0x06 else 0x05)
      (if reason = 1 then p else engOf p * 64 + d.laserIx p) (if reason = 1 then 0 else spareOf p (d.port p).mode)
      (d.sparesLeft (engOf p) (spareOf p (d.port p).mode)) := by
  unfold Dev.goDown
  simp only [h]
  rfl

/-- Out of DETECT into DOWN: the port shows the reason, and the optics and the other ports stay. -/
theorem Dev.goDown_effect {d : Dev} {p : Nat} (h : (d.port p).st = .detect) (reason code : Nat) (tx : Bool) :
    ((d.goDown p reason code tx).port p).st = .down ∧ ((d.goDown p reason code tx).port p).reason = reason ∧
      d.AtPort p (d.goDown p reason code tx) := by
  rw [Dev.goDown_of_detect h, (Dev.quiet_reportDown _ [] ..).port]
  obtain ⟨hSt, hReason⟩ := d.port_setDown p reason
  exact ⟨hSt, hReason, (d.atPort_setDown p reason).trans (Dev.atPort_reportDown ..)⟩

end Sys2Proof.Machine
end

section
/-! PROOF. Rings: the windows of a sweep, the acceptance of a lock and its failures (R334, R336 to R339, R360). -/

namespace Sys2Proof.Machine

/-! ### Reads of rings -/

theorem Dev.ring_setRing_same (d : Dev) (p : Nat) (r : Ring) (x : RingSt) : (d.setRing p r x).ring p r = x :=
  Tab.get_set_same ..

/-- The two rings of a port have numbers of their own. -/
theorem ringNo_ne (p : Nat) {r k : Ring} (h : k ≠ r) : ringNo p k ≠ ringNo p r := by
  match k, r with
  | .tx, .tx | .rx, .rx => exact absurd rfl h
  | .tx, .rx => exact (Nat.succ_ne_self _).symm
  | .rx, .tx => exact Nat.succ_ne_self _

theorem Dev.ring_setRing_other (d : Dev) (p : Nat) {r k : Ring} (x : RingSt) (h : k ≠ r) :
    (d.setRing p r x).ring p k = d.ring p k := Tab.get_set_other _ _ _ _ (ringNo_ne p h)

theorem Dev.ring_congr {d e : Dev} (h : d.opt = e.opt) (p : Nat) (r : Ring) : d.ring p r = e.ring p r := by
  unfold Dev.ring; rw [h]

theorem Dev.AtPort.ring {p : Nat} {d e : Dev} (h : d.AtPort p e) (q : Nat) (r : Ring) : e.ring q r = d.ring q r :=
  Dev.ring_congr h.opt q r

/-! ### Windows (R334, R336) -/

/-- A tone matches where it stands 10 dB above each other tone and 15 dB above the floor. -/
theorem toneHits_iff (w : ToneWindow) (g : Nat) : toneHits w g = true ↔
    (∀ i, i < 16 → i ≠ g → (w.tones.getD i 0).toInt + 10 * 256 ≤ (w.tones.getD g 0).toInt) ∧
    w.floor.toInt + 15 * 256 ≤ (w.tones.getD g 0).toInt := by
  simp only [toneHits, Bool.and_eq_true, List.all_eq_true, List.mem_range, Bool.or_eq_true, beq_iff_eq,
    decide_eq_true_eq, or_iff_not_imp_left]
  rfl

/-- A window of a ring that sweeps is one of its dwell. -/
theorem exec_toneWindow_dwells {s : State} {p : Port} {r : Ring} (w : ToneWindow) (ha : s.d.awake = true)
    (hLock : (s.d.ring p.val r).lock = .sweep ∨ (s.d.ring p.val r).lock = .muted) : exec (.toneWindow p r w) s =
      .next (s.put (s.d.dwell p.val r (toneHits w ((s.d.port p.val).chan p.val)))) := by
  refine congrArg (goto s) ?_
  obtain h | h := hLock
  · simp [ha, h]
  · simp [ha, h]

/-- The first window of a dwell: the ring climbs to the resonance (R334). -/
theorem Dev.dwell_first {d : Dev} {p : Nat} {r : Ring} (hPassed : (d.ring p r).passed < 4)
    (hFirst : (d.ring p r).windows = 0) (hit : Bool) : d.dwell p r hit = d.setRing p r { d.ring p r with
      windows := 1, heater := (d.ring p r).climb (ringNo p r), matches_ := (d.ring p r).matches_ + hit.toNat } := by
  simp [Dev.dwell, Nat.not_le.mpr hPassed, hFirst]

/-- A resonance at which the two windows do not both match is passed over (R334). -/
theorem Dev.dwell_passes {d : Dev} {p : Nat} {r : Ring} {hit : Bool} (hPassed : (d.ring p r).passed < 4)
    (hLast : (d.ring p r).windows ≠ 0) (hFew : (d.ring p r).matches_ + hit.toNat ≠ 2) :
    d.dwell p r hit = d.setRing p r { d.ring p r with
      windows := 0, matches_ := 0, passed := (d.ring p r).passed + 1 } := by
  simp [Dev.dwell, Nat.not_le.mpr hPassed, hLast, hFew]

/-- A second match accepts the lock (R337). -/
theorem Dev.dwell_accepts {d : Dev} {p : Nat} {r : Ring} (hPassed : (d.ring p r).passed < 4)
    (hLast : (d.ring p r).windows ≠ 0) (hOne : (d.ring p r).matches_ = 1) : d.dwell p r true = d.acceptLock p r := by
  simp [Dev.dwell, Nat.not_le.mpr hPassed, hLast, hOne]

/-! ### A modulator, and the way out of DETECT (R337, R360) -/

theorem Dev.atPort_sendPattern (d : Dev) (p q : Nat) : d.AtPort p (d.sendPattern q) := by
  unfold Dev.sendPattern
  exact Dev.atPort_ite _ (.refl ..) ⟨rfl, rfl, fun _ _ => rfl⟩

theorem Dev.atPort_leaveDetect (d : Dev) (p : Nat) : d.AtPort p (d.leaveDetect p) := by
  unfold Dev.leaveDetect
  exact Dev.atPort_ite _ (d.atPort_setPort ..) (.refl ..)

theorem Dev.leaveDetect_out (d : Dev) (p : Nat) : (d.leaveDetect p).out = d.out := by
  unfold Dev.leaveDetect
  dsimp only
  split
  · exact d.setPort_out ..
  · rfl

theorem Dev.leaveDetect_of_out {d : Dev} {p : Nat} (h : (d.port p).st ∉ [PortState.detect, .absent]) :
    d.leaveDetect p = d := by
  simp only [List.mem_cons, List.not_mem_nil, or_false, not_or] at h
  simp [Dev.leaveDetect, h.1, h.2]

/-- With light and both rings accepted a port leaves DETECT for TRAIN (R360). -/
theorem Dev.leaveDetect_trains {d : Dev} {p : Nat} (hSt : (d.port p).st = .detect) (hLos : (d.port p).los = false)
    (hRings : ∀ r, (d.ring p r).lock = .locked) : ((d.leaveDetect p).port p).st = .train := by
  have ready : d.ringsReady p = true := by simp [Dev.ringsReady, hRings]
  have leaves : d.leaveDetect p = d.enterTrain p := by simp [Dev.leaveDetect, hSt, hLos, ready]
  rw [leaves]
  exact congrArg PortSt.st (Dev.port_setPort_same ..)

/-! ### The acceptance of a lock (R337, R360) -/

/-- A ring whose lock is accepted. -/
def RingSt.accepted (x : RingSt) (now : Nat) : RingSt :=
  { x with lock := .locked, matches_ := 0, misses := 0, lockedAt := now }

/-- The device with a ring's lock accepted. -/
def Dev.lockRing (d : Dev) (p : Nat) (r : Ring) : Dev := d.setRing p r ((d.ring p r).accepted d.now)

theorem Dev.ring_lockRing_same (d : Dev) (p : Nat) (r : Ring) :
    (d.lockRing p r).ring p r = (d.ring p r).accepted d.now := d.ring_setRing_same ..

theorem Dev.ring_lockRing_other (d : Dev) (p : Nat) {r k : Ring} (h : k ≠ r) :
    (d.lockRing p r).ring p k = d.ring p k := d.ring_setRing_other _ _ h

/-- A port past DETECT sends, by a modulator that is not muted (R337). -/
def PortState.sends (x : PortState) : Bool :=
  match x with
  | .off | .detect | .absent | .down => false
  | _ => true

theorem PortState.sends_of_not_mem (x : PortState) :
    x ∉ [PortState.off, .detect, .absent, .down] → x.sends = true := by
  cases x <;> decide

/-- A modulator as its ring and the loopback have it; one that was muted sends its pattern in TEST (R376). -/
def Dev.shine (d : Dev) (p : Nat) : Dev :=
  let lit := d.setPort p { d.port p with muted := d.mustMute p }
  if (d.port p).muted then lit.sendPattern p else lit

/-- The modulator, where the accepted ring is the transmitter's and the port is past DETECT. -/
def Dev.shineIf (d : Dev) (p : Nat) (b : Bool) : Dev := if b then d.shine p else d

/-- A ring that had not failed is accepted: its modulator shines, and its port may leave DETECT. -/
theorem Dev.acceptLock_eq {d : Dev} {p : Nat} {r : Ring} (h : (d.ring p r).fails = 0) : d.acceptLock p r =
    ((d.lockRing p r).shineIf p ((d.port p).st.sends && decide (r = .tx))).leaveDetect p := by
  have shines : d.acceptLock p r = Dev.leaveDetect (
      let b := (d.port p).st.sends && decide (r = .tx)
      let e := d.lockRing p r
      let lit := if b then e.setPort p { e.port p with muted := e.mustMute p } else e
      if b && (e.port p).muted then lit.sendPattern p else lit) p := if_pos h
  rw [shines]
  cases (d.port p).st.sends && decide (r = .tx) <;> rfl

theorem Dev.atPort_shine (d : Dev) (p : Nat) : d.AtPort p (d.shine p) := by
  unfold Dev.shine
  exact Dev.atPort_ite _ ((d.atPort_setPort ..).trans (Dev.atPort_sendPattern ..)) (d.atPort_setPort ..)

theorem Dev.port_sendPattern (d : Dev) (p q : Nat) : (d.sendPattern p).port q = d.port q := by
  unfold Dev.sendPattern
  dsimp only
  split
  · rfl
  · rfl

theorem Dev.port_shine (d : Dev) (p : Nat) :
    (d.shine p).port p = { d.port p with muted := d.mustMute p } := by
  unfold Dev.shine
  dsimp only
  split
  · rw [Dev.port_sendPattern, Dev.port_setPort_same]
  · rw [Dev.port_setPort_same]

/-- Without a pattern nothing is sent. -/
theorem Dev.shine_out {d : Dev} {p : Nat} (h : (d.port p).prbs = .none) : (d.shine p).out = d.out := by
  unfold Dev.shine Dev.sendPattern
  simp [Dev.port_setPort_same, h]

theorem Dev.atPort_shineIf (d : Dev) (p : Nat) (b : Bool) : d.AtPort p (d.shineIf p b) :=
  Dev.atPort_ite _ (d.atPort_shine p) (.refl ..)

theorem Dev.shineIf_st (d : Dev) (p : Nat) (b : Bool) : ((d.shineIf p b).port p).st = (d.port p).st := by
  unfold Dev.shineIf
  split
  · rw [Dev.port_shine]
  · rfl

theorem Dev.shineIf_out {d : Dev} {p : Nat} (h : (d.port p).prbs = .none) (b : Bool) :
    (d.shineIf p b).out = d.out := by
  unfold Dev.shineIf
  split
  · exact Dev.shine_out h
  · rfl

/-- The modulator of an accepted ring is muted in loopback NEAR alone (R337, R522). -/
theorem Dev.mustMute_lockRing (d : Dev) (p : Nat) : (d.lockRing p .tx).mustMute p = (d.loop p == 1) := by
  have locked : ((d.lockRing p .tx).ring p .tx).lock = .locked := congrArg RingSt.lock (d.ring_lockRing_same ..)
  rw [Dev.mustMute, locked]
  simp only [decide_true, Bool.not_true, Bool.and_false, Bool.or_false]
  rfl

/-- Beside its ring an accepted lock changes its port alone. -/
theorem Dev.atPort_acceptLock {d : Dev} {p : Nat} {r : Ring} (h : (d.ring p r).fails = 0) :
    (d.lockRing p r).AtPort p (d.acceptLock p r) := by
  rw [Dev.acceptLock_eq h]
  exact (Dev.atPort_shineIf ..).trans (Dev.atPort_leaveDetect ..)

/-- An accepted lock takes its port out of no other state than DETECT and ABSENT. -/
theorem Dev.acceptLock_st {d : Dev} {p : Nat} {r : Ring} (h : (d.ring p r).fails = 0)
    (hOut : (d.port p).st ∉ [PortState.detect, .absent]) : ((d.acceptLock p r).port p).st = (d.port p).st := by
  rw [Dev.acceptLock_eq h, Dev.leaveDetect_of_out, Dev.shineIf_st]
  · rfl
  · rw [Dev.shineIf_st]
    exact hOut

theorem Dev.acceptLock_muted {d : Dev} {p : Nat} (h : (d.ring p .tx).fails = 0)
    (hLit : (d.port p).st ∉ [PortState.off, .detect, .absent, .down]) :
    ((d.acceptLock p .tx).port p).muted = (d.loop p == 1) := by
  have out : (d.port p).st ∉ [PortState.detect, .absent] := fun hIn =>
    hLit (List.mem_cons_of_mem _ (List.mem_append_left [PortState.down] hIn :))
  rw [Dev.acceptLock_eq h, PortState.sends_of_not_mem _ hLit, Dev.leaveDetect_of_out (by rwa [Dev.shineIf_st])]
  exact (congrArg PortSt.muted (Dev.port_shine ..)).trans (d.mustMute_lockRing p)

/-- The last of a port's locks lets it leave DETECT, where it has light (R360). -/
theorem Dev.acceptLock_trains {d : Dev} {p : Nat} {r : Ring} (h : (d.ring p r).fails = 0)
    (hSt : (d.port p).st = .detect) (hLos : (d.port p).los = false)
    (hOther : ∀ k, k ≠ r → (d.ring p k).lock = .locked) : ((d.acceptLock p r).port p).st = .train := by
  have stays : (d.port p).st.sends = false := by rw [hSt]; rfl
  rw [Dev.acceptLock_eq h, stays]
  refine Dev.leaveDetect_trains (d := d.lockRing p r) hSt hLos fun k => ?_
  by_cases hk : k = r
  · rw [hk, Dev.ring_lockRing_same]
    rfl
  · rw [Dev.ring_lockRing_other _ _ hk, hOther k hk]

theorem Dev.acceptLock_out {d : Dev} {p : Nat} {r : Ring} (h : (d.ring p r).fails = 0)
    (hPrbs : (d.port p).prbs = .none) : (d.acceptLock p r).out = d.out := by
  rw [Dev.acceptLock_eq h, Dev.leaveDetect_out]
  exact Dev.shineIf_out (d := d.lockRing p r) hPrbs _

/-! ### Failures of a lock (R338, R339) -/

/-- A ring whose sweep starts anew has the lock it is given and keeps its failures. -/
theorem Dev.ring_resweep (d : Dev) (p : Nat) (r : Ring) (l : RingLock) :
    ((d.resweep p r l).ring p r).lock = l ∧ ((d.resweep p r l).ring p r).fails = (d.ring p r).fails := by
  rw [Dev.resweep, Dev.ring_setRing_same]
  exact ⟨rfl, rfl⟩

/-- The first and the second failure of a lock are counted. -/
theorem Dev.lockFail_counts {d : Dev} {p : Nat} {r : Ring} (h : (d.ring p r).fails < 2) (tx : Bool) :
    d.lockFail p r tx = (d.setRing p r { d.ring p r with fails := (d.ring p r).fails + 1 }, false) := by
  have few : ¬ 3 ≤ (d.ring p r).fails := by omega
  have notThird : (d.ring p r).fails + 1 ≠ 3 := by omega
  simp only [Dev.lockFail, few, notThird, if_false]

/-- The third failure takes a port in DETECT, without a swap, DOWN, and the ring gives up. -/
theorem Dev.lockFail_third {d : Dev} {p : Nat} {r : Ring} (h : (d.ring p r).fails = 2)
    (hSt : (d.port p).st = .detect) (hSwap : d.swapOfPort p = none) (tx : Bool) :
    (((d.lockFail p r tx).1).port p).st = .down ∧ (((d.lockFail p r tx).1).port p).reason = 1 ∧
      (((d.lockFail p r tx).1).ring p r).lock = .unlocked ∧
      ∀ q, q ≠ p → ((d.lockFail p r tx).1).port q = d.port q := by
  let e := d.setRing p r { d.ring p r with fails := 3 }
  have noSwap : e.abandonSwap p = e := by
    have none : e.swapOfPort p = none := hSwap
    rw [Dev.abandonSwap, none]
  have ends : (d.lockFail p r tx).1 = (e.goDown p 1 exitWrong tx).setRing p r
      { (e.goDown p 1 exitWrong tx).ring p r with lock := .unlocked } := by
    have few : ¬ 3 ≤ (d.ring p r).fails := by omega
    have third : (d.ring p r).fails + 1 = 3 := by omega
    simp only [Dev.lockFail, few, third, if_false, if_true]
    rw [noSwap]
  obtain ⟨hDown, hReason, hAt⟩ := Dev.goDown_effect (d := e) hSt 1 exitWrong tx
  rw [ends]
  exact ⟨hDown, hReason, congrArg RingSt.lock (Dev.ring_setRing_same ..), hAt.other⟩

/-- A failure that is not the third: the ring sweeps anew with the lock it is given, and its port stays. -/
theorem Dev.resweep_lockFail {d : Dev} {p : Nat} {r : Ring} (h : (d.ring p r).fails < 2) (l : RingLock) (tx : Bool) :
    let e := ((d.resweep p r l).lockFail p r tx).1
    (e.ring p r).lock = l ∧ (e.ring p r).fails = (d.ring p r).fails + 1 ∧ e.ports = d.ports ∧ e.fwd = d.fwd ∧
      e.ctrs = d.ctrs ∧ ∀ k, k ≠ r → e.ring p k = d.ring p k := by
  obtain ⟨hLock, hFails⟩ := d.ring_resweep p r l
  have few : ((d.resweep p r l).ring p r).fails < 2 := hFails ▸ h
  rw [Dev.lockFail_counts few]
  dsimp only
  rw [Dev.ring_setRing_same]
  exact ⟨hLock, congrArg (· + 1) hFails, rfl, rfl, rfl, fun k hk =>
    (Dev.ring_setRing_other _ _ _ hk).trans (d.ring_setRing_other _ _ hk)⟩

/-- A wrong lock of a receiver in bring-up is counted and fails, and the ring sweeps again (R338). -/
theorem Dev.wrongLock_rx {d : Dev} {p : Nat} (h : (d.ring p .rx).fails < 2)
    (hSt : (d.port p).st ∈ [PortState.detect, .train, .lock, .exchange]) : d.wrongLock p .rx =
      (((d.bump (ctrLight p 0)).resweep p .rx .sweep).lockFail p .rx true).1 := by
  have few : (((d.bump (ctrLight p 0)).resweep p .rx .sweep).ring p .rx).fails < 2 := by
    rw [(Dev.ring_resweep ..).2]
    exact h
  obtain ⟨-, -, hPorts, -, -, -⟩ := Dev.resweep_lockFail (d := d.bump (ctrLight p 0)) h .sweep true
  have counted := congrArg Prod.snd (Dev.lockFail_counts few true)
  have same : (((((d.bump (ctrLight p 0)).resweep p .rx .sweep).lockFail p .rx true).1).port p).st = (d.port p).st :=
    congrArg PortSt.st (Dev.port_congr (hPorts.trans (d.bump_ports _)) p)
  unfold Dev.wrongLock
  simp only [decide_true, counted, same, Bool.false_eq_true, if_false]
  split
  next hActive => simp [hActive] at hSt
  next hDraining => simp [hDraining] at hSt
  next => rfl

/-! ### What the events of a ring do (R332, R337 to R339) -/

/-- A window of an accepted ring that matches clears its misses. -/
theorem exec_toneWindow_hits {s : State} {p : Port} {r : Ring} {w : ToneWindow} (ha : s.d.awake = true)
    (hLock : (s.d.ring p.val r).lock = .locked) (hHit : toneHits w ((s.d.port p.val).chan p.val) = true) :
    exec (.toneWindow p r w) s = .next (s.put (s.d.setRing p.val r { s.d.ring p.val r with misses := 0 })) := by
  refine congrArg (goto s) ?_
  simp [ha, hLock, hHit]

/-- The mismatch of a ring that has light: no loss of signal excuses a receiver's (R338). -/
theorem toneBelowLos_excuses {r : Ring} {w : ToneWindow} (h : r = .tx ∨ -18 * 256 ≤ w.power.toInt) :
    (toneBelowLos w && decide (r = .rx)) = false := by
  obtain rfl | h := h
  · simp
  · have lit : ¬ w.power.toInt < -4608 := by omega
    simp [toneBelowLos, lit]

theorem exec_toneWindow_misses {s : State} {p : Port} {r : Ring} {w : ToneWindow} (ha : s.d.awake = true)
    (hLock : (s.d.ring p.val r).lock = .locked) (hMiss : toneHits w ((s.d.port p.val).chan p.val) = false)
    (hLight : r = .tx ∨ -18 * 256 ≤ w.power.toInt) : exec (.toneWindow p r w) s =
      .next (s.put (if (s.d.ring p.val r).misses + 1 < 2 then
        s.d.setRing p.val r { s.d.ring p.val r with misses := (s.d.ring p.val r).misses + 1 }
      else s.d.wrongLock p.val r)) := by
  refine congrArg (goto s) ?_
  simp only [ha, hLock, hMiss, toneBelowLos_excuses hLight, Bool.not_true, Bool.or_self, Bool.false_eq_true, if_false]

/-- A sweep that ends between two dwells without a lock has failed, and starts anew. -/
theorem exec_sweepEndNoLock_fails {s : State} {p : Port} {r : Ring} (ha : s.d.awake = true)
    (hLock : (s.d.ring p.val r).lock = .sweep) (hBetween : (s.d.ring p.val r).windows = 0) :
    exec (.sweepEndNoLock p r) s =
      .next (s.put ((s.d.resweep p.val r .sweep).lockFail p.val r (decide (r = .rx))).1) := by
  refine congrArg (goto s) ?_
  simp [ha, hLock, hBetween]

theorem exec_lockFailureClearTimer_clears {s : State} {p : Port} {r : Ring} (ha : s.d.awake = true)
    (hLock : (s.d.ring p.val r).lock = .locked) : exec (.lockFailureClearTimer p r) s =
      .next (s.put (s.d.setRing p.val r { s.d.ring p.val r with fails := 0 })) := by
  refine congrArg (goto s) ?_
  simp [ha, hLock]

theorem exec_heaterLoopUpdate_moves {s : State} {p : Port} {r : Ring} (m : BitVec 16) (ha : s.d.awake = true)
    (hLock : (s.d.ring p.val r).lock ≠ .unlocked) : exec (.heaterLoopUpdate p r m) s =
      .next (s.put (s.d.setRing p.val r { s.d.ring p.val r with
        heater := Config.heaterLoop (s.d.ring p.val r).heater m })) := by
  refine congrArg (goto s) ?_
  simp [ha, hLock]

end Sys2Proof.Machine
end

section
/-! PROOF. Lasers: their readings and commissioning values, the levels of a fade, and a laser that fails (R340 to R343,
R350, R355). -/

namespace Sys2Proof.Machine

theorem Dev.laser_congr {d e : Dev} (h : d.opt = e.opt) (n i : Nat) : d.laser n i = e.laser n i := by
  unfold Dev.laser; rw [h]

/-! ### Readings of 1 ms (R340 to R342) -/

/-- A window that fills shows the mean of its readings, and starts anew (R340). -/
theorem WinAvg.add_whole {w : WinAvg} {k : Nat} (h : w.n + 1 = k) (v : Int) :
    (w.add k v).last = some ((w.sum + v) / k) ∧ (w.add k v).n = 0 := by
  have whole : ¬ w.n + 1 < k := by omega
  simp [WinAvg.add, whole]

/-- The device whose laser has noted a reading of 1 ms in its windows. -/
def Dev.noted1ms (d : Dev) (e i : Nat) (v : BitVec 16) : Dev := d.setLaser e i ((d.laser e i).note1ms v.toInt)

theorem Dev.laser_noted1ms (d : Dev) (e i : Nat) (v : BitVec 16) :
    (d.noted1ms e i v).laser e i = (d.laser e i).note1ms v.toInt := d.laser_setLaser_same ..

theorem exec_laserReading1ms_notes {s : State} {e : Fin 16} {l : LaserIx} (v : BitVec 16) (ha : s.d.awake = true)
    (hServes : s.d.serving = true) (hLit : (s.d.laser e.val l.val).lit = true) : exec (.laserReading1ms e l v) s =
      .next (s.put ((s.d.noted1ms e.val l.val v).reading1ms e.val l.val v)) := by
  refine congrArg (goto s) ?_
  simp only [ha, hServes, hLit, Bool.and_self, if_true]
  rfl

/-- A laser without a commissioning value takes a reading towards one (R341). -/
theorem Dev.reading1ms_first {d : Dev} {e i : Nat} (h : (d.laser e i).hasRef = false) (v : BitVec 16) :
    (d.noted1ms e i v).reading1ms e i v = (d.noted1ms e i v).firstReading e i v := by
  have noRef : ((d.noted1ms e i v).laser e i).hasRef = false := (congrArg Laser.hasRef (d.laser_noted1ms ..)).trans h
  simp only [Dev.reading1ms, noRef, Bool.not_false, if_true]

/-- Fewer than a hundred readings are summed. -/
theorem Dev.firstReading_sums {d : Dev} {e i : Nat} (h : (d.laser e i).refN < 99) (v : BitVec 16) :
    d.firstReading e i v = d.setLaser e i { d.laser e i with
      refN := (d.laser e i).refN + 1, refSum := (d.laser e i).refSum + v.toInt } := by
  have few : (d.laser e i).refN + 1 < 100 := by omega
  simp only [Dev.firstReading, few, if_true]

/-- The hundredth reading gives their mean as the commissioning value. -/
theorem Dev.firstReading_commissions {d : Dev} {e i : Nat} (h : (d.laser e i).refN = 99) (v : BitVec 16) :
    d.firstReading e i v = (d.setLaser e i { d.laser e i with
      refN := 0, refSum := 0, hasRef := true, fresh := true,
      ref := BitVec.ofInt 16 (((d.laser e i).refSum + v.toInt) / 100) }).event
        (.laserRefFresh e i (BitVec.ofInt 16 (((d.laser e i).refSum + v.toInt) / 100))) := by
  have last : ¬ (d.laser e i).refN + 1 < 100 := by omega
  simp only [Dev.firstReading, last, if_false]

/-! ### The levels of a fade (R342) -/

theorem one_le_atLeast1 (n : Nat) : 1 ≤ atLeast1 n := by
  unfold atLeast1
  split_ifs <;> omega

/-- Levels without a confirmed reading do nothing. -/
theorem Dev.fadeLevels_unconfirmed (d : Dev) (e i p : Nat) (fade : Int) {l : List (Nat × Nat)}
    (h : ∀ x ∈ l, x.2 = 0) : d.fadeLevels e i p fade l = d := by
  induction l with
  | nil => rfl
  | cons x r ih =>
    obtain ⟨lvl, n⟩ := x
    have none : n = 0 := h (lvl, n) List.mem_cons_self
    have few : ¬ atLeast1 (d.regBits (offLightCtl e) 15 8) ≤ 0 := by
      have := one_le_atLeast1 (d.regBits (offLightCtl e) 15 8)
      omega
    simp only [Dev.fadeLevels, none, few, decide_false, Bool.false_and, Bool.false_eq_true, if_false]
    exact ih fun x hx => h x (List.mem_cons_of_mem _ hx)

/-- A fade confirmed beyond WARN alone enters that level, which is reported. -/
theorem Dev.fadeLevels_warns {d : Dev} {e i : Nat} (hLevel : (d.laser e i).level = 0) {n : Nat}
    (hConfirmed : atLeast1 (d.regBits (offLightCtl e) 15 8) ≤ n) (p : Nat) (fade : Int) :
    d.fadeLevels e i p fade [(1, n), (2, 0), (3, 0), (4, 0)] =
      (d.setLaser e i { d.laser e i with level := 1 }).event (.laserWarn e i fade) := by
  rw [Dev.fadeLevels]
  simp only [hConfirmed, hLevel, decide_true, Bool.and_self, if_true, Nat.zero_lt_one]
  exact Dev.fadeLevels_unconfirmed _ _ _ _ _ (by simp)

/-- A laser with its fade, as a reading beyond WARN alone leaves it at level 0. -/
def Laser.beyondWarn (y : Laser) (fade : Int) : Laser :=
  { y with fade := fade, nWarn := y.nWarn + 1, nSwap := 0, nHalf := 0, nDown := 0, nClear := 0, level := 0 }

theorem Dev.payHalf_of_none {d : Dev} {e i : Nat} (h : (d.laser e i).halfOwed = false) (p : Nat) :
    d.payHalf e i p = d := by
  simp [Dev.payHalf, h]

/-- A reading beyond WARN alone counts toward that level (R342). -/
theorem Dev.reading1ms_beyondWarn {d : Dev} {e i p : Nat} {v : BitVec 16} (hRef : (d.laser e i).hasRef = true)
    (hLevel : (d.laser e i).level = 0) (hPort : d.laserPort e i = some p)
    (hWarn : v.toInt - (d.laser e i).ref.toInt ≤ d.fadeAt e 1)
    (hAlone : ∀ k, 2 ≤ k → k ≤ 4 → d.fadeAt e k < v.toInt - (d.laser e i).ref.toInt) :
    d.reading1ms e i v =
      let fade := v.toInt - (d.laser e i).ref.toInt
      ((d.setLaser e i ((d.laser e i).beyondWarn fade)).fadeLevels e i p fade
        [(1, (d.laser e i).nWarn + 1), (2, 0), (3, 0), (4, 0)]).payHalf e i p := by
  have above : ∀ k, 2 ≤ k → k ≤ 4 → ¬ v.toInt - (d.laser e i).ref.toInt ≤ d.fadeAt e k := fun k h2 h4 =>
    Int.not_le.mpr (hAlone k h2 h4)
  have unclear : ¬ atLeast1 (d.regBits (offLightCtl e) 15 8) ≤ 0 := by
    have := one_le_atLeast1 (d.regBits (offLightCtl e) 15 8)
    omega
  have lights : ∀ y, (d.setLaser e i y).laserPort e i = some p := fun _ => hPort
  unfold Dev.reading1ms
  simp only [hRef, hLevel, hWarn, above 2 (by decide) (by decide), above 3 (by decide) (by decide),
    above 4 (by decide) (by decide), unclear, lights, Bool.not_true, Bool.false_eq_true, if_true, if_false,
    decide_false, Nat.zero_ne_one, Bool.false_and, Laser.beyondWarn]

/-- The confirming reading enters WARN, and shows the fade; the ports stay, and nothing is sent on them (R342). -/
theorem Dev.reading1ms_warns {d : Dev} {e i p : Nat} {v : BitVec 16} (hRef : (d.laser e i).hasRef = true)
    (hLevel : (d.laser e i).level = 0) (hOwed : (d.laser e i).halfOwed = false) (hPort : d.laserPort e i = some p)
    (hWarn : v.toInt - (d.laser e i).ref.toInt ≤ d.fadeAt e 1)
    (hAlone : ∀ k, 2 ≤ k → k ≤ 4 → d.fadeAt e k < v.toInt - (d.laser e i).ref.toInt)
    (hConfirmed : atLeast1 (d.regBits (offLightCtl e) 15 8) ≤ (d.laser e i).nWarn + 1) :
    ((d.reading1ms e i v).laser e i).level = 1 ∧
      ((d.reading1ms e i v).laser e i).fade = v.toInt - (d.laser e i).ref.toInt ∧
      (d.reading1ms e i v).ports = d.ports ∧ (d.reading1ms e i v).out = d.out := by
  let fade := v.toInt - (d.laser e i).ref.toInt
  let f := d.setLaser e i ((d.laser e i).beyondWarn fade)
  have noted : f.laser e i = (d.laser e i).beyondWarn fade := d.laser_setLaser_same ..
  have warns := Dev.fadeLevels_warns (d := f) (congrArg Laser.level noted) hConfirmed p fade
  generalize hg : f.fadeLevels e i p fade [(1, (d.laser e i).nWarn + 1), (2, 0), (3, 0), (4, 0)] = g at warns
  have warned : g.laser e i = { (d.laser e i).beyondWarn fade with level := 1 } := by
    rw [warns, Dev.laser_congr (Dev.event_opt ..), Dev.laser_setLaser_same, noted]
  have ends : d.reading1ms e i v = g :=
    (Dev.reading1ms_beyondWarn hRef hLevel hPort hWarn hAlone).trans ((congrArg (Dev.payHalf · e i p) hg).trans
      (Dev.payHalf_of_none ((congrArg Laser.halfOwed warned).trans hOwed) p))
  rw [ends, warned]
  exact ⟨rfl, rfl, by rw [warns, Dev.event_ports]; rfl, by rw [warns, Dev.event_out]; rfl⟩

/-! ### Readings of 10 µs (R340, R343) -/

/-- The device whose laser has noted a reading of 10 µs. -/
def Dev.noted10us (d : Dev) (e i : Nat) (v : BitVec 16) : Dev :=
  let y := d.laser e i
  d.setLaser e i { y.note10us v.toInt with
    fade10 := if y.hasRef then v.toInt - y.ref.toInt else y.fade10 }

/-- Without a commissioning value a reading goes into its window alone. -/
theorem Dev.laser_noted10us {d : Dev} {e i : Nat} (h : (d.laser e i).hasRef = false) (v : BitVec 16) :
    (d.noted10us e i v).laser e i = (d.laser e i).note10us v.toInt := by
  refine (d.laser_setLaser_same ..).trans ?_
  simp [h, Laser.note10us]

theorem exec_laserReading10us_notes {s : State} {e : Fin 16} {l : LaserIx} (v : BitVec 16) (ha : s.d.awake = true)
    (hServes : s.d.serving = true) (hLit : (s.d.laser e.val l.val).lit = true)
    (hRef : (s.d.laser e.val l.val).hasRef = false) : exec (.laserReading10us e l v false) s =
      .next (s.put (s.d.noted10us e.val l.val v)) := by
  refine congrArg (goto s) ?_
  simp only [ha, hServes, hLit, hRef, Bool.and_self, Bool.not_true, Bool.false_and, Bool.or_self, Bool.not_false,
    Bool.false_eq_true, if_true, if_false]
  simp only [Dev.noted10us, hRef, Bool.false_eq_true, if_false]

/-- A driver's fault fails the laser, and the port that it lights (R343). -/
theorem exec_laserReading10us_fails {s : State} {e : Fin 16} {l : LaserIx} {p : Nat} (v : BitVec 16)
    (ha : s.d.awake = true) (hServes : s.d.serving = true) (hLit : (s.d.laser e.val l.val).lit = true)
    (hPort : s.d.laserPort e.val l.val = some p) : exec (.laserReading10us e l v true) s =
      .next (s.put ((s.d.noted10us e.val l.val v).laserFails e.val l.val p)) := by
  have lights : (s.d.noted10us e.val l.val v).laserPort e.val l.val = some p := hPort
  refine congrArg (goto s) ?_
  simp only [ha, hServes, hLit, Bool.and_self, Bool.not_true, Bool.or_true, Bool.false_eq_true, if_false]
  split
  next q hq => rw [Option.some.inj (hPort.symm.trans hq)]; rfl
  next hq => exact nomatch hPort.symm.trans hq

/-- A port in no campus mode that is not on its spare is lit by the laser of its place. -/
theorem Dev.laserPort_own {d : Dev} {p : Nat} (hSpare : d.onSpare p = false)
    (hBand : isCampus (d.port p).mode = false) : d.laserPort (p / 32) (p % 32) = some p := by
  have own : d.laserIx p = p % 32 := by
    simp [Dev.laserIx, hSpare, ownLaser, hBand, placeOf]
  have home : laserHome (p / 32) (p % 32) = some p := by
    have low : p % 32 < 32 := Nat.mod_lt _ (by decide)
    rw [laserHome, if_pos low, Nat.div_add_mod]
  simp [Dev.laserPort, Nat.mod_lt, home, own, Option.filter]

/-- A driver's fault at a port's own laser. -/
theorem exec_laserReading10us_own {s : State} {p : Port} {d : Dev} (v : BitVec 16) (ha : s.d.awake = true)
    (hServes : s.d.serving = true) (hSpare : s.d.onSpare p.val = false)
    (hBand : isCampus (s.d.port p.val).mode = false) (hLit : (s.d.laser (p.val / 32) (p.val % 32)).lit = true)
    (h : (s.d.noted10us (engOf p.val) (p.val % 32) v).laserFails (engOf p.val) (p.val % 32) p.val = d) :
    exec (.laserReading10us ⟨p.val / 32, by omega⟩ ⟨p.val % 32, by omega⟩ v true) s = .next (s.put d) :=
  h ▸ exec_laserReading10us_fails (e := ⟨p.val / 32, by omega⟩) (l := ⟨p.val % 32, by omega⟩) v ha hServes hLit
    (Dev.laserPort_own hSpare hBand)

/-! ### A laser that fails (R350) -/

/-- A laser that has failed is dark. -/
def Dev.burn (d : Dev) (e i : Nat) : Dev := d.setLaser e i { d.laser e i with lit := false, failed := true }

def Dev.mute (d : Dev) (p : Nat) : Dev := d.setPort p { d.port p with muted := true }

/-- A port in DETECT takes its fiber's spare, if that is ready and no swap runs. -/
theorem Dev.laserFails_takes_spare {d : Dev} {e i p : Nat} (hi : i < 32) (hSt : (d.port p).st = .detect)
    (hSwap : d.swapOfPort p = none) (hReady : (d.spare e (spareOf p (d.port p).mode)).st = 0)
    (hIdle : d.swapIn e = none) :
    d.laserFails e i p = (((d.burn e i).startSwap p true).mute p).toDetect p := by
  have own : decide (32 ≤ i ∧ i < 37) = false := decide_eq_false (by omega)
  have st : ((d.burn e i).port p).st = .detect := hSt
  have noSwap : (d.burn e i).swapOfPort p = none := hSwap
  have ready : ((d.burn e i).spare e (spareOf p ((d.burn e i).port p).mode)).st = 0 := hReady
  have idle : (d.burn e i).swapIn e = none := hIdle
  unfold Dev.laserFails
  simp only [own, Bool.false_eq_true, if_false]
  rw [← Dev.burn]
  simp [st, noSwap, ready, idle, Dev.mute]

/-- Without a ready spare it goes DOWN. -/
theorem Dev.laserFails_downs {d : Dev} {e i p : Nat} (hi : i < 32) (hSt : (d.port p).st = .detect)
    (hSwap : d.swapOfPort p = none) (hUsed : (d.spare e (spareOf p (d.port p).mode)).st ≠ 0) :
    d.laserFails e i p = (d.burn e i).goDown p 3 exitLaser false := by
  have own : decide (32 ≤ i ∧ i < 37) = false := decide_eq_false (by omega)
  have st : ((d.burn e i).port p).st = .detect := hSt
  have noSwap : (d.burn e i).swapOfPort p = none := hSwap
  have used : ((d.burn e i).spare e (spareOf p ((d.burn e i).port p).mode)).st ≠ 0 := hUsed
  unfold Dev.laserFails
  simp only [own, Bool.false_eq_true, if_false]
  rw [← Dev.burn]
  simp [st, noSwap, used]

theorem Dev.laser_burn (d : Dev) (e i : Nat) :
    (d.burn e i).laser e i = { d.laser e i with lit := false, failed := true } := d.laser_setLaser_same ..

/-! ### Into DETECT with a failed laser (R347, R360) -/

/-- `e` comes from `d` by work that leaves the swaps alone, and each laser that has failed and is dark. -/
structure Dev.KeepsDark (d e : Dev) : Prop where
  swaps : e.opt.swaps = d.opt.swaps
  laser : ∀ n i, (d.laser n i).lit = false → (d.laser n i).failed = true → e.laser n i = d.laser n i

theorem Dev.KeepsDark.trans {a b c : Dev} (h : a.KeepsDark b) (k : b.KeepsDark c) : a.KeepsDark c where
  swaps := k.swaps.trans h.swaps
  laser n i hLit hFailed := by
    have same := h.laser n i hLit hFailed
    rw [k.laser n i (by rw [same, hLit]) (by rw [same, hFailed]), same]

/-- Work at a port keeps all of the optics. -/
theorem Dev.AtPort.keepsDark {p : Nat} {d e : Dev} (h : d.AtPort p e) : d.KeepsDark e :=
  ⟨congrArg Opt.swaps h.opt, fun n i _ _ => Dev.laser_congr h.opt n i⟩

theorem Dev.keepsDark_ite {d e f : Dev} (c : Prop) [Decidable c] (he : d.KeepsDark e) (hf : d.KeepsDark f) :
    d.KeepsDark (if c then e else f) := by
  split
  · exact he
  · exact hf

theorem Dev.keepsDark_joinLoop (d : Dev) (p : Nat) : d.KeepsDark (d.joinLoop p) := ⟨rfl, fun _ _ _ _ => rfl⟩

theorem Dev.keepsDark_mapRings (d : Dev) (p : Nat) (f : RingSt → RingSt) : d.KeepsDark (d.mapRings p f) :=
  ⟨rfl, fun _ _ _ _ => rfl⟩

/-- A failed laser is never lit again (R347). -/
theorem Dev.keepsDark_lightPort (d : Dev) (p : Nat) (lit : Bool) : d.KeepsDark (d.lightPort p lit) where
  swaps := rfl
  laser n i hLit hFailed := by
    have stays : ∀ y : Laser, y.lit = false → y.failed = true → { y with lit := lit && !y.failed } = y := by
      rintro ⟨⟩ rfl rfl
      simp
    unfold Dev.lightPort Dev.laser at *
    by_cases same : n * 53 + i = engOf p * 53 + d.laserIx p
    · rw [same] at hLit hFailed ⊢
      exact (Tab.get_set_same ..).trans (stays _ hLit hFailed)
    · exact Tab.get_set_other _ _ _ _ same

/-- The way into DETECT lights no failed laser. -/
theorem Dev.keepsDark_toDetect (d : Dev) (p : Nat) : d.KeepsDark (d.toDetect p) := by
  have failed := (d.atPort_failRx p).keepsDark
  have set : ∀ (e : Dev) (x : PortSt), e.KeepsDark (e.setPort p x) := fun e x => (e.atPort_setPort p x).keepsDark
  have degraded : ∀ (e : Dev) (n m k : Nat), e.KeepsDark (e.degraded p n m k) := fun e n m k =>
    (e.atPort_degraded p p n m k).keepsDark
  have joins : ∀ (e : Dev) (x : PortSt) (lit : Bool), e.KeepsDark (((e.setPort p x).joinLoop p).lightPort p lit) :=
    fun e x lit => ((set e x).trans (Dev.keepsDark_joinLoop ..)).trans (Dev.keepsDark_lightPort ..)
  have sweeps : ∀ (e f : Dev) (c : Prop) [Decidable c] (g : RingSt → RingSt), e.KeepsDark f →
      e.KeepsDark (if c then f else f.mapRings p g) := fun e f c _ g h =>
    Dev.keepsDark_ite _ h (h.trans (Dev.keepsDark_mapRings ..))
  have checked : ∀ e : Dev, e.KeepsDark (e.checkFiber p) := fun e => (e.atPort_checkFiber p p).keepsDark
  unfold Dev.toDetect
  dsimp only
  refine failed.trans (Dev.keepsDark_ite _ ?_ (Dev.keepsDark_ite _ ?_ (Dev.keepsDark_ite _ ?_ ?_)))
  · exact ((Dev.keepsDark_lightPort ..).trans (set ..)).trans (Dev.keepsDark_mapRings ..)
  · exact ((Dev.atPort_setDown _ p 0).keepsDark).trans (degraded ..)
  · exact ((sweeps _ _ _ _ (joins ..)).trans (degraded ..)).trans (checked _)
  · exact sweeps _ _ _ _ (joins ..)

/-- A swap that starts leaves the lasers as they are. -/
theorem Dev.startSwap_laser (d : Dev) (p : Nat) (dead : Bool) (n i : Nat) :
    (d.startSwap p dead).laser n i = d.laser n i := by
  rw [Dev.laser, Dev.startSwap_opt]
  rfl

/-- The port whose laser fails in DETECT waits there for its spare, which warms up (R350). -/
theorem Dev.burn_startSwap_toDetect {d : Dev} {i p : Nat} (hRx : (d.port p).rx = none) (hMode : (d.port p).mode ≠ 0)
    (hHalf : (d.port p).badHalf ≠ 3) (hLoop : d.loop p = 0) :
    let t := (((d.burn (engOf p) i).startSwap p true).mute p).toDetect p
    (t.laser (engOf p) i).failed = true ∧ (t.laser (engOf p) i).lit = false ∧ (t.port p).st = .detect ∧
      (t.spare (engOf p) (spareOf p (d.port p).mode)).st = 1 ∧
      (t.swapIn (engOf p)).map (fun w => (w.port, w.dead)) = some (p, true) := by
  obtain ⟨hSwap, hSpare⟩ := (d.burn (engOf p) i).startSwap_starts p true
  obtain ⟨hPorts, -, -, -, hRegs⟩ := ((d.burn (engOf p) i).relit_startSwap p true).planes
  have burnt : ((d.burn (engOf p) i).startSwap p true).laser (engOf p) i =
      { d.laser (engOf p) i with lit := false, failed := true } :=
    (Dev.startSwap_laser ..).trans (d.laser_burn ..)
  generalize (d.burn (engOf p) i).startSwap p true = e at *
  have hPort : (e.mute p).port p = { d.port p with muted := true } :=
    (Dev.port_setPort_same ..).trans (by rw [Dev.port_congr hPorts]; rfl)
  have enters := Dev.quiet_toDetect (d := e.mute p) (p := p) (by rw [hPort]; exact hRx) (by rw [hPort]; exact hMode)
    (by rw [hPort]; exact hHalf) ((Dev.loop_congr hRegs p).trans hLoop) []
  have dark := (e.mute p).keepsDark_toDetect p
  have same : ((e.mute p).toDetect p).laser (engOf p) i = { d.laser (engOf p) i with lit := false, failed := true } :=
    (dark.laser _ _ (congrArg Laser.lit burnt) (congrArg Laser.failed burnt)).trans burnt
  refine ⟨congrArg Laser.failed same, congrArg Laser.lit same, ?_, ?_, ?_⟩
  · rw [enters.port, Dev.port_setPort_same]
    rfl
  · exact congrArg Spare.st ((Dev.spare_congr enters.spares ..).trans hSpare)
  · have found : ((e.mute p).toDetect p).swapIn (engOf p) = e.swapIn (engOf p) :=
      congrArg (Tab.find · (engOf p)) dark.swaps
    rw [found, hSwap]
    rfl

/-! ### OPT_LASER_REF (R341, R355; the numbers of lasers are log entry 44's) -/

/-- OPT_LASER_REF of a laser that the engine has writes its commissioning value. -/
theorem exec_optLaserRef_writes {s : State} {c : CmdCtx} {e l : Byte} {v : BitVec 16}
    (h : s.d.Runs (.optLaserRef c e l (some v)) c 0x0305 .operator) (he : e.toNat < 16) (hl : l.toNat < 37)
    (hBand : l.toNat = 36 → e.toNat = 0 ∨ e.toNat = 15) : exec (.optLaserRef c e l (some v)) s =
      .next (s.put (((s.d.touch c).setLaser e.toNat (s.d.refIx e.toNat l.toNat)
        { s.d.laser e.toNat (s.d.refIx e.toNat l.toNat) with ref := v, hasRef := true, fresh := false }).reply c
          0x0305 .ok (.fields [v.toNat, 0]))) := by
  have fits : (decide (16 ≤ e.toNat) || decide (36 < l.toNat) ||
      (decide (l.toNat = 36) && e.toNat != 0 && e.toNat != 15)) = false := by
    simp only [Bool.or_eq_false_iff, Bool.and_eq_false_iff, decide_eq_false_iff_not, bne_eq_false_iff_eq]
    omega
  refine goto_runCmd_answers h ?_
  simp only [fits, Bool.false_eq_true, if_false]
  rfl

theorem Dev.refIx_of_plain {d : Dev} {e i : Nat} (h : 32 ≤ i ∨ isCampus (d.port (32 * e + i)).mode = false) :
    d.refIx e i = i := by
  unfold Dev.refIx
  split
  next hLow =>
    have plain : isCampus (d.port (32 * e + i)).mode = false := h.resolve_left (Nat.not_le.mpr hLow)
    rw [ownLaser, plain]
    exact (Nat.mul_add_mod ..).trans (Nat.mod_eq_of_lt hLow)
  next => rfl

theorem Dev.refIx_of_campus {d : Dev} {e i : Nat} (hi : i < 32) (h : isCampus (d.port (32 * e + i)).mode = true) :
    d.refIx e i = 37 + i % 16 := by
  rw [Dev.refIx, if_pos hi, ownLaser, if_pos h]
  omega

end Sys2Proof.Machine

open Sys2Proof Sys2Proof.Machine

/-- Settles O43: each window, reading and failure by the device that it leads to. -/
theorem ringsAndLasers : Obligations.RingsAndLasers := by
  refine ⟨toneHits_iff, fun s p r w ha hLock hPassed hFirst => ?_,
    fun s p r w ha hLock hPassed hLast hFew hMiss => ?_, fun s p r w ha hLock hPassed hLast hOne hFails hHit => ?_,
    fun s p r w ha hLock hHit => exec_toneWindow_hits ha hLock hHit,
    fun s p r w ha hLock hFirst hMiss hLight => ?_, fun s p w ha hLock hOne hFails hMiss hLight hSt => ?_,
    fun s p r ha hLock hBetween hFails => ?_, fun s p r ha hLock hBetween hFails hSt hSwap => ?_,
    fun s p r ha hLock => exec_lockFailureClearTimer_clears ha hLock,
    fun s p r m ha hLock => exec_heaterLoopUpdate_moves m ha hLock,
    fun s e l v ha hServes hLit hRef hN => ?_, fun w k v h => WinAvg.add_whole h v,
    fun s e l v ha hServes hLit hRef hN => ?_,
    fun s e l v p ha hServes hLit hRef hLevel hOwed hPort => ?_,
    fun s p v ha hServes hSpare hBand hLit hSt hRx hCan hMode hHalf hLoop => ?_,
    fun s p v ha hServes hSpare hBand hLit hSt hSwap hUsed => ?_,
    fun s p v ha hServes hSpare hBand hLit hRef => ?_, fun s c e l v h he hl hBand => ?_,
    fun d e i h _ _ => Dev.refIx_of_plain h, fun d e i hi h => Dev.refIx_of_campus hi h⟩
  · rw [exec_toneWindow_dwells w ha hLock, Dev.dwell_first hPassed hFirst]
  · have few : (s.d.ring p.val r).matches_ + (toneHits w ((s.d.port p.val).chan p.val)).toNat ≠ 2 := by
      obtain h | h := hMiss
      · have := Bool.toNat_le (toneHits w ((s.d.port p.val).chan p.val))
        omega
      · rw [h, Bool.toNat_false]
        omega
    rw [exec_toneWindow_dwells w ha hLock, Dev.dwell_passes hPassed hLast few]
  · have at_ := Dev.atPort_acceptLock hFails
    refine ⟨s.put (s.d.acceptLock p.val r), ?_, ?_, fun k hk => ?_, Dev.acceptLock_st hFails,
      fun hr hLit => ?_, Dev.acceptLock_trains hFails, at_.other, at_.fwd, Dev.acceptLock_out hFails⟩
    · rw [exec_toneWindow_dwells w ha hLock, hHit, Dev.dwell_accepts hPassed hLast hOne]
    · exact (at_.ring ..).trans (Dev.ring_lockRing_same ..)
    · exact (at_.ring ..).trans (Dev.ring_lockRing_other _ _ hk)
    · subst hr
      exact Dev.acceptLock_muted hFails hLit
  · rw [exec_toneWindow_misses ha hLock hMiss hLight, hFirst]
    rfl
  · obtain ⟨hSweep, hCount, hPorts, -, hCtrs, hOther⟩ :=
      Dev.resweep_lockFail (d := s.d.bump (ctrLight p.val 0)) hFails .sweep true
    refine ⟨_, exec_toneWindow_misses ha hLock hMiss (.inr hLight), ?_⟩
    rw [hOne, if_neg (by decide), Dev.wrongLock_rx hFails hSt]
    exact ⟨hSweep, hCount, (Dev.ctr_congr hCtrs _).trans (Dev.ctr_bump_same ..), hPorts, hOther .tx (by decide)⟩
  · obtain ⟨hSweep, hCount, hPorts, hFwd, -, -⟩ :=
      Dev.resweep_lockFail (d := s.d) hFails .sweep (decide (r = .rx))
    exact ⟨_, exec_sweepEndNoLock_fails ha hLock hBetween, hSweep, hCount, hPorts, hFwd⟩
  · refine ⟨_, exec_sweepEndNoLock_fails ha hLock hBetween, ?_⟩
    exact Dev.lockFail_third (d := s.d.resweep p.val r .sweep) ((Dev.ring_resweep ..).2.trans hFails) hSt hSwap _
  · have noted := s.d.laser_noted1ms e.val l.val v
    have few : ((s.d.noted1ms e.val l.val v).laser e.val l.val).refN < 99 := by rw [noted]; exact hN
    refine ⟨_, exec_laserReading1ms_notes v ha hServes hLit, ?_⟩
    rw [Dev.reading1ms_first hRef, Dev.firstReading_sums few, noted]
    exact ⟨rfl, Dev.laser_setLaser_same .., fun i hi =>
      (Dev.laser_setLaser_other _ _ _ hi).trans (Dev.laser_setLaser_other _ _ _ hi)⟩
  · have noted := s.d.laser_noted1ms e.val l.val v
    have last : ((s.d.noted1ms e.val l.val v).laser e.val l.val).refN = 99 := by rw [noted]; exact hN
    refine ⟨_, exec_laserReading1ms_notes v ha hServes hLit, ?_⟩
    rw [Dev.reading1ms_first hRef, Dev.firstReading_commissions last, noted, State.put_d,
      Dev.laser_congr (Dev.event_opt ..), Dev.laser_setLaser_same]
    exact ⟨rfl, rfl, rfl, Dev.event_ports .., Dev.event_fwd ..⟩
  · intro fade hWarn hAlone hConfirmed
    have noted := s.d.laser_noted1ms e.val l.val v
    refine ⟨_, exec_laserReading1ms_notes v ha hServes hLit, ?_⟩
    have warns := Dev.reading1ms_warns (d := s.d.noted1ms e.val l.val v) (e := e.val) (i := l.val) (p := p) (v := v)
    rw [noted] at warns
    exact warns hRef hLevel hOwed hPort hWarn hAlone hConfirmed
  · simp only [Dev.canSwap, Bool.and_eq_true, beq_iff_eq, Option.isNone_iff_eq_none] at hCan
    have noSwap : s.d.swapOfPort p.val = none := by rw [Dev.swapOfPort, hCan.2]
    have fails := Dev.laserFails_takes_spare (d := s.d.noted10us (engOf p.val) (p.val % 32) v)
      (Nat.mod_lt p.val (by decide)) hSt noSwap hCan.1 hCan.2
    obtain ⟨hFailed, hDark, hStays, hWarm, hIn⟩ := Dev.burn_startSwap_toDetect (p := p.val) (i := p.val % 32)
      (d := s.d.noted10us (engOf p.val) (p.val % 32) v) hRx hMode hHalf hLoop
    refine ⟨_, exec_laserReading10us_own v ha hServes hSpare hBand hLit fails, ?_⟩
    rw [State.put_d]
    exact ⟨hFailed, hDark, hStays, hWarm, hIn⟩
  · have fails := Dev.laserFails_downs (d := s.d.noted10us (engOf p.val) (p.val % 32) v)
      (Nat.mod_lt p.val (by decide)) hSt hSwap hUsed
    obtain ⟨hDown, hReason, hAt⟩ := Dev.goDown_effect (p := p.val)
      (d := (s.d.noted10us (engOf p.val) (p.val % 32) v).burn (engOf p.val) (p.val % 32)) hSt 3 exitLaser false
    have burnt := (Dev.laser_congr hAt.opt (engOf p.val) (p.val % 32)).trans (Dev.laser_burn ..)
    exact ⟨_, exec_laserReading10us_own v ha hServes hSpare hBand hLit fails, congrArg Laser.failed burnt, hDown,
      hReason⟩
  · exact ⟨_, exec_laserReading10us_notes v ha hServes hLit hRef, rfl, Dev.laser_noted10us hRef v⟩
  · refine ⟨_, exec_optLaserRef_writes h he hl hBand, ?_, Dev.reply_ports ..⟩
    exact (Dev.laser_congr (Dev.reply_opt ..) ..).trans (Dev.laser_setLaser_same ..)
end

section
/-! PROOF. What a core clock leaves (R30, R431): of each operation that the clock reaches, that it leaves the count of core
clocks and the fuses as they were, and with them the clock itself. -/

namespace Sys2Proof.Machine

/-! ### Branches and folds -/

@[simp] theorem ite_now (c : Prop) [Decidable c] (a b : Dev) : (if c then a else b).now = if c then a.now else b.now :=
  apply_ite Dev.now c a b
@[simp] theorem ite_fuses (c : Prop) [Decidable c] (a b : Dev) :
    (if c then a else b).fuses = if c then a.fuses else b.fuses := apply_ite Dev.fuses c a b

@[simp] theorem ite_fst_now {α : Type} (c : Prop) [Decidable c] (a b : Dev × α) :
    (if c then a else b).1.now = if c then a.1.now else b.1.now := apply_ite (fun x : Dev × α => x.1.now) c a b
@[simp] theorem ite_fst_fuses {α : Type} (c : Prop) [Decidable c] (a b : Dev × α) :
    (if c then a else b).1.fuses = if c then a.1.fuses else b.1.fuses :=
  apply_ite (fun x : Dev × α => x.1.fuses) c a b

@[simp] theorem foldl_now {α : Type} (l : List α) (d : Dev) {g : Dev → α → Dev} (h : ∀ d a, (g d a).now = d.now) :
    (l.foldl g d).now = d.now := foldl_keeps Dev.now h l d
@[simp] theorem foldl_fuses {α : Type} (l : List α) (d : Dev) {g : Dev → α → Dev}
    (h : ∀ d a, (g d a).fuses = d.fuses) : (l.foldl g d).fuses = d.fuses := foldl_keeps Dev.fuses h l d

@[simp] theorem foldl_fst_now {α β : Type} (l : List α) (x : Dev × β) {g : Dev × β → α → Dev × β}
    (h : ∀ x a, (g x a).1.now = x.1.now) : (l.foldl g x).1.now = x.1.now :=
  foldl_keeps (fun y : Dev × β => y.1.now) h l x
@[simp] theorem foldl_fst_fuses {α β : Type} (l : List α) (x : Dev × β) {g : Dev × β → α → Dev × β}
    (h : ∀ x a, (g x a).1.fuses = x.1.fuses) : (l.foldl g x).1.fuses = x.1.fuses :=
  foldl_keeps (fun y : Dev × β => y.1.fuses) h l x

theorem now_fuses_ite {α : Type} {d : Dev} (c : Prop) [Decidable c] {a b : Dev × α}
    (ha : a.1.now = d.now ∧ a.1.fuses = d.fuses) (hb : b.1.now = d.now ∧ b.1.fuses = d.fuses) :
    (if c then a else b).1.now = d.now ∧ (if c then a else b).1.fuses = d.fuses := by
  split
  · exact ha
  · exact hb

section
variable (d : Dev)

/-! ### Time, counters and corrections -/

@[simp] theorem Dev.markReady_now_fuses : d.markReady.now = d.now ∧ d.markReady.fuses = d.fuses := ⟨rfl, rfl⟩
@[simp] theorem Dev.drawBit_now_fuses : d.drawBit.2.now = d.now ∧ d.drawBit.2.fuses = d.fuses := ⟨rfl, rfl⟩
@[simp] theorem Dev.setTime_now_fuses (t : TimeBase) :
    (d.setTime t).now = d.now ∧ (d.setTime t).fuses = d.fuses := ⟨rfl, rfl⟩
@[simp] theorem Dev.carry_now_fuses (ns frac : Nat) :
    (d.carry ns frac).now = d.now ∧ (d.carry ns frac).fuses = d.fuses := ⟨rfl, rfl⟩
@[simp] theorem Dev.timeEdge_now_fuses : d.timeEdge.now = d.now ∧ d.timeEdge.fuses = d.fuses := by
  unfold Dev.timeEdge
  split
  · simp
  · split <;> simp

@[simp] theorem Dev.countWait_now_fuses (cid : Nat) (c : Ctx) :
    (d.countWait cid c).now = d.now ∧ (d.countWait cid c).fuses = d.fuses := by simp [Dev.countWait]
@[simp] theorem Dev.checkPattern_now_fuses (p : Nat) :
    (d.checkPattern p).now = d.now ∧ (d.checkPattern p).fuses = d.fuses := by simp [Dev.checkPattern]
@[simp] theorem Dev.checkPatterns_now_fuses :
    d.checkPatterns.now = d.now ∧ d.checkPatterns.fuses = d.fuses := by simp [Dev.checkPatterns]
@[simp] theorem Dev.countCorrected_now_fuses :
    d.countCorrected.now = d.now ∧ d.countCorrected.fuses = d.fuses := by
  unfold Dev.countCorrected
  dsimp only
  rw [foldl_now _ _ fun d m => by simp, foldl_fuses _ _ fun d m => by simp]
  simp only [ite_now, ite_fuses, Dev.bumpBy_now, Dev.bumpBy_fuses, ite_self]
  exact ⟨foldl_now _ _ fun _ _ => rfl, foldl_fuses _ _ fun _ _ => rfl⟩

/-! ### Faults and swaps -/

@[simp] theorem Dev.recordFault_now_fuses (cls unit_ index sub action left detail : Nat) :
    (d.recordFault cls unit_ index sub action left detail).now = d.now ∧
      (d.recordFault cls unit_ index sub action left detail).fuses = d.fuses := by simp [Dev.recordFault]
@[simp] theorem Dev.crossFloor_now_fuses (floor value unit_ index : Nat) :
    (d.crossFloor floor value unit_ index).now = d.now ∧
      (d.crossFloor floor value unit_ index).fuses = d.fuses := by simp [Dev.crossFloor]
@[simp] theorem Dev.checkStore_now_fuses (b : Nat) :
    (d.checkStore b).now = d.now ∧ (d.checkStore b).fuses = d.fuses := by simp [Dev.checkStore]
@[simp] theorem Dev.takeBankSpare_now_fuses (die : Nat) :
    (d.takeBankSpare die).now = d.now ∧ (d.takeBankSpare die).fuses = d.fuses := by simp [Dev.takeBankSpare]
@[simp] theorem Dev.mapSpare_now_fuses (b : Nat) :
    (d.mapSpare b).now = d.now ∧ (d.mapSpare b).fuses = d.fuses := by simp [Dev.mapSpare]
@[simp] theorem Dev.replaceBank_now_fuses (b : Nat) :
    (d.replaceBank b).now = d.now ∧ (d.replaceBank b).fuses = d.fuses := by simp [Dev.replaceBank]
@[simp] theorem Dev.swapBank_now_fuses (b : Nat) (limit : Bool) :
    (d.swapBank b limit).now = d.now ∧ (d.swapBank b limit).fuses = d.fuses := by simp [Dev.swapBank]
@[simp] theorem Dev.setExpander_now_fuses (e : Nat) (x : Expander) :
    (d.setExpander e x).now = d.now ∧ (d.setExpander e x).fuses = d.fuses := by
  unfold Dev.setExpander
  split <;> simp

@[simp] theorem Dev.setRole_now_fuses (e r : Nat) :
    (d.setRole e r).now = d.now ∧ (d.setRole e r).fuses = d.fuses := by simp [Dev.setRole]
@[simp] theorem Dev.startExpCopy_now_fuses (e f : Nat) :
    (d.startExpCopy e f).now = d.now ∧ (d.startExpCopy e f).fuses = d.fuses := by simp [Dev.startExpCopy]
@[simp] theorem Dev.swapExpander_now_fuses (e : Nat) (limit : Bool) :
    (d.swapExpander e limit).now = d.now ∧ (d.swapExpander e limit).fuses = d.fuses := by
  unfold Dev.swapExpander
  split <;> simp

@[simp] theorem Dev.finishFor_now_fuses (w : HeldFor) (st : Status) (r : Res) :
    (d.finishFor w st r).now = d.now ∧ (d.finishFor w st r).fuses = d.fuses := by simp [Dev.finishFor]
@[simp] theorem Dev.setSpareCore_now_fuses (n v : Nat) :
    (d.setSpareCore n v).now = d.now ∧ (d.setSpareCore n v).fuses = d.fuses := ⟨rfl, rfl⟩
@[simp] theorem Dev.setCorePos_now_fuses (n : Nat) (x : CorePos) :
    (d.setCorePos n x).now = d.now ∧ (d.setCorePos n x).fuses = d.fuses := ⟨rfl, rfl⟩
@[simp] theorem Dev.fillPosition_now_fuses (n : Nat) :
    (d.fillPosition n).now = d.now ∧ (d.fillPosition n).fuses = d.fuses := by simp [Dev.fillPosition]
@[simp] theorem Dev.checkCores_now_fuses (n : Nat) :
    (d.checkCores n).now = d.now ∧ (d.checkCores n).fuses = d.fuses := by simp [Dev.checkCores]
@[simp] theorem Dev.closeCluster_now_fuses (k : Nat) :
    (d.closeCluster k).now = d.now ∧ (d.closeCluster k).fuses = d.fuses := by simp [Dev.closeCluster]
@[simp] theorem Dev.emptyPosition_now_fuses (n : Nat) :
    (d.emptyPosition n).now = d.now ∧ (d.emptyPosition n).fuses = d.fuses := by simp [Dev.emptyPosition]
@[simp] theorem Dev.swapCore_now_fuses (n : Nat) :
    (d.swapCore n).now = d.now ∧ (d.swapCore n).fuses = d.fuses := by simp [Dev.swapCore]
@[simp] theorem Dev.serveFailure_now_fuses (f : Failure) :
    (d.serveFailure f).now = d.now ∧ (d.serveFailure f).fuses = d.fuses := by simp [Dev.serveFailure]
@[simp] theorem Dev.nextSwaps_now_fuses (n : Nat) (d : Dev) :
    (Dev.nextSwaps n d).now = d.now ∧ (Dev.nextSwaps n d).fuses = d.fuses := by
  induction n generalizing d with
  | zero => exact ⟨rfl, rfl⟩
  | succ n ih =>
    unfold Dev.nextSwaps
    split
    · exact ⟨rfl, rfl⟩
    · split <;> simp [ih]

@[simp] theorem Dev.serveFailures_now_fuses :
    d.serveFailures.now = d.now ∧ d.serveFailures.fuses = d.fuses := by simp [Dev.serveFailures]
/-! ### Samples and lines -/

@[simp] theorem Dev.gleanTake_now_fuses (sampler : Nat) :
    (d.gleanTake sampler).now = d.now ∧ (d.gleanTake sampler).fuses = d.fuses := by
  unfold Dev.gleanTake
  split <;> simp

@[simp] theorem Dev.gleanDrain_now_fuses :
    d.gleanDrain.now = d.now ∧ d.gleanDrain.fuses = d.fuses := by simp [Dev.gleanDrain]
@[simp] theorem Dev.setSending_now_fuses (l : Nat) (x : List Sending) :
    (d.setSending l x).now = d.now ∧ (d.setSending l x).fuses = d.fuses := ⟨rfl, rfl⟩
@[simp] theorem Dev.drainLine_now_fuses (l : Nat) :
    (d.drainLine l).now = d.now ∧ (d.drainLine l).fuses = d.fuses := by
  unfold Dev.drainLine
  split <;> simp

/-! ### Reads of cells -/

@[simp] theorem Dev.lostInRow_now_fuses (array index : Nat) :
    (d.lostInRow array index).now = d.now ∧ (d.lostInRow array index).fuses = d.fuses := by simp [Dev.lostInRow]
@[simp] theorem Dev.readRecord_now_fuses (array index : Nat) :
    (d.readRecord array index).1.now = d.now ∧ (d.readRecord array index).1.fuses = d.fuses := by
  unfold Dev.readRecord
  split <;> simp

@[simp] theorem Dev.readRecords_now_fuses (fid : Nat) :
    (d.readRecords fid).1.now = d.now ∧ (d.readRecords fid).1.fuses = d.fuses := by simp [Dev.readRecords]
@[simp] theorem Dev.lostInBank_now_fuses (bank : Nat) :
    (d.lostInBank bank).now = d.now ∧ (d.lostInBank bank).fuses = d.fuses := by simp [Dev.lostInBank]
@[simp] theorem Dev.bankCorrected_now_fuses (bank : Nat) :
    (d.bankCorrected bank).now = d.now ∧ (d.bankCorrected bank).fuses = d.fuses := by simp [Dev.bankCorrected]
@[simp] theorem Dev.readCell_now_fuses (cell : Nat) :
    (d.readCell cell).1.now = d.now ∧ (d.readCell cell).1.fuses = d.fuses := by
  unfold Dev.readCell
  split <;> simp

@[simp] theorem Dev.readList_now_fuses (l : List Nat) :
    (d.readList l).1.now = d.now ∧ (d.readList l).1.fuses = d.fuses := by
  induction l generalizing d with
  | nil => exact ⟨rfl, rfl⟩
  | cons c r ih => simp [Dev.readList, ih]

@[simp] theorem Dev.readCells_now_fuses (fid i n : Nat) :
    (d.readCells fid i n).1.now = d.now ∧ (d.readCells fid i n).1.fuses = d.fuses := by
  unfold Dev.readCells
  split <;> simp

/-! ### Copies that end -/

@[simp] theorem Dev.dmaSend_now_fuses (a : Nat) (bytes : List Byte) :
    (d.dmaSend a bytes).now = d.now ∧ (d.dmaSend a bytes).fuses = d.fuses := by simp [Dev.dmaSend]
@[simp] theorem Dev.writeBack_now_fuses (r pos : Nat) (bytes : List Byte) :
    (d.writeBack r pos bytes).now = d.now ∧ (d.writeBack r pos bytes).fuses = d.fuses := by simp [Dev.writeBack]
@[simp] theorem Dev.writeBackOf_now_fuses (f : Frame) :
    (d.writeBackOf f).now = d.now ∧ (d.writeBackOf f).fuses = d.fuses := by
  unfold Dev.writeBackOf
  split
  · simp
  · split <;> simp

@[simp] theorem Dev.release_now_fuses (fid : Nat) :
    (d.release fid).now = d.now ∧ (d.release fid).fuses = d.fuses := by
  unfold Dev.release
  split
  · simp
  · split <;> simp

@[simp] theorem Dev.gleanAdd_now_fuses (sampler : Nat) (b : GleanBody) :
    (d.gleanAdd sampler b).now = d.now ∧ (d.gleanAdd sampler b).fuses = d.fuses := by
  unfold Dev.gleanAdd
  split
  · simp
  · split <;> simp

@[simp] theorem Dev.gleanFrame_now_fuses (fid : Nat) (c : Copy) (outcome : Nat) (cut ce : Bool) :
    (d.gleanFrame fid c outcome cut ce).now = d.now ∧ (d.gleanFrame fid c outcome cut ce).fuses = d.fuses := by
  unfold Dev.gleanFrame
  split
  · split <;> simp
  · simp

@[simp] theorem Dev.dropCopies_now_fuses (l : List Copy) (outcome : Nat) :
    (d.dropCopies l outcome).now = d.now ∧ (d.dropCopies l outcome).fuses = d.fuses := by simp [Dev.dropCopies]
@[simp] theorem Dev.dropUncorr_now_fuses (c : Copy) :
    (d.dropUncorr c).now = d.now ∧ (d.dropUncorr c).fuses = d.fuses := by simp [Dev.dropUncorr]
@[simp] theorem Dev.beginCopy_now_fuses (l : Nat) (x : Sending) :
    (d.beginCopy l x).1.now = d.now ∧ (d.beginCopy l x).1.fuses = d.fuses := by simp [Dev.beginCopy]
@[simp] theorem Dev.readOn_now_fuses (x : Sending) (n : Nat) :
    (d.readOn x n).1.now = d.now ∧ (d.readOn x n).1.fuses = d.fuses := by simp [Dev.readOn]
/-! ### The scheduler (R106) -/

/-- A slot that comes to a requester leaves the count of core clocks and the fuses. -/
def SlotTry.Stands (d : Dev) : SlotTry → Prop
  | .moved e _ => e.now = d.now ∧ e.fuses = d.fuses
  | _ => True

theorem Dev.tryRead_stands (used : List Nat) (l : Nat) : (d.tryRead used l).Stands d := by
  unfold Dev.tryRead
  split
  · trivial
  · dsimp only
    split_ifs <;> simp [SlotTry.Stands]

theorem Dev.tryFetch_stands (used : List Nat) (t : Dest) : (d.tryFetch used t).Stands d := by
  unfold Dev.tryFetch
  split
  · trivial
  · dsimp only
    split_ifs <;> simp [SlotTry.Stands]

theorem Dev.tryReader_stands (used : List Nat) (k : Nat) : (d.tryReader used k).Stands d := by
  unfold Dev.tryReader
  split
  · exact d.tryFetch_stands ..
  · exact d.tryRead_stands ..

theorem Dev.tryWrite_stands (used : List Nat) (k : Nat) : (d.tryWrite used k).Stands d := by
  unfold Dev.tryWrite
  split
  · trivial
  · dsimp only
    split <;> simp [SlotTry.Stands]

theorem Grants.offer_now_fuses {try_ : Dev → List Nat → Nat → SlotTry} (h : ∀ d used k, (try_ d used k).Stands d)
    (g : Grants) (k : Nat) : (g.offer try_ k).d.now = g.d.now ∧ (g.offer try_ k).d.fuses = g.d.fuses := by
  have tried := h g.d g.used k
  unfold Grants.offer
  split
  · exact ⟨rfl, rfl⟩
  · generalize try_ g.d g.used k = x at tried ⊢
    cases x with
    | moved e banks => exact tried
    | _ => exact ⟨rfl, rfl⟩

theorem Grants.rounds_now_fuses {try_ : Dev → List Nat → Nat → SlotTry} (h : ∀ d used k, (try_ d used k).Stands d)
    (who : List Nat) (n : Nat) (first : List Nat) (g : Grants) :
    (Grants.rounds try_ who n first g).d.now = g.d.now ∧ (Grants.rounds try_ who n first g).d.fuses = g.d.fuses := by
  have now := foldl_keeps (fun g : Grants => g.d.now) fun g k => (Grants.offer_now_fuses h g k).1
  have fuses := foldl_keeps (fun g : Grants => g.d.fuses) fun g k => (Grants.offer_now_fuses h g k).2
  induction n generalizing first g with
  | zero => exact ⟨rfl, rfl⟩
  | succ n ih => exact ⟨(ih _ _).1.trans (now ..), (ih _ _).2.trans (fuses ..)⟩

@[simp] theorem Dev.schedule_now_fuses : d.schedule.now = d.now ∧ d.schedule.fuses = d.fuses := by
  have write := Grants.rounds_now_fuses Dev.tryWrite_stands
  have reduce := Grants.rounds_now_fuses (try_ := Dev.tryCluster) fun d used k => d.tryFetch_stands used _
  have read := Grants.rounds_now_fuses Dev.tryReader_stands
  unfold Dev.schedule
  dsimp only
  rw [(write ..).1, (write ..).2]
  dsimp only
  rw [(reduce ..).1, (reduce ..).2]
  dsimp only
  rw [(read ..).1, (read ..).2]
  simp

/-! ### Events -/

@[simp] theorem Dev.faultSent_now_fuses (e : Ev) : (d.faultSent e).now = d.now ∧ (d.faultSent e).fuses = d.fuses := by
  unfold Dev.faultSent
  split <;> simp

@[simp] theorem Dev.deliverEvent_now_fuses (s : Source) :
    (d.deliverEvent s).now = d.now ∧ (d.deliverEvent s).fuses = d.fuses := by
  unfold Dev.deliverEvent
  dsimp only
  split
  · exact ⟨rfl, rfl⟩
  · split
    · cases s <;> simp
    · exact ⟨rfl, rfl⟩

@[simp] theorem Dev.pevTick_now_fuses : d.pevTick.now = d.now ∧ d.pevTick.fuses = d.fuses := ⟨rfl, rfl⟩
/-! ### Thresh at work -/

@[simp] theorem Dev.unpark_now_fuses (p : Parked) :
    (d.unpark p).now = d.now ∧ (d.unpark p).fuses = d.fuses := ⟨rfl, rfl⟩
@[simp] theorem Dev.setParked_now_fuses (p : Parked) :
    (d.setParked p).now = d.now ∧ (d.setParked p).fuses = d.fuses := ⟨rfl, rfl⟩
@[simp] theorem Dev.prefetchOne_now_fuses (p : Parked) :
    (d.prefetchOne p).now = d.now ∧ (d.prefetchOne p).fuses = d.fuses := by
  unfold Dev.prefetchOne
  dsimp only
  split
  · simp
  · split
    · simp
    · split <;> simp

@[simp] theorem Dev.prefetch_now_fuses : d.prefetch.now = d.now ∧ d.prefetch.fuses = d.fuses := by simp [Dev.prefetch]
@[simp] theorem Dev.dropShards_now_fuses : d.dropShards.now = d.now ∧ d.dropShards.fuses = d.fuses := ⟨rfl, rfl⟩
@[simp] theorem Dev.setJob_now_fuses (j : Nat) (x : ThrJob) :
    (d.setJob j x).now = d.now ∧ (d.setJob j x).fuses = d.fuses := ⟨rfl, rfl⟩
@[simp] theorem Dev.modShard_now_fuses (n : Nat) (f : ThrShard → ThrShard) :
    (d.modShard n f).now = d.now ∧ (d.modShard n f).fuses = d.fuses := ⟨rfl, rfl⟩
/-! ### Board memory -/

@[simp] theorem Dev.waitWrite_now_fuses (w : WaitWrite) :
    (d.waitWrite w).now = d.now ∧ (d.waitWrite w).fuses = d.fuses := ⟨rfl, rfl⟩
@[simp] theorem Dev.devWrite_now_fuses (a : Nat) (b : List Byte) :
    (d.devWrite a b).now = d.now ∧ (d.devWrite a b).fuses = d.fuses := by
  obtain ⟨_, _, h⟩ := d.devWrite_shape a b
  rw [h]
  exact ⟨rfl, rfl⟩

@[simp] theorem Dev.setMapEnt_now_fuses (s : ThrShard) (j : Nat) (m : MapEnt) :
    (d.setMapEnt s j m).now = d.now ∧ (d.setMapEnt s j m).fuses = d.fuses := by simp [Dev.setMapEnt]
@[simp] theorem Dev.stampSlot_now_fuses (n : Nat) (s : ThrShard) (j : Nat) (m : MapEnt) :
    (d.stampSlot n s j m).now = d.now ∧ (d.stampSlot n s j m).fuses = d.fuses := by simp [Dev.stampSlot]
@[simp] theorem Dev.loseUpdates_now_fuses (j : Nat) (x : ThrJob) (q : Word) :
    (d.loseUpdates j x q).now = d.now ∧ (d.loseUpdates j x q).fuses = d.fuses := by simp [Dev.loseUpdates]
@[simp] theorem Dev.phaseDone_now_fuses (j : Nat) :
    (d.phaseDone j).now = d.now ∧ (d.phaseDone j).fuses = d.fuses := by
  unfold Dev.phaseDone
  split
  · simp
  · split <;> simp

/-! ### The lookup (R69 to R82) -/

@[simp] theorem Dev.tableEcc_now_fuses (k : Nat) (t : TableId) (ix : Nat) :
    (d.tableEcc k t ix).now = d.now ∧ (d.tableEcc k t ix).fuses = d.fuses := by simp [Dev.tableEcc]
@[simp] theorem Dev.tableRead_now_fuses (k : Nat) (num : Bool) (t : TableId) (ix : Nat) :
    (d.tableRead k num t ix).1.now = d.now ∧ (d.tableRead k num t ix).1.fuses = d.fuses := by
  unfold Dev.tableRead
  split <;> simp

@[simp] theorem Dev.partView_now_fuses (k : Nat) (b : Bank) (part : Nat) :
    (d.partView k b part).1.now = d.now ∧ (d.partView k b part).1.fuses = d.fuses := by simp [Dev.partView]
@[simp] theorem Dev.emLookup_now_fuses (k : Nat) (b : Bank) (key : BitVec 48) :
    (d.emLookup k b key).1.now = d.now ∧ (d.emLookup k b key).1.fuses = d.fuses := by
  unfold Dev.emLookup
  split <;> simp

@[simp] theorem Dev.routeLookup_now_fuses (k : Nat) (b : Bank) (leaf : Nat) :
    (d.routeLookup k b leaf).1.now = d.now ∧ (d.routeLookup k b leaf).1.fuses = d.fuses := by simp [Dev.routeLookup]
@[simp] theorem Dev.readSet_now_fuses (k : Nat) (b : Bank) (n : Nat) :
    (d.readSet k b n).1.now = d.now ∧ (d.readSet k b n).1.fuses = d.fuses := by simp [Dev.readSet]
@[simp] theorem Dev.spray_now_fuses (k : Nat) (b : Bank) (n : Nat) (h : Header) :
    (d.spray k b n h).1.now = d.now ∧ (d.spray k b n h).1.fuses = d.fuses := by
  unfold Dev.spray
  dsimp only
  split
  · exact ⟨rfl, rfl⟩
  · split <;> exact ⟨rfl, rfl⟩

@[simp] theorem Dev.followRoute_now_fuses (k : Nat) (b : Bank) (h : Header) (arr : Option Nat) (r : Route) :
    (d.followRoute k b h arr r).1.now = d.now ∧ (d.followRoute k b h arr r).1.fuses = d.fuses := by
  unfold Dev.followRoute
  dsimp only
  split
  · exact ⟨rfl, rfl⟩
  · have read := d.readSet_now_fuses k b (r.target.toNat % 1024)
    split
    next set => rw [set] at read; exact read
    next e _ set =>
      rw [set] at read
      have sprayed := e.spray_now_fuses k b (r.target.toNat % 1024) h
      split
      · split
        next hs => rw [hs] at sprayed; exact ⟨sprayed.1.trans read.1, sprayed.2.trans read.2⟩
        next hs => rw [hs] at sprayed; exact ⟨sprayed.1.trans read.1, sprayed.2.trans read.2⟩
      · split <;> exact read
  · exact ⟨rfl, rfl⟩
  · exact ⟨rfl, rfl⟩

@[simp] theorem Dev.follow_now_fuses (k : Nat) (b : Bank) (h : Header) (arr : Option Nat) (r : Route) :
    (d.follow k b h arr r).1.now = d.now ∧ (d.follow k b h arr r).1.fuses = d.fuses := by simp [Dev.follow]
@[simp] theorem Dev.hit_now_fuses (k : Nat) (key : BitVec 48) :
    (d.hit k key).now = d.now ∧ (d.hit k key).fuses = d.fuses := ⟨rfl, rfl⟩
@[simp] theorem Dev.lookupKey_now_fuses (k : Nat) (b : Bank) (h : Header) (arr : Option Nat) (key : BitVec 48)
    (leaf : Option Nat) :
    (d.lookupKey k b h arr key leaf).1.now = d.now ∧ (d.lookupKey k b h arr key leaf).1.fuses = d.fuses := by
  have read := d.emLookup_now_fuses k b key
  unfold Dev.lookupKey
  split
  next found => rw [found] at read; simpa using read
  next found =>
    rw [found] at read
    split
    · exact read
    · simpa using read

@[simp] theorem Dev.groupPorts_now_fuses (k : Nat) (b : Bank) (h : Header) (arr : Option Nat) :
    (d.groupPorts k b h arr).1.now = d.now ∧ (d.groupPorts k b h arr).1.fuses = d.fuses := by
  have found := d.tableRead_now_fuses k b.num .group (addrIndex h.dst % 65536)
  unfold Dev.groupPorts
  dsimp only
  generalize d.tableRead k b.num .group (addrIndex h.dst % 65536) = r at found ⊢
  split
  · exact found
  next e _ =>
    split
    · exact found
    · refine now_fuses_ite _ ?_ found
      have read := r.1.readSet_now_fuses k b e.upSet.toNat
      rw [found.1, found.2] at read
      split
      next set => rw [set] at read; exact read
      next set =>
        rw [set] at read
        split
        · exact now_fuses_ite _ read read
        · exact read

@[simp] theorem Dev.lookup_now_fuses (k : Nat) (b : Bank) (h : Header) (arr : Option Nat) :
    (d.lookup k b h arr).1.now = d.now ∧ (d.lookup k b h arr).1.fuses = d.fuses := by
  unfold Dev.lookup
  refine now_fuses_ite _ ⟨rfl, rfl⟩ ?_
  split
  · exact d.lookupKey_now_fuses ..
  · split
    · exact ⟨rfl, rfl⟩
    · exact d.lookupKey_now_fuses ..
  · exact d.groupPorts_now_fuses ..
  · split
    · exact ⟨rfl, rfl⟩
    · exact now_fuses_ite _ ⟨rfl, rfl⟩ ⟨rfl, rfl⟩
  · exact ⟨rfl, rfl⟩

/-! ### Frames that the device builds -/

@[simp] theorem Dev.take_now_fuses (k : Nat) (t : Taken) :
    (d.take k t).now = d.now ∧ (d.take k t).fuses = d.fuses := ⟨rfl, rfl⟩
@[simp] theorem Dev.gleanCandidate_now_fuses (sampler rate : Nat) :
    (d.gleanCandidate sampler rate).1.now = d.now ∧ (d.gleanCandidate sampler rate).1.fuses = d.fuses := ⟨rfl, rfl⟩
@[simp] theorem Dev.gleanStart_now_fuses (h : Header) (cls sampler : Nat) (arr : Option Nat) (eg : Option Dest) :
    (d.gleanStart h cls sampler arr eg).1.now = d.now ∧
      (d.gleanStart h cls sampler arr eg).1.fuses = d.fuses := by simp [Dev.gleanStart]
@[simp] theorem Dev.gleanNow_now_fuses (f : Frame) (eg outcome : Nat) :
    (d.gleanNow f eg outcome).now = d.now ∧ (d.gleanNow f eg outcome).fuses = d.fuses := by simp [Dev.gleanNow]
@[simp] theorem Dev.police_now_fuses (arr : Option (Nat × Nat)) (cls part len : Nat) :
    (d.police arr cls part len).1.now = d.now ∧ (d.police arr cls part len).1.fuses = d.fuses := by
  unfold Dev.police
  split <;> simp

@[simp] theorem Dev.featureDrop_now_fuses (kind : Nat) (l : List Dest) :
    (d.featureDrop kind l).1.now = d.now ∧ (d.featureDrop kind l).1.fuses = d.fuses := by
  unfold Dev.featureDrop
  induction l with
  | nil => exact ⟨rfl, rfl⟩
  | cons t r ih =>
    rw [List.foldr_cons]
    split
    · split
      · exact ih
      · simpa using ih
    · exact ih

@[simp] theorem Dev.postPassing_now_fuses (f : Frame) :
    (d.postPassing f).now = d.now ∧ (d.postPassing f).fuses = d.fuses := by simp [Dev.postPassing]
@[simp] theorem Dev.countQ_now_fuses (t : Dest) (cls : Nat) (f : QCount → QCount) :
    (d.countQ t cls f).now = d.now ∧ (d.countQ t cls f).fuses = d.fuses := ⟨rfl, rfl⟩
@[simp] theorem Dev.countP_now_fuses (part : Nat) (f : PCount → PCount) :
    (d.countP part f).now = d.now ∧ (d.countP part f).fuses = d.fuses := ⟨rfl, rfl⟩
@[simp] theorem Dev.refuseCopy_now_fuses (m : Making) (t : Dest) (cls : Nat) (mirror desc : Bool) :
    (d.refuseCopy m t cls mirror desc).now = d.now ∧
      (d.refuseCopy m t cls mirror desc).fuses = d.fuses := by simp [Dev.refuseCopy]
@[simp] theorem Dev.refused_now_fuses (m : Making) (t : Dest) (cls : Nat) (mirror desc : Bool) :
    (d.refused m t cls mirror desc).1.now = d.now ∧
      (d.refused m t cls mirror desc).1.fuses = d.fuses := by simp [Dev.refused]
@[simp] theorem Dev.setShaper_now_fuses (l cls : Nat) (s : Shaper) :
    (d.setShaper l cls s).now = d.now ∧ (d.setShaper l cls s).fuses = d.fuses := ⟨rfl, rfl⟩
@[simp] theorem Dev.chargeShapers_now_fuses (l cls len : Nat) :
    (d.chargeShapers l cls len).now = d.now ∧ (d.chargeShapers l cls len).fuses = d.fuses := by
  unfold Dev.chargeShapers
  split <;> simp

@[simp] theorem Dev.setQueue_now_fuses (t : Dest) (cls : Nat) (l : List Copy) :
    (d.setQueue t cls l).now = d.now ∧ (d.setQueue t cls l).fuses = d.fuses := ⟨rfl, rfl⟩
@[simp] theorem Dev.placeCopy_now_fuses (m : Making) (c : Copy) :
    (d.placeCopy m c).now = d.now ∧ (d.placeCopy m c).fuses = d.fuses := by
  unfold Dev.placeCopy
  split <;> simp

@[simp] theorem Dev.makeCopy_now_fuses (m : Making) (t : Dest) (cls : Nat) (mirror : Bool) :
    (d.makeCopy m t cls mirror).1.now = d.now ∧ (d.makeCopy m t cls mirror).1.fuses = d.fuses := by
  unfold Dev.makeCopy
  dsimp only
  split
  · simp
  · split
    · split <;> simp
    · split <;> simp

@[simp] theorem Dev.makeCopies_now_fuses (m : Making) (cls : Nat) (l : List Dest) :
    (d.makeCopies m cls l).1.now = d.now ∧ (d.makeCopies m cls l).1.fuses = d.fuses := by
  induction l generalizing d m with
  | nil => exact ⟨rfl, rfl⟩
  | cons t r ih => simp [Dev.makeCopies, ih]

@[simp] theorem Dev.makeMirrors_now_fuses (m : Making) (b : Bank) (l : List MirrorSess) :
    (d.makeMirrors m b l).1.now = d.now ∧ (d.makeMirrors m b l).1.fuses = d.fuses := by
  induction l generalizing d m with
  | nil => exact ⟨rfl, rfl⟩
  | cons s r ih =>
    unfold Dev.makeMirrors
    split
    · simp [ih]
    · split <;> simp [ih]

@[simp] theorem Dev.admitCopies_now_fuses (b : Bank) (f : Frame) (dests : List Dest) (cls : Nat) (sample cut : Bool) :
    (d.admitCopies b f dests cls sample cut).1.now = d.now ∧
      (d.admitCopies b f dests cls sample cut).1.fuses = d.fuses := by simp [Dev.admitCopies]
@[simp] theorem Dev.forward_now_fuses (ck : Nat) (b : Bank) (f : Frame) (cls : Nat) (lk : Lk) (police cut looked : Bool) :
    (d.forward ck b f cls lk police cut looked).1.now = d.now ∧
      (d.forward ck b f cls lk police cut looked).1.fuses = d.fuses := by
  unfold Dev.forward
  dsimp only
  split <;> simp

@[simp] theorem Dev.build_now_fuses (k : Nat) (h : Header) (payload : List Byte) :
    (d.build k h payload).now = d.now ∧ (d.build k h payload).fuses = d.fuses := by
  unfold Dev.build
  dsimp only
  split <;> simp

/-! ### Thresh sends -/

@[simp] theorem Dev.sendArrivals_now_fuses (j : Nat) (x : ThrJob) :
    (d.sendArrivals j x).now = d.now ∧ (d.sendArrivals j x).fuses = d.fuses := by simp [Dev.sendArrivals]
@[simp] theorem Dev.arrive_now_fuses (j : Nat) : (d.arrive j).now = d.now ∧ (d.arrive j).fuses = d.fuses := by
  unfold Dev.arrive
  split <;> simp

@[simp] theorem Dev.maybeArrive_now_fuses (j : Nat) :
    (d.maybeArrive j).now = d.now ∧ (d.maybeArrive j).fuses = d.fuses := by
  unfold Dev.maybeArrive
  split <;> simp

@[simp] theorem Dev.sendMirror_now_fuses (j : Nat) (f : MFrame) :
    (d.sendMirror j f).now = d.now ∧ (d.sendMirror j f).fuses = d.fuses := by
  unfold Dev.sendMirror
  split <;> simp

@[simp] theorem Dev.mirror_now_fuses (j : Nat) (sub : Byte) (ksf : Nat) (payload : List Byte) :
    (d.mirror j sub ksf payload).now = d.now ∧ (d.mirror j sub ksf payload).fuses = d.fuses := by
  unfold Dev.mirror
  split <;> simp

@[simp] theorem Dev.maybeRequest_now_fuses (j : Nat) :
    (d.maybeRequest j).now = d.now ∧ (d.maybeRequest j).fuses = d.fuses := by
  unfold Dev.maybeRequest
  split <;> simp

@[simp] theorem Dev.thrTidy_now_fuses : d.thrTidy.now = d.now ∧ d.thrTidy.fuses = d.fuses := by simp [Dev.thrTidy]
end

/-! ### The clock (R30, R431) -/

/-- The count of core clocks rises by one in each, and no fuse changes. -/
theorem Dev.clock_now_fuses (d : Dev) : d.clock.now = d.now + 1 ∧ d.clock.fuses = d.fuses := by
  unfold Dev.clock
  dsimp only
  split
  · exact ⟨rfl, rfl⟩
  · simp

end Sys2Proof.Machine
end

section
/-! PROOF. One step of the machine: the command at the front, an idle core clock, and what a command answers (R406, R420,
R474, R522); and two commands that change one owner slot in one step (R464). -/

namespace Sys2Proof.Machine

/-! ### What a command answers -/

/-- Every command but RAIL_OUT_OF_REGULATION changes the device alone. -/
theorem exec_answers (i : Instr) (s : State) (h : i ≠ .railOutOfRegulation) : ∃ d, exec i s = .next (s.put d) := by
  cases i
  case railOutOfRegulation => exact absurd rfl h
  all_goals exact ⟨_, rfl⟩

theorem exec_railOutOfRegulation (s : State) : exec .railOutOfRegulation s =
    if s.d.boot.resetN then .fault .railUndefined else .next s := rfl

theorem exec_pending {i : Instr} {s t : State} (h : exec i s = .next t) : t.pending = s.pending := by
  by_cases hRail : i = .railOutOfRegulation
  · subst hRail
    rw [exec_railOutOfRegulation] at h
    split at h
    · cases h
    · cases h; rfl
  · obtain ⟨d, answers⟩ := exec_answers i s hRail
    rw [answers] at h
    cases h; rfl

/-! ### An idle core clock (log entries 110 and 174) -/

theorem turnStep_none {s : State} (h : s.d.nextBehind = none) : turnStep s = .next s := by
  unfold turnStep
  rw [h]

theorem turnStep_some {s t : State} {d : Dev} {i : Instr} (h : s.d.nextBehind = some (d, i))
    (run : exec i (s.put d) = .next t) : turnStep s = .next (t.put t.d.endTurn) := by
  have ran : exec i { s with d := d } = .next t := run
  unfold turnStep
  rw [h]
  dsimp only
  rw [ran]
  rfl

theorem loopStep_nil {s : State} (h : s.d.loopQ = []) : loopStep s = .next s := by
  unfold loopStep
  rw [h]

theorem loopStep_cons {s : State} {i : Instr} {r : List Instr} (h : s.d.loopQ = i :: r) :
    loopStep s = exec i (s.put { s.d with loopQ := r }) := by
  unfold loopStep
  rw [h]
  rfl

/-- A clock in which nothing stops the block: a waiting command's turn, what returns in loopback, then the clock. -/
theorem step_idle {s t u : State} (hIdle : s.pending = []) (turn : turnStep s = .next t) (loop : loopStep t = .next u) :
    step s = .next (u.put u.d.clock) := by
  rw [step_nil s hIdle, execTick, turn]
  dsimp only
  rw [loop]
  rfl

/-! ### Two commands in one clock (R464, log entries 110 and 174) -/

/-- Howlink's commands of the owner's class, outside a transaction. -/
def ownerCtx (seq : Word) : CmdCtx :=
  { src := .howlink, agent := 0, session := 0, seq := seq, txn := 0, noWait := false }

/-- A device in RUN with slots 1 and 2 VALID and slot 0 EMPTY: SEC_OWNER_ENROLL waits for its turn, and the queue of the
ports in loopback holds SEC_OWNER_REVOKE of slot 0. -/
def enrolThenRevoke : State where
  pending := []
  d := {
    boot := { st := .run, hlOwner := true }
    fuses := { owner1 := (1, 1), owner2 := (1, 2) }
    cmd := { behind := [.secOwnerEnroll (ownerCtx 1) 7] }
    loopQ := [.secOwnerRevoke (ownerCtx 2) 0] }

/-- Slot 0 is enrolled and revoked before the clock. -/
theorem enrolThenRevoke_revokes : ∃ t u, turnStep enrolThenRevoke = .next t ∧ loopStep t = .next u ∧
    u.d.fuses.owner 0 = (2, 7) :=
  ⟨_, _, rfl, rfl, rfl⟩

end Sys2Proof.Machine

open Sys2Proof Sys2Proof.Machine

/-- Settles O1. -/
theorem stepRunsFrontCommand : Obligations.StepRunsFrontCommand := fun _ _ _ => rfl

/-- Settles O2: the clock counts one core clock more than the command, if any, that it lets run (log entries 110
and 174). -/
theorem emptyQueueIdlesOneClock : Obligations.EmptyQueueIdlesOneClock := by
  refine ⟨fun s hIdle hTurn hLoop => ?_, fun s t i r hIdle hTurn hLoop run => ?_,
    fun s t d i hIdle hTurn run hLoop => ?_⟩
  · exact ⟨_, step_idle hIdle (turnStep_none hTurn) (loopStep_nil hLoop), hIdle, s.d.clock_now_fuses.1⟩
  · have loop := (loopStep_cons hLoop).trans run
    exact ⟨_, step_idle hIdle (turnStep_none hTurn) loop, rfl, t.d.clock_now_fuses.1⟩
  · have loop : loopStep (t.put t.d.endTurn) = .next (t.put t.d.endTurn) := loopStep_nil hLoop
    exact ⟨_, step_idle hIdle (turnStep_some hTurn run) loop, rfl, t.d.endTurn.clock_now_fuses.1⟩

/-- Settles O3. -/
theorem commandsAnswer : Obligations.CommandsAnswer := by
  refine ⟨fun i s t run => exec_pending run, fun i s h => ?_, fun s h => ?_, fun s h => ?_⟩
  · obtain ⟨d, answers⟩ := exec_answers i s h
    exact ⟨_, answers⟩
  · rw [exec_railOutOfRegulation, h]
    rfl
  · rw [exec_railOutOfRegulation, h]
    rfl

/-- Refutes O5: the statement takes every state, also one whose loopback queue holds a command that no port returns.
Such an idle clock runs two commands, the one that waits and the one in that queue, and slot 0 goes from EMPTY to REVOKED
in one step. -/
theorem not_fusesOnlyMoveForward : ¬ Obligations.FusesOnlyMoveForward := by
  unfold Obligations.FusesOnlyMoveForward
  intro h
  obtain ⟨t, u, turn, loop, revoked⟩ := enrolThenRevoke_revokes
  obtain ⟨-, -, -, slots⟩ := h _ _ (step_idle rfl turn loop)
  obtain ⟨forward, -⟩ := slots 0 (by decide)
  rw [State.put_d, u.d.clock_now_fuses.2, revoked] at forward
  exact absurd (forward rfl) (by decide)
end

section
/-! PROOF. THERM_N after a scan of the sensors (R544), and what a reply sends (R405, R409). -/

namespace Sys2Proof.Machine

/-- THERM_N after a scan: low at 110 °C, released below 105 °C, kept between (R544). -/
def thermAfter (l : List Int) (was : Bool) : Bool :=
  if l.any fun t => 110 ≤ t then true else if l.all fun t => t < 105 then false else was

theorem exec_thermalSensorScan (l : List Int) (s : State) : exec (.thermalSensorScan l) s = .next (s.put
    { s.d with clk := { s.d.clk with temps := l, thermLow := thermAfter l s.d.clk.thermLow } }) := rfl

theorem thermAfter_hot {l : List Int} (h : ∃ x ∈ l, 110 ≤ x) (was : Bool) : thermAfter l was = true := by
  unfold thermAfter
  exact if_pos (by simpa using h)

theorem thermAfter_cool {l : List Int} (h : ∀ x ∈ l, x < 105) (was : Bool) : thermAfter l was = false := by
  have noneHot : ¬ (l.any fun t => 110 ≤ t) = true := by
    simp only [List.any_eq_true, decide_eq_true_eq, not_exists, not_and]
    intro x hx
    have := h x hx
    omega
  unfold thermAfter
  rw [if_neg noneHot, if_pos (by simpa using h)]

theorem thermAfter_between {l : List Int} (hot : ∀ x ∈ l, x < 110) (warm : ∃ x ∈ l, 105 ≤ x) (was : Bool) :
    thermAfter l was = was := by
  unfold thermAfter
  rw [if_neg (by simpa using hot), if_neg (by simpa using warm)]

/-- Of the command path a reply changes the places alone: it frees the command's own (R405). -/
theorem Dev.reply_cmd_places (d : Dev) (c : CmdCtx) (op : Nat) (st : Status) (r : Res) :
    (d.reply c op st r).cmd = { d.cmd with
      places := d.cmd.places.eraseP fun p => p.src == c.src && p.seq == c.seq && p.opcode == op } := by
  change _ = (d.freePlace c op).cmd
  unfold Dev.reply
  dsimp only
  split_ifs
  · cases c.src with
    | howlink => exact Dev.raiseInt_cmd _ _
    | mg0 => rfl
    | mg1 => rfl
  · rfl

theorem Dev.mem_sendInt_out (d : Dev) (v : Nat) {o : Out} (h : o ∈ d.out) : o ∈ (d.sendInt v).out := by
  unfold Dev.sendInt
  split_ifs
  · exact List.mem_cons_of_mem _ h
  · exact h

/-- An interrupt withdraws nothing that was sent. -/
theorem Dev.mem_raiseInt_out (d : Dev) (v : Nat) {o : Out} (h : o ∈ d.out) : o ∈ (d.raiseInt v).out := by
  unfold Dev.raiseInt
  dsimp only
  split_ifs
  · exact h
  · exact h
  · exact Dev.mem_sendInt_out _ _ h

/-- While the path is up and SV1 runs, the reply is sent (R409). -/
theorem Dev.reply_sent {d : Dev} {c : CmdCtx} (up : d.pathUp c = true) (runs : d.svRuns 1 = true) (op : Nat)
    (st : Status) (r : Res) : .reply c op st r ∈ (d.reply c op st r).out := by
  have both : ((d.freePlace c op).pathUp c && (d.freePlace c op).svRuns 1) = true :=
    Bool.and_eq_true_iff.2 ⟨up, runs⟩
  unfold Dev.reply
  dsimp only
  rw [if_pos both]
  cases c.src with
  | howlink => exact Dev.mem_raiseInt_out _ _ List.mem_cons_self
  | mg0 => exact List.mem_cons_self
  | mg1 => exact List.mem_cons_self

/-- Once the path is down, nothing is sent (R289, R388). -/
theorem Dev.reply_out_down {d : Dev} {c : CmdCtx} (down : d.pathUp c = false) (op : Nat) (st : Status) (r : Res) :
    (d.reply c op st r).out = d.out := by
  have closed : ¬ ((d.freePlace c op).pathUp c && (d.freePlace c op).svRuns 1) = true := by
    change ¬ (d.pathUp c && d.svRuns 1) = true
    simp [down]
  unfold Dev.reply
  dsimp only
  rw [if_neg closed]
  rfl

end Sys2Proof.Machine

open Sys2Proof Sys2Proof.Machine

/-- Settles O12. -/
theorem thermalSensors : Obligations.ThermalSensors := by
  intro s l
  exact ⟨_, exec_thermalSensorScan l s, rfl, fun h => thermAfter_hot h _, fun h => thermAfter_cool h _,
    fun hot warm => thermAfter_between hot warm _, rfl⟩

/-- Settles O27. -/
theorem replyFrame : Obligations.ReplyFrame := by
  intro d c op st r
  refine ⟨fun up runs => Dev.reply_sent up runs op st r, fun down => Dev.reply_out_down down op st r,
    Dev.reply_cmd_places d c op st r, ?_⟩
  simp
end

section
/-! PROOF. The reads of the device, its security, its transactions, its time and its faults (R378, R412, R413, R450,
R477, R500): each is answered with its fields by one reading of its command. -/

namespace Sys2Proof.Machine

variable {s : State} {c : CmdCtx}

/-- A command sees the transactions that stand; it makes none. -/
theorem Dev.touch_txns_nil {d : Dev} (h : d.cmd.txns = []) (c : CmdCtx) : (d.touch c).cmd.txns = [] := by
  simp [Dev.touch, h]

theorem Dev.txnFields_none {d : Dev} (h : d.cmd.txns = []) (a : Source) : d.txnFields a = [0, 0] := by
  simp [Dev.txnFields, Dev.shownTxn, Dev.openTxn, h]

theorem exec_devState_idle (h : s.d.Runs (.devState c) c 0x0102 .observer) (none : s.d.cmd.txns = []) :
    exec (.devState c) s = .next (s.put ((s.d.touch c).reply c 0x0102 .ok (.fields [s.d.boot.st.code,
      s.d.boot.cause.toNat, s.d.boot.heartbeat.toNat, 0, 0, 0, 0, 0, 0]))) := by
  refine goto_runCmd_answers h ?_
  simp only [List.flatMap_cons, List.flatMap_nil, Dev.txnFields_none (Dev.touch_txns_nil none c)]
  rfl

theorem exec_devNop {b : List Byte} (h : s.d.Runs (.devNop c b) c 0x0107 .observer) (short : b.length ≤ 4096) :
    exec (.devNop c b) s = .next (s.put ((s.d.touch c).reply c 0x0107 .ok (.bytes b))) :=
  goto_runCmd_answers h (if_neg (Nat.not_lt.2 short))

/-- What SEC_READ lists (R477). -/
def Dev.secFields (d : Dev) : List Nat :=
  d.bootStatusReg :: ([0, 1, 2, 3].flatMap fun n => [(d.fuses.owner n).2.toNat, (d.fuses.owner n).1.toNat]) ++
    [d.fuses.rollback, d.boot.svn.toNat, d.boot.fwHash.toNat, d.boot.cfgHash.toNat]

theorem exec_secRead (h : s.d.Runs (.secRead c) c 0x0B01 .observer) :
    exec (.secRead c) s = .next (s.put ((s.d.touch c).reply c 0x0B01 .ok (.fields (s.d.touch c).secFields))) :=
  goto_runCmd_answers h rfl

/-- The bytes of a certificate from an offset, at most a count of them (R477). -/
def Dev.certBytes (d : Dev) (a : Bool) (o n : Nat) : List Byte :=
  (List.range (min n (d.certLen a - o))).map fun i => d.certByte a (o + i)

theorem exec_secCertRead {a : Bool} {o n : BitVec 16} (h : s.d.Runs (.secCertRead c a o n) c 0x0B06 .observer)
    (few : n.toNat ≤ 4096) : exec (.secCertRead c a o n) s = .next (s.put
      ((s.d.touch c).reply c 0x0B06 .ok (.bytes ((s.d.touch c).certBytes a o.toNat n.toNat)))) :=
  goto_runCmd_answers h (if_neg (Nat.not_lt.2 few))

theorem exec_txnStatus_own {u : Txn} (h : s.d.Runs (.txnStatus c none) c 0x0A04 .observer)
    (shown : (s.d.touch c).shownTxn c.src = some u) :
    exec (.txnStatus c none) s = .next (s.put ((s.d.touch c).reply c 0x0A04 .ok (.fields
      [u.id.toNat, u.scope.toNat, u.st.code, u.staged.length, (s.d.touch c).sharedCount u]))) := by
  refine goto_runCmd_answers h ?_
  rw [Option.getD_none, shown]
  rfl

theorem exec_launchRead_empty {l : BitVec 16} (h : s.d.Runs (.launchRead c l) c 0x0807 .observer)
    (inRange : l.toNat < 512) (empty : Tab.get s.d.store.launch l.toNat [] = []) :
    exec (.launchRead c l) s = .next (s.put ((s.d.touch c).reply c 0x0807 .ok (.fields [0]))) := by
  refine goto_runCmd_answers h ((if_neg (Nat.not_le.2 inRange)).trans ?_)
  rw [Dev.touch_store, empty]
  rfl

/-- The records of the log from a sequence on, oldest first (R500). -/
def Dev.faultsFrom (d : Dev) (f : Word) : List FaultRec :=
  d.faults.log.reverse.filter fun r => decide (0 ≤ seqDist r.fseq f)

theorem exec_diagFaultRead_some {f : Word} {n : BitVec 16} (h : s.d.Runs (.diagFaultRead c f n) c 0x0C01 .observer)
    (few : n.toNat ≤ 64) (some : s.d.faultsFrom f ≠ []) : exec (.diagFaultRead c f n) s = .next (s.put
      ((s.d.touch c).reply c 0x0C01 .ok (.bytes (((s.d.faultsFrom f).take n.toNat).flatMap FaultRec.bytes)))) := by
  refine goto_runCmd_answers h ((if_neg (Nat.not_lt.2 few)).trans (if_neg ?_))
  rwa [List.isEmpty_iff]

theorem exec_diagSelftestRead {n : Byte} (h : s.d.Runs (.diagSelftestRead c n) c 0x0C03 .observer)
    (item : n.toNat < 8) : exec (.diagSelftestRead c n) s = .next (s.put ((s.d.touch c).reply c 0x0C03 .ok
      (.fields ([(Tab.get s.d.boot.items n.toNat {}).repaired, (Tab.get s.d.boot.items n.toNat {}).degraded,
        (Tab.get s.d.boot.items n.toNat {}).fatal] ++ (Tab.get s.d.boot.items n.toNat {}).units)))) :=
  goto_runCmd_answers h (if_neg (Nat.not_le.2 item))

end Sys2Proof.Machine

open Sys2Proof Sys2Proof.Machine

/-- Settles O46: every read is answered on the state that its command found. -/
theorem statusReads : Obligations.StatusReads := by
  refine ⟨fun s c h => goto_runCmd_answers h rfl, fun s c h none => exec_devState_idle h none,
    fun s c b h short => exec_devNop h short, fun s c h => goto_runCmd_answers h rfl,
    fun s c h => ⟨_, rfl, rfl, rfl, rfl, exec_secRead h⟩,
    fun s c a o n h few => ⟨_, ?_, exec_secCertRead h few⟩, fun s c u h shown => exec_txnStatus_own h shown,
    fun s c h => goto_runCmd_answers h rfl, fun s c l h inRange empty => exec_launchRead_empty h inRange empty,
    fun s c f n h few some => exec_diagFaultRead_some h few some, fun s c h => ⟨_, ?_, goto_runCmd_answers h rfl⟩,
    fun s c n h item => exec_diagSelftestRead h item, fun s c h => ⟨_, goto_runCmd_answers h rfl⟩⟩
  · simp [Dev.certBytes, Dev.certLen]
  · simp
end

section
/-! PROOF. The mailboxes: posts, pops and the lock registers (R392 to R397, R399). -/

namespace Sys2Proof.Machine

variable {d : Dev} {n : Nat}

/-- A mailbox reads back as it was set. -/
@[simp] theorem Dev.mbox_setMbox_same (d : Dev) (n : Nat) (x : Mbox) : (d.setMbox n x).mbox n = x := by
  rw [Dev.mbox_setMbox, if_pos rfl]

theorem Dev.mbox_congr {d e : Dev} (h : d.mbx = e.mbx) (n : Nat) : d.mbox n = e.mbox n := by
  rw [Dev.mbox, Dev.mbox, h]

/-! ### Posts (R392, R394) -/

/-- A mailbox with a word more, or one less, of a queue. -/
def Mbox.withH2d (m : Mbox) (l : List (Byte × Word)) : Mbox := { m with h2d := l }
def Mbox.withD2h (m : Mbox) (l : List (Byte × Word)) : Mbox := { m with d2h := l }

theorem Dev.postH2d_room (a : Fin 16) (w : Word) (room : (d.mbox n).h2d.length < 16) :
    d.postH2d (.agent a) n w = ((d.setMbox n ((d.mbox n).withH2d
      ((d.mbox n).h2d ++ [(BitVec.ofNat 8 (0x10 + a.val), w)]))).setRegBit offDbStatus (16 + n) true).send
      (.fwInt n) := by
  unfold Dev.postH2d
  exact (if_neg (by simp [RegActor.isHost])).trans (if_neg (Nat.not_le.2 room))

theorem Dev.postH2d_full (a : Fin 16) (w : Word) (full : 16 ≤ (d.mbox n).h2d.length) :
    d.postH2d (.agent a) n w = d.mbxOverflow n 16 := by
  unfold Dev.postH2d
  exact (if_neg (by simp [RegActor.isHost])).trans (if_pos full)

/-- A firmware post as it joins the queue, with its doorbell bit. -/
def Dev.joinD2h (d : Dev) (v : Fin 4) (n : Nat) (w : Word) : Dev :=
  (d.setMbox n ((d.mbox n).withD2h ((d.mbox n).d2h ++ [(BitVec.ofNat 8 (0x20 + v.val), w)]))).setRegBit
    offDbStatus n true

theorem Dev.postD2h_room (v : Fin 4) (w : Word) (room : (d.mbox n).d2h.length < 16) : d.postD2h (.sv v) n w =
    if (d.joinD2h v n w).regBit offDbMask n then d.joinD2h v n w else (d.joinD2h v n w).sendInt n := by
  unfold Dev.postD2h
  exact (if_neg Bool.false_ne_true).trans (if_neg (Nat.not_le.2 room))

/-- Whether or not its vector is masked, the post leaves the queues and the registers as it joined them. -/
theorem Dev.postD2h_effect (v : Fin 4) (w : Word) (room : (d.mbox n).d2h.length < 16) :
    (d.postD2h (.sv v) n w).mbx = (d.joinD2h v n w).mbx ∧ (d.postD2h (.sv v) n w).regs = (d.joinD2h v n w).regs := by
  rw [Dev.postD2h_room v w room]
  split_ifs
  · exact ⟨rfl, rfl⟩
  · exact ⟨Dev.sendInt_mbx _ _, Dev.sendInt_regs _ _⟩

/-! ### Pops (R393, R399) -/

/-- The word of a POP read: VALID, the poster and the word stand in fields of their own. -/
theorem popValue_eq (x : Byte × Word) : popValue x = 2 ^ 63 + x.1.toNat * 2 ^ 32 + x.2.toNat := by
  have poster := x.1.isLt
  have word := x.2.isLt
  have low : x.1.toNat <<< 32 ||| x.2.toNat = x.1.toNat * 2 ^ 32 + x.2.toNat := by
    rw [Nat.shiftLeft_eq, Nat.mul_comm, Nat.two_pow_add_eq_or_of_lt word]
  have high : 1 <<< 63 = 2 ^ 63 * 1 := rfl
  rw [popValue, Nat.lor_assoc, low, high, ← Nat.two_pow_add_eq_or_of_lt (by omega)]
  omega

theorem Dev.popH2d_cons (v : Fin 4) {x : Byte × Word} {r : List (Byte × Word)} (h : (d.mbox n).h2d = x :: r) :
    d.popH2d (.sv v) n = (d.setMbox n ((d.mbox n).withH2d r), popValue x) := by
  unfold Dev.popH2d
  simp only [RegActor.isHost, Bool.false_eq_true, if_false, h]
  rfl

theorem Dev.popD2h_cons (a : Fin 16) {x : Byte × Word} {r : List (Byte × Word)} (h : (d.mbox n).d2h = x :: r) :
    d.popD2h (.agent a) n = (d.setMbox n ((d.mbox n).withD2h r), popValue x) := by
  unfold Dev.popD2h
  simp only [RegActor.isHost, if_true, h]
  rfl

theorem Dev.popD2h_nil (a : Fin 16) (h : (d.mbox n).d2h = []) : d.popD2h (.agent a) n = (d, 0) := by
  unfold Dev.popD2h
  simp only [RegActor.isHost, if_true, h]

/-! ### Locks (R395 to R397) -/

theorem Dev.readLock_free (a : RegActor) (free : (d.mbox n).lock = 0) : d.readLock a n =
    (d.setMbox n { d.mbox n with lock := BitVec.ofNat 8 (RegActor.num a), ptr := (partyNo a + 1) % 20 }, 0) :=
  if_pos free

theorem Dev.readLock_held (a : RegActor) (held : (d.mbox n).lock ≠ 0) :
    d.readLock a n = (d, (d.mbox n).lock.toNat) :=
  if_neg held

theorem Dev.writeLock_owner {a : RegActor} (own : (d.mbox n).lock.toNat = RegActor.num a) :
    d.writeLock a n = d.setMbox n { d.mbox n with lock := 0 } :=
  if_pos own

theorem Dev.writeLock_other {a : RegActor} (other : (d.mbox n).lock.toNat ≠ RegActor.num a) :
    d.writeLock a n = d.bump 0x101108 :=
  if_neg other

/-- Freeing the locks of some mailboxes leaves every other mailbox as it is. -/
theorem Dev.mbox_freeLocks_other {l : List Nat} (h : n ∉ l) (d : Dev) :
    (l.foldl (fun (d : Dev) (n : Nat) => d.setMbox n { d.mbox n with lock := 0 }) d).mbox n = d.mbox n := by
  induction l generalizing d with
  | nil => rfl
  | cons k r ih =>
    rw [List.mem_cons, not_or] at h
    obtain ⟨hk, hr⟩ := h
    rw [List.foldl_cons, ih hr, Dev.mbox_setMbox, if_neg hk]

/-- The mailboxes whose lock a break by mask frees. -/
def Dev.brokenLocks (d : Dev) (w : Word) : List Nat :=
  (List.range 16).filter fun n => (d.mbox n).lock != 0 && w.getLsbD n

theorem Dev.mem_brokenLocks (d : Dev) (w : Word) (n : Nat) :
    n ∈ d.brokenLocks w ↔ n < 16 ∧ (d.mbox n).lock ≠ 0 ∧ w.getLsbD n = true := by
  simp [Dev.brokenLocks]

/-- A break by mask frees the locks that it names and counts and reports what it freed. -/
theorem Dev.breakLocks_mbx (d : Dev) (w : Word) : (d.breakLocks fun n _ => w.getLsbD n).mbx =
    ((d.brokenLocks w).foldl (fun (d : Dev) (n : Nat) => d.setMbox n { d.mbox n with lock := 0 }) d).mbx := by
  unfold Dev.breakLocks
  dsimp only
  split
  · next none =>
    rw [Dev.brokenLocks, List.isEmpty_iff.1 none]
    rfl
  · rw [Dev.event_mbx, Dev.bumpBy_mbx]
    rfl

theorem Dev.breakLocks_freed (d : Dev) {w : Word} (hn : n < 16) (named : w.getLsbD n = true) :
    ((d.breakLocks fun n _ => w.getLsbD n).mbox n).lock = 0 := by
  obtain ⟨m, shape, freed⟩ := Dev.freeLocks_shape (d.brokenLocks w) d
  rw [Dev.mbox_congr (d.breakLocks_mbx w), shape, freed]
  split_ifs with held
  · rfl
  · rw [Dev.mem_brokenLocks] at held
    by_contra locked
    exact held ⟨hn, locked, named⟩

theorem Dev.breakLocks_kept (d : Dev) {w : Word} (unnamed : w.getLsbD n = false) :
    (d.breakLocks fun n _ => w.getLsbD n).mbox n = d.mbox n := by
  rw [Dev.mbox_congr (d.breakLocks_mbx w), Dev.mbox_freeLocks_other]
  simp [Dev.mem_brokenLocks, unnamed]

end Sys2Proof.Machine

open Sys2Proof Sys2Proof.Machine

/-- Settles O16. -/
theorem mailboxQueues : Obligations.MailboxQueues := by
  refine ⟨fun s a n w h room => ⟨_, goto_winWrite h, ?_⟩, fun s a n w h full => ⟨_, goto_winWrite h, ?_⟩,
    fun s v n w h room => ⟨_, goto_winWrite h, ?_⟩, fun s v n x r h queue => ⟨_, goto_winRead h, ?_⟩,
    fun s a n x r h queue => ⟨_, goto_winRead h, ?_⟩, fun s a n h empty => ?_⟩
  · simp only [State.put_d, Dev.postH2d_room a w room]
    refine ⟨?_, ?_, Dev.regBit_setRegBit_true _ _ (by omega), rfl⟩
    · exact congrArg Mbox.h2d (Dev.mbox_setMbox_same _ _ _)
    · exact (congrArg Mbox.d2h (Dev.mbox_setMbox_same _ _ _)).trans rfl
  · simp only [State.put_d, Dev.postH2d_full a w full]
    exact ⟨rfl, Dev.ctr_bump_same _ _, Dev.regBit_setRegBit_true _ _ (by decide)⟩
  · obtain ⟨mbx, regs⟩ := Dev.postD2h_effect v w room
    have joined : (s.d.postD2h (.sv v) n.val w).mbox n.val = _ :=
      (Dev.mbox_congr mbx n.val).trans (Dev.mbox_setMbox_same _ _ _)
    refine ⟨congrArg Mbox.d2h joined, (congrArg Mbox.h2d joined).trans rfl, ?_⟩
    exact (Dev.regBit_congr regs _ _).trans (Dev.regBit_setRegBit_true _ _ (by omega))
  · simp only [State.put_d, Dev.popH2d_cons v queue]
    refine ⟨congrArg Mbox.h2d (Dev.mbox_setMbox_same _ _ _),
      (congrArg Mbox.d2h (Dev.mbox_setMbox_same _ _ _)).trans rfl, ?_⟩
    rw [popValue_eq]
    rfl
  · simp only [State.put_d, Dev.popD2h_cons a queue]
    refine ⟨congrArg Mbox.d2h (Dev.mbox_setMbox_same _ _ _),
      (congrArg Mbox.h2d (Dev.mbox_setMbox_same _ _ _)).trans rfl, ?_⟩
    rw [popValue_eq]
    rfl
  · refine (goto_winRead h).trans ?_
    rw [Dev.popD2h_nil a empty]
    rfl

/-- Settles O17. -/
theorem mailboxLock : Obligations.MailboxLock := by
  refine ⟨fun s a n h free => ⟨_, goto_winRead h, ?_⟩, fun s a n h held => ?_,
    fun s a n w h own => ⟨_, goto_winWrite h, ?_⟩, fun s a n w h other => ?_,
    fun s a w h => ⟨_, goto_winWrite h, fun n hn named => Dev.breakLocks_freed _ hn named,
      fun n _ unnamed => Dev.breakLocks_kept _ unnamed⟩⟩
  · simp only [State.put_d, Dev.readLock_free a free]
    exact ⟨congrArg Mbox.lock (Dev.mbox_setMbox_same _ _ _), rfl⟩
  · refine (goto_winRead h).trans ?_
    rw [Dev.readLock_held a held]
  · simp only [State.put_d, Dev.writeLock_owner own]
    have freed := Dev.mbox_setMbox_same s.d n.val { s.d.mbox n.val with lock := 0 }
    exact ⟨congrArg Mbox.lock freed, (congrArg Mbox.h2d freed).trans rfl, (congrArg Mbox.d2h freed).trans rfl⟩
  · refine (goto_winWrite h).trans ?_
    rw [Dev.writeLock_other other]
end

section
/-! PROOF. The SPDM responder: what a response leaves, and when a request is served (R410, R468, R469). -/

namespace Sys2Proof.Machine

/-- A device that has sent what the other has, with the same fuses, tables, boot state and other management link, and
the link `m` as given. -/
structure Dev.AtLink (d : Dev) (m : Nat) (l : MgLink) (e : Dev) : Prop where
  out : e.out = d.out
  fuses : e.fuses = d.fuses
  fwd : e.fwd = d.fwd
  boot : e.boot = d.boot
  other : e.mg (1 - m) = d.mg (1 - m)
  link : e.mg m = l

variable {d e : Dev} {m : Nat} {l : MgLink}

@[simp] theorem Dev.mg_setMg_same (d : Dev) (m : Nat) (l : MgLink) : (d.setMg m l).mg m = l := by
  unfold Dev.mg Dev.setMg
  split_ifs <;> rfl

/-- Setting one management link leaves the other. -/
theorem Dev.mg_setMg_other (d : Dev) {m : Nat} (hm : m < 2) (l : MgLink) :
    (d.setMg m l).mg (1 - m) = d.mg (1 - m) := by
  interval_cases m <;> rfl

theorem Dev.atLink_refl (d : Dev) (m : Nat) : d.AtLink m (d.mg m) d := ⟨rfl, rfl, rfl, rfl, rfl, rfl⟩

theorem Dev.atLink_setMg (d : Dev) (hm : m < 2) (l : MgLink) : d.AtLink m l (d.setMg m l) :=
  ⟨by simp, by simp, by simp, by simp, d.mg_setMg_other hm l, d.mg_setMg_same m l⟩

/-- A drawn value changes nothing of it. -/
theorem Dev.AtLink.draw (h : d.AtLink m l e) : d.AtLink m l e.draw.2 := ⟨h.1, h.2, h.3, h.4, h.5, h.6⟩

/-- END_SESSION takes the session off its link, and its waiting commands (R468). -/
theorem Dev.AtLink.endSession (h : d.AtLink m l e) (hm : m < 2) (id : Byte) :
    d.AtLink m { l with sessions := l.sessions.filter fun z => z.id != id } (e.endSession m id) := by
  obtain ⟨out, fuses, fwd, boot, other, rfl⟩ := h
  obtain ⟨sOut, sFuses, sFwd, sBoot, sOther, sLink⟩ :=
    e.atLink_setMg hm { e.mg m with sessions := (e.mg m).sessions.filter fun s => s.id != id }
  exact ⟨sOut.trans out, sFuses.trans fuses, sFwd.trans fwd, sBoot.trans boot, sOther.trans other, sLink⟩

/-- The response `code` with its fields is sent on the link `m`, which is then `l`; nothing else of `AtLink` moves. -/
def Dev.Responds (d : Dev) (m code : Nat) (v : List Nat) (l : MgLink) (e : Dev) : Prop :=
  (e.out = .spdm m code v :: d.out ∧ e.fuses = d.fuses ∧ e.fwd = d.fwd ∧ e.boot = d.boot ∧
    e.mg (1 - m) = d.mg (1 - m)) ∧ e.mg m = l

theorem Dev.AtLink.send (h : d.AtLink m l e) (code : Nat) (v : List Nat) :
    d.Responds m code v l (e.spdmSend m code v) :=
  ⟨⟨congrArg (List.cons _) h.out, h.fuses, h.fwd, h.boot, h.other⟩, h.link⟩

theorem Dev.AtLink.sendFree (h : d.AtLink m l e) (code : Nat) (v : List Nat) :
    d.Responds m code (v ++ [e.draw.1.toNat]) l (e.spdmFree m code v) :=
  h.draw.send code _

/-- What a response leaves may change further, with nothing more sent. -/
theorem Dev.Responds.andThen {code : Nat} {v : List Nat} {l' : MgLink} {e' : Dev} (h : d.Responds m code v l e)
    (k : e.AtLink m l' e') : d.Responds m code v l' e' := by
  obtain ⟨⟨out, fuses, fwd, boot, other⟩, -⟩ := h
  exact ⟨⟨k.out.trans out, k.fuses.trans fuses, k.fwd.trans fwd, k.boot.trans boot, k.other.trans other⟩, k.link⟩

/-- An error response leaves the link as it is. -/
theorem Dev.responds_error (d : Dev) (m err : Nat) : d.Responds m 0x7F [err] (d.mg m) (d.spdmError m err) :=
  (d.atLink_refl m).send 0x7F [err]

/-! ### The order of the requests (R468) -/

section
variable {x : SpdmCtx} (opened : d.spdmOpen x = true)
include opened

/-- A request outside the twelve is not supported. -/
theorem Dev.spdmRun_other (other : x.other.isSome = true) (need : Nat) (f : Dev → Dev) :
    d.spdmRun x need f = d.spdmError x.link.val 7 := by
  simp [Dev.spdmRun, opened, other, spdmUnsupported]

/-- A request whose forerunners have been made is served. -/
theorem Dev.spdmRun_served (twelve : x.other = none) {need : Nat} (h : need ≤ (d.mg x.link.val).spdm)
    (f : Dev → Dev) : d.spdmRun x need f = f d := by
  simp [Dev.spdmRun, opened, twelve, h]

/-- A request ahead of its forerunners is unexpected. -/
theorem Dev.spdmRun_early (twelve : x.other = none) {need : Nat} (h : (d.mg x.link.val).spdm < need)
    (f : Dev → Dev) : d.spdmRun x need f = d.spdmError x.link.val 4 := by
  simp [Dev.spdmRun, opened, twelve, h, spdmUnexpected]

/-- A request in an established session is served. -/
theorem Dev.inSession_served (twelve : x.other = none) (h : 3 ≤ (d.mg x.link.val).spdm) {y : Session}
    (found : (d.mg x.link.val).session? x.session = some y) (established : y.cls.isSome = true) (f : Dev → Dev) :
    d.inSession x f = f d := by
  rw [Dev.inSession, Dev.spdmRun_served opened twelve h, found]
  exact if_pos established
end

/-! ### The requests -/

variable {s : State} {x : SpdmCtx}

theorem goto_responds {d : Dev} {code : Nat} {v : List Nat} (run : d = e)
    (h : s.d.Responds m code v l e) : ∃ t, goto s d = .next t ∧ (t.d.out = .spdm m code v :: s.d.out ∧
      t.d.fuses = s.d.fuses ∧ t.d.fwd = s.d.fwd ∧ t.d.boot = s.d.boot ∧ t.d.mg (1 - m) = s.d.mg (1 - m)) ∧
      t.d.mg m = l :=
  ⟨_, congrArg (goto s) run, h⟩

/-- A response that ends in one free value: a digest, a signature, or exchange data. -/
theorem goto_responds_free {d : Dev} {code : Nat} (v : List Nat) (run : d = e.spdmFree m code v)
    (h : s.d.AtLink m l e) : ∃ t w, goto s d = .next t ∧ (t.d.out = .spdm m code (v ++ [w]) :: s.d.out ∧
      t.d.fuses = s.d.fuses ∧ t.d.fwd = s.d.fwd ∧ t.d.boot = s.d.boot ∧ t.d.mg (1 - m) = s.d.mg (1 - m)) ∧
      t.d.mg m = l :=
  ⟨_, _, congrArg (goto s) run, h.sendFree code v⟩

end Sys2Proof.Machine

open Sys2Proof Sys2Proof.Machine

/-- Settles O30: which branch of its request's answer each clause takes, and what that response leaves. -/
theorem spdmSessions : Obligations.SpdmSessions := by
  intro s x opened m l sends
  have hm : m < 2 := x.link.isLt
  have err (code : Nat) := s.d.responds_error m code
  have same := s.d.atLink_refl m
  have set (l' : MgLink) := s.d.atLink_setMg hm l'
  refine ⟨fun other i hi => ?_, fun twelve => ?_⟩
  · simp only [List.mem_cons, List.not_mem_nil, or_false] at hi
    obtain rfl | rfl | rfl | rfl | rfl | rfl := hi <;>
      exact goto_responds (Dev.spdmRun_other opened other _ _) (err 7)
  have served {need : Nat} (h : need ≤ l.spdm) (f : Dev → Dev) := Dev.spdmRun_served opened twelve h f
  refine ⟨goto_responds (served (Nat.zero_le _) _) ((set _).send _ _),
    fun h => goto_responds (served h _) ((set _).send _ _),
    fun h => goto_responds ((served h _).trans (if_pos rfl)) ((set _).send _ _),
    fun h a b c d bad => goto_responds ((served h _).trans (if_neg (ne_true_of_eq_false bad))) (err 7),
    fun h => goto_responds (Dev.spdmRun_early opened twelve h _) (err 4),
    fun h => goto_responds_free [1] (served h _) same, fun h o n => ?_,
    fun h n => goto_responds_free [0, n.toNat] ((served h _).trans (if_neg (not_not.2 rfl))) same,
    fun h n => goto_responds (served h _) (same.send _ _), fun h slot r p room => ?_,
    fun h slot r p => goto_responds ((served h _).trans (if_pos (by simpa using slot))) (err 7),
    fun h slot r p full => ?_, fun h y key k found fresh known => ?_, fun h y found established => ?_⟩
  · refine ⟨_, congrArg (goto s) ((served h _).trans (if_neg (not_not.2 rfl))), ?_⟩
    exact (same.send 2 _).symm
  · have slot0 : ¬ (x.slot != 0) = true := by simpa using slot
    refine goto_responds_free [(s.d.freeId m).toNat, r.toNat, p.toNat] ((served h _).trans ?_) (set _)
    exact (if_neg slot0).trans (if_neg (Nat.not_le.2 room))
  · have slot0 : ¬ (x.slot != 0) = true := by simpa using slot
    refine goto_responds ((served h _).trans ?_) (err 0x0A)
    exact (if_neg slot0).trans (if_pos full)
  · refine goto_responds ((served h _).trans ?_) ((set _).send 0x65 [])
    simp only [show (s.d.mg x.link.val).session? x.session = some y from found, fresh, known]
    rfl
  · have within (f : Dev → Dev) := Dev.inSession_served opened twelve h found established f
    have ended := (same.send 0x6C []).andThen (((s.d.spdmSend m 0x6C []).atLink_refl m).endSession hm x.session)
    exact ⟨goto_responds (within _) (same.send _ _),
      goto_responds ((within _).trans (if_pos rfl)) ((set _).send _ _),
      goto_responds (within _) (same.send 0x69 [3]), goto_responds (within _) ended⟩
end

section
/-! PROOF. The arrival of a command packet, check by check (R404, R405, R409), and the gate by device state and class
(R408, R410). -/

namespace Sys2Proof.Machine

variable {s : State} {a : Arrival}

/-! ### Arrival (R404, R405, R409) -/

/-- The checks of a command packet that reaches the device, and is secured where its source has to be. -/
def Dev.checkPacket (d : Dev) (a : Arrival) : Dev :=
  if queuePlaces ≤ d.placesHeld a.src then d.rawAnswer a .busy
  else if 4096 < a.len.toNat || a.len.toNat ≠ a.bytes then d.rawAnswer a .badParam
  else if !opcodeDefined a.opcode.toNat then d.rawAnswer a .incompatible
  else { d with cmd := { d.cmd with places := d.cmd.places ++
    [{ src := a.src, seq := a.seq, opcode := a.opcode.toNat, session := a.session }] } }

theorem exec_commandArrival (reaches : s.d.arrives a = true) (secured : a.src = .howlink ∨ a.secured = true)
    (typ : a.typ = 1) : exec (.commandArrival a) s = .next (s.put (s.d.checkPacket a)) := by
  have noForgery : ¬ (s.d.awake && s.d.destUp a.src && a.src != .howlink && !a.secured) = true := by
    obtain h | h := secured <;> simp [h]
  refine congrArg (goto s) ((if_neg noForgery).trans (if_neg ?_))
  simp [reaches, typ]

section
variable {d : Dev}

theorem Dev.checkPacket_busy (full : 64 ≤ d.placesHeld a.src) : d.checkPacket a = d.rawAnswer a .busy :=
  if_pos full

theorem Dev.checkPacket_badParam (room : d.placesHeld a.src < 64)
    (bad : 4096 < a.len.toNat ∨ a.len.toNat ≠ a.bytes) : d.checkPacket a = d.rawAnswer a .badParam :=
  (if_neg (Nat.not_le.2 room)).trans (if_pos (by simpa using bad))

/-- A packet of a length within bounds, which is its own. -/
def packetFits (a : Arrival) : Prop := a.len.toNat ≤ 4096 ∧ a.len.toNat = a.bytes

theorem packetFits.not_bad (h : packetFits a) : ¬ (4096 < a.len.toNat || a.len.toNat ≠ a.bytes) = true := by
  obtain ⟨short, whole⟩ := h
  simp [whole, whole ▸ short]

theorem Dev.checkPacket_incompatible (room : d.placesHeld a.src < 64) (fits : packetFits a)
    (unknown : opcodeDefined a.opcode.toNat = false) : d.checkPacket a = d.rawAnswer a .incompatible :=
  (if_neg (Nat.not_le.2 room)).trans ((if_neg fits.not_bad).trans (if_pos (by rw [unknown]; rfl)))

theorem Dev.checkPacket_taken (room : d.placesHeld a.src < 64) (fits : packetFits a)
    (known : opcodeDefined a.opcode.toNat = true) : d.checkPacket a = { d with cmd := { d.cmd with places :=
      d.cmd.places ++ [{ src := a.src, seq := a.seq, opcode := a.opcode.toNat, session := a.session }] } } :=
  (if_neg (Nat.not_le.2 room)).trans ((if_neg fits.not_bad).trans (if_neg (by rw [known]; decide)))

/-- A packet that takes a place holds one more of its source's. -/
theorem Dev.placesHeld_append (d : Dev) (p : Place) :
    ({ d with cmd := { d.cmd with places := d.cmd.places ++ [p] } } : Dev).placesHeld p.src =
      d.placesHeld p.src + 1 := by
  simp [Dev.placesHeld]

/-- An immediate answer is sent while SV1 runs, and touches nothing of the command path (R409). -/
theorem Dev.rawAnswer_sent (runs : d.svRuns 1 = true) (noFail : d.boot.svFail = 0) (a : Arrival) (st : Status) :
    .rawReply a st ∈ (d.rawAnswer a st).out ∧ (d.rawAnswer a st).cmd = d.cmd := by
  have alive : ¬ (!d.svRuns 1 || d.boot.svFail != 0) = true := by simp [runs, noFail]
  unfold Dev.rawAnswer
  rw [if_neg alive]
  dsimp only
  cases a.src with
  | howlink => exact ⟨Dev.mem_raiseInt_out _ _ List.mem_cons_self, Dev.raiseInt_cmd _ _⟩
  | mg0 => exact ⟨List.mem_cons_self, rfl⟩
  | mg1 => exact ⟨List.mem_cons_self, rfl⟩
end

/-! ### The gate (R408, R410) -/

section
variable {d : Dev} {c : CmdCtx} {k : PrivClass} (alive : (d.awake = true ∧ d.svRuns 1 = true) ∧ d.boot.svFail = 0)
  (path : d.classOf c = some k)
include alive path

/-- Past its checks of the device and of the path, the gate goes by the device state. -/
theorem Dev.gate_alive (op : Nat) (cls : PrivClass) : d.gate c op cls =
    match d.boot.st with
    | .powerOn | .selfTest | .boot => .answer .busy
    | .safeTalk =>
      if op / 256 = 0x01 || op / 256 = 0x0B || op / 256 = 0x0C || cls = .observer then
        if cls.rank ≤ k.rank then .run else .answer .denied
      else .answer .denied
    | .ready | .run => if cls.rank ≤ k.rank then .run else .answer .denied := by
  obtain ⟨⟨awake, runs⟩, noFail⟩ := alive
  unfold Dev.gate
  simp only [awake, runs, noFail, path]
  rfl

/-- In READY and RUN the class decides alone. -/
theorem Dev.gate_serving (st : d.boot.st = .ready ∨ d.boot.st = .run) (op : Nat) (cls : PrivClass) :
    d.gate c op cls = if cls.rank ≤ k.rank then .run else .answer .denied := by
  rw [Dev.gate_alive alive path]
  obtain st | st := st <;> rw [st]

theorem Dev.gate_busy (st : d.boot.st = .powerOn ∨ d.boot.st = .selfTest ∨ d.boot.st = .boot) (op : Nat)
    (cls : PrivClass) : d.gate c op cls = .answer .busy := by
  rw [Dev.gate_alive alive path]
  obtain st | st | st := st <;> rw [st]

/-- SAFE_TALK serves the device, security and diagnosis groups, and observers; all else is denied. -/
theorem Dev.gate_safeTalk_denied (st : d.boot.st = .safeTalk) {op : Nat} {cls : PrivClass}
    (group : op / 256 ∉ [0x01, 0x0B, 0x0C]) (writes : cls ≠ .observer) : d.gate c op cls = .answer .denied := by
  rw [Dev.gate_alive alive path, st]
  refine if_neg ?_
  simpa [writes, and_assoc] using group
end

end Sys2Proof.Machine

open Sys2Proof Sys2Proof.Machine

/-- Settles O26. -/
theorem arrivalAndGate : Obligations.ArrivalAndGate := by
  refine ⟨fun s a reaches secured typ room short whole known => ⟨_, exec_commandArrival reaches secured typ, ?_⟩,
    fun s a reaches secured typ runs noFail full => ⟨_, exec_commandArrival reaches secured typ, ?_⟩,
    fun s a reaches secured typ runs noFail room bad => ⟨_, exec_commandArrival reaches secured typ, ?_⟩,
    fun s a reaches secured typ runs noFail room short whole unknown =>
      ⟨_, exec_commandArrival reaches secured typ, ?_⟩,
    fun d c op cls k awake runs noFail path st => ?_,
    fun d c op cls k awake runs noFail path st => Dev.gate_busy ⟨⟨awake, runs⟩, noFail⟩ path st op cls,
    fun d c op cls k awake runs noFail path st group writes =>
      Dev.gate_safeTalk_denied ⟨⟨awake, runs⟩, noFail⟩ path st group writes,
    fun d i c op cls st f gate => Dev.runCmd_turned_away gate⟩
  · rw [State.put_d, Dev.checkPacket_taken room ⟨short, whole⟩ known]
    exact ⟨Dev.placesHeld_append _ _, rfl, rfl, rfl, rfl⟩
  · rw [State.put_d, Dev.checkPacket_busy full]
    exact Dev.rawAnswer_sent runs noFail a _
  · rw [State.put_d, Dev.checkPacket_badParam room bad]
    exact Dev.rawAnswer_sent runs noFail a _
  · rw [State.put_d, Dev.checkPacket_incompatible room ⟨short, whole⟩ unknown]
    exact Dev.rawAnswer_sent runs noFail a _
  · rw [Dev.gate_serving ⟨⟨awake, runs⟩, noFail⟩ path st]
    split_ifs with enough
    · simp [enough]
    · simp [enough, Nat.lt_of_not_le enough]
end

section
/-! PROOF. Bring-up, stage by stage: DETECT, TRAIN and LOCK (R337, R360 to R363, R366, R522). -/

namespace Sys2Proof.Machine

variable {s : State} {p : Port}

/-! ### DETECT (R360) -/

/-- A port whose light has come back. -/
def PortSt.lit (x : PortSt) : PortSt := { x with los := false }

/-- A port that enters TRAIN, its modulator muted or not (R360, R376). -/
def PortSt.training (x : PortSt) (muted : Bool) : PortSt :=
  { x with st := .train, muted := muted, rxReady := false, winBits := 0, winErrs := 0, readySent := 0, readyGot := 0,
           prbsBits := 0, prbsErrs := 0 }

theorem exec_lightDetected (awake : s.d.awake = true) : exec (.lightDetected p) s =
    .next (s.put ((s.d.setPort p.val (s.d.port p.val).lit).leaveDetect p.val)) :=
  congrArg (goto s) (if_neg (by rw [awake]; decide))

/-- A changed port of the same mode sees the same rings. -/
theorem Dev.ringsReady_setPort (d : Dev) {p : Nat} {x : PortSt} (mode : x.mode = (d.port p).mode) :
    (d.setPort p x).ringsReady p = d.ringsReady p := by
  unfold Dev.ringsReady
  rw [Dev.port_setPort_same, mode]
  rfl

theorem Dev.mustMute_setPort (d : Dev) {p : Nat} {x : PortSt} (mode : x.mode = (d.port p).mode) :
    (d.setPort p x).mustMute p = d.mustMute p := by
  unfold Dev.mustMute
  rw [Dev.port_setPort_same, mode]
  rfl

/-- With its rings ready, a port's modulator is muted in loopback NEAR alone (R337, R522). -/
theorem Dev.mustMute_of_ringsReady {d : Dev} {p : Nat} (ready : d.ringsReady p = true) :
    d.mustMute p = (d.loop p == 1) := by
  rw [Dev.ringsReady, Bool.or_eq_true, Bool.or_eq_true, Bool.and_eq_true] at ready
  obtain (campus | near) | ⟨locked, -⟩ := ready
  · simp [Dev.mustMute, campus]
  · simp [Dev.mustMute, near]
  · simp [Dev.mustMute, locked]

/-- A lit port in DETECT or ABSENT whose rings are ready enters TRAIN. -/
theorem Dev.leaveDetect_enters {d : Dev} {p : Nat} (st : (d.port p).st = .detect ∨ (d.port p).st = .absent)
    (lit : (d.port p).los = false) (ready : d.ringsReady p = true) :
    d.leaveDetect p = d.setPort p ((d.port p).training (d.loop p == 1)) := by
  have leaves : (((d.port p).st = .detect || (d.port p).st = .absent) && !(d.port p).los && d.ringsReady p) = true := by
    simp [st, lit, ready]
  refine (if_pos leaves).trans ?_
  rw [Dev.enterTrain, Dev.mustMute_of_ringsReady ready]
  rfl

theorem Dev.leaveDetect_stays {d : Dev} {p : Nat} (unready : d.ringsReady p = false) : d.leaveDetect p = d :=
  if_neg (by simp [unready])

/-- Two settings of one port are the later one, for it and for every other port. -/
theorem Dev.port_setPort_twice (d : Dev) (p : Nat) (x y : PortSt) :
    ((d.setPort p x).setPort p y).port p = y ∧ ∀ q, q ≠ p → ((d.setPort p x).setPort p y).port q = d.port q :=
  ⟨Dev.port_setPort_same .., fun _ hq => (Dev.port_setPort_other _ _ hq).trans (d.port_setPort_other _ hq)⟩

/-- Light leads out of DETECT and ABSENT once the rings are ready (R360). -/
theorem exec_lightDetected_trains (awake : s.d.awake = true)
    (st : (s.d.port p.val).st = .detect ∨ (s.d.port p.val).st = .absent) (ready : s.d.ringsReady p.val = true) :
    exec (.lightDetected p) s = .next (s.put ((s.d.setPort p.val (s.d.port p.val).lit).setPort p.val
      ((s.d.port p.val).lit.training (s.d.loop p.val == 1)))) := by
  have same := s.d.port_setPort_same p.val (s.d.port p.val).lit
  have stillReady := (s.d.ringsReady_setPort (x := (s.d.port p.val).lit) rfl).trans ready
  have enters := Dev.leaveDetect_enters (by rwa [same]) (by rw [same]; rfl) stillReady
  rw [exec_lightDetected awake, enters, same]
  rfl

theorem exec_lightDetected_stays (awake : s.d.awake = true) (unready : s.d.ringsReady p.val = false) :
    exec (.lightDetected p) s = .next (s.put (s.d.setPort p.val (s.d.port p.val).lit)) := by
  rw [exec_lightDetected awake,
    Dev.leaveDetect_stays ((s.d.ringsReady_setPort (x := (s.d.port p.val).lit) rfl).trans unready)]

theorem exec_absentTimeout_planned (awake : s.d.awake = true) (st : (s.d.port p.val).st = .detect)
    (planned : (s.d.planOf (s.d.logical p.val)).valid = true) : exec (.absentTimeout p) s =
    .next (s.put (s.d.setPort p.val { s.d.port p.val with st := .absent })) :=
  congrArg (goto s) (if_pos (by simp [awake, st, planned]))

/-! ### TRAIN (R361, R362) -/

/-- A bit of the majority of three status words (R361). -/
theorem majority_getLsbD (a b c : BitVec 16) (i : Nat) : (majority a b c).getLsbD i =
    ((a.getLsbD i && b.getLsbD i) || (a.getLsbD i && c.getLsbD i) || (b.getLsbD i && c.getLsbD i)) := by
  simp [majority]

/-- Three frames in a row with RX_READY are remembered (R362). -/
def PortSt.gotReady (x : PortSt) (bit : Bool) : Nat := if 3 ≤ x.readyGot then 3 else if bit then x.readyGot + 1 else 0

/-- A port in TRAIN after a training frame that it received. -/
def PortSt.heardFrame (x : PortSt) (bit : Bool) (bits errs : Nat) : PortSt :=
  { x.berWindow bits errs with
    prbsBits := x.prbsBits + BitVec.ofNat 64 bits, prbsErrs := x.prbsErrs + BitVec.ofNat 64 errs,
    readyGot := x.gotReady bit }

/-- The conditions that end TRAIN (R362). -/
theorem PortSt.trained_iff (x : PortSt) : x.trained = true ↔ x.rxReady = true ∧ 8 ≤ x.readySent ∧ 3 ≤ x.readyGot := by
  simp only [PortSt.trained, Bool.and_eq_true, decide_eq_true_eq, and_assoc]

/-- A port that has trained goes on to LOCK. -/
def PortSt.toLock (x : PortSt) : PortSt := if x.trained then { x with st := .lock } else x

theorem exec_trainingFrameReceived {c0 c1 c2 : BitVec 16} {bits errs : Nat} (awake : s.d.awake = true)
    (st : (s.d.port p.val).st = .train) : exec (.trainingFrameReceived p c0 (c1, c2) bits errs) s =
    .next (s.put (s.d.setPort p.val
      ((s.d.port p.val).heardFrame ((majority c0 c1 c2).getLsbD 0) bits errs).toLock)) := by
  refine congrArg (goto s) ((if_neg (by simp [awake, st])).trans ?_)
  exact (apply_ite (s.d.setPort p.val) _ _ _).symm

theorem PortSt.heardFrame_rxReady (x : PortSt) (bit : Bool) (bits errs : Nat) : (x.heardFrame bit bits errs).rxReady =
    if x.winBits + bits < 2 ^ 27 then x.rxReady else decide ((x.winErrs + errs) * 1000 ≤ x.winBits + bits) := by
  simp only [PortSt.heardFrame, PortSt.berWindow]
  split <;> rfl

/-- The window of received bits touches neither the state nor the frames sent. -/
theorem PortSt.heardFrame_keeps (x : PortSt) (bit : Bool) (bits errs : Nat) :
    (x.heardFrame bit bits errs).st = x.st ∧ (x.heardFrame bit bits errs).readySent = x.readySent := by
  simp only [PortSt.heardFrame, PortSt.berWindow]
  split <;> exact ⟨rfl, rfl⟩

/-- TRAIN ends once its three conditions hold (R362). -/
theorem PortSt.toLock_st {x : PortSt} (st : x.st = .train) :
    x.toLock.st = if x.rxReady = true ∧ 8 ≤ x.readySent ∧ 3 ≤ x.readyGot then .lock else .train := by
  unfold PortSt.toLock
  simp only [PortSt.trained_iff]
  split
  · rfl
  · exact st

/-- Nothing but the state moves. -/
theorem PortSt.toLock_keeps (x : PortSt) : x.toLock.rxReady = x.rxReady ∧ x.toLock.readyGot = x.readyGot ∧
    x.toLock.prbsBits = x.prbsBits ∧ x.toLock.prbsErrs = x.prbsErrs := by
  unfold PortSt.toLock
  split <;> exact ⟨rfl, rfl, rfl, rfl⟩

/-- A port that has sent `n` training frames with RX_READY and whose PRBS13 stands at a place. -/
def PortSt.sentUpTo (x : PortSt) (n pos : Nat) : PortSt := { x with readySent := n, prbsPos := pos }

theorem PortSt.sentUpTo_keeps (x : PortSt) (n pos : Nat) : (x.sentUpTo n pos).st = x.st ∧
    (x.sentUpTo n pos).rxReady = x.rxReady ∧ (x.sentUpTo n pos).readyGot = x.readyGot := ⟨rfl, rfl, rfl⟩

/-- A training frame is sent: it counts where it bears RX_READY, and PRBS13 goes on behind it (R361). -/
def PortSt.framed (x : PortSt) : PortSt :=
  x.sentUpTo (if x.rxReady then x.readySent + 1 else x.readySent) ((x.prbsPos + trainBits) % 8191)

/-- A port that has trained goes on to LOCK, where the frames sent count anew. -/
def PortSt.sentFrame (x : PortSt) : PortSt :=
  if x.framed.trained then { x.framed with st := .lock, readySent := 0 } else x.framed

/-- The status word of a training frame that a port sends. -/
def PortSt.trainWord (x : PortSt) : BitVec 16 := if x.rxReady then 1 else 0

/-- A training frame leaves the port, and returns in loopback NEAR and OPTICAL (R522). -/
def Dev.sendTraining (d : Dev) (p : Nat) : Dev :=
  d.emit p (.training p (d.port p).trainWord (d.port p).prbsPos) [d.trainingReturn p (d.port p).trainWord]

/-- Outside loopback a frame without RX_READY is sent, and no more. -/
theorem Dev.sendTraining_unready {d : Dev} {p : Nat} (unready : (d.port p).rxReady = false)
    (noLoop : d.loopsBack p = false) : d.sendTraining p = d.send (.training p 0 (d.port p).prbsPos) := by
  have word : (d.port p).trainWord = 0 := if_neg (ne_true_of_eq_false unready)
  rw [Dev.sendTraining, Dev.emit_eq, noLoop, word]
  rfl

/-- A frame with RX_READY is sent, and returns where the port is in loopback. -/
theorem Dev.sendTraining_ready {d : Dev} {p : Nat} (ready : (d.port p).rxReady = true) :
    (d.sendTraining p).out = .training p 1 (d.port p).prbsPos :: d.out ∧
    (d.sendTraining p).loopQ = (if d.loopsBack p then d.loopQ ++ [d.trainingReturn p 1] else d.loopQ) ∧
    (d.sendTraining p).ports = d.ports := by
  have word : (d.port p).trainWord = 1 := if_pos ready
  rw [Dev.sendTraining, Dev.emit_eq, word]
  exact ⟨rfl, rfl, rfl⟩

theorem exec_trainingFrameSent (awake : s.d.awake = true) (heard : s.d.silent p.val = false)
    (st : (s.d.port p.val).st = .train) : exec (.trainingFrameSent p) s =
    .next (s.put ((s.d.sendTraining p.val).setPort p.val (s.d.port p.val).sentFrame)) := by
  refine congrArg (goto s) ((if_neg (by simp [awake, heard])).trans ((if_pos st).trans ?_))
  exact (apply_ite ((s.d.sendTraining p.val).setPort p.val) _ _ _).symm

theorem Dev.silent_of_unmuted {d : Dev} {p : Nat} (h : (d.port p).muted = false) : d.silent p = false := by
  rw [Dev.silent, h, Bool.false_and]

theorem exec_trainingFrameSent_muted (muted : (s.d.port p.val).muted = true) (far : s.d.loop p.val ≠ 1) :
    exec (.trainingFrameSent p) s = .next s :=
  congrArg (goto s) (if_pos (by simp [Dev.silent, muted, far]))

/-- A port that is not ready sends on (R361). -/
theorem PortSt.sentFrame_unready {x : PortSt} (unready : x.rxReady = false) :
    x.sentFrame = { x with prbsPos := (x.prbsPos + 32608) % 8191 } := by
  have framed : x.framed = { x with prbsPos := (x.prbsPos + 32608) % 8191 } := by
    rw [PortSt.framed, if_neg (ne_true_of_eq_false unready), show trainBits = 32608 from rfl]
    rfl
  rw [PortSt.sentFrame, framed]
  exact if_neg (by simp [PortSt.trained, unready])

/-- With RX_READY the frame counts, and the eighth that does ends TRAIN (R362). -/
theorem PortSt.sentFrame_ready_st {x : PortSt} (st : x.st = .train) (ready : x.rxReady = true) :
    x.sentFrame.st = if 7 ≤ x.readySent ∧ 3 ≤ x.readyGot then .lock else .train := by
  obtain ⟨stKept, readyKept, gotKept⟩ :=
    x.sentUpTo_keeps (if x.rxReady then x.readySent + 1 else x.readySent) ((x.prbsPos + trainBits) % 8191)
  have trained : x.framed.trained = true ↔ 7 ≤ x.readySent ∧ 3 ≤ x.readyGot := by
    have sent : x.framed.readySent = x.readySent + 1 := if_pos ready
    rw [PortSt.trained_iff, sent, PortSt.framed, readyKept, gotKept]
    exact ⟨fun ⟨_, eight, three⟩ => ⟨Nat.le_of_succ_le_succ eight, three⟩,
      fun ⟨seven, three⟩ => ⟨ready, Nat.succ_le_succ seven, three⟩⟩
  unfold PortSt.sentFrame
  simp only [trained]
  split
  · rfl
  · exact stKept.trans st

/-! ### LOCK (R322, R363, R366) -/

/-- A block of the port arrives in LOCK: codewords decode, and a SYNC that names a frame gives framing. -/
def PortSt.heardBlock (x : PortSt) (c : ControlBlock) : PortSt :=
  if c.starts then { x with fecLock := true, hunting := false, frameSync := true } else { x with fecLock := true }

theorem PortSt.heardBlock_fields (x : PortSt) (c : ControlBlock) : (x.heardBlock c).fecLock = true ∧
    (x.heardBlock c).st = x.st ∧ (x.heardBlock c).frameSync = (x.frameSync || c.starts) := by
  unfold PortSt.heardBlock
  cases c.starts with
  | true => exact ⟨rfl, rfl, (Bool.or_true _).symm⟩
  | false => exact ⟨rfl, rfl, (Bool.or_false _).symm⟩

/-- The LINK messages among the received blocks are counted (R331). -/
def Dev.countBlock (d : Dev) (p : Nat) (c : ControlBlock) : Dev :=
  match c with
  | .link _ => d.countLink p 1
  | _ => d

theorem Dev.countBlock_port (d : Dev) (p : Nat) (c : ControlBlock) (q : Nat) : (d.countBlock p c).port q = d.port q := by
  cases c with
  | link m => exact d.port_countLink p 1 q
  | idle => rfl
  | sync off => rfl
  | reserved => rfl

theorem exec_syncBlockReceived_lock {b : BitVec 256} (awake : s.d.awake = true) (st : (s.d.port p.val).st = .lock) :
    exec (.syncBlockReceived ⟨p, b⟩) s = .next (s.put ((s.d.countBlock p.val (.ofBody b)).setPort p.val
      ((s.d.port p.val).heardBlock (.ofBody b)))) := by
  have own : ¬ s.d.returns p.val = true := by simp [Dev.returns, st]
  refine congrArg (goto s) ((if_neg own).trans ((if_neg (by simp [awake])).trans ((if_pos st).trans ?_)))
  refine congrArg₂ (Dev.setPort · p.val ·) ?_ ?_
  · rfl
  · unfold PortSt.heardBlock
    cases (ControlBlock.ofBody b).starts <;> simp [st]

theorem exec_lockAchieved (awake : s.d.awake = true) (st : (s.d.port p.val).st = .lock) :
    exec (.lockAchieved p) s = .next (s.put (s.d.enterExchange p.val)) :=
  congrArg (goto s) (if_pos (by simp [awake, st]))

/-- EXCHANGE begins with a new ROUND and neither half of the exchange made (R364, R366). -/
def PortSt.exchanging (x : PortSt) (muted : Bool) : PortSt :=
  { x.cleared with st := .exchange, round := x.round + 1, fecLock := true, frameSync := true, muted := muted }

/-- A pair that is sent leaves the device as it was, but for what goes out and what returns. -/
theorem Dev.sendPair_shape (d : Dev) (p : Nat) : ∃ r o, d.sendPair p = { d with loopQ := r, out := o } := by
  unfold Dev.sendPair
  dsimp only
  split
  · exact ⟨_, _, rfl⟩
  · rw [Dev.emit_eq, Dev.emit_eq]
    exact ⟨_, _, rfl⟩

theorem Dev.enterExchange_shape (d : Dev) (p : Nat) : ∃ r o, d.enterExchange p =
    { d.setPort p ((d.port p).exchanging (d.mustMute p)) with loopQ := r, out := o } :=
  Dev.sendPair_shape ..

end Sys2Proof.Machine

open Sys2Proof Sys2Proof.Machine

/-- Settles O38: what each stage leaves of the port, and that no other port changes. -/
theorem portStages : Obligations.PortStages := by
  refine ⟨fun s p awake st ready => ?_, fun s p awake unready => ?_,
    fun s p awake st planned => exec_absentTimeout_planned awake st planned,
    fun s p c0 c1 c2 bits errs awake st => ?_, fun s p _ muted far => exec_trainingFrameSent_muted muted far,
    fun s p awake unmuted st unready noLoop => ?_, fun s p awake unmuted st ready => ?_,
    fun s p b awake st => ?_, fun s p awake st => ?_⟩
  · obtain ⟨own, others⟩ := s.d.port_setPort_twice p.val (s.d.port p.val).lit
      ((s.d.port p.val).lit.training (s.d.loop p.val == 1))
    exact ⟨_, exec_lightDetected_trains awake st ready, own, others, rfl⟩
  · exact ⟨_, exec_lightDetected_stays awake unready, s.d.port_setPort_same ..,
      fun q hq => s.d.port_setPort_other _ hq, rfl⟩
  · intro x bit got ready
    have own := s.d.port_setPort_same p.val (x.heardFrame ((majority c0 c1 c2).getLsbD 0) bits errs).toLock
    obtain ⟨rxReady, readyGot, checked, wrong⟩ :=
      (x.heardFrame ((majority c0 c1 c2).getLsbD 0) bits errs).toLock_keeps
    obtain ⟨stKept, sentKept⟩ := x.heardFrame_keeps ((majority c0 c1 c2).getLsbD 0) bits errs
    have window := x.heardFrame_rxReady ((majority c0 c1 c2).getLsbD 0) bits errs
    have got' : (x.heardFrame ((majority c0 c1 c2).getLsbD 0) bits errs).readyGot = got := by
      rw [majority_getLsbD]
      rfl
    refine ⟨_, exec_trainingFrameReceived awake st, (congrArg PortSt.rxReady own).trans (rxReady.trans window),
      (congrArg PortSt.readyGot own).trans (readyGot.trans got'), (congrArg PortSt.prbsBits own).trans checked,
      (congrArg PortSt.prbsErrs own).trans wrong, (congrArg PortSt.st own).trans ?_,
      fun q hq => s.d.port_setPort_other _ hq, rfl, rfl, rfl⟩
    rw [PortSt.toLock_st (stKept.trans st), window, sentKept, got']
  · refine (exec_trainingFrameSent awake (Dev.silent_of_unmuted unmuted) st).trans ?_
    rw [PortSt.sentFrame_unready unready, Dev.sendTraining_unready unready noLoop]
  · refine ⟨_, exec_trainingFrameSent awake (Dev.silent_of_unmuted unmuted) st, ?_⟩
    obtain ⟨out, loopQ, ports⟩ := Dev.sendTraining_ready ready
    refine ⟨out, loopQ, ?_, fun q hq => (Dev.port_setPort_other _ _ hq).trans (Dev.port_congr ports q)⟩
    rw [State.put_d, Dev.port_setPort_same, PortSt.sentFrame_ready_st st ready]
  · refine ⟨_, exec_syncBlockReceived_lock awake st, ?_⟩
    obtain ⟨fec, kept, sync⟩ := (s.d.port p.val).heardBlock_fields (.ofBody b)
    have own := (s.d.countBlock p.val (.ofBody b)).port_setPort_same p.val
      ((s.d.port p.val).heardBlock (.ofBody b))
    exact ⟨(congrArg PortSt.fecLock own).trans fec, (congrArg PortSt.st own).trans (kept.trans st),
      (congrArg PortSt.frameSync own).trans sync,
      fun q hq => (Dev.port_setPort_other _ _ hq).trans (Dev.countBlock_port ..)⟩
  · obtain ⟨r, o, entered⟩ := s.d.enterExchange_shape p.val
    have own := s.d.port_setPort_same p.val ((s.d.port p.val).exchanging (s.d.mustMute p.val))
    have others (q : Nat) (hq : q ≠ p.val) :=
      s.d.port_setPort_other ((s.d.port p.val).exchanging (s.d.mustMute p.val)) hq
    exact ⟨_, (exec_lockAchieved awake st).trans (congrArg (goto s) entered), congrArg PortSt.st own,
      congrArg PortSt.round own, congrArg PortSt.pairNow own, congrArg PortSt.ackNow own,
      others, rfl, rfl, rfl⟩
end

section
/-! PROOF. What a failure of TRAIN, LOCK or EXCHANGE leaves (R362, R363, R366). -/

namespace Sys2Proof.Machine

variable {d : Dev} {p : Nat}

/-- A port with its training failures counted. -/
def PortSt.failedTimes (x : PortSt) (n : Nat) : PortSt := { x with trainFails := n }

/-- The device with a port's training failure counted, in the counter and in the port (R362). -/
def Dev.countTrainFail (d : Dev) (p : Nat) : Dev :=
  (d.bump (ctrPort p 0x148)).setPort p ((d.port p).failedTimes ((d.port p).trainFails + 1))

/-- TRAIN_RETRY of a port: 0 for no limit (R362). -/
def Dev.trainRetry (d : Dev) (p : Nat) : Nat := d.regBits (basePort p + 4) 7 0

theorem Dev.trainFail_eq (few : (d.port p).trainFails < 255) : d.trainFail p =
    if d.trainRetry p ≠ 0 ∧ d.trainRetry p ≤ (d.port p).trainFails + 1 then (d.countTrainFail p).setDown p 4
    else (d.countTrainFail p).toDetect p := by
  have count : (if (d.port p).trainFails < 255 then (d.port p).trainFails + 1 else 255) =
    (d.port p).trainFails + 1 := if_pos few
  unfold Dev.trainFail
  simp only [Dev.port_congr (Dev.bump_ports ..), count, bne_iff_ne, Bool.and_eq_true, decide_eq_true_eq]
  rfl

theorem Dev.countTrainFail_port (d : Dev) (p : Nat) :
    (d.countTrainFail p).port p = (d.port p).failedTimes ((d.port p).trainFails + 1) := Dev.port_setPort_same ..

theorem Dev.countTrainFail_other (d : Dev) {p q : Nat} (hq : q ≠ p) : (d.countTrainFail p).port q = d.port q :=
  Dev.port_setPort_other _ _ hq

/-- Into DETECT the failures in a row go along. -/
theorem PortSt.detecting_trainFails (x : PortSt) (now : Nat) : (x.detecting now).trainFails = x.trainFails := by
  unfold PortSt.detecting PortSt.onLanes
  split <;> rfl

/-- A port that goes DOWN with no frame in reception changes alone, and is not counted. -/
theorem Dev.quiet_setDown (noRx : (d.port p).rx = none) (reason : Nat) (cs : List Nat) :
    (d.setPort p { (d.port p).cleared with st := .down, reason := reason, muted := true }).Quiet cs
      (d.setDown p reason) := by
  rw [Dev.setDown, Dev.failRx_of_none noRx]
  exact Dev.quiet_checkFiber ..

/-- The way into DETECT leaves the tables. -/
theorem Dev.toDetect_fwd (d : Dev) (p : Nat) : (d.toDetect p).fwd = d.fwd := by
  have failed := (d.atPort_failRx p).fwd
  have ended (e : Dev) : ((e.setDown p 0).degraded p 2 5 0).fwd = e.fwd :=
    ((e.atPort_setDown p 0).trans (Dev.atPort_degraded ..)).fwd
  have slower (e : Dev) : ((e.degraded p 1 4 512).checkFiber p).fwd = e.fwd :=
    ((e.atPort_degraded p p 1 4 512).trans (Dev.atPort_checkFiber ..)).fwd
  have swept (e : Dev) (f : RingSt → RingSt) : (e.mapRings p f).fwd = e.fwd := rfl
  have off (e : Dev) (x : PortSt) : ((e.lightPort p false).setPort p x).fwd = e.fwd := rfl
  have lit (e : Dev) (x : PortSt) (b : Bool) : (((e.setPort p x).joinLoop p).lightPort p b).fwd = e.fwd := rfl
  unfold Dev.toDetect
  dsimp only
  split
  · rw [swept, off, failed]
  · split
    · rw [ended, failed]
    · split
      · rw [slower, apply_ite Dev.fwd, swept, ite_self, lit, failed]
      · rw [apply_ite Dev.fwd, swept, ite_self, lit, failed]

/-- What a failure leaves, by the two ways that it leads. -/
structure Dev.TrainFailed (d : Dev) (p : Nat) (e : Dev) : Prop where
  fails : (e.port p).trainFails = (d.port p).trainFails + 1
  count : e.ctr (ctrPort p 0x148) = (d.ctr (ctrPort p 0x148) + 1) % 2 ^ 64
  other : ∀ q, q ≠ p → e.port q = d.port q
  fwd : e.fwd = d.fwd
  red : e.red = d.red

/-- A quiet change of the failing port alone is such a failure. -/
theorem Dev.trainFailed_of_quiet {x : PortSt} {e : Dev} (fails : x.trainFails = (d.port p).trainFails + 1)
    (quiet : ((d.countTrainFail p).setPort p x).Quiet [] e) (fwd : e.fwd = d.fwd) : d.TrainFailed p e where
  fails := (congrArg PortSt.trainFails ((quiet.port p).trans (Dev.port_setPort_same ..))).trans fails
  count := (quiet.ctr _ List.not_mem_nil).trans (d.ctr_bump_same _)
  other q hq := (quiet.port q).trans ((Dev.port_setPort_other _ _ hq).trans (d.countTrainFail_other hq))
  fwd := fwd
  red := quiet.red

section
variable (noRx : (d.port p).rx = none)
include noRx

/-- The TRAIN_RETRYth failure in a row leads to DOWN with TRAIN_FAIL. -/
theorem Dev.trainFail_down : d.TrainFailed p ((d.countTrainFail p).setDown p 4) ∧
    (((d.countTrainFail p).setDown p 4).port p).st = .down ∧
    (((d.countTrainFail p).setDown p 4).port p).reason = 4 := by
  have own := d.countTrainFail_port p
  have quiet := Dev.quiet_setDown (d := d.countTrainFail p) (p := p) (by rw [own]; exact noRx) 4 []
  exact ⟨Dev.trainFailed_of_quiet (by rw [own]; rfl) quiet (Dev.atPort_setDown ..).fwd, Dev.port_setDown ..⟩

/-- Any other failure leads back to DETECT. -/
theorem Dev.trainFail_detect (mode : (d.port p).mode ≠ 0) (half : (d.port p).badHalf ≠ 3) (noLoop : d.loop p = 0) :
    d.TrainFailed p ((d.countTrainFail p).toDetect p) ∧
    (((d.countTrainFail p).toDetect p).port p).st = .detect := by
  have own := d.countTrainFail_port p
  have quiet := Dev.quiet_toDetect (d := d.countTrainFail p) (p := p) (by rw [own]; exact noRx)
    (by rw [own]; exact mode) (by rw [own]; exact half) noLoop []
  refine ⟨Dev.trainFailed_of_quiet ?_ quiet (Dev.toDetect_fwd ..), ?_⟩
  · rw [PortSt.detecting_trainFails, own]
    rfl
  · rw [quiet.port, Dev.port_setPort_same]
    rfl
end

/-- The three times that end in a failure of their stage. -/
theorem exec_stageTimeout {s : State} {p : Port} {i : Instr} (awake : s.d.awake = true)
    (h : (i = .trainTimeout p ∧ (s.d.port p.val).st = .train) ∨ (i = .lockTimeout p ∧ (s.d.port p.val).st = .lock) ∨
      (i = .exchangeTimeout p ∧ (s.d.port p.val).st = .exchange)) :
    exec i s = .next (s.put (s.d.trainFail p.val)) := by
  obtain ⟨rfl, st⟩ | ⟨rfl, st⟩ | ⟨rfl, st⟩ := h <;> exact congrArg (goto s) (if_pos (by simp [awake, st]))

end Sys2Proof.Machine

open Sys2Proof Sys2Proof.Machine

/-- Settles O39. -/
theorem trainingFailures : Obligations.TrainingFailures := by
  intro s p i stage awake noRx few mode half noLoop n lim
  refine ⟨_, exec_stageTimeout awake stage, ?_⟩
  rw [State.put_d, Dev.trainFail_eq few]
  split
  · next last =>
    obtain ⟨⟨fails, count, other, fwd, red⟩, down⟩ := Dev.trainFail_down noRx
    refine ⟨count, fails, fun more => ?_, fun _ => down, other, fwd, red⟩
    obtain ⟨limited, reached⟩ := last
    obtain unlimited | more := more
    · exact absurd unlimited limited
    · exact absurd reached (Nat.not_le.2 more)
  · next more =>
    obtain ⟨⟨fails, count, other, fwd, red⟩, detect⟩ := Dev.trainFail_detect noRx mode half noLoop
    exact ⟨count, fails, fun _ => detect, fun last => absurd last more, other, fwd, red⟩
end

section
/-! PROOF. The exchange of a port: a pair that arrives, its evaluation, and the acknowledgement (R364, R366, R368,
R370). -/

namespace Sys2Proof.Machine

variable {d : Dev} {p : Nat} {id feat : LinkMsg}

/-- `e` has the port `p` as `x`, and of the other ports, the tables, the store and the reduction plane what `d` has. -/
structure Dev.OnPort (p : Nat) (x : PortSt) (d e : Dev) : Prop where
  own : e.port p = x
  other : ∀ q, q ≠ p → e.port q = d.port q
  fwd : e.fwd = d.fwd
  store : e.store = d.store
  red : e.red = d.red

theorem Dev.onPort_setPort (d : Dev) (p : Nat) (x : PortSt) : Dev.OnPort p x d (d.setPort p x) :=
  ⟨d.port_setPort_same .., fun _ hq => d.port_setPort_other _ hq, rfl, rfl, rfl⟩

theorem Dev.OnPort.trans {x y : PortSt} {a b c : Dev} (h : Dev.OnPort p x a b) (k : Dev.OnPort p y b c) :
    Dev.OnPort p y a c :=
  ⟨k.own, fun q hq => (k.other q hq).trans (h.other q hq), k.fwd.trans h.fwd, k.store.trans h.store,
    k.red.trans h.red⟩

/-- An event reports, and leaves every port as it is. -/
theorem Dev.OnPort.event {x : PortSt} {e : Dev} (h : Dev.OnPort p x d e) (ev : Ev) :
    Dev.OnPort p x d (e.event ev) :=
  ⟨(Dev.port_congr (e.event_ports ev) p).trans h.own,
    fun q hq => (Dev.port_congr (e.event_ports ev) q).trans (h.other q hq), (e.event_fwd ev).trans h.fwd,
    (e.event_store ev).trans h.store, (e.event_red ev).trans h.red⟩

/-! ### What the exchange makes of a port -/

/-- A port with the pair that it received. -/
def PortSt.paired (x : PortSt) (id feat : LinkMsg) : PortSt :=
  { x with partnerId := id, partnerFeat := feat, hasPair := true, pairNow := true }

/-- A port whose partner its plan admits. -/
def PortSt.letIn (x : PortSt) : PortSt := { x with admitted := true }

/-- A port that enters ACTIVE (R366, R368). -/
def PortSt.activated (x : PortSt) (muted : Bool) : PortSt :=
  { x with st := .active, feat := BitVec.ofNat 4 (x.partnerFeat.field 4 4), verMinor := 0, trainFails := 0,
           muted := muted, admitted := true }

/-- A port whose plan keeps its partner out. -/
def PortSt.kept (x : PortSt) (st : PortState) : PortSt := { x with st := st, admitted := false }

theorem Dev.onPort_enterActive (d : Dev) (p : Nat) :
    Dev.OnPort p ((d.port p).activated (d.mustMute p)) d (d.enterActive p) :=
  (d.onPort_setPort ..).event _

theorem Dev.onPort_enterPlan (d : Dev) (p : Nat) (st : PortState) :
    Dev.OnPort p ((d.port p).kept st) d (d.enterPlan p st) := by
  unfold Dev.enterPlan
  dsimp only
  split
  · exact d.onPort_setPort ..
  · exact (d.onPort_setPort ..).event _

theorem Dev.takePair_eq (d : Dev) (p : Nat) (id feat : LinkMsg) : d.takePair p id feat =
    (d.setPort p ((d.port p).paired id feat)).sendLink p [0x12, LinkMsg.byte id 1] := rfl

/-- A valid pair is stored, and answered by an acknowledgement that changes no port. -/
theorem Dev.onPort_takePair (d : Dev) (p : Nat) (id feat : LinkMsg) :
    Dev.OnPort p ((d.port p).paired id feat) d (d.takePair p id feat) := by
  obtain ⟨r, o, sent⟩ :=
    (d.setPort p ((d.port p).paired id feat)).sendLink_shape p [0x12, LinkMsg.byte id 1]
  rw [Dev.takePair_eq, sent]
  obtain ⟨own, other, fwd, store, red⟩ := d.onPort_setPort p ((d.port p).paired id feat)
  exact ⟨own, other, fwd, store, red⟩

/-- The acknowledgement is sent unless the modulator is muted (R337). -/
theorem Dev.takePair_out (d : Dev) (p : Nat) (id feat : LinkMsg) : (d.takePair p id feat).out =
    if d.silent p then d.out else .link p 0x12 (LinkMsg.ofBytes [0x12, LinkMsg.byte id 1]) :: d.out := by
  have silent : (d.setPort p ((d.port p).paired id feat)).silent p = d.silent p := by
    rw [Dev.silent, Dev.port_setPort_same]
    rfl
  rw [Dev.takePair_eq, Dev.sendLink_out, silent]
  rfl

/-- The device with a pair counted and stored. -/
def Dev.heardPair (d : Dev) (p : Nat) (id feat : LinkMsg) : Dev := (d.countLink p 2).takePair p id feat

theorem Dev.onPort_heardPair (d : Dev) (p : Nat) (id feat : LinkMsg) :
    Dev.OnPort p ((d.port p).paired id feat) d (d.heardPair p id feat) := by
  obtain ⟨own, other, fwd, store, red⟩ := (d.countLink p 2).onPort_takePair p id feat
  exact ⟨own, other, fwd, store, red⟩

/-- The plan's entry of a port, and its loopback, are as before its pair came. -/
theorem Dev.heardPair_plan (d : Dev) (p : Nat) (id feat : LinkMsg) :
    (d.heardPair p id feat).planOf ((d.heardPair p id feat).logical p) = d.planOf (d.logical p) ∧
    (d.heardPair p id feat).loop p = d.loop p := by
  have bind : (d.heardPair p id feat).logical p = d.logical p := by
    rw [Dev.logical, (d.onPort_heardPair ..).own]
    rfl
  obtain ⟨_, _, sent⟩ := ((d.countLink p 2).setPort p (((d.countLink p 2).port p).paired id feat)).sendLink_shape p
    [0x12, LinkMsg.byte id 1]
  rw [bind, Dev.heardPair, Dev.takePair_eq, sent]
  exact ⟨rfl, rfl⟩

/-! ### The evaluation (R368) -/

section
variable (up : ((d.port p).st.bringUp false && (d.port p).hasPair && (d.port p).pairNow) = true)
include up

/-- An admitted partner makes the port ACTIVE once its acknowledgement has come. -/
theorem Dev.evaluate_take (verdict : d.verdict p = .take) (n : Nat) : d.evaluate (n + 1) p =
    if (d.port p).ackNow then d.enterActive p else d.setPort p (d.port p).letIn := by
  rw [Dev.evaluate, if_neg (by rw [up]; decide), verdict]
  rfl

theorem Dev.evaluate_to {st : PortState} (verdict : d.verdict p = .to st) (n : Nat) :
    d.evaluate (n + 1) p = d.enterPlan p st := by
  rw [Dev.evaluate, if_neg (by rw [up]; decide), verdict]
end

/-- An admitted port goes to ACTIVE where the acknowledgement has come, and waits for it elsewhere (R366). -/
theorem Dev.onPort_admitted {x : PortSt} (own : d.port p = x) : ∃ y,
    Dev.OnPort p y d (if x.ackNow then d.enterActive p else d.setPort p x.letIn) ∧
    y.st = (if x.ackNow then .active else x.st) ∧ y.admitted = true ∧ y.partnerId = x.partnerId ∧
    y.partnerFeat = x.partnerFeat := by
  subst own
  cases (d.port p).ackNow with
  | true => exact ⟨_, d.onPort_enterActive p, rfl, rfl, rfl, rfl⟩
  | false => exact ⟨_, d.onPort_setPort p _, rfl, rfl, rfl, rfl⟩

/-- A matching entry is one of the plan's. -/
theorem valid_of_planMatches {e : PlanEntry} (h : planMatches e id = true) : e.valid = true := by
  simp only [planMatches, Bool.and_eq_true] at h
  exact h.1.1.1.1.1

theorem Dev.verdict_incompatible (major : (d.port p).partnerFeat.field 2 1 ≠ 1) :
    d.verdict p = .to .incompatible :=
  if_pos (by simpa using major)

section
variable (major : (d.port p).partnerFeat.field 2 1 = 1) (noLoop : d.loop p = 0)
include major noLoop

theorem Dev.verdict_take (planned : planMatches (d.planOf (d.logical p)) (d.port p).partnerId = true) :
    d.verdict p = .take := by
  simp [Dev.verdict, major, noLoop, valid_of_planMatches planned, planned]

theorem Dev.verdict_unplanned (unplanned : (d.planOf (d.logical p)).valid = false) :
    d.verdict p = .to .unplanned := by
  simp [Dev.verdict, major, noLoop, unplanned]
end

/-! ### The commands -/

/-- The device with the acknowledgement of its pair counted and noted. -/
def Dev.heardAck (d : Dev) (p : Nat) : Dev := (d.countLink p 1).setPort p { d.port p with ackNow := true }

/-- The acknowledgement makes an admitted port ACTIVE. -/
theorem Dev.onPort_acknowledged (d : Dev) (p : Nat) : ∃ y,
    Dev.OnPort p y d (if (d.port p).admitted then (d.heardAck p).enterActive p else d.heardAck p) ∧
    y.ackNow = true ∧ y.st = if (d.port p).admitted then .active else (d.port p).st := by
  obtain ⟨own, other, fwd, store, red⟩ := (d.countLink p 1).onPort_setPort p { d.port p with ackNow := true }
  have acked : Dev.OnPort p { d.port p with ackNow := true } d (d.heardAck p) := ⟨own, other, fwd, store, red⟩
  cases (d.port p).admitted with
  | true =>
    have active := acked.trans (Dev.onPort_enterActive ..)
    rw [acked.own] at active
    exact ⟨_, active, rfl, rfl⟩
  | false => exact ⟨_, acked, rfl, rfl⟩

section
variable {s : State} {p : Port} (awake : s.d.awake = true) (fec : (s.d.port p.val).fecLock = true)
  (notFar : s.d.loop p.val ≠ 2)
include awake fec notFar

/-- A valid pair in EXCHANGE or a state beside it is stored, answered and evaluated. -/
theorem exec_exchPairReceived_bringUp (up : (s.d.port p.val).st.bringUp false = true)
    (active : (s.d.port p.val).st ≠ .active) (valid : pairValid id feat = true) :
    exec (.exchPairReceived p id feat) s =
      .next (s.put ((s.d.heardPair p.val id feat).evaluate 32 p.val)) := by
  have hears := Dev.hears_of awake fec notFar
  refine congrArg (goto s) ((if_neg (by simp [hears])).trans ((if_neg (by simp [valid])).trans ?_))
  exact (if_neg active).trans (if_pos up)

/-- A valid pair of the same partner in ACTIVE is stored and answered. -/
theorem exec_exchPairReceived_active (st : (s.d.port p.val).st = .active) (valid : pairValid id feat = true)
    (same : pairIdentity id feat = pairIdentity (s.d.port p.val).partnerId (s.d.port p.val).partnerFeat) :
    exec (.exchPairReceived p id feat) s = .next (s.put (s.d.heardPair p.val id feat)) := by
  have hears := Dev.hears_of awake fec notFar
  refine congrArg (goto s) ((if_neg (by simp [hears])).trans ((if_neg (by simp [valid])).trans ?_))
  exact (if_pos st).trans (if_pos same)

theorem exec_exchAckReceived_own (st : (s.d.port p.val).st = .exchange) :
    exec (.exchAckReceived p (s.d.port p.val).round) s = .next (s.put
      (if (s.d.port p.val).admitted then (s.d.heardAck p.val).enterActive p.val else s.d.heardAck p.val)) := by
  have hears := Dev.hears_of awake fec notFar
  exact congrArg (goto s) ((if_neg (by simp [hears])).trans (if_neg (by simp [st, PortState.bringUp])))
end

theorem exec_exchRepeatTimer_sends {s : State} {p : Port} (awake : s.d.awake = true)
    (st : (s.d.port p.val).st ∈ [.exchange, .active, .unplanned, .crossed, .incompatible]) :
    exec (.exchRepeatTimer p) s = .next (s.put (s.d.sendPair p.val)) := by
  have repeats : (s.d.awake && ((s.d.port p.val).st = .active || (s.d.port p.val).st.bringUp false)) = true := by
    simp only [List.mem_cons, List.not_mem_nil, or_false] at st
    obtain st | st | st | st | st := st <;> simp [awake, st, PortState.bringUp]
  exact congrArg (goto s) (if_pos repeats)

end Sys2Proof.Machine

open Sys2Proof Sys2Proof.Machine

/-- Settles O40. -/
theorem portExchange : Obligations.PortExchange := by
  refine ⟨fun s p id feat awake fec noLoop st valid major planned => ?_,
    fun s p id feat awake fec noLoop st valid major unplanned => ?_,
    fun s p id feat awake fec noLoop st valid major => ?_,
    fun s p id feat awake fec notFar st valid same => ?_, fun s p awake fec notFar st => ?_,
    fun s p awake st => exec_exchRepeatTimer_sends awake st⟩
  · have own := (s.d.onPort_heardPair p.val id feat).own
    obtain ⟨plan, loop⟩ := s.d.heardPair_plan p.val id feat
    have admits := Dev.evaluate_take (by rw [own]; simp [PortSt.paired, st, PortState.bringUp])
      (Dev.verdict_take (by rw [own]; exact major) (loop.trans noLoop) (by rw [plan, own]; exact planned)) 31
    refine ⟨_, exec_exchPairReceived_bringUp awake fec (by simp [noLoop]) (by simp [st, PortState.bringUp])
      (by simp [st]) valid, ?_⟩
    obtain ⟨y, evaluated, state, admitted, partner, features⟩ := Dev.onPort_admitted own
    obtain ⟨ownNow, other, fwd, store, -⟩ := (s.d.onPort_heardPair p.val id feat).trans evaluated
    rw [State.put_d, admits, own, ownNow]
    exact ⟨state.trans (by rw [← st]; rfl), admitted, partner, features, other, fwd, store⟩
  · have own := (s.d.onPort_heardPair p.val id feat).own
    obtain ⟨plan, loop⟩ := s.d.heardPair_plan p.val id feat
    have keeps := Dev.evaluate_to (by rw [own]; simp [PortSt.paired, st, PortState.bringUp])
      (Dev.verdict_unplanned (by rw [own]; exact major) (loop.trans noLoop) (by rw [plan]; exact unplanned)) 31
    have entered := (s.d.onPort_heardPair p.val id feat).trans (Dev.onPort_enterPlan _ p.val .unplanned)
    refine ⟨_, exec_exchPairReceived_bringUp awake fec (by simp [noLoop]) (by simp [st, PortState.bringUp])
      (by simp [st]) valid, ?_⟩
    rw [State.put_d, keeps, entered.own]
    exact ⟨rfl, rfl, entered.other⟩
  · have own := (s.d.onPort_heardPair p.val id feat).own
    have keeps := Dev.evaluate_to (by rw [own]; simp [PortSt.paired, st, PortState.bringUp])
      (Dev.verdict_incompatible (by rw [own]; exact major)) 31
    have entered := (s.d.onPort_heardPair p.val id feat).trans (Dev.onPort_enterPlan _ p.val .incompatible)
    refine ⟨_, exec_exchPairReceived_bringUp awake fec (by simp [noLoop]) (by simp [st, PortState.bringUp])
      (by simp [st]) valid, ?_⟩
    rw [State.put_d, keeps, entered.own]
    exact ⟨rfl, entered.other⟩
  · obtain ⟨own, other, fwd, store, red⟩ := s.d.onPort_heardPair p.val id feat
    refine ⟨_, exec_exchPairReceived_active awake fec notFar st valid same, ?_, ?_, fwd, store, red⟩
    · exact (congrArg PortSt.st own).trans st
    · exact Dev.takePair_out _ p.val id feat
  · obtain ⟨y, ⟨own, other, fwd, store, -⟩, acked, state⟩ := s.d.onPort_acknowledged p.val
    refine ⟨_, exec_exchAckReceived_own awake fec notFar st, ?_⟩
    rw [State.put_d, own]
    exact ⟨acked, by rw [state, st], other, fwd, store⟩
end

section
/-! PROOF. A management link's stages, its exchange and its packets (R383, R385 to R387). -/

namespace Sys2Proof.Machine

variable {d : Dev} {m : Nat}

/-! ### What a packet that is sent leaves of the links -/

theorem Dev.mg_congr {d e : Dev} (h0 : e.mg0 = d.mg0) (h1 : e.mg1 = d.mg1) (k : Nat) : e.mg k = d.mg k := by
  rw [Dev.mg, Dev.mg, h0, h1]

theorem Dev.event_mg (d : Dev) (e : Ev) (k : Nat) : (d.event e).mg k = d.mg k :=
  Dev.mg_congr (d.event_mg0 e) (d.event_mg1 e) k

theorem Dev.mg_bump (d : Dev) (a k : Nat) : (d.bump a).mg k = d.mg k := rfl

theorem Dev.mg_foldl_send {α : Type} (f : Dev → α → Out) (l : List α) (d : Dev) (k : Nat) :
    (l.foldl (fun d x => d.send (f d x)) d).mg k = d.mg k :=
  foldl_keeps (g := fun d x => d.send (f d x)) (fun e : Dev => e.mg k) (fun _ _ => rfl) l d

/-- A packet that a link sends moves its running disparity alone, and the other link not at all (R382). -/
theorem Dev.mgSend_mg (d : Dev) {m : Nat} (hm : m < 2) (typ : Byte) (p : List Byte) :
    (∃ rd, (d.mgSend m typ p).mg m = { d.mg m with rd := rd }) ∧
    (d.mgSend m typ p).mg (1 - m) = d.mg (1 - m) := by
  unfold Dev.mgSend
  dsimp only
  split_ifs
  · exact ⟨⟨_, Dev.mg_setMg_same ..⟩, Dev.mg_setMg_other _ hm _⟩
  · exact ⟨⟨_, Dev.mg_foldl_send ..⟩, Dev.mg_foldl_send ..⟩
  · exact ⟨⟨_, rfl⟩, rfl⟩

/-! ### Stages (R385) -/

section
variable {s : State} {m : Fin 2} (awake : s.d.awake = true)
include awake

theorem exec_mgSignalDetect_detect (st : (s.d.mg m.val).st = 1) : exec (.mgSignalDetect m) s =
    .next (s.put (s.d.setMg m.val { s.d.mg m.val with st := 2, los := false })) :=
  congrArg (goto s) ((if_neg (by simp [awake])).trans (if_pos st))

theorem exec_mgSignalDetect_train (st : (s.d.mg m.val).st = 2) : exec (.mgSignalDetect m) s =
    .next (s.put (s.d.setMg m.val { s.d.mg m.val with st := 3, los := false, sync := true })) :=
  congrArg (goto s) ((if_neg (by simp [awake])).trans ((if_neg (by simp [st])).trans (if_pos st)))

/-- EXCHANGE begins with a new ROUND (R386). -/
def MgLink.exchanging (x : MgLink) : MgLink :=
  { x with st := 4, los := false, sync := true, round := x.round + 1, pairSeen := false, ackSeen := false }

theorem exec_mgSignalDetect_lock (st : (s.d.mg m.val).st = 3) : exec (.mgSignalDetect m) s =
    .next (s.put ((s.d.setMg m.val (s.d.mg m.val).exchanging).mgSendPair m.val)) :=
  congrArg (goto s)
    ((if_neg (by simp [awake])).trans ((if_neg (by simp [st])).trans ((if_neg (by simp [st])).trans (if_pos st))))

theorem exec_mgStageTimeout_limit (st : (s.d.mg m.val).st ∈ [2, 3, 4]) : exec (.mgStageTimeout m) s =
    .next (s.put ((s.d.bump (ctrMgl m.val 0x128)).mgStart m.val)) := by
  have limited : (s.d.awake && ((s.d.mg m.val).st = 2 || (s.d.mg m.val).st = 3 || (s.d.mg m.val).st = 4)) = true := by
    simpa [awake, or_assoc] using st
  exact congrArg (goto s) (if_pos limited)
end

/-- A link that runs starts from DETECT (R385). -/
theorem Dev.mgStart_runs (mode : d.mgMode m ≠ 0) (power : d.boot.st ≠ .powerOn) (test : d.boot.st ≠ .selfTest) :
    ((d.mgStart m).mg m).st = 1 := by
  rw [Dev.mgStart, Dev.mg_setMg_same]
  exact if_neg (by simp [mode, power, test])

theorem Dev.mgStart_ctr (d : Dev) (m o : Nat) : (d.mgStart m).ctr o = d.ctr o :=
  Dev.ctr_congr (d.setMg_ctrs ..) o

/-! ### The exchange (R386) -/

section
variable {p : List Byte} (whole : p.length = 48)
  (valid : pairValid (LinkMsg.ofBytes (p.take 24)) (LinkMsg.ofBytes (p.drop 24)) = true)

/-- The link with a valid pair stored and answered. -/
def Dev.mgPaired (d : Dev) (m : Nat) (id feat : LinkMsg) : Dev :=
  (d.setMg m { d.mg m with partnerId := id, partnerFeat := feat }).mgSend m 3
    (LinkMsg.bytes (LinkMsg.ofBytes [0x12, LinkMsg.byte id 1]))

theorem Dev.mgPaired_partnerId (d : Dev) {m : Nat} (hm : m < 2) (id feat : LinkMsg) :
    ((d.mgPaired m id feat).mg m).partnerId = id := by
  obtain ⟨⟨rd, sent⟩, -⟩ := (d.setMg m { d.mg m with partnerId := id, partnerFeat := feat }).mgSend_mg hm 3
    (LinkMsg.bytes (LinkMsg.ofBytes [0x12, LinkMsg.byte id 1]))
  rw [Dev.mgPaired, sent, Dev.mg_setMg_same]

theorem Dev.mgTakePair_admits (id feat : LinkMsg) (st : (d.mg m).st = 4) (acked : (d.mg m).ackSeen = true)
    (major : LinkMsg.field feat 2 1 = 1) : d.mgTakePair m id feat = (d.mgPaired m id feat).mgEnter m :=
  (if_neg (by simp [st])).trans ((if_neg (by simp [major])).trans (if_pos (by simp [acked])))

theorem Dev.mgTakePair_incompatible (id feat : LinkMsg) (st : (d.mg m).st = 4)
    (major : LinkMsg.field feat 2 1 ≠ 1) : d.mgTakePair m id feat =
      (d.mgPaired m id feat).setMg m { (d.mgPaired m id feat).mg m with st := 11 } :=
  (if_neg (by simp [st])).trans (if_pos (by simpa using major))

include whole valid in
/-- A valid pair that arrives in EXCHANGE is counted and taken. -/
theorem exec_mgExchPacket_pair {s : State} {m : Fin 2} (awake : s.d.awake = true) (st : (s.d.mg m.val).st = 4) :
    exec (.mgExchPacket m p) s = .next (s.put ((s.d.bump (ctrMgl m.val 0x100)).mgTakePair m.val
      (LinkMsg.ofBytes (p.take 24)) (LinkMsg.ofBytes (p.drop 24)))) := by
  have exchanges : (s.d.mg m.val).exchanges = true := by simp [MgLink.exchanges, st]
  refine congrArg (goto s) ((if_neg (by simp [awake, st])).trans ((if_pos exchanges).trans ?_))
  exact (if_pos whole).trans (if_pos valid)
end

theorem Dev.mg_mgEnter (d : Dev) (m : Nat) :
    (d.mgEnter m).mg m = { d.mg m with st := 5, los := false, sync := true } :=
  (Dev.event_mg ..).trans (d.mg_setMg_same ..)

/-! ### Packets (R383, R387) -/

section
variable {s : State} {m : Fin 2} (awake : s.d.awake = true)
include awake

theorem exec_mgExchRepeat_active (st : (s.d.mg m.val).st = 5) :
    exec (.mgExchRepeat m) s = .next (s.put (s.d.mgSend m.val 3 (s.d.mgPair m.val))) :=
  congrArg (goto s) (if_pos (by simp [awake, st]))

theorem exec_mgKeepSend_active (st : (s.d.mg m.val).st = 5) :
    exec (.mgKeepSend m) s = .next (s.put (s.d.mgSend m.val 4 [])) :=
  congrArg (goto s) (if_pos (by simp [awake, st]))

variable {typ seg : Byte} {len : BitVec 16} {r : Word} {p : List Byte} {crc : Word} {e : Bool}

/-- A GLM packet passes its checks: the CRC, TYPE and LEN, its end, and its length (R383). -/
def glmGood (typ seg : Byte) (len : BitVec 16) (r : Word) (p : List Byte) (crc : Word) (e : Bool) : Bool :=
  crc32 (mgHeader typ seg len r ++ p) == crc && mgTypeOk typ len.toNat && e && p.length == len.toNat

omit awake in
theorem glmGood_eq_false (bad : crc32 (mgHeader typ seg len r ++ p) ≠ crc ∨ e = false ∨ p.length ≠ len.toNat) :
    glmGood typ seg len r p crc e = false := by
  obtain crcBad | endBad | lenBad := bad
  · simp [glmGood, crcBad]
  · simp [glmGood, endBad]
  · simp [glmGood, lenBad]

/-- A GLM packet of a link that is not OFF, in its own mode. -/
theorem exec_mgPacketReceived_glm (on : (s.d.mg m.val).st ≠ 0) (mode : s.d.mgMode m.val = 1) :
    exec (.mgPacketReceived m (.glm typ seg len r p crc e)) s = .next (s.put
      (if s.d.mgOutside m.val (glmGood typ seg len r p crc e && typ == 3) then
        (if glmGood typ seg len r p crc e then s.d.bump (ctrMgl m.val 0x138)
         else (s.d.bump (ctrMgl m.val 0x138)).mgRxErr m.val)
       else if glmGood typ seg len r p crc e then s.d.mgDeliver m.val typ p
       else s.d.mgRxErr m.val)) :=
  congrArg (goto s) ((if_neg (by simp [awake, on])).trans (if_neg (by simp [mode])))

omit awake in
theorem Dev.mgOutside_active {d : Dev} {m : Nat} (st : (d.mg m).st = 5) (b : Bool) : d.mgOutside m b = false := by
  simp [Dev.mgOutside, st]

omit awake in
theorem Dev.mgOutside_inactive {d : Dev} {m : Nat} (st : (d.mg m).st ≠ 5) : d.mgOutside m false = true := by
  simp [Dev.mgOutside, st]
end

end Sys2Proof.Machine

open Sys2Proof Sys2Proof.Machine

/-- Settles O21. -/
theorem mgBringUp : Obligations.MgBringUp := by
  refine ⟨fun s m awake st => exec_mgSignalDetect_detect awake st,
    fun s m awake st => exec_mgSignalDetect_train awake st,
    fun s m awake st => ⟨_, exec_mgSignalDetect_lock awake st, ?_⟩,
    fun s m awake st mode power test => ⟨_, exec_mgStageTimeout_limit awake st, ?_⟩,
    fun s m p awake st whole valid acked major => ⟨_, exec_mgExchPacket_pair whole valid awake st, ?_⟩,
    fun s m p awake st whole valid major => ⟨_, exec_mgExchPacket_pair whole valid awake st, ?_⟩,
    fun s m awake st => ⟨exec_mgExchRepeat_active awake st, exec_mgKeepSend_active awake st⟩,
    fun s m typ seg len r p crc e awake st mode bad => ?_, fun s m typ seg len r p crc e awake on st mode bad => ?_,
    fun s m seg len r p awake st mode whole short => ?_⟩
  · obtain ⟨⟨rd, sent⟩, other⟩ := (s.d.setMg m.val (s.d.mg m.val).exchanging).mgSend_mg m.isLt 3
      ((s.d.setMg m.val (s.d.mg m.val).exchanging).mgPair m.val)
    rw [Dev.mg_setMg_same] at sent
    rw [Dev.mg_setMg_other _ m.isLt] at other
    rw [State.put_d, Dev.mgSendPair, sent, other]
    exact ⟨rfl, rfl, rfl, rfl, rfl, rfl, rfl⟩
  · exact ⟨Dev.mgStart_runs mode power test, (Dev.mgStart_ctr ..).trans (s.d.ctr_bump_same _)⟩
  · rw [State.put_d, Dev.mgTakePair_admits (d := s.d.bump _) _ _ st acked major, Dev.mg_mgEnter]
    exact ⟨rfl, rfl, rfl, Dev.mgPaired_partnerId _ m.isLt _ _⟩
  · rw [State.put_d, Dev.mgTakePair_incompatible (d := s.d.bump _) _ _ st major, Dev.mg_setMg_same]
  · rw [exec_mgPacketReceived_glm awake (by simp [st]) mode, Dev.mgOutside_active st, glmGood_eq_false bad]
    rfl
  · rw [exec_mgPacketReceived_glm awake on mode, glmGood_eq_false bad, Bool.false_and, Dev.mgOutside_inactive st]
    rfl
  · have good : glmGood 4 seg len r p (crc32 (mgHeader 4 seg len r ++ p)) true = true := by
      simp [glmGood, mgTypeOk, whole, whole ▸ short]
    rw [exec_mgPacketReceived_glm awake (by simp [st]) mode, Dev.mgOutside_active st, good]
    rfl
end

section
/-! PROOF. A management link that leaves ACTIVE: its sessions, its events and its open transaction (R388). -/

namespace Sys2Proof.Machine

/-! ### Reports to other destinations -/

/-- `e` comes from `d` by events and records that do not reach the destination `a`: the links, the transactions, the
tables, the ports and the registers are as they were, and so are the events that wait for `a`. -/
structure Dev.Reported (a : Source) (d e : Dev) : Prop where
  mg0 : e.mg0 = d.mg0
  mg1 : e.mg1 = d.mg1
  hl : e.hl = d.hl
  queue : (e.evDest a).queue = (d.evDest a).queue
  txns : e.cmd.txns = d.cmd.txns
  fwd : e.fwd = d.fwd
  ports : e.ports = d.ports
  regs : e.regs = d.regs

variable {a : Source} {d e : Dev} {m : Nat}

theorem Dev.Reported.refl (a : Source) (d : Dev) : Dev.Reported a d d := ⟨rfl, rfl, rfl, rfl, rfl, rfl, rfl, rfl⟩

theorem Dev.Reported.trans {b : Dev} (h : Dev.Reported a d e) (k : Dev.Reported a e b) : Dev.Reported a d b :=
  ⟨k.mg0.trans h.mg0, k.mg1.trans h.mg1, k.hl.trans h.hl, k.queue.trans h.queue, k.txns.trans h.txns,
    k.fwd.trans h.fwd, k.ports.trans h.ports, k.regs.trans h.regs⟩

/-- The destination stays as it is, up or down. -/
theorem Dev.Reported.destUp (h : Dev.Reported a d e) : e.destUp a = d.destUp a := by
  cases a with
  | howlink => exact congrArg Howlink.up h.hl
  | mg0 => exact congrArg (MgLink.st · == 5) h.mg0
  | mg1 => exact congrArg (MgLink.st · == 5) h.mg1

theorem Dev.evDest_setEvDest (d : Dev) (a : Source) (x : EvDest) : (d.setEvDest a x).evDest a = x := by
  cases a <;> rfl

theorem Dev.evDest_setEvDest_other (d : Dev) {a b : Source} (h : b ≠ a) (x : EvDest) :
    (d.setEvDest b x).evDest a = d.evDest a := by
  revert h
  cases a <;> cases b <;> simp [Dev.evDest, Dev.setEvDest]

/-- No event joins the queue of a destination that is down (R429). -/
theorem Dev.eventTo_queue_down (down : d.destUp a = false) (ev : Ev) (b : Source) :
    ((d.eventTo ev b).evDest a).queue = (d.evDest a).queue := by
  unfold Dev.eventTo
  dsimp only
  by_cases own : b = a
  · subst own
    rw [down]
    split
    · rfl
    · exact (congrArg EvDest.queue (d.evDest_setEvDest b _)).trans rfl
  · split_ifs
    · rfl
    · rw [d.evDest_setEvDest_other own]
    · rw [d.evDest_setEvDest_other own]

theorem Dev.reported_eventTo (down : d.destUp a = false) (ev : Ev) (b : Source) :
    Dev.Reported a d (d.eventTo ev b) :=
  ⟨d.eventTo_mg0 .., d.eventTo_mg1 .., d.eventTo_hl .., Dev.eventTo_queue_down down ev b, d.eventTo_txns ..,
    d.eventTo_fwd .., d.eventTo_ports .., d.eventTo_regs ..⟩

theorem Dev.reported_eventsTo (ev : Ev) (l : List Source) (down : d.destUp a = false) :
    Dev.Reported a d (l.foldl (fun d b => d.eventTo ev b) d) := by
  induction l generalizing d with
  | nil => exact .refl ..
  | cons b r ih =>
    have first := Dev.reported_eventTo down ev b
    exact first.trans (ih (first.destUp.trans down))

theorem Dev.reported_event (down : d.destUp a = false) (ev : Ev) : Dev.Reported a d (d.event ev) := by
  unfold Dev.event
  split
  · exact Dev.reported_eventsTo ev [.howlink, .mg0, .mg1] down
  · exact .refl ..

/-- An interrupt reaches no event queue. -/
theorem Dev.reported_raiseFault (d : Dev) (a : Source) (n : Word) (waits : Bool) :
    Dev.Reported a d (d.raiseFault n waits) := by
  unfold Dev.raiseFault
  split
  · exact ⟨rfl, rfl, rfl, rfl, rfl, rfl, rfl, rfl⟩
  · obtain ⟨_, _, raised⟩ := d.raiseInt_shape 23
    rw [raised]
    exact ⟨rfl, rfl, rfl, rfl, rfl, rfl, rfl, rfl⟩

theorem Dev.reported_faultRec (down : d.destUp a = false) (cls unit_ index sub action left detail : Nat) :
    Dev.Reported a d (d.faultRec cls unit_ index sub action left detail) := by
  unfold Dev.faultRec
  split
  · have noted (f : FaultSt) : Dev.Reported a d { d with faults := f } := ⟨rfl, rfl, rfl, rfl, rfl, rfl, rfl, rfl⟩
    unfold Dev.recordFault
    exact ((noted _).trans (Dev.reported_event ((noted _).destUp.trans down) _)).trans (Dev.reported_raiseFault ..)
  · exact .refl ..

/-! ### The open transaction (R424) -/

/-- The device with other transactions. -/
def Dev.withTxns (d : Dev) (l : List Txn) : Dev := { d with cmd := { d.cmd with txns := l } }

theorem Dev.withTxns_evDest (d : Dev) (l : List Txn) (a : Source) : (d.withTxns l).evDest a = d.evDest a := by
  cases a <;> rfl

/-- The transactions of a source that are OPEN. -/
def Dev.openTxns (d : Dev) (a : Source) : List Txn :=
  d.cmd.txns.filter fun t => t.src == a && decide (t.st = .isOpen)

/-- A source with at most one OPEN transaction has none once that one is dropped. -/
theorem Dev.openTxn_dropTxn {t : Txn} (one : (d.openTxns a).length ≤ 1) (found : d.openTxn a = some t) :
    (d.dropTxn a t.id).openTxn a = none := by
  have open_ : t ∈ d.openTxns a := by
    rw [Dev.openTxns, List.mem_filter]
    exact ⟨List.mem_of_find?_eq_some found,
      List.find?_some (p := fun t : Txn => t.src == a && decide (t.st = .isOpen)) found⟩
  have only : d.openTxns a = [t] := by
    obtain ⟨u, alone⟩ := List.length_eq_one_iff.1 (Nat.le_antisymm one (List.length_pos_of_mem open_))
    rw [alone, List.mem_singleton] at open_
    rw [alone, open_]
  rw [Dev.openTxn, List.find?_eq_none]
  intro u hu isOpen
  obtain ⟨hu, kept⟩ := List.mem_filter.1 hu
  have same : u ∈ d.openTxns a := List.mem_filter.2 ⟨hu, isOpen⟩
  rw [only, List.mem_singleton] at same
  subst same
  have own := (Bool.and_eq_true_iff.1 isOpen).1
  simp [own] at kept

/-- The rollback of a source's OPEN transaction leaves it none, and reports to other destinations alone. -/
theorem Dev.abortOpen_reports (one : (d.openTxns a).length ≤ 1) (down : d.destUp a = false) (cause : Nat)
    (dests : List Source) : ∃ l, (d.withTxns l).openTxn a = none ∧
      Dev.Reported a (d.withTxns l) (d.abortOpen a cause dests) := by
  unfold Dev.abortOpen
  split
  · next none => exact ⟨d.cmd.txns, none, .refl ..⟩
  · next t found =>
    refine ⟨_, Dev.openTxn_dropTxn one found, ?_⟩
    dsimp only
    split
    · exact Dev.reported_eventsTo _ dests down
    · exact .refl ..

/-! ### The link leaves ACTIVE (R388) -/

/-- A link that has left ACTIVE, before it starts again. -/
def MgLink.left (x : MgLink) (code : Nat) : MgLink := { x with sessions := [], spdm := 0, lastExit := code }

/-- The device whose link has left ACTIVE with its queued commands and events gone, and starts again. -/
def Dev.mgCut (d : Dev) (m code : Nat) : Dev :=
  let e := ((d.setMg m ((d.mg m).left code)).dropQueued (mgSource m)).mgStart m
  e.setEvDest (mgSource m) { e.evDest (mgSource m) with queue := [] }

/-- What leaving ACTIVE makes of a link, its events and its open transaction (R388). -/
structure Dev.LeftActive (m code : Nat) (d e : Dev) : Prop where
  sessions : (e.mg m).sessions = []
  lastExit : (e.mg m).lastExit = code
  stage : (e.mg m).st ≤ 1
  los : (e.mg m).los = (d.mg m).los
  queue : (e.evDest (mgSource m)).queue = []
  noOpen : e.openTxn (mgSource m) = none
  fwd : e.fwd = d.fwd
  ports : e.ports = d.ports
  hl : e.hl = d.hl
  regs : e.regs = d.regs

theorem Dev.setEvDest_mg (d : Dev) (a : Source) (x : EvDest) (m : Nat) : (d.setEvDest a x).mg m = d.mg m :=
  Dev.mg_congr (d.setEvDest_mg0 ..) (d.setEvDest_mg1 ..) m

/-- The link starts again with nothing of its sessions. -/
theorem Dev.mgCut_mg (d : Dev) (m code : Nat) : ∃ n, n ≤ 1 ∧ (d.mgCut m code).mg m =
    { (d.mg m).left code with st := n, sync := false, pairSeen := false, ackSeen := false, reasm := none } := by
  rw [Dev.mgCut, Dev.setEvDest_mg, Dev.mgStart, Dev.mg_setMg_same]
  have cut : ((d.setMg m ((d.mg m).left code)).dropQueued (mgSource m)).mg m = (d.mg m).left code :=
    d.mg_setMg_same ..
  rw [cut]
  refine ⟨_, ?_, rfl⟩
  split <;> decide

theorem Dev.destUp_mgSource (d : Dev) {m : Nat} (hm : m < 2) (st : (d.mg m).st ≤ 1) :
    d.destUp (mgSource m) = false := by
  interval_cases m <;> (refine beq_eq_false_iff_ne.2 fun h => ?_; have := h ▸ st; omega)

theorem Dev.mgCut_keeps (d : Dev) (m code : Nat) : (d.mgCut m code).cmd.txns = d.cmd.txns ∧
    (d.mgCut m code).fwd = d.fwd ∧ (d.mgCut m code).ports = d.ports ∧ (d.mgCut m code).hl = d.hl ∧
    (d.mgCut m code).regs = d.regs := by
  simp [Dev.mgCut, Dev.mgStart, Dev.dropQueued]

/-- MG_DOWN goes to the other destinations, and for a failure a record is written (R388, R483, R490). -/
theorem Dev.mgLeave_eq (d : Dev) (m code : Nat) : d.mgLeave m code =
    let e := (((d.mgCut m code).abortOpen (mgSource m) 2 (otherDests m)).bump (ctrMgl m 0x130))
    let f := if e.svRuns 1 then (otherDests m).foldl (fun d t => d.eventTo (.mgDown m code) t) e else e
    if code = mgExitLos || code = mgExitSync || code = mgExitKeep then
      f.faultRec 4 0x0C m 0 0 (if (f.mg (1 - m)).st = 5 then 1 else 0) code
    else f := rfl

theorem Dev.mgLeave_reports {m : Nat} (hm : m < 2) (d : Dev) (code : Nat)
    (one : (d.openTxns (mgSource m)).length ≤ 1) : ∃ l,
    ((d.mgCut m code).withTxns l).openTxn (mgSource m) = none ∧
      Dev.Reported (mgSource m) ((d.mgCut m code).withTxns l) (d.mgLeave m code) := by
  obtain ⟨n, low, cut⟩ := d.mgCut_mg m code
  have down : (d.mgCut m code).destUp (mgSource m) = false := Dev.destUp_mgSource _ hm (by rw [cut]; exact low)
  have sameTxns := (d.mgCut_keeps m code).1
  obtain ⟨l, noOpen, aborted⟩ := Dev.abortOpen_reports (by rwa [Dev.openTxns, sameTxns]) down 2 (otherDests m)
  refine ⟨l, noOpen, ?_⟩
  rw [Dev.mgLeave_eq]
  have counted : Dev.Reported (mgSource m) ((d.mgCut m code).withTxns l)
      (((d.mgCut m code).abortOpen (mgSource m) 2 (otherDests m)).bump (ctrMgl m 0x130)) :=
    ⟨aborted.mg0, aborted.mg1, aborted.hl, aborted.queue, aborted.txns, aborted.fwd, aborted.ports, aborted.regs⟩
  have told (b : Bool) : Dev.Reported (mgSource m) ((d.mgCut m code).withTxns l)
      (if b then (otherDests m).foldl (fun d t => d.eventTo (.mgDown m code) t)
        (((d.mgCut m code).abortOpen (mgSource m) 2 (otherDests m)).bump (ctrMgl m 0x130))
      else ((d.mgCut m code).abortOpen (mgSource m) 2 (otherDests m)).bump (ctrMgl m 0x130)) := by
    split
    · exact counted.trans (Dev.reported_eventsTo _ _ (counted.destUp.trans down))
    · exact counted
  dsimp only
  split
  · exact (told _).trans (Dev.reported_faultRec ((told _).destUp.trans down) ..)
  · exact told _

/-- A link that leaves ACTIVE ends all that it held. -/
theorem Dev.mgLeave_left {m : Nat} (hm : m < 2) (d : Dev) (code : Nat)
    (one : (d.openTxns (mgSource m)).length ≤ 1) : Dev.LeftActive m code d (d.mgLeave m code) := by
  obtain ⟨l, noOpen, mg0, mg1, hl, queue, txns, fwd, ports, regs⟩ := Dev.mgLeave_reports hm d code one
  obtain ⟨n, low, cut⟩ := d.mgCut_mg m code
  obtain ⟨-, fwdCut, portsCut, hlCut, regsCut⟩ := d.mgCut_keeps m code
  have link : (d.mgLeave m code).mg m = _ := (Dev.mg_congr mg0 mg1 m).trans cut
  have emptied : ((d.mgCut m code).evDest (mgSource m)).queue = [] :=
    congrArg EvDest.queue (Dev.evDest_setEvDest ..)
  refine ⟨?_, ?_, ?_, ?_, queue.trans ?_, ?_, fwd.trans fwdCut, ports.trans portsCut, hl.trans hlCut,
    regs.trans regsCut⟩
  · rw [link]; rfl
  · rw [link]; rfl
  · rw [link]; exact low
  · rw [link]; rfl
  · rw [Dev.withTxns_evDest]; exact emptied
  · rw [Dev.openTxn, txns]; exact noOpen

/-! ### The events that end ACTIVE (R387) -/

section
variable {s : State} {m : Fin 2} (awake : s.d.awake = true) (st : (s.d.mg m.val).st = 5)
include awake st

theorem exec_mgKeepTimeout_leaves : exec (.mgKeepTimeout m) s = .next (s.put (s.d.mgLeave m.val 3)) :=
  congrArg (goto s) (if_pos (by simp [awake, st]))

theorem exec_mgLossOfSignal_leaves (lit : (s.d.mg m.val).los = false) : exec (.mgLossOfSignal m) s =
    .next (s.put ((s.d.setMg m.val { s.d.mg m.val with los := true }).mgLeave m.val 1)) :=
  congrArg (goto s) ((if_neg (by simp [awake, lit])).trans (if_pos st))

/-- The device with a loss of sync counted and shown (R387). -/
def Dev.lostSync (d : Dev) (m : Nat) : Dev :=
  ((d.bumpBy (ctrMgl m 0x118) 4).bump (ctrMgl m 0x120)).setMg m { d.mg m with sync := false }

theorem exec_mgSyncLoss_leaves (sync : (s.d.mg m.val).sync = true) : exec (.mgSyncLoss m) s =
    .next (s.put ((s.d.lostSync m.val).mgLeave m.val 2)) :=
  congrArg (goto s) ((if_neg (by simp [awake, sync])).trans (if_pos st))

theorem exec_mgAnRestart_leaves (mode : s.d.mgMode m.val = 2) : exec (.mgAnRestart m) s =
    .next (s.put (s.d.mgLeave m.val 5)) :=
  congrArg (goto s) (if_pos (by simp [awake, st, mode]))
end

theorem Dev.openTxns_congr {d e : Dev} (h : e.cmd = d.cmd) (a : Source) : e.openTxns a = d.openTxns a := by
  rw [Dev.openTxns, Dev.openTxns, h]

/-- What is left of a link does not hang on what the link's own loss noted before. -/
theorem Dev.mgLeave_summary {b : Dev} {m : Nat} (hm : m < 2) (code : Nat) (one : (b.openTxns (mgSource m)).length ≤ 1)
    (cmd : d.cmd = b.cmd) (fwd : d.fwd = b.fwd) (ports : d.ports = b.ports) (hl : d.hl = b.hl) :
    ((d.mgLeave m code).mg m).sessions = [] ∧ ((d.mgLeave m code).mg m).lastExit = code ∧
    ((d.mgLeave m code).mg m).st ≤ 1 ∧ ((d.mgLeave m code).evDest (mgSource m)).queue = [] ∧
    (d.mgLeave m code).openTxn (mgSource m) = none ∧ (d.mgLeave m code).fwd = b.fwd ∧
    (d.mgLeave m code).ports = b.ports ∧ (d.mgLeave m code).hl = b.hl := by
  have left := Dev.mgLeave_left hm d code (by rwa [Dev.openTxns_congr cmd])
  exact ⟨left.sessions, left.lastExit, left.stage, left.queue, left.noOpen, left.fwd.trans fwd,
    left.ports.trans ports, left.hl.trans hl⟩

/-! ### A write of MGL_CTL (R387) -/

theorem Dev.plainWrite_cmd (d : Dev) (off v : Nat) : (d.plainWrite off v).cmd = d.cmd := by rw [Dev.plainWrite_eq]

theorem Dev.plainWrite_hl (d : Dev) (off v : Nat) : (d.plainWrite off v).hl = d.hl := by rw [Dev.plainWrite_eq]

theorem rwRow_mglCtl : ∀ m : Fin 2, rwRow (baseMgl m.val) 0xFFFF0103 = true := by decide +kernel

/-- An ACTIVE link leaves on any write of its control register (log entry 75). -/
theorem Dev.writeMglCtl_active {m : Fin 2} (st : (d.mg m.val).st = 5) (v : Nat) :
    d.writeMglCtl m.val v = (d.plainWrite (baseMgl m.val) v).mgLeave m.val 6 := by
  obtain ⟨r, row, -, -⟩ := rwRow_iff.1 (rwRow_mglCtl m)
  unfold Dev.writeMglCtl
  rw [row, d.plainWrite_of_regAt v row]
  exact if_pos st

end Sys2Proof.Machine

open Sys2Proof Sys2Proof.Machine

/-- Settles O22. -/
theorem mgLeavesActive : Obligations.MgLeavesActive := by
  refine ⟨fun s m one awake st => ⟨⟨_, exec_mgKeepTimeout_leaves awake st, ?_⟩,
      fun lit => ⟨_, exec_mgLossOfSignal_leaves awake st lit, ?_, ?_⟩,
      fun sync => ⟨_, exec_mgSyncLoss_leaves awake st sync, ?_⟩,
      fun mode => ⟨_, exec_mgAnRestart_leaves awake st mode, ?_⟩⟩,
    fun s m a v one serves st =>
      ⟨_, (goto_winWrite serves).trans (congrArg (goto s) (Dev.writeMglCtl_active st _)), ?_, ?_⟩⟩
  · exact Dev.mgLeave_summary m.isLt 3 one rfl rfl rfl rfl
  · exact Dev.mgLeave_summary m.isLt 1 one (Dev.setMg_cmd ..) (Dev.setMg_fwd ..) (Dev.setMg_ports ..) (Dev.setMg_hl ..)
  · have left := Dev.mgLeave_left m.isLt (s.d.setMg m.val { s.d.mg m.val with los := true }) 1
      (by rwa [Dev.openTxns_congr (Dev.setMg_cmd ..)])
    exact left.los.trans (by rw [Dev.mg_setMg_same])
  · exact Dev.mgLeave_summary m.isLt 2 one (Dev.setMg_cmd ..) (Dev.setMg_fwd ..) (Dev.setMg_ports ..) (Dev.setMg_hl ..)
  · exact Dev.mgLeave_summary m.isLt 5 one rfl rfl rfl rfl
  · exact Dev.mgLeave_summary m.isLt 6 one (Dev.plainWrite_cmd ..) (Dev.plainWrite_fwd ..) (Dev.plainWrite_ports ..)
      (Dev.plainWrite_hl ..)
  · have left := Dev.mgLeave_left m.isLt (s.d.plainWrite (baseMgl m.val) v.toNat) 6
      (by rwa [Dev.openTxns_congr (Dev.plainWrite_cmd ..)])
    exact (Dev.regBits_congr left.regs _ _ _).trans
      (Dev.regBits_plainWrite_rw _ _ (rwRow_mglCtl m) (by decide) (by decide))
end

section
/-! PROOF. PTP steers the time base: a Sync and its absence, a master's Sync, and the two commands (R437 to R440, R449,
R450). -/

namespace Sys2Proof.Machine

variable {s : State} {d : Dev} {m : Nat}

/-! ### The states of the links' ports (R439) -/

/-- The device with other PTP port states. -/
def Dev.withPtp (d : Dev) (v0 v1 : BitVec 2) : Dev := d.setTime { d.time with ptp0 := v0, ptp1 := v1 }

theorem Dev.setPtpState_shape (d : Dev) (m : Nat) (v : BitVec 2) : ∃ v0 v1, d.setPtpState m v = d.withPtp v0 v1 := by
  unfold Dev.setPtpState
  split
  · exact ⟨_, _, rfl⟩
  · exact ⟨_, _, rfl⟩

theorem Dev.ptpState_setPtpState_same (d : Dev) (m : Nat) (v : BitVec 2) : (d.setPtpState m v).ptpState m = v := by
  unfold Dev.setPtpState Dev.ptpState
  split_ifs <;> rfl

theorem Dev.ptpState_setPtpState_other (d : Dev) {m : Nat} (hm : m < 2) (v : BitVec 2) :
    (d.setPtpState (1 - m) v).ptpState m = d.ptpState m := by
  interval_cases m <;> rfl

/-- A link that hears a Sync is a slave, and nothing else but the other link's state changes (R439). -/
theorem Dev.slaveOn_shape (d : Dev) {m : Nat} (hm : m < 2) :
    (∃ v0 v1, d.slaveOn m = d.withPtp v0 v1) ∧ (d.slaveOn m).ptpState m = 1 := by
  obtain ⟨v0, v1, first⟩ := d.setPtpState_shape m 1
  have slave := d.ptpState_setPtpState_same m 1
  unfold Dev.slaveOn
  dsimp only
  split
  · exact ⟨⟨v0, v1, first⟩, slave⟩
  · obtain ⟨w0, w1, second⟩ :=
      (d.setPtpState m 1).setPtpState_shape (1 - m) (if (d.setPtpState m 1).boundary then 2 else 0)
    exact ⟨⟨w0, w1, by rw [second, first]; rfl⟩, (Dev.ptpState_setPtpState_other _ hm _).trans slave⟩

/-- The best master clock algorithm settles the ports' states alone, by free values (log entry 111). -/
theorem Dev.bmca_shape (d : Dev) : ∃ v0 v1 n, d.bmca = { d.withPtp v0 v1 with free := n } := by
  have twice (e : Dev) (i j : Nat) (v w : BitVec 2) : ∃ v0 v1,
      (e.setPtpState i v).setPtpState j w = e.withPtp v0 v1 := by
    obtain ⟨v0, v1, first⟩ := e.setPtpState_shape i v
    obtain ⟨w0, w1, second⟩ := (e.setPtpState i v).setPtpState_shape j w
    exact ⟨w0, w1, by rw [second, first]; rfl⟩
  unfold Dev.bmca
  dsimp only
  split
  · obtain ⟨v0, v1, settled⟩ := twice d.drawBit.2.draw.2 _ _ 1 2
    rw [settled]
    exact ⟨v0, v1, _, rfl⟩
  · obtain ⟨v0, v1, settled⟩ := twice d.drawBit.2.draw.2 _ _ _ 0
    rw [settled]
    exact ⟨v0, v1, _, rfl⟩

/-! ### A Sync that arrives (R437, R438, R449) -/

section
variable {r : PtpMeas} (awake : s.d.awake = true) (runs : s.d.svRuns 3 = true) (up : (s.d.mg r.link.val).st = 5)
  (mode : s.d.ptpMode r.link.val ≠ .off)
include awake runs up mode

theorem exec_ptpSyncReceived_unsupported (unsupported : r.supported = false) :
    exec (.ptpSyncReceived r) s = .next (s.put (s.d.bump (ctrTime 0x110))) :=
  congrArg (goto s) ((if_neg (by simp [awake, runs, up, mode])).trans (if_pos (by simp [unsupported])))

/-- The device with a measurement of domain A noted. -/
def Dev.noteA (d : Dev) (r : PtpMeas) : Dev :=
  (d.slaveOn r.link.val).setDomain false { (d.slaveOn r.link.val).domain false with
    st := if beyond r.offset d.lockNs then 1 else 2, offset := r.offset }

/-- A Sync of domain A, where it is selected, steers the time base by the servo. -/
theorem exec_ptpSyncReceived_steers (supported : r.supported = true) (own : r.domain = s.d.time.domA.num)
    (apart : s.d.time.domA.num ≠ s.d.time.domB.num) (selected : s.d.time.selB = false) (servo : s.d.servo = 1)
    (ref : s.d.clk.refLost = false) (timeRuns : s.d.timeRuns = true) (fresh : s.d.time.stepAt ≠ some s.d.now) :
    exec (.ptpSyncReceived r) s = .next (s.put ((s.d.noteA r).servoMeasure r.offset)) := by
  have domainA : (r.domain == s.d.time.domB.num) = false := by simpa [own] using apart
  refine congrArg (goto s) ((if_neg (by simp [awake, runs, up, mode])).trans
    ((if_neg (by simp [supported])).trans ((if_neg (by simp [own])).trans ?_)))
  simp only [domainA, selected, servo, ref, timeRuns]
  exact if_pos (by simpa using fresh)
end

/-- The first correction steps the time base by the offset (R437). -/
theorem Dev.servoMeasure_first (unset : d.time.stepped = false) (offset : Int) : d.servoMeasure offset =
    d.stepTime (d.time.plus offset).1 (d.time.plus offset).2.1 (d.time.plus offset).2.2 0 :=
  if_pos (by rw [unset]; rfl)

theorem Dev.noteA_time (d : Dev) (r : PtpMeas) : ∃ v0 v1, (d.noteA r).time = { d.time with
    ptp0 := v0, ptp1 := v1,
    domA := { d.time.domA with st := if beyond r.offset d.lockNs then 1 else 2, offset := r.offset } } := by
  obtain ⟨⟨v0, v1, shape⟩, -⟩ := d.slaveOn_shape r.link.isLt
  refine ⟨v0, v1, ?_⟩
  rw [Dev.noteA, shape]
  rfl

theorem Dev.noteA_ptpState (d : Dev) (r : PtpMeas) : (d.noteA r).ptpState r.link.val = 1 :=
  (d.slaveOn_shape r.link.isLt).2

/-! ### No Sync for 3 s (R438) -/

/-- The device without Syncs of a domain, its ports' states decided anew. -/
def Dev.domainLost (d : Dev) (b : Bool) : Dev := (d.setDomain b { d.domain b with st := 0 }).bmca

theorem Dev.domainLost_shape (d : Dev) (b : Bool) : ∃ v0 v1 n, d.domainLost b =
    { (d.setDomain b { d.domain b with st := 0 }).withPtp v0 v1 with free := n } := Dev.bmca_shape _

theorem exec_syncTimeout_selected {b : Bool} (awake : s.d.awake = true) (runs : s.d.svRuns 3 = true)
    (selected : b = s.d.time.selB) (manual : s.d.regBit baseTime 3 = false) :
    exec (.syncTimeout b) s = .next (s.put ((s.d.domainLost b).holdover 2)) := by
  obtain ⟨v0, v1, n, lost⟩ := s.d.domainLost_shape b
  obtain ⟨t, c, f, held⟩ := (s.d.domainLost b).holdover_shape 2
  have noSwitch : ((s.d.domainLost b).holdover 2).regBit offTimeCtl 3 = false := by
    rw [held, lost]
    exact manual
  refine congrArg (goto s) ((if_neg (by simp [awake, runs])).trans ((if_neg (by simp [selected])).trans ?_))
  exact if_neg (ne_true_of_eq_false noSwitch)

/-- Out of POWER_ON a device that is awake holds over, its domain without a master (R438, R549). -/
theorem Dev.domainLost_holdover {b : Bool} (awake : d.awake = true) (past : d.boot.st ≠ .powerOn) :
    ((d.domainLost b).holdover 2).time.st = .holdover ∧ (((d.domainLost b).holdover 2).domain b).st = 0 := by
  obtain ⟨v0, v1, n, lost⟩ := d.domainLost_shape b
  have holds : (d.domainLost b).holdover 2 = (d.domainLost b).timeState .holdover 2 := by
    have still : ((d.domainLost b).awake && decide ((d.domainLost b).boot.st ≠ .powerOn)) = true := by
      rw [lost]
      exact Bool.and_eq_true_iff.2 ⟨awake, decide_eq_true past⟩
    exact if_pos still
  rw [holds, Dev.domain, Dev.timeState_time, lost]
  cases b <;> exact ⟨rfl, rfl⟩

/-! ### A master's Sync (R439) -/

/-- The sequence of a link's next Sync. -/
def TimeBase.syncSeq (t : TimeBase) (m : Nat) : BitVec 16 := if m = 0 then t.ptpSeq0 else t.ptpSeq1

/-- The time base once that Sync has been sent. -/
def TimeBase.nextSync (t : TimeBase) (m : Nat) : TimeBase :=
  if m = 0 then { t with ptpSeq0 := t.syncSeq m + 1 } else { t with ptpSeq1 := t.syncSeq m + 1 }

/-- The device with a Sync sent. -/
def Dev.sendSync (d : Dev) (m : Nat) : Dev :=
  (d.setTime (d.time.nextSync m)).send (.ptp m (d.time.syncSeq m) d.time.sec d.time.ns)

theorem exec_ptpSyncSend_master {m : Fin 2} (awake : s.d.awake = true) (runs : s.d.svRuns 3 = true)
    (up : (s.d.mg m.val).st = 5) (mode : s.d.ptpMode m.val ≠ .off) (master : s.d.ptpState m.val = 2) :
    exec (.ptpSyncSend m) s = .next (s.put (if s.d.regBits (baseMgl m.val) 1 0 = 1 then
      (s.d.sendSync m.val).bumpBy (ctrMgl m.val 0x108) 2 else s.d.sendSync m.val)) :=
  congrArg (goto s) (if_neg (by simp [awake, runs, up, mode, master]))

theorem TimeBase.nextSync_seq (t : TimeBase) (m : Nat) : if m = 0 then (t.nextSync m).ptpSeq0 = t.ptpSeq0 + 1
    else (t.nextSync m).ptpSeq1 = t.ptpSeq1 + 1 := by
  unfold TimeBase.nextSync TimeBase.syncSeq
  split <;> rfl

/-! ### The commands (R440, R450) -/

theorem Dev.regBit_setRegBit (d : Dev) (off : Nat) {i k : Nat} (hk : k < 64) (b : Bool) :
    (d.setRegBit off i b).regBit off k = if k = i then b else d.regBit off k := by
  rw [Dev.setRegBit, Dev.regBit_setReg_same _ _ _ hk, testBit_withBit]
  rfl

section
variable {c : CmdCtx} {b : Bool}

/-- PTP_SET before the ports' states are decided anew. -/
def Dev.ptpConfigured (d : Dev) (l0 l1 : PtpMode) (a b : Byte) (w : Bool) : Dev :=
  (d.setTime { d.time with mode0 := l0, mode1 := l1, domA := d.time.domA.renumber a,
                           domB := d.time.domB.renumber b }).setRegBit offTimeCtl 3 w

theorem exec_ptpSet {l0 l1 : PtpMode} {a b : Byte} {w : Bool} (h : s.d.Runs (.ptpSet c l0 l1 a b w) c 0x0805 .operator)
    (runs : s.d.svRuns 3 = true) (apart : a ≠ b) : exec (.ptpSet c l0 l1 a b w) s =
    .next (s.put (((s.d.touch c).ptpConfigured l0 l1 a b w).bmca.reply c 0x0805 .ok .empty)) :=
  congrArg (goto s) (Dev.runCmd_needs h runs (if_neg apart))

theorem Domain.renumber_num (x : Domain) (n : Byte) : (x.renumber n).num = n := by
  unfold Domain.renumber
  split
  · assumption
  · rfl

theorem exec_ptpDomainSelect_other (h : s.d.Runs (.ptpDomainSelect c b) c 0x0806 .operator)
    (runs : s.d.svRuns 3 = true) (other : b ≠ s.d.time.selB) : exec (.ptpDomainSelect c b) s =
    .next (s.put (((s.d.touch c).switchDomain true).1.reply c 0x0806
      (if ((s.d.touch c).switchDomain true).2 then .ok else .conflict) .empty)) :=
  congrArg (goto s) (Dev.runCmd_needs h runs (if_neg (by rwa [Dev.touch_time])))

/-- An offset as whole nanoseconds draws a free bit at most (log entry 159). -/
theorem Dev.toNs_shape (d : Dev) (offset : Int) : ∃ n, (d.toNs offset).2 = { d with free := n } := by
  unfold Dev.toNs
  split
  · exact ⟨_, rfl⟩
  · exact ⟨_, rfl⟩

/-- A switch within JUMP_NS selects the other domain (R440). -/
theorem Dev.switchDomain_within (near : beyond (d.domain !d.time.selB).offset d.jumpNs = false) (k : Bool) :
    (d.switchDomain k).1.time.selB = !d.time.selB := by
  unfold Dev.switchDomain
  dsimp only
  rw [if_neg (ne_true_of_eq_false near), Dev.event_time]
  rfl

/-- A switch beyond JUMP_NS is refused, flagged and counted (R440). -/
theorem Dev.switchDomain_beyond (far : beyond (d.domain !d.time.selB).offset d.jumpNs = true) :
    (d.switchDomain true).1.time = d.time ∧ (d.switchDomain true).1.regBit (baseTime + 8) 7 = true ∧
    (d.switchDomain true).1.regBit (baseTime + 8) 4 = true ∧
    (d.switchDomain true).1.ctr (ctrTime 0x118) = (d.ctr (ctrTime 0x118) + 1) % 2 ^ 64 := by
  obtain ⟨n, rounded⟩ := d.toNs_shape (d.domain !d.time.selB).offset
  have refused : (d.switchDomain true).1 = (({ d with free := n } : Dev).setRegBit offTimeStatus 7 true).jumpRefused 2
      (d.toNs (d.domain !d.time.selB).offset).1 := by
    unfold Dev.switchDomain
    dsimp only
    rw [if_pos far, rounded]
    rfl
  rw [refused]
  obtain ⟨time, flag, count⟩ := (({ d with free := n } : Dev).setRegBit offTimeStatus 7 true).jumpRefused_effect 2
    (d.toNs (d.domain !d.time.selB).offset).1
  refine ⟨time, ?_, flag, count⟩
  obtain ⟨_, told⟩ := Dev.event_shape
    (((({ d with free := n } : Dev).setRegBit offTimeStatus 7 true).setRegBit offTimeStatus 4 true).bump
      (ctrTime 0x118)) (.timeJumpRefused 2 (d.toNs (d.domain !d.time.selB).offset).1)
  rw [Dev.jumpRefused, told]
  exact (Dev.regBit_setRegBit _ offTimeStatus (by decide) true).trans
    (Dev.regBit_setRegBit_true _ offTimeStatus (by decide))
end

end Sys2Proof.Machine

open Sys2Proof Sys2Proof.Machine

/-- Settles O14. -/
theorem ptpSteersTime : Obligations.PtpSteersTime := by
  refine ⟨fun s r awake runs up mode supported own apart selected servo ref timeRuns unset fresh => ?_,
    fun s r awake runs up mode unsupported => exec_ptpSyncReceived_unsupported awake runs up mode unsupported,
    fun s b awake runs selected manual past =>
      ⟨_, exec_syncTimeout_selected awake runs selected manual, Dev.domainLost_holdover awake past⟩,
    fun s m awake runs up mode master => ⟨_, exec_ptpSyncSend_master awake runs up mode master, ?_⟩,
    fun s c l0 l1 a b w h runs apart => ⟨_, exec_ptpSet h runs apart, ?_⟩,
    fun s c b h runs other near => ⟨_, exec_ptpDomainSelect_other h runs other, ?_⟩,
    fun s c b h runs other far => ⟨_, exec_ptpDomainSelect_other h runs other, ?_⟩⟩
  · obtain ⟨v0, v1, noted⟩ := s.d.noteA_time r
    have ptp := s.d.noteA_ptpState r
    have stepped := Dev.servoMeasure_first (d := s.d.noteA r) (by rw [noted]; exact unset) r.offset
    have time := (s.d.noteA r).stepTime_time ((s.d.noteA r).time.plus r.offset).1
      ((s.d.noteA r).time.plus r.offset).2.1 ((s.d.noteA r).time.plus r.offset).2.2 0
    have ran := exec_ptpSyncReceived_steers awake runs up mode supported own apart selected servo ref timeRuns fresh
    rw [stepped] at ran
    refine ⟨_, ran, ?_⟩
    rw [State.put_d, Dev.ptpState, time]
    refine ⟨rfl, rfl, ?_, ptp, ?_⟩
    · rw [noted]
    · rw [noted]
      rfl
  · have counted (d : Dev) (p : Prop) [Decidable p] : (if p then d.bumpBy (ctrMgl m.val 0x108) 2 else d).out = d.out ∧
        (if p then d.bumpBy (ctrMgl m.val 0x108) 2 else d).time = d.time := by
      split <;> exact ⟨rfl, rfl⟩
    obtain ⟨out, time⟩ := counted (s.d.sendSync m.val) (s.d.regBits (baseMgl m.val) 1 0 = 1)
    rw [State.put_d, out, time]
    exact ⟨List.mem_cons_self, s.d.time.nextSync_seq m.val⟩
  · obtain ⟨v0, v1, n, settled⟩ := ((s.d.touch c).ptpConfigured l0 l1 a b w).bmca_shape
    rw [State.put_d, Dev.reply_time, Dev.regBit_congr (Dev.reply_regs ..), settled]
    exact ⟨rfl, rfl, Domain.renumber_num .., Domain.renumber_num ..,
      (Dev.regBit_setRegBit _ offTimeCtl (by decide) w).trans (if_pos rfl)⟩
  · have flip : b = !s.d.time.selB := Bool.eq_not_of_ne other
    have within := Dev.switchDomain_within (d := s.d.touch c)
      (by rw [Dev.touch_time, ← flip, Dev.jumpNs_touch]; exact near) true
    rw [State.put_d, Dev.reply_time, within, Dev.touch_time, flip]
  · have flip : b = !s.d.time.selB := Bool.eq_not_of_ne other
    obtain ⟨time, refused, flag, count⟩ := Dev.switchDomain_beyond (d := s.d.touch c)
      (by rw [Dev.touch_time, ← flip, Dev.jumpNs_touch]; exact far)
    rw [State.put_d, Dev.reply_time, Dev.regBit_congr (Dev.reply_regs ..), Dev.regBit_congr (Dev.reply_regs ..),
      Dev.reply_ctr _ _ _ _ _ (by unfold notPacketCtr; decide)]
    exact ⟨time, refused, flag, count⟩
end

section
/-! PROOF. What work on the ports, the links and the reports leaves of the boot state (R467). -/

namespace Sys2Proof.Machine

/-- `e` comes from `d` by work on ports, links and reports: the boot state, the fuses, the tables, the clocks, the
memory and AUTO_REMAP are as they were. -/
structure Dev.KeepsBoot (d e : Dev) : Prop where
  boot : e.boot = d.boot
  fuses : e.fuses = d.fuses
  fwd : e.fwd = d.fwd
  clk : e.clk = d.clk
  mem : e.mem = d.mem
  autoRemap : e.autoRemap = d.autoRemap

variable {d e f : Dev}

theorem Dev.KeepsBoot.refl (d : Dev) : d.KeepsBoot d := ⟨rfl, rfl, rfl, rfl, rfl, rfl⟩

theorem Dev.KeepsBoot.trans (h : d.KeepsBoot e) (k : e.KeepsBoot f) : d.KeepsBoot f :=
  ⟨k.boot.trans h.boot, k.fuses.trans h.fuses, k.fwd.trans h.fwd, k.clk.trans h.clk, k.mem.trans h.mem,
    k.autoRemap.trans h.autoRemap⟩

theorem Dev.keepsBoot_ite (c : Prop) [Decidable c] (he : d.KeepsBoot e) (hf : d.KeepsBoot f) :
    d.KeepsBoot (if c then e else f) := by
  split
  · exact he
  · exact hf

/-- A list of such steps is one. -/
theorem Dev.keepsBoot_foldl {α : Type} {g : Dev → α → Dev} (h : ∀ (d : Dev) (a : α), d.KeepsBoot (g d a))
    (l : List α) (d : Dev) :
    d.KeepsBoot (l.foldl g d) :=
  List.foldlRecOn (motive := fun e => d.KeepsBoot e) l g (.refl d) fun e he a _ => he.trans (h e a)

/-! ### Reports -/

theorem Dev.keepsBoot_event (d : Dev) (ev : Ev) : d.KeepsBoot (d.event ev) := by
  obtain ⟨_, told⟩ := d.event_shape ev
  rw [told]
  exact ⟨rfl, rfl, rfl, rfl, rfl, rfl⟩

theorem Dev.keepsBoot_faultRec (d : Dev) (cls unit_ index sub action left detail : Nat) :
    d.KeepsBoot (d.faultRec cls unit_ index sub action left detail) := by
  obtain ⟨_, _, _, _, noted⟩ := d.faultRec_shape cls unit_ index sub action left detail
  rw [noted]
  exact ⟨rfl, rfl, rfl, rfl, rfl, rfl⟩

theorem Dev.keepsBoot_crossFloor (d : Dev) (floor value unit_ index : Nat) :
    d.KeepsBoot (d.crossFloor floor value unit_ index) := by
  have noted (x : FaultSt) : d.KeepsBoot { d with faults := x } := ⟨rfl, rfl, rfl, rfl, rfl, rfl⟩
  unfold Dev.crossFloor
  exact Dev.keepsBoot_ite _ (.refl d) (((noted _).trans (Dev.keepsBoot_event ..)).trans (Dev.keepsBoot_faultRec ..))

theorem Dev.keepsBoot_checkFiber (d : Dev) (p : Nat) : d.KeepsBoot (d.checkFiber p) := by
  unfold Dev.checkFiber
  exact (Dev.keepsBoot_ite _ (d.keepsBoot_crossFloor ..) (.refl d)).trans
    (Dev.keepsBoot_ite _ (Dev.keepsBoot_crossFloor ..) (.refl _))

/-- Floors that self-test crossed are reported (R491). -/
theorem Dev.keepsBoot_checkFloors (d : Dev) : d.KeepsBoot d.checkFloors := by
  have counted : d.KeepsBoot ((d.checkCores 0).checkStore 0) := by
    unfold Dev.checkCores Dev.checkStore
    exact (Dev.keepsBoot_ite _ (d.keepsBoot_crossFloor ..) (.refl d)).trans
      (Dev.keepsBoot_ite _ (Dev.keepsBoot_crossFloor ..) (.refl _))
  unfold Dev.checkFloors
  dsimp only
  split
  · exact counted.trans (Dev.keepsBoot_crossFloor ..)
  · exact counted

/-! ### Ports (R324, R360) -/

theorem Dev.keepsBoot_setPort (d : Dev) (p : Nat) (x : PortSt) : d.KeepsBoot (d.setPort p x) :=
  ⟨rfl, rfl, rfl, rfl, rfl, rfl⟩

theorem Dev.keepsBoot_dropCopies (d : Dev) (l : List Copy) (outcome : Nat) :
    d.KeepsBoot (d.dropCopies l outcome) := by
  refine Dev.keepsBoot_foldl (fun e c => ?_) l d
  obtain ⟨_, _, gleaned⟩ := e.gleanFrame_shape c.fid c outcome false false
  obtain ⟨_, _, _, _, released⟩ := (e.gleanFrame c.fid c outcome false false).release_shape c.fid
  rw [released, gleaned]
  exact ⟨rfl, rfl, rfl, rfl, rfl, rfl⟩

theorem Dev.keepsBoot_failFrame (d : Dev) (fid outcome : Nat) : d.KeepsBoot (d.failFrame fid outcome) := by
  have stored (x : Store) : d.KeepsBoot { d with store := x } := ⟨rfl, rfl, rfl, rfl, rfl, rfl⟩
  exact (stored _).trans (Dev.keepsBoot_dropCopies ..)

theorem Dev.keepsBoot_failRx (d : Dev) (p : Nat) : d.KeepsBoot (d.failRx p) := by
  unfold Dev.failRx
  split
  · exact .refl d
  · exact (d.keepsBoot_setPort ..).trans (Dev.keepsBoot_foldl (fun e fid => e.keepsBoot_failFrame fid 4) ..)

theorem Dev.keepsBoot_setDown (d : Dev) (p reason : Nat) : d.KeepsBoot (d.setDown p reason) :=
  ((d.keepsBoot_failRx p).trans (Dev.keepsBoot_setPort ..)).trans (Dev.keepsBoot_checkFiber ..)

theorem Dev.keepsBoot_degraded (d : Dev) (p step action capacity : Nat) :
    d.KeepsBoot (d.degraded p step action capacity) :=
  (d.keepsBoot_event ..).trans (Dev.keepsBoot_faultRec ..)

/-- A port's rings and laser are of the optics alone. -/
theorem Dev.keepsBoot_mapRings (d : Dev) (p : Nat) (g : RingSt → RingSt) : d.KeepsBoot (d.mapRings p g) :=
  ⟨rfl, rfl, rfl, rfl, rfl, rfl⟩

theorem Dev.keepsBoot_lightPort (d : Dev) (p : Nat) (lit : Bool) : d.KeepsBoot (d.lightPort p lit) :=
  ⟨rfl, rfl, rfl, rfl, rfl, rfl⟩

theorem Dev.keepsBoot_joinLoop (d : Dev) (p : Nat) : d.KeepsBoot (d.joinLoop p) := ⟨rfl, rfl, rfl, rfl, rfl, rfl⟩

theorem Dev.keepsBoot_toDetect (d : Dev) (p : Nat) : d.KeepsBoot (d.toDetect p) := by
  have failed := d.keepsBoot_failRx p
  have lit (e : Dev) (x : PortSt) (b : Bool) : e.KeepsBoot (((e.setPort p x).joinLoop p).lightPort p b) :=
    ((e.keepsBoot_setPort ..).trans (Dev.keepsBoot_joinLoop ..)).trans (Dev.keepsBoot_lightPort ..)
  have waits (c : Prop) [Decidable c] (x : PortSt) (b : Bool) (g : RingSt → RingSt) :
      let e := (((d.failRx p).setPort p x).joinLoop p).lightPort p b
      d.KeepsBoot (if c then e else e.mapRings p g) :=
    Dev.keepsBoot_ite c (failed.trans (lit ..)) ((failed.trans (lit ..)).trans (Dev.keepsBoot_mapRings ..))
  unfold Dev.toDetect
  dsimp only
  split
  · exact ((failed.trans (Dev.keepsBoot_lightPort ..)).trans (Dev.keepsBoot_setPort ..)).trans
      (Dev.keepsBoot_mapRings ..)
  · split
    · exact (failed.trans (Dev.keepsBoot_setDown ..)).trans (Dev.keepsBoot_degraded ..)
    · exact Dev.keepsBoot_ite _ (((waits ..).trans (Dev.keepsBoot_degraded ..)).trans (Dev.keepsBoot_checkFiber ..))
        (waits ..)

/-! ### Management links (R385, R388) -/

theorem Dev.keepsBoot_setMg (d : Dev) (m : Nat) (x : MgLink) : d.KeepsBoot (d.setMg m x) := by
  obtain ⟨_, _, set⟩ := d.setMg_shape m x
  rw [set]
  exact ⟨rfl, rfl, rfl, rfl, rfl, rfl⟩

theorem Dev.keepsBoot_setEvDest (d : Dev) (a : Source) (x : EvDest) : d.KeepsBoot (d.setEvDest a x) := by
  cases a <;> exact ⟨rfl, rfl, rfl, rfl, rfl, rfl⟩

theorem Dev.keepsBoot_eventTo (d : Dev) (ev : Ev) (a : Source) : d.KeepsBoot (d.eventTo ev a) := by
  unfold Dev.eventTo
  exact Dev.keepsBoot_ite _ (.refl d)
    (Dev.keepsBoot_ite _ (d.keepsBoot_setEvDest ..) (d.keepsBoot_setEvDest ..))

theorem Dev.keepsBoot_mgStart (d : Dev) (m : Nat) : d.KeepsBoot (d.mgStart m) := d.keepsBoot_setMg ..

theorem Dev.keepsBoot_abortOpen (d : Dev) (a : Source) (cause : Nat) (l : List Source) :
    d.KeepsBoot (d.abortOpen a cause l) := by
  have dropped (t : Txn) : d.KeepsBoot (d.dropTxn a t.id) := ⟨rfl, rfl, rfl, rfl, rfl, rfl⟩
  unfold Dev.abortOpen
  split
  · exact .refl d
  · exact Dev.keepsBoot_ite _ ((dropped _).trans (Dev.keepsBoot_foldl (fun e b => e.keepsBoot_eventTo ..) ..))
      (dropped _)

theorem Dev.keepsBoot_mgLeave (d : Dev) (m code : Nat) : d.KeepsBoot (d.mgLeave m code) := by
  have cleared (e : Dev) (a : Source) : e.KeepsBoot (e.dropQueued a) := ⟨rfl, rfl, rfl, rfl, rfl, rfl⟩
  have counted (e : Dev) (a : Nat) : e.KeepsBoot (e.bump a) := ⟨rfl, rfl, rfl, rfl, rfl, rfl⟩
  have cut : d.KeepsBoot (d.mgCut m code) :=
    (((d.keepsBoot_setMg ..).trans (cleared ..)).trans (Dev.keepsBoot_mgStart ..)).trans (Dev.keepsBoot_setEvDest ..)
  have aborted := (cut.trans (Dev.keepsBoot_abortOpen _ (mgSource m) 2 (otherDests m))).trans
    (counted _ (ctrMgl m 0x130))
  have told := Dev.keepsBoot_foldl (fun e t => e.keepsBoot_eventTo (.mgDown m code) t) (otherDests m)
    (((d.mgCut m code).abortOpen (mgSource m) 2 (otherDests m)).bump (ctrMgl m 0x130))
  rw [Dev.mgLeave_eq]
  have reported := Dev.keepsBoot_ite
    ((((d.mgCut m code).abortOpen (mgSource m) 2 (otherDests m)).bump (ctrMgl m 0x130)).svRuns 1 = true)
    (aborted.trans told) aborted
  exact Dev.keepsBoot_ite _ (reported.trans (Dev.keepsBoot_faultRec ..)) reported

theorem Dev.keepsBoot_writeMglCtl (d : Dev) (m v : Nat) : d.KeepsBoot (d.writeMglCtl m v) := by
  unfold Dev.writeMglCtl
  split
  · exact .refl d
  · next r off _ =>
    have written : d.KeepsBoot (d.writeReg r off v) := ⟨rfl, rfl, rfl, rfl, rfl, rfl⟩
    exact Dev.keepsBoot_ite _ (written.trans (Dev.keepsBoot_mgLeave ..))
      (Dev.keepsBoot_ite _ (written.trans (Dev.keepsBoot_mgStart ..)) written)

/-- A link's mode, written by SV0, touches nothing of the boot state. -/
theorem Dev.keepsBoot_setMglMode (d : Dev) (m v : Nat) : d.KeepsBoot (d.setMglMode m v) :=
  d.keepsBoot_writeMglCtl ..

end Sys2Proof.Machine
end

section
/-! PROOF. From the boot image to READY: its read, its checks, its configuration and IMAGE_LOAD
(R460 to R463, R466, R467). -/

namespace Sys2Proof.Machine

variable {s : State} {d : Dev} {c : BootCfg}

/-! ### Entering BOOT, SAFE_TALK and READY -/

/-- The boot state that BOOT begins with. -/
def Boot.started (b : Boot) : Boot :=
  { b with st := .boot, cause := 0, reject := 0, imgLast := true, imgOk := false, cfg := none }

theorem Dev.enterBoot_keeps (d : Dev) : Dev.KeepsBoot { d with boot := d.boot.started } d.enterBoot :=
  (Dev.keepsBoot_setMglMode _ 0 0).trans (Dev.keepsBoot_setMglMode _ 1 0)

/-- The boot state back in SAFE_TALK, the image given up. -/
def Boot.givenUp (b : Boot) (cause : BitVec 4) : Boot :=
  { b with image := [], imgLast := false, imgSource := none, cfg := none, st := .safeTalk, cause := cause }

theorem Dev.enterSafeTalk_keeps (d : Dev) (cause : BitVec 4) :
    (d.enterSafeTalk cause).fuses = d.fuses ∧ (d.enterSafeTalk cause).fwd = d.fwd :=
  have shown := ((Dev.keepsBoot_mgStart _ 0).trans (Dev.keepsBoot_mgStart _ 1)).trans (Dev.keepsBoot_event _ _)
  ⟨shown.fuses, shown.fwd⟩

theorem Dev.backToSafeTalk_keeps (d : Dev) (cause : BitVec 4) :
    (d.backToSafeTalk cause).boot = d.boot.givenUp cause ∧ (d.backToSafeTalk cause).fuses = d.fuses ∧
    (d.backToSafeTalk cause).fwd = d.fwd := by
  have linked (e : Dev) := (e.keepsBoot_setMglMode 0 1).trans (Dev.keepsBoot_setMglMode _ 1 1)
  obtain ⟨fuses, fwd⟩ := Dev.enterSafeTalk_keeps _ cause
  refine ⟨(Dev.enterSafeTalk_boot _ cause).trans ?_, fuses.trans (linked _).fuses, fwd.trans (linked _).fwd⟩
  rw [(linked _).boot]
  rfl

theorem Dev.rejectImage_slotB {n : Nat} (flash : d.boot.bootSrc = 0) (slot : d.boot.imgSlot = false) :
    d.rejectImage n = { d with
      boot := { d.boot with reject := BitVec.ofNat 4 n, imgSlot := true, image := [], imgLast := false },
      clk := { d.clk with flCsN := false } } :=
  if_pos (by simp [flash, slot])

theorem Dev.rejectImage_safeTalk {n : Nat} (last : d.boot.bootSrc ≠ 0 ∨ d.boot.imgSlot = true) :
    d.rejectImage n =
      ({ d with boot := { d.boot with reject := BitVec.ofNat 4 n } }).backToSafeTalk causeRejected :=
  if_neg (by rcases last with src | slot <;> simp_all)

/-- A rejection leaves the fuses and the tables. -/
theorem Dev.rejectImage_keeps (d : Dev) (n : Nat) :
    (d.rejectImage n).fuses = d.fuses ∧ (d.rejectImage n).fwd = d.fwd := by
  unfold Dev.rejectImage
  dsimp only
  split
  · exact ⟨rfl, rfl⟩
  · obtain ⟨-, fuses, fwd⟩ := Dev.backToSafeTalk_keeps
      { d with boot := { d.boot with reject := BitVec.ofNat 4 n } } causeRejected
    exact ⟨fuses, fwd⟩

/-- The boot state of READY. -/
def Boot.readied (b : Boot) : Boot :=
  { b with st := .ready, cause := 0, image := [], imgLast := false, imgSource := none }

/-- A port's way into READY (R467). -/
def Dev.bringUp (d : Dev) (p : Nat) : Dev :=
  if (d.port p).mode = 0 then d else if d.opticsDown p then d.setDown p 3 else d.toDetect p

theorem Dev.keepsBoot_bringUp (d : Dev) (p : Nat) : d.KeepsBoot (d.bringUp p) :=
  Dev.keepsBoot_ite _ (.refl d) (Dev.keepsBoot_ite _ (d.keepsBoot_setDown ..) (d.keepsBoot_toDetect p))

theorem Dev.enterReady_keeps (d : Dev) (c : BootCfg) :
    Dev.KeepsBoot { d with boot := d.boot.readied } (d.enterReady c) := by
  have linked := (Dev.keepsBoot_setMglMode { d with boot := d.boot.readied } 0 c.mgMode0.toNat).trans
    (Dev.keepsBoot_setMglMode _ 1 c.mgMode1.toNat)
  unfold Dev.enterReady
  exact (linked.trans (Dev.keepsBoot_event _ _)).trans (Dev.keepsBoot_foldl Dev.keepsBoot_bringUp _ _)

/-! ### The read of the flash (R460) -/

/-- An image read from the flash is in the buffer. -/
def Dev.withImage (d : Dev) (b : List Byte) (slot : Bool) : Dev :=
  { d with boot := { d.boot with image := putImage [] 0 (b.take 0x1000000), imgLast := true, imgSlot := slot },
           clk := { d.clk with flCsN := true } }

theorem exec_flashImageRead_slotA (b : List Byte) (awake : s.d.awake = true) (runs : s.d.svRuns 0 = true)
    (flash : s.d.boot.bootSrc = 0) (talk : s.d.boot.st = .safeTalk) (cause : s.d.boot.cause = 0) :
    exec (.flashImageReadComplete b) s = .next (s.put (s.d.withImage b false).enterBoot) :=
  congrArg (goto s) ((if_neg (by simp [awake, runs, flash])).trans (if_pos (by simp [talk, cause])))

theorem exec_flashImageRead_slotB (b : List Byte) (awake : s.d.awake = true) (runs : s.d.svRuns 0 = true)
    (flash : s.d.boot.bootSrc = 0) (boot : s.d.boot.st = .boot) (slot : s.d.boot.imgSlot = true)
    (absent : s.d.boot.imgLast = false) :
    exec (.flashImageReadComplete b) s = .next (s.put { s.d with
      boot := { s.d.boot with image := putImage [] 0 (b.take 0x1000000), imgLast := true },
      clk := { s.d.clk with flCsN := true } }) :=
  congrArg (goto s) ((if_neg (by simp [awake, runs, flash])).trans
    ((if_neg (by simp [boot])).trans (if_pos (by simp [boot, slot, absent]))))

/-! ### The checks (R463) -/

/-- The checks carry the codes 1 to 9. -/
theorem firstFail_imageChecks_le (f : Fuses) (t : Tab Byte) : firstFail (imageChecks f t) ≤ 9 := by
  unfold firstFail
  split
  · next x found =>
    have listed := List.mem_of_find?_eq_some found
    simp only [imageChecks, List.mem_cons, List.not_mem_nil, or_false] at listed
    rcases listed with rfl | rfl | rfl | rfl | rfl | rfl | rfl | rfl | rfl <;> simp
  · exact Nat.zero_le 9

theorem imageNum_byte_lt (t : Tab Byte) (o : Nat) : imageNum t o 1 < 256 := by
  have small := (Tab.get t (o + 0) 0).isLt
  simpa [imageNum, imageSlice, ofBe] using small

/-- What a passed image leaves in the boot state. -/
def Dev.withChecked (d : Dev) (c : BootCfg) : Dev :=
  let t := d.boot.image
  { d with boot := { d.boot with
    cfg := some c, imgOk := true, svn := BitVec.ofNat 8 (imageNum t 6 1), fwHash := imageField t 12,
    cfgHash := imageField t 180, ownerKeyHash := imageHash t 216 64,
    aliasKey := d.fuses.aliasKey (imageField t 12) } }

theorem exec_imageCheck (awake : s.d.awake = true) (runs : s.d.svRuns 0 = true) (boot : s.d.boot.st = .boot)
    (present : s.d.boot.imgLast = true) (unchecked : s.d.boot.imgOk = false) (owned : s.d.fuses.validOwners ≠ []) :
    exec (.imageCheckComplete (some c)) s = .next (s.put
      (if firstFail (imageChecks s.d.fuses s.d.boot.image) = 0 then
        if s.d.cfgOk c then s.d.withChecked c else s.d.rejectImage 10
      else s.d.rejectImage (firstFail (imageChecks s.d.fuses s.d.boot.image)))) := by
  refine congrArg (goto s) ((if_neg (by simp [awake, runs, boot, present, unchecked])).trans
    ((if_neg (by simpa using owned)).trans ?_))
  cases firstFail (imageChecks s.d.fuses s.d.boot.image) with
  | zero => rfl
  | succ n => rfl

/-! ### The configuration (R466) -/

theorem Dev.setExpander_boot (d : Dev) (e : Nat) (x : Expander) : (d.setExpander e x).boot = d.boot := by
  unfold Dev.setExpander
  split <;> rfl

theorem Dev.applyMemory_boot (d : Dev) (c : BootCfg) : (d.applyMemory c).boot = d.boot := by
  unfold Dev.applyMemory
  dsimp only [Dev.lockPlls]
  rw [foldl_keeps Dev.boot fun e n => e.setExpander_boot n _]
  rfl

theorem Dev.keepsBoot_applyMode (d : Dev) (x : PortModeCfg) : d.KeepsBoot (d.applyMode x) := d.keepsBoot_setPort ..

theorem Dev.keepsBoot_applyRef (d : Dev) (x : Fin 16 × LaserIx × BitVec 16) : d.KeepsBoot (d.applyRef x) :=
  Dev.keepsBoot_ite _ (.refl d) ⟨rfl, rfl, rfl, rfl, rfl, rfl⟩

theorem Dev.keepsBoot_checkBands (d : Dev) : d.KeepsBoot d.checkBands := by
  unfold Dev.checkBands
  exact Dev.keepsBoot_foldl (fun e _ => Dev.keepsBoot_ite _ (.refl e) (e.keepsBoot_event _)) _ d

theorem Dev.keepsBoot_applyOptics (d : Dev) (c : BootCfg) : d.KeepsBoot (d.applyOptics c) :=
  ((Dev.keepsBoot_foldl Dev.keepsBoot_applyMode c.portModes d).trans
    (Dev.keepsBoot_foldl Dev.keepsBoot_applyRef c.laserRefs _)).trans (Dev.keepsBoot_checkBands _)

theorem Dev.applyFabric_boot (d : Dev) : d.applyFabric.boot = d.boot := by
  have tables (e : Dev) (f : Fwd) : ({ e with fwd := f } : Dev).boot = e.boot := rfl
  unfold Dev.applyFabric
  generalize List.range 512 = ports
  generalize List.range 16 = engines
  refine (tables _ _).trans ((foldl_keeps Dev.boot ?_ engines _).trans (foldl_keeps Dev.boot ?_ ports d))
  · exact fun _ _ => rfl
  · exact fun _ _ => rfl

theorem Dev.applyFabric_partZero (d : Dev) : Tab.get d.applyFabric.fwd.cur.parts 0 PartEntry.none = partZero := by
  unfold Dev.applyFabric
  generalize List.range 512 = ports
  generalize List.range 16 = engines
  exact Tab.get_set_same _ 0 partZero PartEntry.none

theorem Dev.applyPlan_keeps (d : Dev) (c : BootCfg) :
    (d.applyPlan c).boot = d.boot ∧ (d.applyPlan c).fwd = d.fwd := by
  unfold Dev.applyPlan
  exact ⟨foldl_keeps Dev.boot (g := fun (e : Dev) x => e.setPlan x.1.val x.2) (fun _ _ => rfl) c.plan d,
    foldl_keeps Dev.fwd (g := fun (e : Dev) x => e.setPlan x.1.val x.2) (fun _ _ => rfl) c.plan d⟩

/-- Steps 1 to 6 of R466. -/
def Dev.configured (d : Dev) (c : BootCfg) : Dev :=
  (((((d.applyRole c).applyMemory c).applyOptics c).checkFloors).applyFabric.applyPlan c).applyAccess c

/-- The boot state after steps 1 to 6. -/
theorem Dev.configured_boot (d : Dev) (c : BootCfg) : (d.configured c).boot =
    { (d.applyRole c).boot with requesters := c.requesters, hlOwner := c.hlOwner } := by
  have boot : ((((((d.applyRole c).applyMemory c).applyOptics c).checkFloors).applyFabric.applyPlan c)).boot =
      (d.applyRole c).boot := by
    rw [(Dev.applyPlan_keeps _ c).1, Dev.applyFabric_boot, (Dev.keepsBoot_checkFloors _).boot,
      (Dev.keepsBoot_applyOptics _ c).boot, Dev.applyMemory_boot]
  exact congrArg (fun b : Boot => { b with requesters := c.requesters, hlOwner := c.hlOwner }) boot

theorem Dev.configured_partZero (d : Dev) (c : BootCfg) :
    Tab.get (d.configured c).fwd.cur.parts 0 PartEntry.none = partZero := by
  have fwd : (d.configured c).fwd = ((((d.applyRole c).applyMemory c).applyOptics c).checkFloors).applyFabric.fwd :=
    (Dev.applyPlan_keeps _ c).2
  rw [fwd, Dev.applyFabric_partZero]

theorem exec_bootApply (awake : s.d.awake = true) (runs : s.d.svRuns 0 = true) (boot : s.d.boot.st = .boot)
    (passed : s.d.boot.imgOk = true) (parsed : s.d.boot.cfg = some c) :
    exec .bootApplyComplete s = .next (s.put (((s.d.configured c).applyRest c).enterReady c)) := by
  refine congrArg (goto s) ?_
  rw [parsed]
  exact if_neg (by simp [awake, runs, boot, passed])

/-! ### IMAGE_LOAD (R460, R462) -/

/-- IMAGE_LOAD's class: over Howlink the grant stands for the owner's key. -/
def imageLoadClass (src : Source) : PrivClass := if src = .howlink then .operator else .owner

section
variable {k : CmdCtx} {o : Word} {last : Bool} {b : List Byte}

/-- IMAGE_LOAD in its order, on its source's path: it loads and answers, and BOOT begins after the reply. -/
theorem exec_imageLoad (h : s.d.Runs (.imageLoad k o last b) k 0x0B02 (imageLoadClass k.src))
    (runs : s.d.svRuns 0 = true) (talk : s.d.boot.st = .safeTalk) (path : imagePath s.d.boot.bootSrc k.src = true)
    (short : b.length ≤ 4080) (fits : o.toNat + b.length ≤ 0x1000000)
    (holder : s.d.boot.imgSource = none ∨ s.d.boot.imgSource = some k.src) :
    let e := ((s.d.touch k).loadImage k.src o.toNat last b).reply k 0x0B02 .ok .empty
    exec (.imageLoad k o last b) s =
      .next (s.put (if e.boot.st = .safeTalk && e.boot.imgLast then e.enterBoot else e)) := by
  refine congrArg (fun e : Dev => goto s (if e.boot.st = .safeTalk && e.boot.imgLast then e.enterBoot else e))
    (Dev.runCmd_needs h runs ?_)
  refine (if_neg (by simp [talk, path])).trans ((if_neg ?_).trans (if_neg ?_))
  · simp [short, imageMax, Nat.not_lt.mpr fits]
  · rcases holder with free | held
    · simp [free]
    · simp [held]

/-- The boot state after an IMAGE_LOAD's bytes. -/
theorem Dev.loaded_boot (d : Dev) : (((d.touch k).loadImage k.src o.toNat last b).reply k 0x0B02 .ok .empty).boot =
    (d.loadImage k.src o.toNat last b).boot := by
  rw [Dev.reply_boot]
  rfl

end

end Sys2Proof.Machine

open Sys2Proof Sys2Proof.Machine

/-- Settles O9: each clause follows the boot state through one event; links, ports and reports leave it as it is. -/
theorem imageToReady : Obligations.ImageToReady := by
  unfold Obligations.ImageToReady
  refine ⟨?_, ?_, ?_, ?_, ?_, ?_, ?_⟩
  · intro s b awake runs flash talk cause
    have kept := (s.d.withImage b false).enterBoot_keeps
    refine ⟨_, exec_flashImageRead_slotA b awake runs flash talk cause, ?_⟩
    simp only [State.put_d, kept.boot, kept.clk, kept.fuses, kept.fwd, kept.mem]
    exact ⟨rfl, rfl, rfl, rfl, rfl, rfl, rfl, rfl, rfl⟩
  · intro s b awake runs flash boot slot absent
    exact exec_flashImageRead_slotB b awake runs flash boot slot absent
  · intro s c awake runs boot present unchecked owned n
    have few : n < 16 := Nat.lt_of_le_of_lt (firstFail_imageChecks_le s.d.fuses s.d.boot.image) (by decide)
    have code : (BitVec.ofNat 4 n).toNat = n := by simp [Nat.mod_eq_of_lt few]
    refine ⟨_, exec_imageCheck awake runs boot present unchecked owned, ?_⟩
    rw [State.put_d]
    obtain ⟨rejFuses, rejFwd⟩ := s.d.rejectImage_keeps n
    obtain ⟨tenFuses, tenFwd⟩ := s.d.rejectImage_keeps 10
    by_cases passed : n = 0
    · rw [if_pos passed]
      by_cases ok : s.d.cfgOk c = true
      · rw [if_pos ok]
        have svn : (BitVec.ofNat 8 (imageNum s.d.boot.image 6 1)).toNat = imageNum s.d.boot.image 6 1 := by
          simp [Nat.mod_eq_of_lt (imageNum_byte_lt s.d.boot.image 6)]
        exact ⟨rfl, rfl, fun _ _ => ⟨rfl, rfl, boot, svn, rfl, rfl, rfl⟩, fun h => absurd passed h,
          fun h => absurd passed h⟩
      · rw [if_neg ok]
        exact ⟨tenFuses, tenFwd, fun _ h => absurd h ok, fun h => absurd passed h, fun h => absurd passed h⟩
    · rw [if_neg passed]
      refine ⟨rejFuses, rejFwd, fun h => absurd h passed, fun _ flash slot => ?_, fun _ after => ?_⟩
      · rw [Dev.rejectImage_slotB flash slot]
        exact ⟨boot, rfl, rfl, code, rfl⟩
      · rw [Dev.rejectImage_safeTalk after, (Dev.backToSafeTalk_keeps _ causeRejected).1]
        exact ⟨rfl, rfl, code, rfl⟩
  · intro s c awake runs boot passed parsed
    have kept := ((s.d.configured c).applyRest c).enterReady_keeps c
    refine ⟨_, exec_bootApply awake runs boot passed parsed, ?_⟩
    rw [State.put_d, kept.boot]
    exact ⟨rfl, rfl, rfl⟩
  · intro s c awake runs boot passed parsed noRegs noStaged
    have rest : (s.d.configured c).applyRest c = s.d.configured c := by
      rw [Dev.applyRest, noRegs, noStaged]
      rfl
    have kept := (s.d.configured c).enterReady_keeps c
    have autoRemap : (s.d.configured c).autoRemap = c.autoRemap := rfl
    refine ⟨_, exec_bootApply awake runs boot passed parsed, ?_⟩
    rw [rest, State.put_d, kept.boot, kept.autoRemap, kept.fwd]
    rw [Dev.configured_boot, Dev.configured_partZero]
    exact ⟨rfl, rfl, rfl, rfl, rfl, rfl, autoRemap, rfl, rfl⟩
  · intro s k o b h runs talk path short fits holder
    have ran := exec_imageLoad h runs talk path short fits holder
    have boot := Dev.loaded_boot (k := k) (o := o) (last := false) (b := b) s.d
    dsimp only at ran
    rw [boot, if_neg (by simp [Dev.loadImage])] at ran
    refine ⟨_, ran, ?_⟩
    rw [State.put_d, boot, Dev.reply_fuses, Dev.reply_fwd]
    exact ⟨rfl, talk, rfl, rfl, rfl⟩
  · intro s k o b h runs talk path short fits holder complete bootable
    have ran := exec_imageLoad h runs talk path short fits holder
    have boot := Dev.loaded_boot (k := k) (o := o) (last := true) (b := b) s.d
    have kept := (((s.d.touch k).loadImage k.src o.toNat true b).reply k 0x0B02 .ok .empty).enterBoot_keeps
    dsimp only at ran
    rw [boot, if_pos (by simp [Dev.loadImage, talk, complete, bootable])] at ran
    refine ⟨_, ran, ?_⟩
    rw [State.put_d, kept.boot, kept.fuses]
    dsimp only
    rw [boot, Dev.reply_fuses]
    exact ⟨rfl, rfl, rfl⟩
end

section
/-! PROOF. Validation of a commit and the end of its wait (R419 to R422). -/

namespace Sys2Proof.Machine

variable {s : State} {d e : Dev} {u : Txn}

/-- Work of a commit's end leaves the objects that a transaction changes. -/
theorem Dev.Answered.plan (h : d.Answered e) : e.plan = d.plan := by
  obtain ⟨_, _, _, _, rfl⟩ := h
  rfl

/-- An ended commit leaves no object of the transaction changed. -/
theorem Dev.finishCommit_objects (d : Dev) (t : Txn) (st : Status) (ns : Nat) (r : Res) :
    let e := d.finishCommit t st ns r
    e.fwd = d.fwd ∧ e.red = d.red ∧ e.thr = d.thr ∧ e.ports = d.ports ∧ e.plan = d.plan ∧ e.tm = d.tm ∧
    e.store = d.store ∧ e.mem = d.mem := by
  have answered := d.answered_finishCommit t st ns r
  obtain ⟨fwd, red, thr, ports, -, tm, store, mem, -⟩ := answered.planes
  exact ⟨fwd, red, thr, ports, answered.plan, tm, store, mem⟩

/-! ### The drain's limit (R422) -/

/-- The device without a transaction and with no command held. -/
def Dev.released (d : Dev) (t : Txn) : Dev :=
  { d.dropTxn t.src t.id with cmd := { (d.dropTxn t.src t.id).cmd with held := [] } }

/-- The one held commit is answered while its path is up, and held no more. -/
theorem Dev.finishCommit_held {h : HeldReply} {t : Txn} {st : Status} {ns : Nat} {r : Res} (one : d.cmd.held = [h])
    (src : h.c.src = t.src) (what : h.what = .commit t.id) (now : h.deferred = false) (up : d.pathUp h.c = true)
    (runs : d.svRuns 1 = true) :
    .reply h.c h.opcode st r ∈ (d.finishCommit t st ns r).out ∧ (d.finishCommit t st ns r).cmd.held = [] := by
  have found : (d.dropTxn t.src t.id).cmd.held.find? (fun k => k.c.src == t.src && k.what == .commit t.id) =
      some h := by
    change d.cmd.held.find? _ = _
    rw [one]
    exact List.find?_cons_of_pos (by simp [src, what])
  have left : (d.dropTxn t.src t.id).cmd.held.erase h = [] := by
    change d.cmd.held.erase h = []
    rw [one]
    exact List.erase_cons_head h []
  have ended : d.finishCommit t st ns r = (d.released t).reply h.c h.opcode st r := by
    unfold Dev.finishCommit
    dsimp only
    rw [found]
    dsimp only
    rw [left, now, if_neg Bool.false_ne_true]
    exact if_pos up
  rw [ended]
  exact ⟨Dev.reply_sent (d := d.released t) up runs h.opcode st r, Dev.reply_held ..⟩

theorem exec_drainWaitTimeout {src : Source} {id : BitVec 16} (awake : s.d.awake = true) (runs : s.d.svRuns 1 = true)
    (found : s.d.cmd.txns.find? (fun w => w.src == src && w.id == id && decide (w.st = .waiting)) = some u) :
    exec (.drainWaitTimeout src id) s =
      .next (s.put (if s.d.drainWait u then s.d.finishCommit u .timeout 0 .empty else s.d)) := by
  refine congrArg (goto s) ((if_neg (by simp [awake, runs])).trans ?_)
  rw [found]

/-! ### One batch of one transaction (R420) -/

/-- The one transaction waits no more: it is the batch. -/
theorem Dev.batch_one (one : d.cmd.txns = [u]) (waiting : u.st = .waiting) (free : d.mustWait u = false)
    (ready : ∀ n, u.readyAt = some n → n ≤ d.now) : d.batch = [u] := by
  have by_now : u.readyClk d.now ≤ d.now := by
    unfold Txn.readyClk
    cases clk : u.readyAt with
    | none => exact Nat.le_refl _
    | some n => exact ready n clk
  simp [Dev.batch, one, waiting, free, byOrder, Nat.min_eq_right by_now]

theorem Dev.admitMember_pass {d1 : Dev} (one : d.cmd.txns = [u]) (passed : d.validate d.trial u = .pass d1) :
    Dev.admitMember (d, d.trial) u = ({ d with cmd := { d.cmd with txns := [{ u with st := .applying }] } }, d1) := by
  simp [Dev.admitMember, one, passed, Dev.setTxn, Dev.spoil]

theorem Dev.admitMember_fail {i op : Nat} {st : Status} (one : d.cmd.txns = [u])
    (failed : d.validate d.trial u = .fail i op st) :
    Dev.admitMember (d, d.trial) u = (d.finishCommit u st 0 (.failed i op), d.trial) := by
  simp [Dev.admitMember, one, failed]

/-- COMMIT_READY with one transaction, which is ready: it goes through validation alone. -/
theorem exec_commitReady_one (awake : s.d.awake = true) (runs : s.d.svRuns 1 = true) (one : s.d.cmd.txns = [u])
    (waiting : u.st = .waiting) (free : s.d.mustWait u = false) (ready : ∀ n, u.readyAt = some n → n ≤ s.d.now) :
    let r := Dev.admitMember (s.d, s.d.trial) u
    exec .commitReady s = .next (s.put
      (if r.1.cmd.txns.any fun t => decide (t.st = .applying) && t.staged.any Staged.isTable then
        { r.1 with fwd := { r.1.fwd with other := r.2.fwd.other } } else r.1)) := by
  have still : s.d.flipping = false := by simp [Dev.flipping, one, waiting]
  refine congrArg (goto s) ((if_neg (by simp [awake, runs, still])).trans ?_)
  rw [Dev.batch_one one waiting free ready]
  rfl

end Sys2Proof.Machine

open Sys2Proof Sys2Proof.Machine

/-- Settles O32: the limit ends a commit that drains through `finishCommit` alone. -/
theorem drainWaitTimeout : Obligations.DrainWaitTimeout := by
  unfold Obligations.DrainWaitTimeout
  refine ⟨?_, ?_⟩
  · intro s src id u awake runs found drains
    have named := List.find?_some found
    simp only [Bool.and_eq_true, beq_iff_eq] at named
    obtain ⟨⟨rfl, rfl⟩, -⟩ := named
    have ran := exec_drainWaitTimeout awake runs found
    rw [if_pos drains] at ran
    obtain ⟨fwd, red, thr, ports, plan, tm, store, mem⟩ := s.d.finishCommit_objects u .timeout 0 .empty
    refine ⟨_, ran, s.d.finishCommit_txns .., fun h one src what now up => ?_, fwd, ports, plan, red, thr, mem, tm,
      store⟩
    exact Dev.finishCommit_held one src what now up runs
  · intro s src id u awake runs found still
    have ran := exec_drainWaitTimeout awake runs found
    rwa [if_neg (by simp [still])] at ran

/-- Settles O35: a batch of one is validated against the trial device; only the bank it wrote there is taken over. -/
theorem commitValidates : Obligations.CommitValidates := by
  unfold Obligations.CommitValidates
  refine ⟨?_, ?_⟩
  · intro s u d1 awake runs one waiting free ready passed
    have ran := exec_commitReady_one awake runs one waiting free ready
    rw [Dev.admitMember_pass one passed] at ran
    refine ⟨_, ran, ?_⟩
    rw [State.put_d]
    by_cases tables : u.staged.any Staged.isTable = true
    · rw [if_pos (by simpa using tables), if_pos tables]
      exact ⟨rfl, rfl, rfl, rfl, rfl, rfl, rfl, rfl, rfl, rfl⟩
    · rw [if_neg (by simpa using tables), if_neg tables]
      exact ⟨rfl, rfl, rfl, rfl, rfl, rfl, rfl, rfl, rfl, rfl⟩
  · intro s u i op st awake runs one waiting free ready failed
    have ran := exec_commitReady_one awake runs one waiting free ready
    have gone : (s.d.finishCommit u st 0 (.failed i op)).cmd.txns = [] := by
      rw [Dev.finishCommit_txns]
      simp [Dev.dropTxn, one]
    rw [Dev.admitMember_fail one failed] at ran
    dsimp only at ran
    rw [gone, if_neg (by simp)] at ran
    obtain ⟨fwd, red, thr, ports, plan, tm, store, mem⟩ := s.d.finishCommit_objects u st 0 (.failed i op)
    exact ⟨_, ran, gone, fwd, red, thr, ports, plan, tm, store, mem⟩
end
